-- ==== Sys2Proof/Word.lean ====
section
/-! DEFINITION. The words, data lines and sparse tables the machine is made of, and the identities its
requests carry (R5, R22, R33). -/

namespace Sys2Proof

/-- A register word: 32 bits (R5). -/
abbrev Word := BitVec 32

/-- A 64-bit value of a register pair (R6). -/
abbrev DWord := BitVec 64

/-- A line of 64 bytes, byte b at bits 8b+7 to 8b: the unit of host access and caching (glossary). -/
abbrev Line := BitVec 512

/-- One bit per byte of a line: the byte enables of a write. -/
abbrev ByteMask := BitVec 64

/-- A sparse table: pairs of a key and a value, keys strictly rising, no entry equal to what an unlisted key
reads as. -/
abbrev Sparse (α : Type) := List (Nat × α)

/-- A 12-bit master ID (R22). -/
abbrev Mid := Fin 4096

/-- A local host port, 0 to 15. -/
abbrev Port := Fin 16

/-- A local logical device: port × 16 + LD (R22). -/
abbrev Ld := Fin 256

/-- A plot ID (R34). -/
abbrev PlotId := Fin 4096

/-- A ring of an LD (R109). -/
abbrev RingNo := Fin 256

/-- The number of a line of DPA space, DPA[47:6] (R33). -/
abbrev LineNo := Fin (2 ^ 42)

/-- The number of a clod, DPA[47:16] (R33). -/
abbrev ClodNo := Fin (2 ^ 32)

end Sys2Proof
end

