-- ==== Sys2Proof/Machine/Types.lean ====
section
/-! DEFINITION. What the commands carry: the identities, frames, descriptors and records that come from outside
the block, as plain data. -/

namespace Sys2Proof

/-- What carries an SPDM exchange: a host link's DOE mailbox, MCTP, or a twin (0) or chain (1 to 8) link's own frames (R439, R529). -/
inductive SpdmPath where
  | doe (port : Port)
  | mctp
  | link (l : Fin 9)
  deriving DecidableEq, Repr

/-- Who accesses a register (R14, R581): a master by its ID, or JTAG. -/
inductive Accessor where
  | mid (m : Mid)
  | jtag
  deriving DecidableEq, Repr

/-- A queue of the shared design, by its user (R145, R506, R541). -/
inductive QueueName where
  | fetch
  | staging
  | codeNormal (who : Accessor)
  | codeUrgent (who : Accessor)
  | codeCompletion (who : Accessor)
  | twinSend
  | twinReceive
  | chainForward (port : Fin 8)
  | eventDrain
  deriving DecidableEq, Repr

/-- The register spaces (R579, R590, R593): the management space, an LD's BAR0, an LD's BAR2. -/
inductive RegSpace where
  | mgmt
  | bar0 (ld : Ld)
  | bar2 (ld : Ld)
  deriving DecidableEq, Repr

/-- One access to a register: who, in which space, at which byte address, how many bytes (R5). -/
structure Access where
  who : Accessor
  space : RegSpace
  addr : Word
  bytes : Fin 9
  deriving DecidableEq, Repr

/-- Parity errors that an access to the front cache or directory meets (R202, R203, R219). -/
structure ArrayFaults where
  chunks : BitVec 4 := 0
  tag0 : Bool := false
  tag1 : Bool := false
  tagDiffer : Bool := false
  dirBad : Bool := false
  deriving DecidableEq, Repr

/-- How a Loam line decodes (R408): good, corrected in one device, or uncorrectable. -/
inductive LoamDecode where
  | good
  | corrected (device : Fin 16)
  | uncorrectable
  deriving DecidableEq, Repr

/-- How an XTS core's job ends: checked good, its check differs (R446), or refused for its length (R450). -/
inductive XtsEnd where
  | good | differs (core : Fin 16) | refused
  deriving DecidableEq, Repr

/-- How a GCM pair's job ends: its cores agree, they differ (R447), or it is refused for its length (R450). -/
inductive GcmEnd where
  | good | differs (pair : Fin 24) | refused
  deriving DecidableEq, Repr

/-- How a received frame checks: the verdict of its tag, and how its job ended at the first pair and, where that failed, at the second
(R448). -/
structure GcmCheck where
  tagOk : Bool
  first : GcmEnd := .good
  second : GcmEnd := .good
  deriving DecidableEq, Repr

/-- How a Bedrock grain reads (R266, R269, R278, R283): good, LDPC failed (an erased grain too), decoded with a header that marks it bad, GCM
tag failed, or its GCM job ended without a verdict (R447, R450). -/
inductive GrainOutcome where
  | good | ldpcFail | headerBad | tagFail | noVerdict (job : GcmEnd)
  deriving DecidableEq, Repr

/-- What a link trained to, in the codes of HFP_PORT_STS. -/
structure LinkTrained where
  mode : Fin 4
  speed : Fin 6
  width : Fin 6
  latOpt : Bool
  mld : Bool
  deriving DecidableEq, Repr

/-- Ordinary completion status of a Host access: data with their poison, or a failed read (R122). -/
inductive HostData where
  | bytes (data : List (BitVec 8)) (poison : Bool)
  | failed
  deriving DecidableEq, Repr

/-- A CXL request tag. -/
abbrev Tag := Fin 65536

/-- The ring set-up registers that R111 guards, in the order of the ring block. -/
inductive SetupReg where
  | sqBaseLo | sqBaseHi | sqSize | cqBaseLo | cqBaseHi | cqSize | irq
  deriving DecidableEq, Repr

/-- The MetaValue a CXL.mem request carries (R212). -/
inductive MetaValue where
  | invalid | shared | any
  deriving DecidableEq, Repr

/-- A line's contents: its 64 bytes and whether it carries poison (R28, R423). -/
structure LineVal where
  data : Line
  poison : Bool
  deriving DecidableEq, Repr

/-- Plot states, in the order of their codes (R39). -/
inductive PlotState where
  | free | admitting | loading | active | releasing
  deriving DecidableEq, Repr

/-- Plot modes, in the order of their codes (R36, R67). -/
inductive PlotMode where
  | private_ | sharedCoherent | sharedReadOnly
  deriving DecidableEq, Repr

/-- One plot ID (R39, R43, R51, R67). -/
structure Plot where
  state : PlotState := .free
  mode : PlotMode := .private_
  /-- true: deep (R37) -/
  deep : Bool := false
  /-- false: side A, true: side B -/
  prefHome : Bool := false
  curHome : Bool := false
  /-- 16 bits; 0 until the ID's first admission (R43) -/
  generation : Nat := 0
  /-- first granule, and sizes in granules of 256 MiB -/
  base : Nat := 0
  size : Nat := 0
  floor : Nat := 0
  /-- stored dirty allowance in granules -/
  allow : Nat := 0
  ownerMid : Nat := 0
  /-- a seal of the plot has been ordered and has not completed (R41) -/
  sealing : Bool := false
  /-- the home's last sequence number when the seal was ordered (R41) -/
  sealSeq : Nat := 0
  /-- last sequence number assigned (R168) -/
  seq : Nat := 0
  /-- highest sequence number applied from the mirror stream, at the partner (R340) -/
  mirrored : Nat := 0
  /-- durable mark last learnt from a LEASE of the home (R343) -/
  leaseMark : Nat := 0
  /-- a durable mark changed since the last LEASE sent (R343) -/
  markChanged : Bool := false
  /-- count of crypto-erases under this generation (R434) -/
  eraseCount : Nat := 0
  /-- steps of a crypto-erase still to end on this controller (R451) -/
  erasing : Bool := false
  /-- the 55 µs tag walk of a release or erase is running (R201) -/
  tagWalk : Bool := false
  /-- a release clean-up is queued or running (R42, R52) -/
  cleanup : Bool := false
  /-- the admission's zeroing, the seal or the clean-up has ended here, and at the twin (R40, R41, R42) -/
  doneHere : Bool := false
  doneTwin : Bool := false
  /-- a crypto-erase awaits its end here or at the twin (R453) -/
  eraseWait : Bool := false
  eraseTwin : Bool := false
  deriving DecidableEq, Repr

/-- The fields of an admission request (R51, R126). -/
structure Admission where
  sizeBytes : Nat
  mode : Nat
  deep : Bool
  floor : Nat
  allow : Nat
  prefB : Bool
  base : Option Nat
  owner : Mid
  /-- another field lies outside R51 or R126 -/
  badField : Bool
  deriving DecidableEq, Repr

/-- A 64 KiB clod as it travels: its lines in order, unlisted lines zero and good (R374). -/
abbrev ClodImage := Sparse LineVal

/-- One record of a MIRROR frame: its descriptor and its line (R339). -/
structure MirrorRec where
  line : LineNo
  poison : Bool
  fwd : Bool
  mid : Mid
  fwdTag : Fin 256
  data : Line
  deriving DecidableEq, Repr

/-- What an ordered frame carries (R338). -/
inductive OrderedBody where
  | mirror (plot seq : Nat) (records : List MirrorRec)
  | resyncClod (clod half : Nat) (lines : ClodImage)
  | digestMarker (period : Nat) (digests : List DWord)
  deriving DecidableEq, Repr

/-- What a received frame's header and checks say (R334, R336). -/
structure FrameIn where
  /-- the twin port that carried it -/
  port : Fin 8
  /-- the GCM tag checks good; the type and the reserved header bits are good (R336) -/
  tagOk : Bool
  headerOk : Bool
  /-- how its GCM job ended at the first pair and, where that failed, at the second (R448) -/
  first : GcmEnd := .good
  second : GcmEnd := .good
  epoch : Word
  ctr : Nat
  /-- the sender's dirty level in 1/1,024 and its stop bit -/
  level : Fin 2048
  stop : Bool
  deriving DecidableEq, Repr

/-- A plot's record as an ADMIN frame carries it (R70, R373): its identity and its access table. -/
structure AdminPlot where
  plot : PlotId
  record : Plot
  acl : List (Nat × Word)
  deriving DecidableEq, Repr

/-- What an ADMIN frame asks or tells (R52, R70). -/
inductive AdminOp where
  /-- the engine asks for the partner's figures before its checks (R53) -/
  | figuresReq
  /-- the partner's figures: TMG_LOAM_AVAIL in granules, effective budget in bytes, admission capacity in granules -/
  | figures (loam budget capacity : Nat)
  /-- side B's request to the admission engine -/
  | admitRequest (tag : Nat) (a : Admission)
  /-- the engine's proposal: enter ADMITTING with this record; the tag of the request of side B it answers, if any -/
  | admitPlot (p : AdminPlot) (tag : Option Nat)
  /-- the partner's own check of a proposal fails or holds -/
  | admitAnswer (plot : PlotId) (accepted : Bool)
  /-- the answer to a forwarded request: a status and the plot's word -/
  | admitResult (tag : Nat) (status : Nat) (result : Nat)
  /-- the sender has zeroed the plot's entries (R40) -/
  | zeroed (plot : PlotId)
  | release (plot : PlotId)
  /-- the sender has left RELEASING (R42) -/
  | released (plot : PlotId)
  /-- a seal, with the last sequence number the home assigned before it -/
  | seal (plot : PlotId) (seq : Nat)
  | sealed (plot : PlotId)
  /-- the sender holds a dirty grain of the sealing plot again (R41) -/
  | unsealed (plot : PlotId)
  | erase (plot : PlotId)
  | erased (plot : PlotId)
  /-- an access-table entry the engine changed -/
  | aclEntry (plot : PlotId) (entry : Fin 64) (value : Word)
  /-- replay of a plot at a resynchronisation (R373) -/
  | replay (p : AdminPlot)
  deriving DecidableEq, Repr

/-- What a DIGEST_REPLY carries (R365, R366): the partner's values, or one group's check result. -/
inductive DigestAnswer where
  | values (digests : List DWord)
  | result (group : Fin 64) (passed : Bool)
  deriving DecidableEq, Repr

/-- A HEALTH frame's report (R370). -/
structure HealthReport where
  sparePct : Fin 256
  quarMax : Fin 256
  lostLoam : Fin 256
  lostBedrock : Fin 256
  coverage : Fin 256
  selftestFail : Bool
  ceSecond : Fin 65536
  level : Fin 2048
  replaceAdvised : Bool
  deriving DecidableEq, Repr

/-- What a side recorded at its stop (R570). -/
structure StopRecord where
  side : Bool
  mode : Nat
  epoch : Word
  deriving DecidableEq, Repr

/-- A HELLO frame (R372, R570). -/
structure Hello where
  sideB : Bool
  priority : Bool
  maxCapacity : Nat
  lastEpoch : Word
  rejoin : List Nat
  rejoinIntact : Bool
  /-- the sender's mode of FLK_TWIN_STS, and whether it is serving -/
  mode : Fin 8
  serving : Bool
  image : Fin 4
  lostFrom : Option Nat
  record : Option StopRecord
  restored : Bool
  deviceTime : Nat
  deriving DecidableEq, Repr

/-- Levels on TW_ALIVE_IN (R347). -/
inductive AliveLevel where
  | absent | toggling | fenced
  deriving DecidableEq, Repr

/-- The prefix of a chain frame (R390). -/
structure ChainPrefix where
  srcNode : Fin 4096
  cls : Fin 32
  poison : Bool
  srcEpoch : Word
  tag : Word
  lowTag : Word
  deriving DecidableEq, Repr

/-- The payloads of chain frames (R390). -/
inductive ChainBody where
  | read (dpa : DWord) (metaVal : MetaValue)
  | write (dpa : DWord) (be : ByteMask) (data : Line) (metaVal : MetaValue)
  | data (line : Line)
  | cmpl
  | refuse
  | snoopReq (dpa : DWord) (inv : Bool) (ahead : List Word)
  | snoopRsp (modified : Option Line)
  | abort
  | unreach
  | stale (node : Fin 4096) (epoch : Word)
  | hello (node : Fin 4096) (epoch : Word)
  deriving DecidableEq, Repr

/-- A chain frame: destination, hops, the epoch its sender expects, prefix and payload (R334, R390). -/
structure ChainFrame where
  dst : Fin 4096
  hops : Fin 64
  epoch : Word
  pfx : ChainPrefix
  body : ChainBody
  deriving DecidableEq, Repr

/-- An owner name: block code and master ID (R466). -/
structure Owner where
  block : Fin 16
  mid : Mid
  deriving DecidableEq, Repr

/-- Why a core's access faults (R501, R503, R511). -/
inductive AccessCause where
  | unmapped | denied | busyBank | uncorrectable
  deriving DecidableEq, Repr

/-- An image slot's header (R517). -/
structure ImageHeader where
  valid : Bool := false
  seq : Nat := 0
  securityVersion : Nat := 0
  length : Nat := 0
  digest : BitVec 384 := 0
  deriving DecidableEq, Repr

/-- The fields of an option-area copy (R514). -/
structure OptionArea where
  magicOk : Bool := false
  crcOk : Bool := false
  seq : Nat := 0
  format : Nat := 1
  maxCapacity : Nat := 0
  sideB : Bool := false
  priority : Bool := false
  budget : Nat := 0x200
  topdressGib : Nat := 64
  recordGib : Nat := 1
  bond : Nat := 0
  memActiveTo : Nat := 3
  speed : Nat := 0
  ifCfg : Nat := 0
  layout : Nat := 0
  layout2 : Nat := 0x3C80
  silt : Nat := 0x40
  sand : Nat := 0x10
  gravel : Nat := 0x10
  wdtCfg : Word := 0x000107D0
  sbCfg : Word := 0x00034C2A
  /-- 24 channels: control, scale, warning and fault words -/
  channels : List (Word × Word × Word × Word) := []
  holdupCfg : Word := 0x3C17CA5A
  holdupCfg2 : Word := 0x07D00640
  /-- the firmware policy's 3,965 words, opaque to the boot ROM -/
  policy : List Word := []
  deriving DecidableEq, Repr

/-- What the boot ROM finds (R455, R515, R518, R222, R258). -/
structure BootReport where
  katFailed : Bool
  rootKeyBlank : Bool
  /-- XTS cores and GCM pairs whose known-answer tests fail -/
  badXts : BitVec 16
  badGcm : BitVec 24
  /-- image A, image B, copy 0 and copy 1 of which a word reads uncorrectable (R503) -/
  badSlots : BitVec 4
  /-- the DEBUG_CLOSE fuses disagree; the SRAM repair map reads good (R524) -/
  fuseErr : Bool
  mapValid : Bool
  deriving DecidableEq, Repr

/-- One MCTP packet (R527). -/
structure MctpPacket where
  dest : Fin 256
  src : Fin 256
  som : Bool
  eom : Bool
  seq : Fin 4
  tag : Fin 8
  msgType : Fin 128
  bytes : Fin 257
  deriving DecidableEq, Repr

/-- A step of a PLDM firmware update (R519, R528). -/
inductive UpdateStep where
  /-- RequestUpdate and PassComponentTable: the path it came by (I3C, the FM-owned LD, a host LD), which slot or area, and the new
  contents -/
  | begin (path : Fin 3) (component : Fin 4) (image : ImageHeader) (option : Option OptionArea)
  | transfer
  | verify (ok : Bool)
  | apply
  /-- a management reset, with what the boot ROM then finds -/
  | activate (boot : BootReport)
  | cancel
  deriving DecidableEq, Repr

/-- An access to a buffer line (R470): a read, and whether the line decodes; or a write, with the bytes it writes and
whether it is data whose tag failed (R449). -/
inductive BufAccess where
  | read (uncorrectable : Bool)
  | write (be : ByteMask) (data : Line) (poison untrusted : Bool)
  deriving DecidableEq, Repr

/-- The parameter page BFC reads from the dies (R257, R258, R271, R279). -/
structure DiePage where
  dies : Fin 17
  planes4 : Bool
  die2tb : Bool
  blockPairs : Fin 65536
  rowsTlc : Fin 65536
  trTlc : Fin 256
  trSlc : Fin 256
  /-- TLC cells with pSLC mode selectable per block; all three pages of a wordline in one program -/
  tlc : Bool
  oneShot : Bool
  /-- bytes of a plane page: data and spare -/
  dataBytes : Fin 65536
  spareBytes : Fin 65536
  /-- longest four-plane pSLC program in µs -/
  progSlcUs : Fin 65536
  /-- suspend latency in µs, none where suspend is not supported; read-retry level sets reachable through feature addresses -/
  suspendUs : Option (Fin 256)
  retrySets : Option (Fin 256)
  /-- rated program/erase cycles -/
  cyclesTlc : Fin (2 ^ 20)
  cyclesSlc : Fin (2 ^ 20)
  deriving DecidableEq, Repr

/-- What LMC reads from the DIMMs (R222, R255). -/
structure LoamPopulation where
  dimmType : Fin 4
  dpc2 : Bool
  x8 : Bool
  ranks : Fin 8
  stack : Fin 4
  chanGib : Fin 8192
  /-- device density in Gb, DIMM size in GiB, and the 80-bit EC8 layout (R221) -/
  densityGb : Fin 64
  dimmGib : Fin 512
  ec8 : Bool
  /-- RAAIMT, RAAMMT and the RAA decrement per refresh from the mode registers, the time of RFMsb in ns, per-row activation counting as the
  DIMMs advertise it, and the SPD critical limit in °C (R233, R239) -/
  raaimt : Fin 256
  raammt : Fin 1024
  raaDec : Fin 256
  rfmNs : Fin 1024
  prac : Bool
  critC : Fin 256
  deriving DecidableEq, Repr

/-- What an event reports. The spec names these events in its rules and gives them no code values. -/
inductive EventKind where
  | registerReject | setupDenied | reservedMaster | accessDenied | linkDown | widthLoss | biTimeout
  | tagDual | dirParity | hardSlot | dirtyParity | fatalFrontCache | allowancesScaled | budgetFell
  | translationLost | ladder | quarantine | slowDie | dieFailed | badBlock | channelFallback | channelLost
  | trainFail | overtemp | throttleStart | loamHard | ceThreshold | loamUe | poisonCreated | deviceDegraded
  | spareExhausted | logFull | capMismatch | sideConflict | fenceLineFault | aliveFault | fenceTimeout
  | twinMode | digestMismatch | sampleMismatch | selftestFail | healthMissing | linkLost | prioConflict
  | replaceAdvised | homeChange | chainError | keyEvent
  | cipherOut | jobRefused | checkFail | tagFail | katFail | badFree | poolLow | poolRebuild | bufferUe | senseWarn
  | senseFault | holdupLow | powerCause | clockFault
  | lockstep | coreFault | wdtWarn | wdtExpiry | bootFallback | authFail | mgmtReset
  | importBad | fetchMiss | kilnIncomplete | startHalt
  | shutdown | warmReset | queueError | sqFault | ringError | extentEvent | fuseError | firmware (code : Nat)
  deriving DecidableEq, Repr

end Sys2Proof
end

