-- ==== Sys2Proof/Syntax.lean ====
section
/-! DEFINITION. The commands: one constructor per row of the opcode table, with the row's operands. What a
command's sender or the environment decides (an address, a tag, an outcome of the medium) is an operand. -/

namespace Sys2Proof

/-- A command the block takes. -/
inductive Instr where
  /-- A write to a management or LD register that has no row of its own updates its rw, w1c, w1s and wo fields at once (R585). -/
  | registerWrite (a : Access) (value upper hwSet : Word)
  /-- A write of the LO half of a 64-bit pair is held pending until HI is written (R582). -/
  | pairLoWrite (a : Access) (value : Word)
  /-- A write of the HI half makes the 64-bit value take effect, or changes only the upper half when no LO is pending (R582). -/
  | pairHiWrite (a : Access) (value : Word)
  /-- A read of the LO half returns it and latches the matching HI half for the reading master (R6). -/
  | pairLoRead (a : Access)
  /-- A read of the HI half returns the latched half and consumes the latch, or the current half when none is latched (R582). -/
  | pairHiRead (a : Access)
  /-- A read of an rc field returns its value and clears it, keeping any increment of the same cycle (R583). -/
  | rcFieldRead (a : Access) (counted : Word)
  /-- A write of TMG_PLOT_SEL latches the plot's entry into TMG_PLOT_DATA0 to DATA7 as one snapshot (R67). -/
  | tmgPlotSelect (who : Accessor) (value : Word)
  /-- A write of POU_PLOT_SEL latches the plot's sequence, durable mark and dirty count as one snapshot (R184). -/
  | pouPlotSelect (who : Accessor) (value : Word)
  /-- A write of HFP_LD_PLOT_SEL latches the plot's status for the LD, or zeros if the plot is not visible to it (R592). -/
  | ldPlotSelect (ld : Ld) (value : Word)
  /-- A CXL.mem read is decoded, checked against the access table, ordered at the home's POU and served from the front cache, Loam or Bedrock (R169). -/
  | cxlMemRead (ld : Ld) (tag : Tag) (hpa : DWord) (metaVal : MetaValue) (seen : ArrayFaults)
  /-- A CXL.mem write is decoded, checked, ordered with the plot's next sequence number, applied and mirrored or recorded in the change map (R157). -/
  | cxlMemWrite (ld : Ld) (tag : Tag) (hpa : DWord) (be : ByteMask) (data : Line) (poison : Bool) (metaVal : MetaValue) (seen : ArrayFaults)
  /-- A write's back-pressure delay from acceptance runs out and its held completion may leave (R179). -/
  | completionDelayExpiry (forwarded : Bool) (id : Nat)
  /-- The old line arrives and the merge entry combines the write into a whole line sent to the front cache (R411). -/
  | mergeOldLineReturn (line : LineNo)
  /-- A GPF Phase 1 request is answered at once with no action (R165). -/
  | gpfPhase1 (port : Port)
  /-- A GPF Phase 2 request marks the writes received before it on this controller's links (R166). -/
  | gpfPhase2 (port : Port)
  /-- Every marked write is durable and the Phase 2 response is sent, recording its duration (R166). -/
  | gpfPhase2Response
  /-- A host's BIRsp, with any write-back, answers a snoop and frees its slot; the causing request proceeds when all answers are in (R213). -/
  | birsp (ld : Ld) (line : LineNo) (wb : Option LineVal)
  /-- A BISnp unanswered within bi_timeout_us takes the link down and counts as answered invalid (R86). -/
  | bisnpTimeout (id : Nat)
  /-- A host's BIConflict is acknowledged at once or after the earlier request's response (R214). -/
  | biconflict (ld : Ld) (line : LineNo)
  /-- Loam returns a missed line critical-beat first; the requester restarts and the line is written into its way (R193). -/
  | loamFillReturn (line : LineNo) (decode : LoamDecode) (job : XtsEnd)
  /-- LMC reports a victim's write reached DRAM and the victim entry is freed (R195). -/
  | victimWriteDone (line : LineNo) (job : XtsEnd)
  /-- A held victim line receives no write for hold_us and resumes its eviction (R197). -/
  | victimHoldExpiry (line : LineNo)
  /-- An engine's zero-a-line takes a way without fetching and fills it with dirty zeros (R198). -/
  | zeroALine (engine : Mid) (line : LineNo)
  /-- An engine's flush-line writes a dirty line's snapshot to Loam and leaves it clean (R200). -/
  | flushLine (engine : Mid) (line : LineNo) (seen : ArrayFaults)
  /-- TMG's flush-clod applies flush-line to each of a clod's 1,024 lines (R198). -/
  | flushClod (clod : ClodNo)
  /-- An engine's invalidate drops a line or victim entry and discards dirty data (R198). -/
  | invalidateLine (engine : Mid) (line : LineNo)
  /-- The 55 µs tag walk that invalidates a released or erased plot's lines ends on a controller (R201). -/
  | plotTagWalkDone (plot : PlotId)
  /-- A map-cache miss's Loam read of the translation entry returns and fills the cache, or is reissued if the entry changed (R49). -/
  | mapCacheFill (clod : ClodNo) (crcBad : Bool)
  /-- An overlay-record cache miss's Loam read returns the valid map (R304). -/
  | overlayRecordFill (overlay : Fin (2 ^ 21)) (crcBad : Bool)
  /-- Firmware assigns work to an engine with a role epoch; a mismatch is rejected with STALE_EPOCH (R16). -/
  | engineAssignment (engine : Mid) (epoch : Word)
  /-- HFP_PERST_N asserts and holds the port's link in reset (R100). -/
  | perstAssert (port : Port)
  /-- HFP_PERST_N releases and the link starts training within 20 ms (R100). -/
  | perstRelease (port : Port)
  /-- Link training completes and the port reports its mode, speed and width (R71). -/
  | linkUp (port : Port) (trained : LinkTrained)
  /-- A received flit fails CRC and is replayed; four failed replays start link recovery (R96). -/
  | flitCrcFail (port : Port) (again : Bool) (fecCorrected : Word)
  /-- Link recovery completes and held completions are sent (R96). -/
  | linkRecoveryDone (port : Port)
  /-- A host link goes down; ordered writes complete internally, others are discarded and the LD's rings reset (R97). -/
  | linkDown (port : Port)
  /-- A function level reset or FM reset discards the LD's rings, mailbox, MSI-X and decoders (R98). -/
  | ldReset (ld : Ld) (byFm : Bool)
  /-- CXL_IDE_KM KEY_PROG loads keys into a link's staged slots (R442). -/
  | ideKeyProg (port : Port) (slot : Fin 4) (key iv : List Word)
  /-- KEY_SET_GO makes the staged IDE key set active at a flit boundary (R442). -/
  | ideKeySetGo (port : Port) (skid : Bool)
  /-- A MAC check failure discards the epoch's requests and takes the link down without IDE (R89). -/
  | ideMacFail (port : Port)
  /-- A viral indication makes the link discard later writes and poison its reads until it goes down (R94). -/
  | viralReceived (ld : Ld)
  /-- A DOE CDAT request returns the LD's latency and bandwidth entries (R78). -/
  | cdatRead (ld : Ld)
  /-- The mailbox returns event records from an LD's log (R548). -/
  | getEventRecords (ld : Ld) (log : Fin 8)
  /-- The mailbox clears event records from an LD's log (R548). -/
  | clearEventRecords (ld : Ld) (log : Fin 8) (count : Fin 256)
  /-- The mailbox returns the LD's event interrupt policy (R77). -/
  | getEventInterruptPolicy (ld : Ld)
  /-- The mailbox sets No Interrupts or MSI/MSI-X per log and refuses Firmware Interrupt (R549). -/
  | setEventInterruptPolicy (ld : Ld) (modes : List (Fin 4 × Fin 16))
  /-- The mailbox lists the supported logs (R77). -/
  | getSupportedLogs (ld : Ld)
  /-- The mailbox returns the command effects log (R77). -/
  | getLog (ld : Ld)
  /-- The mailbox returns the LD's CXL timestamp (R77). -/
  | getTimestamp (ld : Ld)
  /-- The mailbox sets the LD's CXL timestamp, separate from device time (R77). -/
  | setTimestamp (ld : Ld) (time : DWord)
  /-- The mailbox reports static capacity 0 and dynamic capacity max_capacity (R77). -/
  | identifyMemoryDevice (ld : Ld)
  /-- The mailbox reports health, Maintenance Needed, Life Used and the dirty shutdown count (R552). -/
  | getHealthInfo (ld : Ld)
  /-- The mailbox returns the alert configuration (R77). -/
  | getAlertConfiguration (ld : Ld)
  /-- The mailbox sets alert thresholds on Life Used (R552). -/
  | setAlertConfiguration (ld : Ld) (warn crit : Option (Fin 101))
  /-- The mailbox returns up to 256 media error records of readable plots in DPA order (R428). -/
  | getPoisonList (ld : Ld) (start length : DWord)
  /-- Inject Poison is ordered as a write that stores the line poisoned and is mirrored (R428). -/
  | injectPoison (ld : Ld) (dpa : DWord)
  /-- Clear Poison is ordered as a full-line write of its data, clearing the line's poison (R428). -/
  | clearPoison (ld : Ld) (dpa : DWord) (data : Line)
  /-- The mailbox reports the one DC region covering the pair's DPA space (R81). -/
  | getDcConfiguration (ld : Ld)
  /-- The mailbox lists the LD's plot extents with plot ID and generation tags (R81). -/
  | getDcExtentList (ld : Ld)
  /-- The host accepts or rejects an offered plot extent (R82). -/
  | addDcResponse (ld : Ld) (plot : PlotId) (generation : Fin 65536) (accept : Bool)
  /-- The host releases a plot extent in answer to a release request (R82). -/
  | releaseDc (ld : Ld) (plot : PlotId) (generation : Fin 65536)
  /-- Any other mailbox command returns Unsupported (R77). -/
  | mailboxUnsupported (ld : Ld) (opcode : Fin 65536)
  /-- An MCTP packet is reassembled and a complete message is dispatched by type or discarded (R527). -/
  | mctpPacket (p : MctpPacket)
  /-- Set Endpoint ID sets the one EID valid on all bindings (R527). -/
  | setEndpointId (eid : Fin 256)
  /-- A PLDM base request is answered (R528). -/
  | pldmBase (cmd : Fin 256)
  /-- A PLDM platform monitoring request returns sensors or the PDR repository (R528). -/
  | pldmPlatform (cmd : Fin 256) (sensor : Fin 65536)
  /-- A PLDM FRU request returns FRU data (R528). -/
  | pldmFru (cmd : Fin 256)
  /-- A PLDM firmware update writes the inactive image slot or option area and activates by management reset (R519). -/
  | pldmFirmwareUpdate (u : UpdateStep)
  /-- SPDM GET_VERSION is answered (R529). -/
  | spdmGetVersion
  /-- SPDM GET_CAPABILITIES is answered (R529). -/
  | spdmGetCapabilities
  /-- SPDM NEGOTIATE_ALGORITHMS selects P-384, SHA-384, ECDHE and AES-256-GCM (R529). -/
  | spdmNegotiateAlgorithms (offersAll : Bool)
  /-- SPDM GET_DIGESTS returns certificate chain digests (R529). -/
  | spdmGetDigests
  /-- SPDM GET_CERTIFICATE returns the chain from the identity region (R529). -/
  | spdmGetCertificate (offset length : Fin 65536)
  /-- SPDM CHALLENGE is answered with a signed response (R529). -/
  | spdmChallenge (nonce : BitVec 256)
  /-- SPDM GET_MEASUREMENTS returns the five measurements (R529). -/
  | spdmGetMeasurements (index : Fin 256) (signed : Bool) (nonce : BitVec 256)
  /-- SPDM KEY_EXCHANGE starts a secured session, or a link session secret (R529). -/
  | spdmKeyExchange (path : SpdmPath) (mutualAuth : Bool)
  /-- SPDM FINISH completes a session handshake (R529). -/
  | spdmFinish (session : Fin 65536) (ok : Bool)
  /-- SPDM KEY_UPDATE changes a session's or link's keys from a named frame_ctr (R441). -/
  | spdmKeyUpdate (session : Fin 65536) (link : Option (Fin 9)) (fromOrdered fromOther : Nat)
  /-- SPDM HEARTBEAT keeps a session alive (R529). -/
  | spdmHeartbeat (session : Fin 65536)
  /-- SPDM END_SESSION closes a session (R529). -/
  | spdmEndSession (session : Fin 65536)
  /-- The fabric manager's dynamic-capacity add request is turned into an admission request (R51). -/
  | fmDcAdd (a : Admission)
  /-- A write to a ring's base, size or interrupt register is accepted only while the ring is DISABLED (R111). -/
  | ringSetupWrite (ld : Ld) (ring : RingNo) (reg : SetupReg) (value : Word)
  /-- Writing enable = 1 to a DISABLED ring starts its set-up checks (R112). -/
  | ringEnable (ld : Ld) (ring : RingNo) (value : Word)
  /-- The enable checks end within 1 µs; the ring becomes ACTIVE with reset pointers or stays DISABLED with err_code (R112). -/
  | ringEnableCheck (ld : Ld) (ring : RingNo)
  /-- A ring reset moves the ring to RESET and flushes its share of the CRE queues (R113). -/
  | ringReset (ld : Ld) (ring : RingNo)
  /-- Writing enable = 1 to a ring outside DISABLED changes only its weight (R113). -/
  | ringWeightSet (ld : Ld) (ring : RingNo) (value : Word)
  /-- A CRE_SQ_TAIL write announces new descriptors up to the new tail (R114). -/
  | sqTailDoorbell (ld : Ld) (ring : RingNo) (value : Word)
  /-- A CRE_CQ_HEAD write releases completion entries (R115). -/
  | cqHeadDoorbell (ld : Ld) (ring : RingNo) (value : Word)
  /-- The fetch arbiter gives a ring an opportunity and CRE issues a host read of up to 8 descriptors (R140). -/
  | descriptorFetch
  /-- Descriptors arrive from host memory; a faulted read puts the ring into ERROR with SQ_FETCH_FAULT (R153). -/
  | sqReadReturn (ld : Ld) (ring : RingNo) (result : Option (List Line))
  /-- NOP completes at once with result 0 (R120). -/
  | opNop (ld : Ld) (ring : RingNo)
  /-- COPY_IN reads host memory and writes the range into the plot line by line in ascending order (R122). -/
  | copyIn (ld : Ld) (ring : RingNo)
  /-- COPY_OUT reads the plot range and writes it to host memory, zeros for poisoned lines (R123). -/
  | copyOut (ld : Ld) (ring : RingNo)
  /-- ZERO_RANGE orders each line of the range as a durable zero write (R120). -/
  | zeroRange (ld : Ld) (ring : RingNo)
  /-- PERSIST_BARRIER completes when every write of its scope ordered before it is durable (R124). -/
  | persistBarrier (ld : Ld) (ring : RingNo)
  /-- LIFT_HINT queues the range's clods for lift if the hint queue has room (R309). -/
  | liftHint (ld : Ld) (ring : RingNo)
  /-- SETTLE_HINT queues dirty or Topdressed clods of the range for settling at class 3 (R314). -/
  | settleHint (ld : Ld) (ring : RingNo)
  /-- PIN raises every touched clod's pin count, all or nothing, lifting non-resident clods (R125). -/
  | pin (ld : Ld) (ring : RingNo)
  /-- UNPIN lowers every touched clod's pin count, all or nothing (R125). -/
  | unpin (ld : Ld) (ring : RingNo)
  /-- PLOT_ADMIT submits an admission request from its parameter words (R126). -/
  | plotAdmit (ld : Ld) (ring : RingNo)
  /-- PLOT_RELEASE is ordered like a write and moves the plot to RELEASING (R42). -/
  | plotRelease (ld : Ld) (ring : RingNo)
  /-- PLOT_SEAL starts sealing a LOADING shared read-only plot (R41). -/
  | plotSeal (ld : Ld) (ring : RingNo)
  /-- CRYPTO_ERASE is ordered like a write, increments the erase count and starts the erase steps (R451). -/
  | cryptoErase (ld : Ld) (ring : RingNo)
  /-- DIGEST_RANGE computes a CRC-64 or SHA-256 over the plaintext of the range (R127). -/
  | digestRange (ld : Ld) (ring : RingNo)
  /-- A descriptor with an unlisted opcode completes with BAD_OPCODE (R120). -/
  | badOpcode (ld : Ld) (ring : RingNo)
  /-- Data of a host-memory read for a ring operation return, or fail and end the operation with HOST_FAULT (R122). -/
  | hostReadCompletion (ld : Ld) (ring : RingNo) (op : Nat) (data : HostData)
  /-- A ring operation ends and its completion entry is written in two posted writes with the current phase (R129). -/
  | ringOperationDone (ld : Ld) (ring : RingNo) (op : Nat)
  /-- The oldest unsignalled completion has waited coal_time_us and the ring's MSI-X vector is raised (R134). -/
  | coalesceTimerExpiry (ld : Ld) (ring : RingNo)
  /-- Duplicated queue pointers disagree; the queue resets, discarding its items (R148). -/
  | queuePointerMismatch (queue : QueueName)
  /-- The side-A admission engine takes the next admission or release clean-up in arrival order (R52). -/
  | admissionEngineJob
  /-- The plot's translation entries are zeroed on both controllers and it becomes ACTIVE or LOADING (R40). -/
  | admissionZeroingDone (plot : PlotId)
  /-- Both controllers leave RELEASING and the plot's range, ID and reservations return to the free pools (R42). -/
  | releaseCleanupDone (plot : PlotId)
  /-- The sealing plot holds no dirty grain; it becomes ACTIVE and its allowance returns to the budget (R41). -/
  | sealComplete (plot : PlotId)
  /-- A write to POU_ACL_DATA updates the selected entry, or is rejected under the private-plot rule, and starts a drain (R64). -/
  | aclWrite (who : Accessor) (value : Word)
  /-- The last request checked before the ACL write completes and drain clears (R64). -/
  | aclDrainDone (who : Accessor) (twinDrain : Bool)
  /-- Every erase step has ended and the erase holds on the controller (R451). -/
  | cryptoEraseDone (plot : PlotId)
  /-- A write to POU_BP_CFG is accepted only when soft_pct < hard_pct ≤ 99 (R185). -/
  | bpCfgWrite (who : Accessor) (value : Word)
  /-- A write to TMG_BUDGET_CFG changes the configured budget at once and may enter stage 3 (R186). -/
  | budgetCfgWrite (who : Accessor) (value : Word)
  /-- TMG applies a newly published PHS figure to the effective budget (R177). -/
  | effectiveBudgetUpdate
  /-- A subchannel scheduler picks and issues its next command by the priority rules (R230). -/
  | lmcCommandIssue (sub : Fin 32)
  /-- A 3.9 µs activation window ends; counts reset and throttles are allowed or released (R236). -/
  | actWindowEnd
  /-- An ALERT_N back-off makes LMC issue the RFM commands the device requires (R233). -/
  | alertBackoff (sub : Fin 32) (bank : Fin 512) (rfms : Fin 16)
  /-- A write-CRC alert makes LMC resend the write from its buffer (R227). -/
  | writeCrcAlert (sub : Fin 32) (id : Nat)
  /-- A bank's refresh interval elapses and same-bank refresh is due (R239). -/
  | refreshDue (sub : Fin 32) (bank : Fin 512)
  /-- Every 16 ms LMC reads DIMM sensors, adjusting refresh rate and flagging overtemperature (R239). -/
  | thermalPoll (channel : Fin 16) (dimm0 dimm1 : Fin 256)
  /-- An open row idles for idle_close and is closed (R231). -/
  | rowIdleClose (sub : Fin 32) (bank : Fin 512)
  /-- The ZQ calibration interval elapses and the channel is held to calibrate (R242). -/
  | zqCalDue (channel : Fin 16)
  /-- The DQS oscillator read interval elapses and drift is measured (R242). -/
  | oscReadDue (channel : Fin 16) (drift : Fin 256)
  /-- The centering check interval elapses and read and write centering are checked (R242). -/
  | centeringCheckDue (channel : Fin 16)
  /-- A retraining segment ends and traffic is served before the next segment (R243). -/
  | retrainSegmentEnd (channel : Fin 16) (last : Bool)
  /-- The RCD reports a command/address parity error and LMC reissues the commands (R243). -/
  | caParityError (channel : Fin 16) (affected : List Nat)
  /-- Writing LMC_SPEED_CTL.change starts a speed change, refused if the population does not support the target (R245). -/
  | speedChange (who : Accessor) (value : Word)
  /-- A channel's speed-change step completes and the change moves on or to the next channel (R245). -/
  | speedChangeStepDone (failed : Bool)
  /-- A training step that cannot end within 1.5 ms of a speed change is aborted (R246). -/
  | trainingStepAbort (channel : Fin 16)
  /-- A channel receives no request for idle_us and enters self-refresh (R248). -/
  | selfRefreshIdle (channel : Fin 16)
  /-- Initial Loam training ends on the channels, with fallback or fence on failure (R240). -/
  | loamTrainingDone (results : List (Option (Fin 8))) (population : LoamPopulation) (populationOk : Bool) (unrepaired : List Nat)
  /-- sPPR completes, lines are written back and the row enters the repair list (R250). -/
  | spprDone (channel : Fin 16) (ok : Bool)
  /-- Every 1 s a Bedrock channel recalibrates ZQ, held for 5 µs (R259). -/
  | nandZqRecal (channel : Fin 96)
  /-- A Bedrock sequencer stops answering; the channel is read by reconstruction and its bed relocated (R260). -/
  | channelLost (channel : Fin 96)
  /-- A channel sequencer issues the next die operation by rank, suspending programs or erases for reads (R276). -/
  | bfcSequencerIssue (die : Fin 1536)
  /-- A grain read returns, passes LDPC and GCM, and the requested line and buffer are handed on (R278). -/
  | grainReadComplete (id : Nat) (outcome : GrainOutcome) (bits : Fin 256) (quarterUs : Fin 65536) (rebuiltOk : Bool)
  /-- A grain read waits hedge_x4/4 times the die median and the row's other grains are read (R280). -/
  | hedgeTimer (id : Nat)
  /-- Every 1 ms each bed's median read latency is recomputed (R279). -/
  | bedMedianRecompute
  /-- A die slow for 100 ms is quarantined for reads (R281). -/
  | quarantineEntry (die : Fin 1536)
  /-- A quarantined die fast for 10 s returns to service (R281). -/
  | quarantineExit (die : Fin 1536)
  /-- Every 10 ms a quarantined die receives a probe read (R281). -/
  | probeReadTimer (die : Fin 1536)
  /-- A die busy 10 ms beyond its longest operation time is failed (R282). -/
  | dieBusyTimeout (die : Fin 1536)
  /-- ladder_4us expires and rung 3 sends CLOD_FETCH to the partner, or rung 4 acts (R284). -/
  | ladderTimer (id : Nat)
  /-- A clod fetch unanswered within 2 ms fails and the ladder goes to rung 4 (R284). -/
  | clodFetchTimeout (tag : Nat)
  /-- A program unit completes on all 24 channels and its rows are sealed (R263). -/
  | programUnitDone (unit : Nat) (failed : Option (Fin 24)) (job : GcmEnd)
  /-- A STALE stratum with no outstanding read is erased (R292). -/
  | staleStratumErase (bed : Fin 4) (stratum : Fin (2 ^ 20))
  /-- An erase completes and the stratum becomes ERASED with its erase count incremented (R292). -/
  | eraseDone (bed : Fin 4) (stratum : Fin (2 ^ 20)) (failed : Option (Fin 24))
  /-- Every scan_hours a row of each SEALED stratum is read and aged strata are relocated (R290). -/
  | retentionScan (bed : Fin 4) (stratum : Fin (2 ^ 20)) (row : Fin 16384) (bits : List (Fin 256))
  /-- Every decay_s the heat of every map-cache entry is halved (R308). -/
  | heatDecay
  /-- The lift's grains are in the frame; the POU holds requests briefly and the entry becomes resident (R310). -/
  | liftCommit (clod : ClodNo)
  /-- A lifted clod's lift hold lapses and it becomes eligible for eviction (R311). -/
  | liftHoldExpiry (clod : ClodNo)
  /-- Free frames below frame_low make TMG choose a victim clod and evict or settle it (R312). -/
  | evictionStart
  /-- An evicted frame or freed overlay returns to the pool when every request against it completes (R313). -/
  | frameRelease (frame : Nat)
  /-- The wear governor grants queued settle work by class and settles start (R321). -/
  | settleGrant
  /-- fill_us after its first clod a partly filled unit is programmed with metadata grains (R315). -/
  | unitFillTimeout (unit : Nat)
  /-- A clod dirty longer than age_s is queued for settling at class 4 (R314). -/
  | settleAgeTrigger (clod : ClodNo)
  /-- Each minute the governor rolls its trailing 24-hour bins and reoffers refused clods (R320). -/
  | governorMinute
  /-- A twin port goes down and its traffic moves to the remaining ports (R333). -/
  | twinPortDown (port : Fin 8)
  /-- A twin port finishes training and counts as up (R333). -/
  | twinPortUp (port : Fin 8)
  /-- No frame has been received for 20 µs and the twin link is lost (R333). -/
  | twinLinkSilence
  /-- The partner applies a MIRROR frame's records in frame_ctr order into its front cache (R340). -/
  | mirror (f : FrameIn) (plot : PlotId) (seq : Nat) (records : List MirrorRec)
  /-- A MIRROR_ACK covers frames; their writes become durable, complete and retire (R340). -/
  | mirrorAck (f : FrameIn) (ackCtr : Nat)
  /-- The partner sends MIRROR_ACK every 50 ns or 64 frames while frames arrive (R340). -/
  | mirrorAckTimer
  /-- The partner receives the home's durable notice and may complete the forwarded write (R31). -/
  | durableNotice (f : FrameIn) (plot : PlotId) (seq : Nat)
  /-- The home orders a write forwarded by the partner under its origin master ID (R344). -/
  | fwdWrite (f : FrameIn) (mid : Mid) (tag : Fin 256) (line : LineNo) (data : Line) (be : ByteMask) (poison : Bool) (metaVal : MetaValue)
  /-- The home orders and serves a read forwarded by the partner (R13). -/
  | fwdRead (f : FrameIn) (seq : Nat) (mid : Mid) (tag : Fin 256) (line : LineNo) (metaVal : MetaValue)
  /-- The partner receives forwarded read data and returns it through its port (R13). -/
  | readData (f : FrameIn) (mid : Mid) (tag : Fin 256) (poison : Bool) (data : Line) (denied : Bool)
  /-- The partner ends a forwarded write the home denied under R65 (R344). -/
  | fwdRefuse (f : FrameIn) (mid : Mid) (tag : Fin 256)
  /-- A LEASE frame updates the twin's durable marks and silence timer and is answered with LEASE_ACK (R343). -/
  | lease (f : FrameIn) (marks : List (PlotId × Nat))
  /-- A LEASE_ACK renews the home's lease for 50 µs from its LEASE's send time (R345). -/
  | leaseAck (f : FrameIn) (ackCtr : Nat)
  /-- Every 10 µs the controller sends LEASE (R345). -/
  | leaseSendTimer
  /-- The home's lease runs out and it stops ordering and serving its plots (R345). -/
  | leaseLapse
  /-- 60 µs pass without the twin's LEASE and the controller demands a fence (R346). -/
  | twinSilenceTimeout
  /-- A missing frame_ctr for 10 µs makes the partner send NACK (R342). -/
  | gapTimeout
  /-- The home resends every retained frame from the NACK's frame_ctr (R342). -/
  | nack (f : FrameIn) (nackCtr : Nat)
  /-- Every 5 µs the home inserts a DIGEST marker with the period's group CRCs (R365). -/
  | digestTimer
  /-- The partner applies a DIGEST marker, compares group CRCs and replies with its values (R365). -/
  | digestMarker (f : FrameIn) (period : Nat) (digests : List DWord)
  /-- The home receives the partner's digests or check result and records the comparison or outcome (R366). -/
  | digestReply (f : FrameIn) (period : Nat) (reply : DigestAnswer)
  /-- The mismatch checks end and the outcome fences one side or resends the period's clods (R366). -/
  | digestCheckDone (group : Fin 64) (ownPassed : Bool)
  /-- The partner issues BISnp to the hosts its entry names for a line the home needs (R210). -/
  | snoopReq (f : FrameIn) (tag : Nat) (line : LineNo) (inv : Bool) (ahead : List (Mid × Fin 256))
  /-- The home receives the partner's snoop answer and frees the snoop slot (R210). -/
  | snoopRsp (f : FrameIn) (tag : Nat)
  /-- A controller serves a clod fetch from its own copy once it has applied through the named sequence (R288). -/
  | clodFetch (f : FrameIn) (tag : Nat) (clod : ClodNo) (seq : Nat)
  /-- A fetched clod arrives and is written to a fresh frame as Resident, ending the ladder or Loam repair (R286). -/
  | clodData (f : FrameIn) (tag : Nat) (clod : ClodNo) (half : Fin 2) (lines : Option ClodImage)
  /-- The returning controller writes a resynchronised clod half into a fresh frame in stream order (R374). -/
  | resyncClod (f : FrameIn) (clod : ClodNo) (half : Fin 2) (lines : ClodImage)
  /-- The sampler reads a random written line and sends SAMPLE_REQ (R368). -/
  | sampleTimer (line : LineNo)
  /-- The partner returns the line's CRC-64 once applied through the sample's sequence (R368). -/
  | sampleReq (f : FrameIn) (tag : Nat) (line : LineNo) (plot : PlotId) (seq : Nat)
  /-- The sampler compares the CRC and treats a mismatch as a digest mismatch (R368). -/
  | sampleRsp (f : FrameIn) (tag : Nat) (crc : Option DWord)
  /-- Every 1 s the controller sends a HEALTH frame (R370). -/
  | healthTimer
  /-- A twin's HEALTH report is stored in FLK_TWIN_HEALTH (R370). -/
  | health (f : FrameIn) (report : HealthReport)
  /-- No HEALTH for 3 s with the link up sets health_missing and raises an event (R370). -/
  | healthMissing
  /-- An ADMIN frame carries an admission, release, seal, erase or access-table change to the twin (R70). -/
  | admin (f : FrameIn) (op : AdminOp)
  /-- The returning controller adopts the epoch, becomes home of the group's plots and acknowledges (R378). -/
  | roleChange (f : FrameIn) (newEpoch : Word) (group : Fin 64) (plots : List (PlotId × Nat))
  /-- An unacknowledged ROLE_CHANGE is resent every 10 µs (R379). -/
  | roleChangeRetry
  /-- A FENCE_DEMAND frame with the line asserted within 10 µs makes the controller fence itself (R349). -/
  | fenceDemand (f : FrameIn)
  /-- A FENCE_NOTICE makes the controller take over at once (R360). -/
  | fenceNotice (f : FrameIn)
  /-- A STALE_EPOCH reply makes the sender wait for the higher epoch or resend after 1 µs (R381). -/
  | staleEpoch (f : FrameIn) (twinEpoch : Word) (ctr : Nat) (ftype : Fin 256)
  /-- 1 µs after a lower-epoch STALE_EPOCH the sender resends (R381). -/
  | staleResendTimer
  /-- A HELLO exchanges identity, capacity, epoch and rejoin summary and decides resynchronisation and time reference (R372). -/
  | hello (f : FrameIn) (h : Hello)
  /-- A TIME frame lets the non-reference controller slew device time toward the reference (R21). -/
  | time (f : FrameIn) (deviceTime : Nat)
  /-- TW_FENCE_IN rises; with the link lost the controller fences unless the tie rule lets it keep priority (R349). -/
  | fenceInRise
  /-- TW_ALIVE_IN changes between toggling, fenced and absent after 4 µs without an edge (R347). -/
  | aliveInChange (level : AliveLevel)
  /-- TW_ALIVE_OUT reads back wrong for 2 µs and the controller fences itself (R348). -/
  | aliveReadbackFault
  /-- The twin still toggles 1 ms after a demand with no LEASE, and the demander takes over anyway (R352). -/
  | fenceHandshakeTimeout
  /-- Copy engine 0x31A sends the next changed clod as RESYNC_CLOD within the spare link bandwidth (R373). -/
  | resyncCopy
  /-- takeback_s of stable partner service pass and takeback of preferred plots begins (R377). -/
  | takebackTimer
  /-- The next plot group's preferred plots stop taking writes for a takeback, 1 ms after the previous group (R378). -/
  | takebackGroup
  /-- An engine idle for 50 µs starts a logic self-test slice (R369). -/
  | selftestSliceStart (engine : Mid)
  /-- A self-test slice ends; a failure fences the controller or takes the engine out of service (R369). -/
  | selftestSliceDone (engine : Mid) (failed : Bool)
  /-- The owner answers a chain read with CH_DATA after its class and access checks (R397). -/
  | chRead (port : Fin 8) (check : GcmCheck) (f : ChainFrame)
  /-- The owner applies a chain write, deduplicated by tag, and answers CH_CMPL when durable (R397). -/
  | chWrite (port : Fin 8) (check : GcmCheck) (f : ChainFrame)
  /-- The ingress node releases chain read data to the host (R397). -/
  | chData (port : Fin 8) (check : GcmCheck) (f : ChainFrame)
  /-- The ingress node releases the chain write's completion (R397). -/
  | chCmpl (port : Fin 8) (check : GcmCheck) (f : ChainFrame)
  /-- The ingress node ends the refused request under R65 (R390). -/
  | chRefuse (port : Fin 8) (check : GcmCheck) (f : ChainFrame)
  /-- The ingress node snoops its hosts for a window line and answers CH_SNOOP_RSP (R401). -/
  | chSnoopReq (port : Fin 8) (check : GcmCheck) (f : ChainFrame)
  /-- The owner orders any modified line from a chain snoop answer (R401). -/
  | chSnoopRsp (port : Fin 8) (check : GcmCheck) (f : ChainFrame)
  /-- The ingress node resends a request aborted in transit (R398). -/
  | chAbort (port : Fin 8) (check : GcmCheck) (f : ChainFrame)
  /-- The ingress node resends an unreachable request to the alternate node (R398). -/
  | chUnreach (port : Fin 8) (check : GcmCheck) (f : ChainFrame)
  /-- The ingress node resends a stale-epoch request to the alternate node (R398). -/
  | chStale (port : Fin 8) (check : GcmCheck) (f : ChainFrame)
  /-- A CH_HELLO carries the neighbour's node ID and epoch and SPDM set-up (R390). -/
  | chHello (port : Fin 8) (check : GcmCheck) (f : ChainFrame)
  /-- Every 1 ms a CH_HELLO is sent on each chain port (R390). -/
  | chHelloTimer
  /-- A transit node routes a frame on its header, decrements hops and cuts it through re-encrypted (R394). -/
  | chainForward (port : Fin 8) (check : GcmCheck) (f : ChainFrame)
  /-- No answer within resp_ms makes the ingress resend or end the request (R398). -/
  | chainResponseTimeout (tag : Word)
  /-- A chain snoop unanswered within bi_timeout_us + 100 µs counts as invalid and the pointer is removed (R401). -/
  | chainSnoopTimeout (id : Nat)
  /-- A write of FLK_WIN_DATA3 makes the selected window take effect, refused on overlap (R404). -/
  | windowCommit (who : Accessor) (value : Word)
  /-- A write to FLK_CHAIN_CFG applies node_id with the last written epoch (R404). -/
  | chainCfgWrite (who : Accessor) (value : Word)
  /-- The scrub engine writes back a corrected line unless a newer write reached the scheduler (R414). -/
  | ceScrubWriteback (engine : Fin 4)
  /-- A scrub engine reads its next line of Loam at its paced rate (R417). -/
  | patrolScrubRead (engine : Fin 4) (decode : LoamDecode)
  /-- A correctable-error log entry not hit for 24 h is freed (R415). -/
  | ceLogExpiry (entry : Fin 64)
  /-- Each second a channel's correction count is compared with ce_event_thresh and an event raised (R416). -/
  | ceSecondTimer
  /-- The key window loads DATA0 to DATA11 into a twin, chain or IDE slot, only from the lockstep pair (R443). -/
  | keywinLoad (who : Accessor) (value : Word)
  /-- The key window clears a slot (R443). -/
  | keywinClear (who : Accessor) (value : Word)
  /-- A write to CKU_GCM_ROLE changes a pair's role and increments its epoch (R445). -/
  | gcmRoleWrite (who : Accessor) (value : Word)
  /-- A link reaches 2^40 frames or 24 h and its session secret is updated by KEY_UPDATE (R441). -/
  | linkRekeyTimer (link : Fin 9)
  /-- 100 ms after the first frame under new keys the old link keys are discarded (R441). -/
  | oldKeyRetire (link : Fin 9)
  /-- A pool grants one buffer from its cache by round robin, or answers POOL_EMPTY and starts a refill (R465). -/
  | bufferGet (bytes : Nat) (owners : List Owner)
  /-- SHARE adds an owner name to a held buffer, refused at 8 names (R467). -/
  | bufferShare (handle : Word) (owner adds : Owner) (recordBad : Bool)
  /-- PUT removes the owner's name and frees the buffer when it was the last (R468). -/
  | bufferPut (handle : Word) (owner : Owner) (recordBad : Bool)
  /-- An owner reads or writes a buffer line through the buffer port, with poison and untrusted rules (R470). -/
  | bufferLineAccess (handle : Word) (owner : Owner) (line : Fin 1024) (access : BufAccess)
  /-- A refill engine move of up to 512 handles between a pool's ring and cache completes (R463). -/
  | poolRefill (pool : Fin 3) (mismatch : Bool)
  /-- The record scan rebuilds the pool's free ring and requests are served again (R464). -/
  | poolRebuildDone (pool : Fin 3)
  /-- PWR_REQ changes level; high with V12_IN good for 1 ms powers up, low is an off request (R475). -/
  | pwrReqChange (high v12Good : Bool)
  /-- A write of PHS_PWR_CTL.off_req starts a flush if armed, or power-down (R475). -/
  | offRequest (who : Accessor)
  /-- A write of PHS_PWR_CTL.cycle_req acts as an off request followed by power-up (R475). -/
  | cycleRequest (who : Accessor)
  /-- A rail's power-good and sense reading pass and, after step_ms, the next rail is enabled (R476). -/
  | railStepPass (boot : BootReport)
  /-- A power-up step not passed within pg_timeout_ms fails, latches and powers down backwards (R478). -/
  | pgTimeout
  /-- A rail falls below 10 % during power-down and the next rail is disabled (R479). -/
  | railFallStep
  /-- A rail fails to fall within off_timeout_ms, is marked failed and skipped (R496). -/
  | offTimeout
  /-- min_off passes in OFF_HOLD and PHS returns to OFF or powers up (R479). -/
  | offHoldEnd
  /-- A reset output's stretch time passes and it deasserts (R482). -/
  | resetStretchExpiry (output : Fin 12)
  /-- A write of PHS_RST_CFG.sw_assert asserts or releases outputs 8 to 11 (R482). -/
  | resetSwAssert (who : Accessor) (value : Word)
  /-- Every 10 µs PHS samples the 24 sense channels against their thresholds (R483). -/
  | senseSample (values : List (BitVec 16)) (pg : BitVec 7)
  /-- The flush writes its closing grains, records its result and power-down follows (R494). -/
  | kilnFlushEnd
  /-- PHS asserts HOLDUP_TEST for a capacitance test after CHG_OK holds or every test_min (R487). -/
  | capTestStart
  /-- After 20 ms the test computes C from charge and voltage fall and updates it (R487). -/
  | capTestEnd (charge : Nat) (vEnd : Fin 65536)
  /-- Every 10 ms PHS computes and publishes the dirty budget the store can flush (R488). -/
  | budgetPublish
  /-- A write of PHS_KILN_CTL.arm = 1 arms the flush if RUNNING, kiln ready and budget valid (R490). -/
  | kilnArm (who : Accessor)
  /-- A write of arm = 0 disarms the flush only while no grain is dirty (R490). -/
  | kilnDisarm (who : Accessor)
  /-- A write of PHS_KILN_CTL.flush_now starts a kiln flush, or power-down if not armed (R491). -/
  | flushNow (who : Accessor)
  /-- A write of PHS_SNAP_CTL.clear invalidates every snapshot slot (R486). -/
  | snapshotClear (who : Accessor)
  /-- VDD_AON falls below 1,620 mV and PHS stops driving outputs, losing its state (R617). -/
  | aonPowerOnReset
  /-- VDD_AON and REFCLK_B are good and the always-on reset releases, starting device time (R477). -/
  | aonResetRelease
  /-- REFCLK_B is lost or the root PLL unlocks; the PLL holds over and PHS starts the flush (R588). -/
  | refclkBLoss (lost : Bool)
  /-- REFCLK_A is lost and every host link goes down (R588). -/
  | refclkALoss
  /-- A DDR PHY PLL unlocks and its channel is held and retrained (R588). -/
  | ddrPllUnlock (channel : Fin 16)
  /-- A SerDes PLL unlocks and its links go down until it relocks (R588). -/
  | serdesPllUnlock (pll : Fin 8)
  /-- The lockstep cores disagree and a management reset follows (R500). -/
  | lockstepMismatch (boot : BootReport)
  /-- A core access outside its map, denied, to a busy bank or uncorrectable faults and raises an event (R501). -/
  | coreAccessFault (core : Fin 5) (addr : BitVec 36) (cause : AccessCause)
  /-- A write of MGC_CS_DESC0 opens a code-store descriptor for the master (R506). -/
  | csDescOpen (who : Accessor) (value : Word)
  /-- A write of MGC_CS_DESC3 commits the descriptor into the normal or urgent queue (R506). -/
  | csDescCommit (who : Accessor) (value : Word)
  /-- An ERASE descriptor erases a run of sectors within one bank (R507). -/
  | csErase (sectors : Nat)
  /-- A PROGRAM descriptor programs words from SRAM into one sector (R507). -/
  | csProgram (data : List Word)
  /-- The code-store engine starts the next operation by priority, suspending a normal erase or program (R508). -/
  | csOpStart
  /-- A code-store operation ends and writes its completion entry (R509). -/
  | csOpDone (failed : Option (Fin 8192))
  /-- A read of MGC_CS_CMPL_LO removes the head completion and latches its HI (R509). -/
  | csCmplRead (who : Accessor)
  /-- A write of MGC_CS_CTL.flush empties the core's descriptor queues (R509). -/
  | csFlush (who : Accessor) (value : Word)
  /-- A write of MGC_BOOT_CTL.boot_ok clears the booted bank's boot count (R518). -/
  | bootOk (who : Accessor)
  /-- A write of 0x5A5A to MGC_WDT_KICK restarts the watchdog; other values are counted (R521). -/
  | wdtKick (who : Accessor) (value : Word)
  /-- At half the timeout the watchdog raises an event and interrupts every core (R521). -/
  | wdtWarning
  /-- The watchdog expires and causes a management reset (R522). -/
  | wdtExpiry (boot : BootReport)
  /-- A management reset resets the cores, private SRAM and code-store queues and keeps the data path (R523). -/
  | mgmtReset (who : Accessor) (boot : BootReport)
  /-- The FUSE_CLOSE instruction with VPP_EFUSE high blows DEBUG_CLOSE (R525). -/
  | jtagFuseClose (vppHigh : Bool)
  /-- An SMBus block read of command 0x00 returns flags, PHS state, board temperature and event count (R526). -/
  | smbusBlockRead
  /-- SETDASA or ENTDAA assigns the I3C dynamic address (R526). -/
  | i3cAddressAssign (address : Fin 128)
  /-- A source raises an event; EVR writes it to the ring with its raise time unless rate-limited (R532). -/
  | eventRaise (source : Fin 2048) (kind : EventKind) (severity : Fin 4) (mid : Mid) (detail : List Nat)
  /-- Every drain_ms, or above 64 KiB unsettled, the drain copies records into history blocks (R541). -/
  | drainTimer (overtaken : Bool)
  /-- A full 64 KiB segment, or one seg_settle_s old, is handed to BFC as metadata grains (R542). -/
  | segmentHandoff
  /-- A write of EVR_FETCH_CTL asks for the history block holding a seq (R543). -/
  | historyFetch (who : Accessor) (seq : Word)
  /-- The block is copied into EVR_FETCH_WIN and ready or not_found is set (R543). -/
  | historyFetchDone (poisoned : Bool)
  /-- Master 0x340 sets EVR_CRASH_CTL.ready, arming the crash flush (R545). -/
  | crashReady (who : Accessor) (value : Word)
  /-- The crash flush programs its end word, or is cut off by power-down (R545). -/
  | crashFlushEnd (cut : Bool)
  /-- A write of EVR_IMPORT_CTL.commit re-enters the window's record with a new seq, or is refused (R546). -/
  | importCommit (who : Accessor)
  /-- A write of EVR_MSIX_TRIG sends an MSI-X message, pending if masked or the link is down (R549). -/
  | msixTrigger (who : Accessor) (value : Word)
  /-- A host clears a vector or function mask and a pending message is sent (R550). -/
  | msixUnmask (ld : Ld) (vector : Option (Fin 64))
  /-- A write to EVR_SRC_CFG applies to later events and restarts the source's rate window count (R554). -/
  | srcCfgWrite (who : Accessor) (value : Word)
  /-- The checkpoint and journal have been applied and every translation entry rebuilt (R561). -/
  | translationRecoveryDone (readable stateBad : Bool) (unplaced : List ClodNo)
  /-- The image's sections are applied and open strata closed; restored clods are dirty (R564). -/
  | restoreDone (lost : List (ClodNo × Fin 16))
  /-- Dirty grains reach 0 after restore and an image-consumed journal record is sealed (R567). -/
  | restoreSettleDone
  /-- Every kiln stratum is erased, kiln ready reads 1 and firmware arms the flush (R567). -/
  | kilnEraseDone
  /-- 200 µs after its first record a journal unit is programmed (R559). -/
  | journalUnitTimeout
  /-- TMG writes the next rolling checkpoint grain at its paced rate (R560). -/
  | checkpointWrite
  /-- With TW_ALIVE_IN absent for hello_wait_s the controller starts solo (R573). -/
  | helloWaitTimeout
  /-- A restored controller waits pair_wait_s for a restoring twin, then starts solo (R573). -/
  | pairWaitTimeout
  /-- A write of GLB_START_CTL.force_solo releases a halted side to serve solo (R572). -/
  | forceSolo (who : Accessor)
  /-- Firmware fences the controller and settles every dirty clod before power-down (R574). -/
  | orderlyShutdown
  /-- Dirty grains reach 0; the flush is disarmed and a journal shutdown record written (R574). -/
  | shutdownDirtyZero
  /-- A write of GLB_RESET_CTL.warm_req starts a warm reset, refused while solo in a pair (R576). -/
  | warmResetRequest (who : Accessor)
  /-- Dirty grains reach 0; Loam enters self-refresh and the resets assert for 1 ms (R576). -/
  | warmResetDirtyZero
  /-- TW_FENCE_IN falls when the survivor deasserts TW_FENCE_OUT at the end of resynchronisation; the returning controller drives TW_ALIVE_OUT toggling, brings its host links up and serves as partner (R373). -/
  | fenceInFall
  /-- TW_FENCE_IN has been asserted with the twin link up for 10 µs without a FENCE_DEMAND frame; the line is ignored and fence_line_fault is set (R349). -/
  | fenceLineFault
  /-- A chain port goes down; frames are routed to alt_port, and a frame being forwarded through it ends as R395 states (R402). -/
  | chainPortDown (port : Fin 8) (cut : Option ChainFrame)
  /-- A chain port finishes training and counts as up, so routing entries that name it use it again (R392). -/
  | chainPortUp (port : Fin 8)
  /-- Bedrock channel identification and training end at start-up, with fallback speeds or lost channels, and stratum and remap tables are loaded (R259). -/
  | bedrockTrainingDone (channels : List (Option (Fin 5))) (page : DiePage) (populationOk : Bool) (factoryBad : List (Fin 96 × Fin (2 ^ 20)))
  /-- REFCLK_A returns after a loss and the host links retrain (R588). -/
  | refclkAReturn
  /-- A SerDes PLL relocks and its links retrain (R588). -/
  | serdesPllRelock (pll : Fin 8)
  /-- A periodic ZQ, oscillator or centering step ends, releasing the channel and letting a waiting speed change or self-refresh entry proceed (R242). -/
  | trainingStepDone (channel : Fin 16)
  /-- The 1 ms reset of a warm reset ends and boot runs with Loam on the short path of R241 (R576). -/
  | warmResetRelease (boot : BootReport)
  deriving DecidableEq, Repr

end Sys2Proof
end

