-- ==== Sys2Proof/Decode.lean ====
section
/-! DEFINITION. The words that spell a command. The block takes commands, not instruction words: the opcode table
gives no row any bits, so no word spells one. -/

namespace Sys2Proof

/-- The command a word of `nbits` bits spells by the table's bits: none, for no row of the table has bits. -/
def decodeTableWord (nbits w : Nat) : Option Instr :=
  match nbits, w with
  | _, _ => none

end Sys2Proof
end

