-- ==== Sys2Proof/Config.lean ====
section
/-! DEFINITION. What an implementation fixes, and the values the spec leaves open: constants without a body, of
which no proof can learn a value. -/

namespace Sys2Proof.Config

/-- A value the spec leaves open, for the n-th time one is taken (word n of undefined content, R512). -/
opaque freeWord : Nat → Word

/-- The number a block gives an event of this kind (R532, R535): the spec names the events and no numbers. -/
opaque eventCode : EventKind → BitVec 16

/-- The digest of the boot ROM, which SPDM measures (R529). -/
opaque romDigest : BitVec 384

/-- Does an image's signature verify over its digest under Torviaber's image key, which the boot ROM holds (R517)? -/
opaque imageSigned : BitVec 384 → BitVec 768 → Bool

/-- The signature of an SPDM answer by the device's identity key over a nonce (R529). -/
opaque signature : BitVec 256 → BitVec 768

/-- The root key in the eFuses (R431). -/
opaque rootKey : BitVec 256

/-- The die ID fuses, least significant word first (R524). -/
opaque dieId : Nat → Word

/-- The kiln rate in GB/s that BFC guarantees for a number of dies per channel, lost channels and planes when it is not
one that R274 states. -/
opaque loweredRate : Nat → Nat → Bool → Nat

/-- Word n of a block's detail of an event with these items (R532, R535): detail layouts belong to the blocks. -/
opaque detailWord : EventKind → List Nat → Nat → Word

/-- Severity and source in the header of a pad (false) or loss marker (true), which R534 does not give. -/
opaque markerBits : Bool → BitVec 13

/-- Word n of the record with a sequence number, where no field of R534 or R535 stands. -/
opaque recordPad : Word → Nat → Word

/-- Word 3 of a history block (R541). -/
opaque blockPad : Word

/-- Size in KiB of a live journal of n records (R559, R578): the spec gives no size of a record. -/
opaque journalKib : Nat → Nat

end Sys2Proof.Config
end

