-- ==== Sys2Proof/Machine/RegMap.lean ====
section
/-! DEFINITION. The register map: every register of the management space (R579, R595) and of an LD space
(R590 to R593), field by field, with its access type (R8) and its reset value (R589). The rows follow the
field tables of the chapters. An LD space's BAR0 offset o stands at 0x1_0000_0000 + o and its BAR2 offset
o, within a doorbell page, at 0x2_0000_0000 + o; the LD is part of the index, not of the address. -/

namespace Sys2Proof.Machine

/-- The access types of R8. -/
inductive RegAccess where
  | rw | ro | w1c | w1s | wo | rc
  deriving DecidableEq, Repr

/-- One field of a register: its lowest bit, its width, its access type and its reset value. -/
structure FieldDesc where
  lo : Nat
  width : Nat
  access : RegAccess
  reset : Nat
  deriving DecidableEq, Repr

/-- One register, or an array of `count` of them `stride` bytes apart. Bits no field names are reserved (R7). -/
structure RegDesc where
  name : String
  addr : Nat
  count : Nat
  stride : Nat
  fields : List FieldDesc
  deriving DecidableEq, Repr

/-- A field named by the address of its register. -/
structure Field where
  addr : Nat
  lo : Nat
  width : Nat
  deriving DecidableEq, Repr

/-- The same field of the register `n` bytes further on: a per-port or per-channel copy. -/
def fieldAt (f : Field) (n : Nat) : Field := { f with addr := f.addr + n }

/-- Registers of TMG: TMG_LOAM_RESERVED to TMG_PLOT_DATA1. -/
def regTableTmgA : List RegDesc := [
  ⟨"TMG_LOAM_RESERVED", 0x8000130, 1, 0x4, [⟨0, 32, .ro, 0⟩]⟩,
  ⟨"TMG_LOAM_AVAIL", 0x8000134, 1, 0x4, [⟨0, 21, .ro, 0⟩]⟩,
  ⟨"TMG_FLOOR_SUM", 0x8000138, 1, 0x4, [⟨0, 21, .ro, 0⟩]⟩,
  ⟨"TMG_ALLOW_SUM", 0x800013C, 1, 0x4, [⟨0, 21, .ro, 0⟩]⟩,
  ⟨"TMG_BEDROCK_AVAIL", 0x8000140, 1, 0x4, [⟨0, 21, .ro, 0⟩]⟩,
  ⟨"TMG_SIZE_SUM", 0x8000144, 1, 0x4, [⟨0, 21, .ro, 0⟩]⟩,
  ⟨"TMG_MAPC_HIT", 0x8000148, 1, 0x4, [⟨0, 32, .rc, 0⟩]⟩,
  ⟨"TMG_MAPC_MISS", 0x800014C, 1, 0x4, [⟨0, 32, .rc, 0⟩]⟩,
  ⟨"TMG_BUDGET_CFG", 0x8000150, 1, 0x4, [⟨0, 13, .rw, 0x0200⟩]⟩,
  ⟨"TMG_BUDGET_EFF", 0x8000154, 1, 0x4, [⟨0, 21, .ro, 0⟩]⟩,
  ⟨"TMG_DIRTY_GRAINS", 0x8000158, 1, 0x4, [⟨0, 29, .ro, 0⟩]⟩,
  ⟨"TMG_SETTLE_OVERRIDE_MIB", 0x800015C, 1, 0x4, [⟨0, 32, .rc, 0⟩]⟩,
  ⟨"TMG_LIFT_CFG", 0x8000000, 1, 0x4, [⟨0, 8, .rw, 0x04⟩, ⟨16, 10, .rw, 0x1F4⟩]⟩,
  ⟨"TMG_HEAT_CFG", 0x8000004, 1, 0x4, [⟨0, 8, .rw, 0x08⟩]⟩,
  ⟨"TMG_SETTLE_CFG", 0x8000008, 1, 0x4, [⟨0, 16, .rw, 0x003C⟩, ⟨16, 4, .rw, 0x2⟩, ⟨20, 8, .rw, 0x20⟩]⟩,
  ⟨"TMG_SETTLE_CFG2", 0x800000C, 1, 0x4, [⟨0, 10, .rw, 0x1F4⟩, ⟨16, 11, .rw, 0x200⟩]⟩,
  ⟨"TMG_TD_CFG", 0x8000010, 1, 0x4, [⟨0, 8, .ro, 0x40⟩, ⟨8, 7, .rw, 0x4B⟩, ⟨16, 7, .rw, 0x3C⟩]⟩,
  ⟨"TMG_TD_STS", 0x8000014, 1, 0x4, [⟨0, 21, .ro, 0⟩]⟩,
  ⟨"TMG_GOV_CFG", 0x8000018, 1, 0x4, [⟨0, 16, .rw, 0x05DC⟩, ⟨16, 16, .rw, 0xEA60⟩]⟩,
  ⟨"TMG_GOV_STS", 0x800001C, 1, 0x4, [⟨0, 8, .ro, 0⟩, ⟨8, 3, .ro, 0⟩]⟩,
  ⟨"TMG_GOV_USED_MIB", 0x8000020, 1, 0x4, [⟨0, 32, .ro, 0⟩]⟩,
  ⟨"TMG_GOV_REFUSED", 0x8000024, 1, 0x4, [⟨0, 32, .rc, 0⟩]⟩,
  ⟨"TMG_TILL_CFG", 0x8000028, 1, 0x4, [⟨0, 7, .rw, 0x19⟩, ⟨8, 7, .rw, 0x05⟩, ⟨16, 7, .rw, 0x01⟩]⟩,
  ⟨"TMG_FRAME_CFG", 0x800002C, 1, 0x4, [⟨0, 13, .rw, 0x0040⟩]⟩,
  ⟨"TMG_FRAME_STS", 0x8000030, 1, 0x4, [⟨0, 27, .ro, 0⟩]⟩,
  ⟨"TMG_MIG_STS", 0x8000034, 1, 0x4, [⟨0, 9, .ro, 0⟩, ⟨16, 9, .ro, 0⟩, ⟨25, 1, .ro, 0⟩, ⟨26, 1, .ro, 0⟩]⟩,
  ⟨"TMG_LIFT_CNT", 0x8000038, 1, 0x4, [⟨0, 32, .rc, 0⟩]⟩,
  ⟨"TMG_SETTLE_CNT", 0x800003C, 1, 0x4, [⟨0, 32, .rc, 0⟩]⟩,
  ⟨"TMG_EVICT_CNT", 0x8000040, 1, 0x4, [⟨0, 32, .rc, 0⟩]⟩,
  ⟨"TMG_TILL_CNT", 0x8000044, 1, 0x4, [⟨0, 32, .rc, 0⟩]⟩,
  ⟨"TMG_RACE_CNT", 0x8000048, 1, 0x4, [⟨0, 16, .rc, 0⟩, ⟨16, 16, .rc, 0⟩]⟩,
  ⟨"TMG_WAIT_CNT", 0x800004C, 1, 0x4, [⟨0, 16, .rc, 0⟩, ⟨16, 16, .rc, 0⟩]⟩,
  ⟨"TMG_MIG_ERR", 0x8000050, 1, 0x4, [⟨0, 1, .w1c, 0⟩, ⟨1, 1, .w1c, 0⟩, ⟨2, 1, .w1c, 0⟩, ⟨3, 1, .w1c, 0⟩, ⟨4, 1, .w1c, 0⟩, ⟨5, 1, .w1c, 0⟩]⟩,
  ⟨"TMG_SETTLED_MIB", 0x8000054, 1, 0x4, [⟨0, 32, .rc, 0⟩]⟩,
  ⟨"TMG_LOST_CLEAR", 0x8000058, 1, 0x4, [⟨0, 32, .rc, 0⟩]⟩,
  ⟨"TMG_CKPT_CFG", 0x8000180, 1, 0x4, [⟨0, 8, .rw, 0x3C⟩]⟩,
  ⟨"TMG_CKPT_STS", 0x8000184, 1, 0x4, [⟨0, 8, .ro, 0⟩, ⟨8, 24, .ro, 0⟩]⟩,
  ⟨"TMG_PLOT_SEL", 0x8000100, 1, 0x4, [⟨0, 12, .rw, 0⟩]⟩,
  ⟨"TMG_PLOT_DATA0", 0x8000104, 1, 0x4, [⟨0, 3, .ro, 0⟩, ⟨3, 2, .ro, 0⟩, ⟨5, 1, .ro, 0⟩, ⟨6, 1, .ro, 0⟩, ⟨7, 1, .ro, 0⟩, ⟨16, 16, .ro, 0⟩]⟩,
  ⟨"TMG_PLOT_DATA1", 0x8000108, 1, 0x4, [⟨0, 20, .ro, 0⟩]⟩]

/-- Registers of TMG: TMG_PLOT_DATA2 to TMG_PLOT_DATA7. -/
def regTableTmgB : List RegDesc := [
  ⟨"TMG_PLOT_DATA2", 0x800010C, 1, 0x4, [⟨0, 21, .ro, 0⟩]⟩,
  ⟨"TMG_PLOT_DATA3", 0x8000110, 1, 0x4, [⟨0, 21, .ro, 0⟩]⟩,
  ⟨"TMG_PLOT_DATA4", 0x8000114, 1, 0x4, [⟨0, 21, .ro, 0⟩]⟩,
  ⟨"TMG_PLOT_DATA5", 0x8000118, 1, 0x4, [⟨0, 27, .ro, 0⟩]⟩,
  ⟨"TMG_PLOT_DATA6", 0x800011C, 1, 0x4, [⟨0, 27, .ro, 0⟩]⟩,
  ⟨"TMG_PLOT_DATA7", 0x8000120, 1, 0x4, [⟨0, 12, .ro, 0⟩]⟩]

/-- Registers of POU: POU_ACL_SEL to POU_LOST_CLEAR. -/
def regTablePou : List RegDesc := [
  ⟨"POU_ACL_SEL", 0x3000200, 1, 0x4, [⟨0, 6, .rw, 0⟩, ⟨6, 12, .rw, 0⟩, ⟨30, 1, .w1c, 0⟩, ⟨31, 1, .ro, 0⟩]⟩,
  ⟨"POU_ACL_DATA", 0x3000204, 1, 0x4, [⟨0, 32, .rw, 0⟩]⟩,
  ⟨"POU_ACL_DENY_CNT", 0x3000208, 1, 0x4, [⟨0, 32, .rc, 0⟩]⟩,
  ⟨"POU_ACL_DENY_LAST", 0x300020C, 1, 0x4, [⟨0, 12, .ro, 0⟩, ⟨12, 12, .ro, 0⟩]⟩,
  ⟨"POU_BP_CFG", 0x3000000, 1, 0x4, [⟨0, 7, .rw, 0x4B⟩, ⟨8, 7, .rw, 0x5F⟩, ⟨16, 10, .rw, 0x064⟩]⟩,
  ⟨"POU_BP_STS", 0x3000004, 1, 0x4, [⟨0, 7, .ro, 0⟩, ⟨7, 7, .ro, 0⟩, ⟨14, 2, .ro, 0⟩, ⟨16, 1, .ro, 0⟩, ⟨17, 1, .w1c, 0⟩]⟩,
  ⟨"POU_BP_DELAY_CNT", 0x3000008, 1, 0x4, [⟨0, 32, .rc, 0⟩]⟩,
  ⟨"POU_BP_STOP_TIME", 0x300000C, 1, 0x4, [⟨0, 32, .rc, 0⟩]⟩,
  ⟨"POU_HAZ_STS", 0x3000010, 1, 0x4, [⟨0, 14, .ro, 0⟩, ⟨16, 16, .rc, 0⟩]⟩,
  ⟨"POU_GPF_STS", 0x3000014, 1, 0x4, [⟨0, 1, .ro, 0⟩, ⟨1, 1, .w1c, 0⟩, ⟨8, 16, .ro, 0⟩]⟩,
  ⟨"POU_PLOT_SEL", 0x3000020, 1, 0x4, [⟨0, 12, .rw, 0⟩]⟩,
  ⟨"POU_PLOT_SEQ_LO", 0x3000024, 1, 0x4, [⟨0, 32, .ro, 0⟩]⟩,
  ⟨"POU_PLOT_SEQ_HI", 0x3000028, 1, 0x4, [⟨0, 32, .ro, 0⟩]⟩,
  ⟨"POU_PLOT_DUR_LO", 0x300002C, 1, 0x4, [⟨0, 32, .ro, 0⟩]⟩,
  ⟨"POU_PLOT_DUR_HI", 0x3000030, 1, 0x4, [⟨0, 32, .ro, 0⟩]⟩,
  ⟨"POU_PLOT_DIRTY", 0x3000034, 1, 0x4, [⟨0, 29, .ro, 0⟩, ⟨31, 1, .ro, 0⟩]⟩,
  ⟨"POU_LOST_CLEAR", 0x3000038, 1, 0x4, [⟨0, 32, .rc, 0⟩]⟩]

/-- Registers of HFP: HFP_BOND to HFP_PORT_RECOV_CNT. -/
def regTableHfp : List RegDesc := [
  ⟨"HFP_BOND", 0x1000000, 1, 0x4, [⟨0, 2, .rw, 0⟩, ⟨2, 2, .rw, 0⟩, ⟨4, 2, .rw, 0⟩, ⟨6, 2, .rw, 0⟩]⟩,
  ⟨"HFP_BI_TIMEOUT", 0x1000004, 1, 0x4, [⟨0, 16, .rw, 0x07D0⟩]⟩,
  ⟨"HFP_LOST_CLEAR", 0x1000008, 1, 0x4, [⟨0, 32, .rc, 0⟩]⟩,
  ⟨"HFP_PORT_CTL", 0x1001000, 16, 0x100, [⟨0, 1, .rw, 1⟩, ⟨1, 1, .rw, 1⟩, ⟨2, 1, .rw, 1⟩, ⟨3, 3, .rw, 5⟩, ⟨6, 1, .rw, 1⟩, ⟨7, 1, .rw, 0⟩]⟩,
  ⟨"HFP_PORT_STS", 0x1001004, 16, 0x100, [⟨0, 1, .ro, 0⟩, ⟨1, 3, .ro, 0⟩, ⟨4, 3, .ro, 0⟩, ⟨7, 2, .ro, 0⟩, ⟨9, 1, .ro, 0⟩, ⟨10, 1, .ro, 0⟩, ⟨11, 1, .ro, 0⟩, ⟨12, 1, .ro, 0⟩, ⟨13, 1, .ro, 0⟩]⟩,
  ⟨"HFP_PORT_ERR", 0x1001008, 16, 0x100, [⟨0, 1, .w1c, 0⟩, ⟨1, 1, .w1c, 0⟩, ⟨2, 1, .w1c, 0⟩, ⟨3, 1, .w1c, 0⟩, ⟨4, 1, .w1c, 0⟩, ⟨5, 1, .w1c, 0⟩, ⟨6, 1, .w1c, 0⟩]⟩,
  ⟨"HFP_PORT_CORR_CNT", 0x100100C, 16, 0x100, [⟨0, 32, .rc, 0⟩]⟩,
  ⟨"HFP_PORT_RECOV_CNT", 0x1001010, 16, 0x100, [⟨0, 16, .rc, 0⟩, ⟨16, 16, .rc, 0⟩]⟩]

/-- Registers of an LD space: CRE_RING_SEL to HFP_LD_PLOT_MAP. -/
def regTableLd : List RegDesc := [
  ⟨"CRE_RING_SEL", 0x100001000, 1, 0x4, [⟨0, 8, .rw, 0⟩]⟩,
  ⟨"CRE_RING_CTL", 0x100001004, 1, 0x4, [⟨0, 1, .rw, 0⟩, ⟨1, 1, .wo, 0⟩, ⟨2, 4, .rw, 1⟩]⟩,
  ⟨"CRE_RING_STS", 0x100001008, 1, 0x4, [⟨0, 2, .ro, 0⟩, ⟨2, 1, .w1c, 0⟩, ⟨8, 8, .ro, 0⟩, ⟨16, 16, .ro, 0⟩]⟩,
  ⟨"CRE_SQ_BASE_LO", 0x10000100C, 1, 0x4, [⟨0, 32, .rw, 0⟩]⟩,
  ⟨"CRE_SQ_BASE_HI", 0x100001010, 1, 0x4, [⟨0, 32, .rw, 0⟩]⟩,
  ⟨"CRE_SQ_SIZE", 0x100001014, 1, 0x4, [⟨0, 5, .rw, 4⟩]⟩,
  ⟨"CRE_CQ_BASE_LO", 0x100001018, 1, 0x4, [⟨0, 32, .rw, 0⟩]⟩,
  ⟨"CRE_CQ_BASE_HI", 0x10000101C, 1, 0x4, [⟨0, 32, .rw, 0⟩]⟩,
  ⟨"CRE_CQ_SIZE", 0x100001020, 1, 0x4, [⟨0, 5, .rw, 4⟩]⟩,
  ⟨"CRE_RING_IRQ", 0x100001024, 1, 0x4, [⟨0, 6, .rw, 0⟩, ⟨8, 8, .rw, 0⟩, ⟨16, 12, .rw, 0⟩]⟩,
  ⟨"CRE_RING_CAP", 0x100001028, 1, 0x4, [⟨0, 9, .ro, 0x010⟩]⟩,
  ⟨"CRE_SQ_TAIL", 0x200000000, 1, 0x4, [⟨0, 16, .wo, 0⟩]⟩,
  ⟨"CRE_CQ_HEAD", 0x200000004, 1, 0x4, [⟨0, 16, .wo, 0⟩]⟩,
  ⟨"CRE_RING_PEEK", 0x200000008, 1, 0x4, [⟨0, 16, .ro, 0⟩, ⟨16, 16, .ro, 0⟩]⟩,
  ⟨"CRE_RESULT_WIN", 0x200000800, 256, 0x4, [⟨0, 32, .ro, 0xFFFFFFFF⟩]⟩,
  ⟨"HFP_LD_ID", 0x100000000, 1, 0x4, [⟨0, 32, .ro, 0x01B17416⟩]⟩,
  ⟨"HFP_LD_SELF", 0x100000004, 1, 0x4, [⟨0, 12, .ro, 0⟩, ⟨12, 1, .ro, 0⟩]⟩,
  ⟨"HFP_LD_CAP", 0x100000008, 1, 0x4, [⟨0, 21, .ro, 0⟩]⟩,
  ⟨"HFP_LD_STATUS", 0x10000000C, 1, 0x4, [⟨0, 1, .ro, 0⟩, ⟨1, 1, .ro, 0⟩, ⟨2, 3, .ro, 0⟩, ⟨5, 1, .ro, 0⟩, ⟨6, 1, .ro, 0⟩]⟩,
  ⟨"HFP_LD_DEVTIME_LO", 0x100000018, 1, 0x4, [⟨0, 32, .ro, 0⟩]⟩,
  ⟨"HFP_LD_DEVTIME_HI", 0x10000001C, 1, 0x4, [⟨0, 32, .ro, 0⟩]⟩,
  ⟨"HFP_LD_PLOT_SEL", 0x100000100, 1, 0x4, [⟨0, 12, .rw, 0⟩]⟩,
  ⟨"HFP_LD_PLOT_STS0", 0x100000104, 1, 0x4, [⟨0, 3, .ro, 0⟩, ⟨3, 2, .ro, 0⟩, ⟨5, 1, .ro, 0⟩, ⟨6, 1, .ro, 0⟩, ⟨7, 1, .ro, 0⟩, ⟨8, 2, .ro, 0⟩, ⟨10, 1, .ro, 0⟩, ⟨16, 16, .ro, 0⟩]⟩,
  ⟨"HFP_LD_PLOT_STS1", 0x100000108, 1, 0x4, [⟨0, 20, .ro, 0⟩]⟩,
  ⟨"HFP_LD_PLOT_STS2", 0x10000010C, 1, 0x4, [⟨0, 21, .ro, 0⟩]⟩,
  ⟨"HFP_LD_PLOT_MAP", 0x100000200, 128, 0x4, [⟨0, 32, .ro, 0⟩]⟩]

/-- Registers of CRE: CRE_LD_SEL to CRE_LOST_CLEAR. -/
def regTableCre : List RegDesc := [
  ⟨"CRE_LD_SEL", 0x2000000, 1, 0x4, [⟨0, 8, .rw, 0⟩]⟩,
  ⟨"CRE_LD_PRIV", 0x2000004, 1, 0x4, [⟨0, 9, .rw, 0x010⟩, ⟨9, 1, .rw, 0⟩]⟩,
  ⟨"CRE_RINGS_ACTIVE", 0x2000008, 1, 0x4, [⟨0, 13, .ro, 0⟩]⟩,
  ⟨"CRE_QUEUE_ERR_CNT", 0x200000C, 1, 0x4, [⟨0, 32, .rc, 0⟩]⟩,
  ⟨"CRE_DOORBELL_DROP_CNT", 0x2000010, 1, 0x4, [⟨0, 32, .rc, 0⟩]⟩,
  ⟨"CRE_LOST_CLEAR", 0x2000014, 1, 0x4, [⟨0, 32, .rc, 0⟩]⟩]

/-- Registers of FCD: FCD_VICTIM_CFG to FCD_LOST_CLEAR. -/
def regTableFcd : List RegDesc := [
  ⟨"FCD_VICTIM_CFG", 0x4000000, 1, 0x4, [⟨0, 8, .rw, 0x10⟩]⟩,
  ⟨"FCD_SLICE_SEL", 0x4000004, 1, 0x4, [⟨0, 4, .rw, 0⟩]⟩,
  ⟨"FCD_SLICE_STS", 0x4000008, 1, 0x4, [⟨0, 10, .ro, 0⟩, ⟨10, 8, .ro, 0⟩, ⟨18, 14, .rc, 0⟩]⟩,
  ⟨"FCD_HIT", 0x400000C, 1, 0x4, [⟨0, 32, .rc, 0⟩]⟩,
  ⟨"FCD_MISS", 0x4000010, 1, 0x4, [⟨0, 32, .rc, 0⟩]⟩,
  ⟨"FCD_VICTIM_HITS", 0x4000014, 1, 0x4, [⟨0, 16, .rc, 0⟩, ⟨16, 16, .rc, 0⟩]⟩,
  ⟨"FCD_PAR_CNT", 0x4000018, 1, 0x4, [⟨0, 16, .rc, 0⟩, ⟨16, 16, .rc, 0⟩]⟩,
  ⟨"FCD_PAR_LAST", 0x400001C, 1, 0x4, [⟨0, 13, .ro, 0⟩, ⟨13, 4, .ro, 0⟩, ⟨17, 4, .ro, 0⟩, ⟨21, 1, .ro, 0⟩, ⟨22, 1, .ro, 0⟩, ⟨23, 1, .ro, 0⟩]⟩,
  ⟨"FCD_HARD_SLOTS", 0x4000020, 1, 0x4, [⟨0, 16, .ro, 0⟩]⟩,
  ⟨"FCD_ERR", 0x4000024, 1, 0x4, [⟨0, 1, .w1c, 0⟩, ⟨1, 1, .w1c, 0⟩, ⟨2, 1, .w1c, 0⟩, ⟨3, 1, .w1c, 0⟩, ⟨4, 1, .w1c, 0⟩, ⟨5, 1, .w1c, 0⟩]⟩,
  ⟨"FCD_DIR_STS", 0x4000040, 1, 0x4, [⟨0, 26, .ro, 0⟩]⟩,
  ⟨"FCD_DIR_COARSE", 0x4000044, 1, 0x4, [⟨0, 26, .ro, 0⟩]⟩,
  ⟨"FCD_DIR_EVICT_CNT", 0x4000048, 1, 0x4, [⟨0, 32, .rc, 0⟩]⟩,
  ⟨"FCD_BISNP_CNT", 0x400004C, 1, 0x4, [⟨0, 32, .rc, 0⟩]⟩,
  ⟨"FCD_BISNP_OUT", 0x4000050, 1, 0x4, [⟨0, 13, .ro, 0⟩]⟩,
  ⟨"FCD_DIR_UNKNOWN_SETS", 0x4000054, 1, 0x4, [⟨0, 22, .ro, 0⟩]⟩,
  ⟨"FCD_LOST_CLEAR", 0x4000058, 1, 0x4, [⟨0, 32, .rc, 0⟩]⟩]

/-- Registers of LMC: LMC_POP to LMC_CH_INORDER_CNT. -/
def regTableLmc : List RegDesc := [
  ⟨"LMC_POP", 0x5000000, 1, 0x4, [⟨0, 2, .ro, 0⟩, ⟨2, 1, .ro, 0⟩, ⟨3, 1, .ro, 0⟩, ⟨4, 3, .ro, 0⟩, ⟨7, 2, .ro, 0⟩, ⟨9, 13, .ro, 0⟩, ⟨22, 1, .ro, 0⟩]⟩,
  ⟨"LMC_CFG", 0x5000004, 1, 0x4, [⟨0, 1, .rw, 1⟩]⟩,
  ⟨"LMC_SPEED_CTL", 0x5000008, 1, 0x4, [⟨0, 4, .rw, 0⟩, ⟨4, 1, .wo, 0⟩]⟩,
  ⟨"LMC_SPEED_STS", 0x500000C, 1, 0x4, [⟨0, 4, .ro, 0⟩, ⟨4, 1, .ro, 0⟩, ⟨5, 1, .w1c, 0⟩, ⟨6, 10, .rc, 0⟩, ⟨16, 16, .ro, 0⟩]⟩,
  ⟨"LMC_PAGE_CFG", 0x5000010, 1, 0x4, [⟨0, 5, .rw, 0x06⟩, ⟨8, 8, .rw, 0x0C⟩, ⟨16, 5, .rw, 0x10⟩]⟩,
  ⟨"LMC_WQ_CFG", 0x5000014, 1, 0x4, [⟨0, 6, .rw, 0x30⟩, ⟨8, 6, .rw, 0x10⟩]⟩,
  ⟨"LMC_QOS_SEL", 0x5000018, 1, 0x4, [⟨0, 5, .rw, 0⟩]⟩,
  ⟨"LMC_QOS_TARGET", 0x500001C, 1, 0x4, [⟨0, 16, .rw, 0x190⟩]⟩,
  ⟨"LMC_QOS_MISS_SEL", 0x5000020, 1, 0x4, [⟨0, 12, .rw, 0⟩]⟩,
  ⟨"LMC_QOS_MISS_DATA", 0x5000024, 1, 0x4, [⟨0, 16, .rc, 0⟩, ⟨16, 16, .rc, 0⟩]⟩,
  ⟨"LMC_RD_CFG", 0x5000028, 1, 0x4, [⟨0, 8, .rw, 0x28⟩, ⟨8, 8, .rw, 0x08⟩, ⟨16, 4, .rw, 0x8⟩, ⟨20, 1, .rw, 1⟩]⟩,
  ⟨"LMC_THROTTLE_STS", 0x500002C, 1, 0x4, [⟨0, 6, .ro, 0⟩, ⟨16, 16, .rc, 0⟩]⟩,
  ⟨"LMC_TRAIN_CFG", 0x5000030, 1, 0x4, [⟨0, 8, .rw, 0x80⟩, ⟨8, 8, .rw, 0x64⟩, ⟨16, 4, .rw, 0x1⟩, ⟨20, 8, .rw, 0x14⟩]⟩,
  ⟨"LMC_SR_CFG", 0x5000034, 1, 0x4, [⟨0, 16, .rw, 0⟩]⟩,
  ⟨"LMC_PPR_STS", 0x5000038, 1, 0x4, [⟨0, 16, .rc, 0⟩, ⟨16, 8, .ro, 0⟩]⟩,
  ⟨"LMC_LOST_CLEAR", 0x500003C, 1, 0x4, [⟨0, 32, .rc, 0⟩]⟩,
  ⟨"LMC_CH_STS", 0x5001000, 16, 0x100, [⟨0, 3, .ro, 0⟩, ⟨3, 4, .ro, 0⟩, ⟨8, 8, .ro, 0⟩, ⟨16, 8, .ro, 0⟩]⟩,
  ⟨"LMC_CH_ERR", 0x5001004, 16, 0x100, [⟨0, 1, .w1c, 0⟩, ⟨1, 1, .w1c, 0⟩, ⟨2, 1, .w1c, 0⟩, ⟨3, 1, .w1c, 0⟩, ⟨4, 1, .w1c, 0⟩, ⟨5, 1, .w1c, 0⟩, ⟨6, 1, .w1c, 0⟩, ⟨7, 1, .w1c, 0⟩]⟩,
  ⟨"LMC_CH_RD_LINES", 0x5001008, 16, 0x100, [⟨0, 32, .rc, 0⟩]⟩,
  ⟨"LMC_CH_WR_LINES", 0x500100C, 16, 0x100, [⟨0, 32, .rc, 0⟩]⟩,
  ⟨"LMC_CH_PAGE", 0x5001010, 16, 0x100, [⟨0, 16, .rc, 0⟩, ⟨16, 16, .rc, 0⟩]⟩,
  ⟨"LMC_CH_ACT", 0x5001014, 16, 0x100, [⟨0, 8, .rc, 0⟩, ⟨8, 24, .rc, 0⟩]⟩,
  ⟨"LMC_CH_INORDER_CNT", 0x5001018, 16, 0x100, [⟨0, 32, .rc, 0⟩]⟩]

/-- Registers of BFC: BFC_IF_CFG to BFC_CH_CORR. -/
def regTableBfc : List RegDesc := [
  ⟨"BFC_IF_CFG", 0x7000000, 1, 0x4, [⟨0, 1, .rw, 0⟩, ⟨1, 3, .rw, 0⟩]⟩,
  ⟨"BFC_POP", 0x7000004, 1, 0x4, [⟨0, 5, .ro, 0⟩, ⟨5, 1, .ro, 0⟩, ⟨6, 1, .ro, 0⟩, ⟨7, 16, .ro, 0⟩, ⟨23, 1, .ro, 0⟩]⟩,
  ⟨"BFC_LAYOUT", 0x7000008, 1, 0x4, [⟨0, 16, .rw, 0⟩, ⟨16, 12, .rw, 0⟩]⟩,
  ⟨"BFC_LAYOUT2", 0x700000C, 1, 0x4, [⟨0, 10, .rw, 0x080⟩, ⟨10, 6, .rw, 0x0F⟩]⟩,
  ⟨"BFC_HEDGE_CFG", 0x7000010, 1, 0x4, [⟨0, 6, .rw, 0x08⟩, ⟨8, 6, .rw, 0x0C⟩, ⟨16, 6, .rw, 0x06⟩, ⟨24, 8, .rw, 0x64⟩]⟩,
  ⟨"BFC_SUSPEND_CFG", 0x7000014, 1, 0x4, [⟨0, 8, .rw, 0x28⟩, ⟨8, 4, .rw, 0x4⟩, ⟨12, 5, .rw, 0x10⟩]⟩,
  ⟨"BFC_REFRESH_CFG", 0x7000018, 1, 0x4, [⟨0, 8, .rw, 0x48⟩, ⟨8, 8, .rw, 0x64⟩, ⟨16, 8, .rw, 0x64⟩, ⟨24, 8, .rw, 0x18⟩]⟩,
  ⟨"BFC_RETAIN_CFG", 0x700001C, 1, 0x4, [⟨0, 12, .rw, 0x16D⟩]⟩,
  ⟨"BFC_LADDER_CNT", 0x7000020, 1, 0x4, [⟨0, 8, .rc, 0⟩, ⟨8, 8, .rc, 0⟩, ⟨16, 8, .rc, 0⟩, ⟨24, 8, .rc, 0⟩]⟩,
  ⟨"BFC_HEDGE", 0x7000024, 1, 0x4, [⟨0, 16, .rc, 0⟩, ⟨16, 16, .rc, 0⟩]⟩,
  ⟨"BFC_KILN_STS", 0x7000040, 1, 0x4, [⟨0, 1, .ro, 0⟩, ⟨1, 1, .ro, 0⟩, ⟨2, 1, .ro, 0⟩, ⟨8, 10, .ro, 0⟩]⟩,
  ⟨"BFC_SPARE_STS", 0x7000044, 1, 0x4, [⟨0, 7, .ro, 0⟩, ⟨8, 3, .ro, 0⟩, ⟨16, 7, .ro, 0⟩]⟩,
  ⟨"BFC_WEAR_SEL", 0x7000048, 1, 0x4, [⟨0, 2, .rw, 0⟩]⟩,
  ⟨"BFC_WEAR_AVG", 0x700004C, 1, 0x4, [⟨0, 16, .ro, 0⟩]⟩,
  ⟨"BFC_WEAR_MAX", 0x7000050, 1, 0x4, [⟨0, 16, .ro, 0⟩]⟩,
  ⟨"BFC_WEAR_ALLOW", 0x7000054, 1, 0x4, [⟨0, 32, .ro, 0⟩]⟩,
  ⟨"BFC_DIE_SEL", 0x7000058, 1, 0x4, [⟨0, 7, .rw, 0⟩, ⟨8, 4, .rw, 0⟩]⟩,
  ⟨"BFC_DIE_STS", 0x700005C, 1, 0x4, [⟨0, 2, .ro, 0⟩, ⟨4, 12, .ro, 0⟩, ⟨16, 12, .ro, 0⟩]⟩,
  ⟨"BFC_ERR", 0x7000060, 1, 0x4, [⟨0, 1, .w1c, 0⟩, ⟨1, 1, .w1c, 0⟩, ⟨2, 1, .w1c, 0⟩, ⟨3, 1, .w1c, 0⟩, ⟨4, 1, .w1c, 0⟩, ⟨5, 1, .w1c, 0⟩, ⟨6, 1, .w1c, 0⟩]⟩,
  ⟨"BFC_LOST_CLEAR", 0x7000064, 1, 0x4, [⟨0, 32, .rc, 0⟩]⟩,
  ⟨"BFC_MEDIA_OFS_LO", 0x7000068, 1, 0x4, [⟨0, 32, .rw, 0⟩]⟩,
  ⟨"BFC_MEDIA_OFS_HI", 0x700006C, 1, 0x4, [⟨0, 32, .rw, 0⟩]⟩,
  ⟨"BFC_CH_STS", 0x7001000, 96, 0x100, [⟨0, 2, .ro, 0⟩, ⟨2, 3, .ro, 0⟩, ⟨5, 9, .ro, 0⟩]⟩,
  ⟨"BFC_CH_ERR", 0x7001004, 96, 0x100, [⟨0, 1, .w1c, 0⟩, ⟨1, 1, .w1c, 0⟩, ⟨2, 1, .w1c, 0⟩, ⟨3, 1, .w1c, 0⟩, ⟨4, 1, .w1c, 0⟩]⟩,
  ⟨"BFC_CH_RD_GRAINS", 0x7001008, 96, 0x100, [⟨0, 32, .rc, 0⟩]⟩,
  ⟨"BFC_CH_PRG_GRAINS", 0x700100C, 96, 0x100, [⟨0, 32, .rc, 0⟩]⟩,
  ⟨"BFC_CH_CORR", 0x7001010, 96, 0x100, [⟨0, 8, .rc, 0⟩, ⟨8, 12, .rc, 0⟩, ⟨20, 12, .rc, 0⟩]⟩]

/-- Registers of FLK: FLK_TWIN_CFG to FLK_CHAIN_ERR. -/
def regTableFlkA : List RegDesc := [
  ⟨"FLK_TWIN_CFG", 0x9000000, 1, 0x4, [⟨0, 1, .ro, 0⟩, ⟨1, 1, .ro, 0⟩, ⟨2, 1, .rw, 1⟩, ⟨8, 8, .rw, 0x0A⟩, ⟨16, 8, .rw, 0x28⟩]⟩,
  ⟨"FLK_TWIN_STS", 0x9000004, 1, 0x4, [⟨0, 3, .ro, 0⟩, ⟨3, 1, .ro, 0⟩, ⟨4, 2, .ro, 0⟩, ⟨6, 1, .ro, 0⟩, ⟨7, 1, .ro, 0⟩, ⟨8, 1, .ro, 0⟩, ⟨9, 1, .ro, 0⟩, ⟨16, 8, .ro, 0⟩]⟩,
  ⟨"FLK_EPOCH", 0x9000008, 1, 0x4, [⟨0, 32, .ro, 0⟩]⟩,
  ⟨"FLK_TWIN_EPOCH", 0x900000C, 1, 0x4, [⟨0, 32, .ro, 0⟩]⟩,
  ⟨"FLK_LEASE_STS", 0x9000010, 1, 0x4, [⟨0, 8, .ro, 0⟩, ⟨8, 8, .ro, 0⟩, ⟨16, 16, .rc, 0⟩]⟩,
  ⟨"FLK_MIRROR_STS", 0x9000014, 1, 0x4, [⟨0, 16, .ro, 0⟩, ⟨16, 16, .rc, 0⟩]⟩,
  ⟨"FLK_DIGEST_CNT", 0x9000018, 1, 0x4, [⟨0, 16, .rc, 0⟩, ⟨16, 8, .ro, 0⟩]⟩,
  ⟨"FLK_DIGEST_LAST", 0x900001C, 1, 0x4, [⟨0, 6, .ro, 0⟩, ⟨6, 2, .ro, 0⟩, ⟨8, 24, .ro, 0⟩]⟩,
  ⟨"FLK_SAMPLE_CFG", 0x9000020, 1, 0x4, [⟨0, 8, .rw, 0x40⟩]⟩,
  ⟨"FLK_SAMPLE_CNT", 0x9000024, 1, 0x4, [⟨0, 24, .rc, 0⟩, ⟨24, 8, .rc, 0⟩]⟩,
  ⟨"FLK_SELFTEST_STS", 0x9000028, 1, 0x4, [⟨0, 8, .ro, 0⟩]⟩,
  ⟨"FLK_CHANGE_CNT", 0x900002C, 1, 0x4, [⟨0, 32, .ro, 0⟩]⟩,
  ⟨"FLK_RESYNC_STS", 0x9000030, 1, 0x4, [⟨0, 32, .ro, 0⟩]⟩,
  ⟨"FLK_TWIN_HEALTH", 0x9000034, 1, 0x4, [⟨0, 7, .ro, 0⟩, ⟨7, 1, .ro, 0⟩, ⟨8, 3, .ro, 0⟩, ⟨11, 1, .ro, 0⟩, ⟨16, 16, .ro, 0⟩]⟩,
  ⟨"FLK_STALE_CNT", 0x9000038, 1, 0x4, [⟨0, 16, .rc, 0⟩, ⟨16, 16, .rc, 0⟩]⟩,
  ⟨"FLK_TWIN_ERR", 0x900003C, 1, 0x4, [⟨0, 1, .w1c, 0⟩, ⟨1, 1, .w1c, 0⟩, ⟨2, 1, .w1c, 0⟩, ⟨3, 1, .w1c, 0⟩, ⟨4, 1, .w1c, 0⟩, ⟨5, 1, .w1c, 0⟩, ⟨6, 1, .w1c, 0⟩, ⟨7, 1, .w1c, 0⟩, ⟨8, 1, .w1c, 0⟩, ⟨9, 1, .w1c, 0⟩, ⟨10, 1, .w1c, 0⟩, ⟨11, 1, .w1c, 0⟩, ⟨12, 1, .w1c, 0⟩]⟩,
  ⟨"FLK_LOST_CLEAR", 0x9000040, 1, 0x4, [⟨0, 32, .rc, 0⟩]⟩,
  ⟨"FLK_TP_STS", 0x9001000, 8, 0x100, [⟨0, 1, .ro, 0⟩, ⟨1, 3, .ro, 0⟩]⟩,
  ⟨"FLK_TP_CORR_CNT", 0x9001004, 8, 0x100, [⟨0, 32, .rc, 0⟩]⟩,
  ⟨"FLK_TP_RETRY_CNT", 0x9001008, 8, 0x100, [⟨0, 16, .rc, 0⟩, ⟨16, 16, .rc, 0⟩]⟩,
  ⟨"FLK_CHAIN_CFG", 0x9000800, 1, 0x4, [⟨0, 12, .rw, 0⟩, ⟨12, 1, .rw, 0⟩, ⟨13, 6, .rw, 0x10⟩, ⟨19, 4, .rw, 0x3⟩]⟩,
  ⟨"FLK_CHAIN_EPOCH", 0x9000804, 1, 0x4, [⟨0, 32, .rw, 0⟩]⟩,
  ⟨"FLK_ROUTE_SEL", 0x9000808, 1, 0x4, [⟨0, 8, .rw, 0⟩]⟩,
  ⟨"FLK_ROUTE_DATA", 0x900080C, 1, 0x4, [⟨0, 12, .rw, 0⟩, ⟨12, 4, .rw, 0⟩, ⟨16, 3, .rw, 0⟩, ⟨19, 3, .rw, 0⟩, ⟨22, 1, .rw, 0⟩, ⟨31, 1, .rw, 0⟩]⟩,
  ⟨"FLK_WIN_SEL", 0x9000810, 1, 0x4, [⟨0, 6, .rw, 0⟩]⟩,
  ⟨"FLK_WIN_DATA0", 0x9000814, 1, 0x4, [⟨0, 20, .rw, 0⟩]⟩,
  ⟨"FLK_WIN_DATA1", 0x9000818, 1, 0x4, [⟨0, 20, .rw, 0⟩]⟩,
  ⟨"FLK_WIN_DATA2", 0x900081C, 1, 0x4, [⟨0, 20, .rw, 0⟩]⟩,
  ⟨"FLK_WIN_DATA3", 0x9000820, 1, 0x4, [⟨0, 12, .rw, 0⟩, ⟨12, 12, .rw, 0⟩, ⟨24, 1, .rw, 0⟩, ⟨31, 1, .rw, 0⟩]⟩,
  ⟨"FLK_WIN_DATA4", 0x9000824, 1, 0x4, [⟨0, 32, .rw, 0⟩]⟩,
  ⟨"FLK_WIN_DATA5", 0x9000828, 1, 0x4, [⟨0, 32, .rw, 0⟩]⟩,
  ⟨"FLK_INGRESS_SEL", 0x900082C, 1, 0x4, [⟨0, 8, .rw, 0⟩]⟩,
  ⟨"FLK_INGRESS_DATA", 0x9000830, 1, 0x4, [⟨0, 5, .rw, 0⟩, ⟨31, 1, .rw, 0⟩]⟩,
  ⟨"FLK_CLASS_SEL", 0x9000834, 1, 0x4, [⟨0, 5, .rw, 0⟩]⟩,
  ⟨"FLK_CLASS_BIND", 0x9000838, 1, 0x4, [⟨0, 12, .rw, 0⟩, ⟨31, 1, .rw, 0⟩]⟩,
  ⟨"FLK_CHAIN_STS", 0x900083C, 1, 0x4, [⟨0, 8, .ro, 0⟩, ⟨8, 13, .ro, 0⟩]⟩,
  ⟨"FLK_CHAIN_FWD_CNT", 0x9000840, 1, 0x4, [⟨0, 32, .rc, 0⟩]⟩,
  ⟨"FLK_CHAIN_DROP", 0x9000844, 1, 0x4, [⟨0, 16, .rc, 0⟩, ⟨16, 16, .rc, 0⟩]⟩,
  ⟨"FLK_CHAIN_ABORT", 0x9000848, 1, 0x4, [⟨0, 16, .rc, 0⟩, ⟨16, 16, .rc, 0⟩]⟩,
  ⟨"FLK_CHAIN_ERR", 0x900084C, 1, 0x4, [⟨0, 1, .w1c, 0⟩, ⟨1, 1, .w1c, 0⟩, ⟨2, 1, .w1c, 0⟩, ⟨3, 1, .w1c, 0⟩, ⟨4, 1, .w1c, 0⟩, ⟨5, 1, .w1c, 0⟩]⟩]

/-- Registers of FLK: FLK_CP_STS to FLK_CP_RETRY_CNT. -/
def regTableFlkB : List RegDesc := [
  ⟨"FLK_CP_STS", 0x9002000, 8, 0x100, [⟨0, 1, .ro, 0⟩, ⟨1, 3, .ro, 0⟩]⟩,
  ⟨"FLK_CP_CORR_CNT", 0x9002004, 8, 0x100, [⟨0, 32, .rc, 0⟩]⟩,
  ⟨"FLK_CP_RETRY_CNT", 0x9002008, 8, 0x100, [⟨0, 16, .rc, 0⟩, ⟨16, 16, .rc, 0⟩]⟩]

/-- Registers of DIU: DIU_SCRUB_CFG to DIU_LOST_CLEAR. -/
def regTableDiu : List RegDesc := [
  ⟨"DIU_SCRUB_CFG", 0x6000000, 1, 0x4, [⟨0, 8, .rw, 0x18⟩, ⟨8, 1, .rw, 1⟩]⟩,
  ⟨"DIU_SCRUB_STS", 0x6000004, 1, 0x4, [⟨0, 7, .ro, 0⟩, ⟨8, 8, .rc, 0⟩, ⟨16, 16, .rc, 0⟩]⟩,
  ⟨"DIU_CFG", 0x6000008, 1, 0x4, [⟨0, 16, .rw, 0x0010⟩]⟩,
  ⟨"DIU_CE_SEL", 0x600000C, 1, 0x4, [⟨0, 4, .rw, 0⟩]⟩,
  ⟨"DIU_CE_DATA", 0x6000010, 1, 0x4, [⟨0, 16, .rc, 0⟩, ⟨16, 16, .rc, 0⟩]⟩,
  ⟨"DIU_CE_LOG_SEL", 0x6000014, 1, 0x4, [⟨0, 6, .rw, 0⟩]⟩,
  ⟨"DIU_CE_LOG_LO", 0x6000018, 1, 0x4, [⟨0, 32, .ro, 0⟩]⟩,
  ⟨"DIU_CE_LOG_HI", 0x600001C, 1, 0x4, [⟨0, 5, .ro, 0⟩, ⟨5, 4, .ro, 0⟩, ⟨9, 2, .ro, 0⟩, ⟨11, 1, .ro, 0⟩, ⟨12, 1, .ro, 0⟩]⟩,
  ⟨"DIU_HARD_CNT", 0x6000020, 1, 0x4, [⟨0, 16, .rc, 0⟩, ⟨16, 16, .rc, 0⟩]⟩,
  ⟨"DIU_MERGE_STS", 0x6000024, 1, 0x4, [⟨0, 6, .ro, 0⟩, ⟨16, 16, .rc, 0⟩]⟩,
  ⟨"DIU_UE_REPAIR", 0x6000028, 1, 0x4, [⟨0, 8, .rc, 0⟩, ⟨8, 8, .rc, 0⟩, ⟨16, 8, .rc, 0⟩]⟩,
  ⟨"DIU_POISON_STS", 0x600002C, 1, 0x4, [⟨0, 17, .ro, 0⟩, ⟨17, 1, .ro, 0⟩]⟩,
  ⟨"DIU_POISON_CNT", 0x6000030, 1, 0x4, [⟨0, 32, .rc, 0⟩]⟩,
  ⟨"DIU_SPARE_STS", 0x6000034, 1, 0x4, [⟨0, 16, .ro, 0⟩, ⟨16, 8, .ro, 0⟩]⟩,
  ⟨"DIU_ERR", 0x6000038, 1, 0x4, [⟨0, 1, .w1c, 0⟩, ⟨1, 1, .w1c, 0⟩, ⟨2, 1, .w1c, 0⟩, ⟨3, 1, .w1c, 0⟩, ⟨4, 1, .w1c, 0⟩, ⟨5, 1, .w1c, 0⟩, ⟨6, 1, .w1c, 0⟩]⟩,
  ⟨"DIU_LOST_CLEAR", 0x600003C, 1, 0x4, [⟨0, 32, .rc, 0⟩]⟩]

/-- Registers of CKU: CKU_STS to CKU_LOST_CLEAR. -/
def regTableCku : List RegDesc := [
  ⟨"CKU_STS", 0xB000000, 1, 0x4, [⟨0, 1, .ro, 0⟩, ⟨1, 1, .ro, 0⟩, ⟨2, 1, .ro, 0⟩]⟩,
  ⟨"CKU_XTS_STS", 0xB000004, 1, 0x4, [⟨0, 16, .ro, 0xFFFF⟩]⟩,
  ⟨"CKU_GCM_STS", 0xB000008, 1, 0x4, [⟨0, 24, .ro, 0xFFFFFF⟩, ⟨24, 5, .ro, 0x02⟩]⟩,
  ⟨"CKU_GCM_SEL", 0xB00000C, 1, 0x4, [⟨0, 5, .rw, 0⟩]⟩,
  ⟨"CKU_GCM_ROLE", 0xB000010, 1, 0x4, [⟨0, 3, .rw, 1⟩]⟩,
  ⟨"CKU_GCM_EPOCH", 0xB000014, 1, 0x4, [⟨0, 32, .ro, 0x00000001⟩]⟩,
  ⟨"CKU_PLOT_SEL", 0xB000018, 1, 0x4, [⟨0, 12, .rw, 0⟩]⟩,
  ⟨"CKU_PLOT_KEYGEN", 0xB00001C, 1, 0x4, [⟨0, 16, .ro, 0⟩, ⟨16, 16, .ro, 0⟩]⟩,
  ⟨"CKU_CHECK_CNT", 0xB000020, 1, 0x4, [⟨0, 16, .rc, 0⟩, ⟨16, 16, .rc, 0⟩]⟩,
  ⟨"CKU_TAG_FAIL", 0xB000024, 1, 0x4, [⟨0, 16, .rc, 0⟩, ⟨16, 16, .rc, 0⟩]⟩,
  ⟨"CKU_LEN_ERR", 0xB000028, 1, 0x4, [⟨0, 12, .ro, 0⟩, ⟨16, 16, .rc, 0⟩]⟩,
  ⟨"CKU_KEY_CACHE", 0xB00002C, 1, 0x4, [⟨0, 16, .rc, 0⟩, ⟨16, 16, .rc, 0⟩]⟩,
  ⟨"CKU_LINK_KEY_STS", 0xB000030, 1, 0x4, [⟨0, 1, .ro, 0⟩, ⟨1, 8, .ro, 0⟩, ⟨16, 16, .rc, 0⟩]⟩,
  ⟨"CKU_KEYWIN_CTL", 0xB000040, 1, 0x4, [⟨0, 8, .wo, 0⟩, ⟨8, 2, .wo, 0⟩, ⟨10, 1, .wo, 0⟩, ⟨11, 1, .wo, 0⟩]⟩,
  ⟨"CKU_KEYWIN_DATA", 0xB000044, 12, 0x4, [⟨0, 32, .wo, 0⟩]⟩,
  ⟨"CKU_ERR", 0xB000074, 1, 0x4, [⟨0, 1, .w1c, 0⟩, ⟨1, 1, .w1c, 0⟩, ⟨2, 1, .w1c, 0⟩, ⟨3, 1, .w1c, 0⟩, ⟨4, 1, .w1c, 0⟩, ⟨5, 1, .w1c, 0⟩, ⟨6, 1, .w1c, 0⟩, ⟨7, 1, .w1c, 0⟩, ⟨8, 1, .w1c, 0⟩, ⟨9, 1, .w1c, 0⟩]⟩,
  ⟨"CKU_LOST_CLEAR", 0xB000078, 1, 0x4, [⟨0, 32, .rc, 0⟩]⟩]

/-- Registers of BPM: BPM_POOL_SEL to BPM_LOST_CLEAR. -/
def regTableBpm : List RegDesc := [
  ⟨"BPM_POOL_SEL", 0xA000000, 1, 0x4, [⟨0, 2, .rw, 0⟩]⟩,
  ⟨"BPM_POOL_CFG", 0xA000004, 1, 0x4, [⟨0, 8, .ro, 0x40⟩]⟩,
  ⟨"BPM_POOL_USABLE", 0xA000008, 1, 0x4, [⟨0, 24, .ro, 0⟩]⟩,
  ⟨"BPM_POOL_FREE", 0xA00000C, 1, 0x4, [⟨0, 24, .ro, 0⟩]⟩,
  ⟨"BPM_POOL_CACHE", 0xA000010, 1, 0x4, [⟨0, 11, .ro, 0⟩]⟩,
  ⟨"BPM_POOL_WM", 0xA000014, 1, 0x4, [⟨0, 7, .rw, 0x06⟩]⟩,
  ⟨"BPM_POOL_GRANTS", 0xA000018, 1, 0x4, [⟨0, 32, .rc, 0⟩]⟩,
  ⟨"BPM_POOL_EMPTY_CNT", 0xA00001C, 1, 0x4, [⟨0, 16, .rc, 0⟩, ⟨16, 16, .rc, 0⟩]⟩,
  ⟨"BPM_REGION", 0xA000020, 1, 0x4, [⟨0, 16, .ro, 0⟩, ⟨16, 16, .ro, 0⟩]⟩,
  ⟨"BPM_BAD_FREE_LAST", 0xA000024, 1, 0x4, [⟨0, 12, .ro, 0⟩, ⟨12, 4, .ro, 0⟩, ⟨16, 2, .ro, 0⟩, ⟨18, 2, .ro, 0⟩]⟩,
  ⟨"BPM_BAD_FREE_IDX", 0xA000028, 1, 0x4, [⟨0, 23, .ro, 0⟩]⟩,
  ⟨"BPM_BAD_FREE_CNT", 0xA00002C, 1, 0x4, [⟨0, 16, .rc, 0⟩, ⟨16, 16, .rc, 0⟩]⟩,
  ⟨"BPM_QUAR", 0xA000030, 1, 0x4, [⟨0, 16, .ro, 0⟩]⟩,
  ⟨"BPM_ERR", 0xA000034, 1, 0x4, [⟨0, 1, .w1c, 0⟩, ⟨1, 1, .w1c, 0⟩, ⟨2, 1, .w1c, 0⟩, ⟨3, 1, .w1c, 0⟩, ⟨4, 1, .w1c, 0⟩, ⟨5, 1, .w1c, 0⟩, ⟨6, 1, .w1c, 0⟩]⟩,
  ⟨"BPM_LOST_CLEAR", 0xA000038, 1, 0x4, [⟨0, 32, .rc, 0⟩]⟩]

/-- Registers of PHS: PHS_STATE to PHS_SNAP_VAL. -/
def regTablePhs : List RegDesc := [
  ⟨"PHS_STATE", 0xC000000, 1, 0x4, [⟨0, 3, .ro, 0⟩, ⟨3, 1, .ro, 0⟩, ⟨4, 1, .ro, 0⟩, ⟨5, 5, .ro, 0⟩, ⟨10, 3, .ro, 0⟩]⟩,
  ⟨"PHS_PWR_CTL", 0xC000004, 1, 0x4, [⟨0, 1, .wo, 0⟩, ⟨1, 1, .wo, 0⟩]⟩,
  ⟨"PHS_SEQ_CFG", 0xC000008, 1, 0x4, [⟨0, 8, .rw, 0x0A⟩, ⟨8, 4, .rw, 0x1⟩, ⟨12, 8, .rw, 0x14⟩, ⟨20, 8, .rw, 0x0A⟩]⟩,
  ⟨"PHS_RAIL_STS", 0xC00000C, 1, 0x4, [⟨0, 7, .ro, 0⟩, ⟨7, 7, .ro, 0⟩, ⟨14, 9, .ro, 0⟩]⟩,
  ⟨"PHS_RST_SEL", 0xC000010, 1, 0x4, [⟨0, 4, .rw, 0⟩]⟩,
  ⟨"PHS_RST_CFG", 0xC000014, 1, 0x4, [⟨0, 8, .rw, 2⟩, ⟨8, 1, .rw, 0⟩, ⟨9, 1, .ro, 1⟩]⟩,
  ⟨"PHS_MON_SEL", 0xC000018, 1, 0x4, [⟨0, 5, .rw, 0⟩]⟩,
  ⟨"PHS_MON_CTL", 0xC00001C, 1, 0x4, [⟨0, 1, .rw, 1⟩, ⟨1, 2, .rw, 2⟩, ⟨3, 1, .ro, 0⟩, ⟨4, 4, .rw, 0x8⟩, ⟨8, 4, .rw, 0x2⟩]⟩,
  ⟨"PHS_MON_SCALE", 0xC000020, 1, 0x4, [⟨0, 20, .rw, 1024⟩, ⟨20, 12, .rw, 0⟩]⟩,
  ⟨"PHS_MON_WARN", 0xC000024, 1, 0x4, [⟨0, 16, .rw, 1746⟩, ⟨16, 16, .rw, 1854⟩]⟩,
  ⟨"PHS_MON_FAULT", 0xC000028, 1, 0x4, [⟨0, 16, .rw, 1710⟩, ⟨16, 16, .rw, 1890⟩]⟩,
  ⟨"PHS_MON_VAL", 0xC00002C, 1, 0x4, [⟨0, 16, .ro, 0⟩, ⟨16, 1, .ro, 0⟩, ⟨17, 1, .ro, 0⟩]⟩,
  ⟨"PHS_WARN_FLAGS", 0xC000030, 1, 0x4, [⟨0, 24, .w1c, 0⟩]⟩,
  ⟨"PHS_FAULT_FLAGS", 0xC000034, 1, 0x4, [⟨0, 24, .w1c, 0⟩]⟩,
  ⟨"PHS_HOLDUP_CFG", 0xC000038, 1, 0x4, [⟨0, 7, .rw, 0x5A⟩, ⟨7, 7, .rw, 0x14⟩, ⟨14, 10, .rw, 0x05F⟩, ⟨24, 8, .rw, 0x3C⟩]⟩,
  ⟨"PHS_HOLDUP_CFG2", 0xC00003C, 1, 0x4, [⟨0, 16, .rw, 0x0640⟩, ⟨16, 16, .rw, 0x07D0⟩]⟩,
  ⟨"PHS_HOLDUP_CAP", 0xC000040, 1, 0x4, [⟨0, 24, .ro, 0⟩, ⟨24, 1, .ro, 0⟩, ⟨25, 1, .ro, 0⟩]⟩,
  ⟨"PHS_HOLDUP_E", 0xC000044, 1, 0x4, [⟨0, 16, .ro, 0⟩, ⟨16, 16, .ro, 0⟩]⟩,
  ⟨"PHS_BUDGET_PUB", 0xC000048, 1, 0x4, [⟨0, 21, .ro, 0⟩, ⟨21, 1, .ro, 0⟩, ⟨22, 1, .ro, 0⟩]⟩,
  ⟨"PHS_KILN_CTL", 0xC00004C, 1, 0x4, [⟨0, 1, .rw, 0⟩, ⟨1, 1, .wo, 0⟩]⟩,
  ⟨"PHS_KILN_STS", 0xC000050, 1, 0x4, [⟨0, 1, .ro, 0⟩, ⟨1, 1, .ro, 0⟩, ⟨2, 2, .ro, 0⟩, ⟨4, 5, .ro, 0⟩, ⟨16, 16, .ro, 0⟩]⟩,
  ⟨"PHS_KILN_IMG_LO", 0xC000054, 1, 0x4, [⟨0, 32, .rw, 0⟩]⟩,
  ⟨"PHS_KILN_IMG_HI", 0xC000058, 1, 0x4, [⟨0, 32, .rw, 0⟩]⟩,
  ⟨"PHS_SNAP_CTL", 0xC00005C, 1, 0x4, [⟨0, 3, .rw, 0⟩, ⟨3, 4, .ro, 0⟩, ⟨7, 1, .wo, 0⟩]⟩,
  ⟨"PHS_SNAP_HDR", 0xC000060, 1, 0x4, [⟨0, 5, .ro, 0⟩, ⟨5, 2, .ro, 0⟩, ⟨7, 3, .ro, 0⟩, ⟨10, 1, .ro, 0⟩]⟩,
  ⟨"PHS_SNAP_TIME_LO", 0xC000064, 1, 0x4, [⟨0, 32, .ro, 0⟩]⟩,
  ⟨"PHS_SNAP_TIME_HI", 0xC000068, 1, 0x4, [⟨0, 32, .ro, 0⟩]⟩,
  ⟨"PHS_ERR", 0xC00006C, 1, 0x4, [⟨0, 1, .w1c, 0⟩, ⟨1, 1, .w1c, 0⟩, ⟨2, 1, .w1c, 0⟩, ⟨3, 1, .w1c, 0⟩, ⟨4, 1, .w1c, 0⟩, ⟨5, 1, .w1c, 0⟩, ⟨6, 1, .w1c, 0⟩, ⟨7, 1, .w1c, 0⟩, ⟨8, 1, .w1c, 0⟩]⟩,
  ⟨"PHS_LOST_CLEAR", 0xC000070, 1, 0x4, [⟨0, 32, .rc, 0⟩]⟩,
  ⟨"PHS_SNAP_VAL", 0xC000080, 24, 0x4, [⟨0, 16, .ro, 0⟩, ⟨16, 1, .ro, 0⟩, ⟨17, 1, .ro, 0⟩]⟩]

/-- Registers of MGC: MGC_CORE_STS to MGC_LOST_CLEAR. -/
def regTableMgc : List RegDesc := [
  ⟨"MGC_CORE_STS", 0xE000000, 1, 0x4, [⟨0, 6, .ro, 0⟩]⟩,
  ⟨"MGC_RST_CAUSE", 0xE000004, 1, 0x4, [⟨0, 3, .ro, 0⟩, ⟨8, 8, .rc, 0⟩, ⟨16, 8, .rc, 0⟩]⟩,
  ⟨"MGC_RST_CTL", 0xE000008, 1, 0x4, [⟨0, 1, .wo, 0⟩]⟩,
  ⟨"MGC_BOOT_STS", 0xE00000C, 1, 0x4, [⟨0, 1, .ro, 0⟩, ⟨1, 1, .ro, 0⟩, ⟨2, 1, .ro, 0⟩, ⟨3, 1, .ro, 0⟩, ⟨4, 2, .ro, 0⟩, ⟨6, 2, .ro, 0⟩, ⟨8, 4, .ro, 0⟩]⟩,
  ⟨"MGC_BOOT_CTL", 0xE000010, 1, 0x4, [⟨0, 1, .w1s, 0⟩]⟩,
  ⟨"MGC_BOOT_SEQ", 0xE000014, 1, 0x4, [⟨0, 32, .ro, 0⟩]⟩,
  ⟨"MGC_WDT_CFG", 0xE000018, 1, 0x4, [⟨0, 16, .rw, 0x07D0⟩, ⟨16, 1, .rw, 1⟩]⟩,
  ⟨"MGC_WDT_KICK", 0xE00001C, 1, 0x4, [⟨0, 16, .wo, 0⟩]⟩,
  ⟨"MGC_WDT_STS", 0xE000020, 1, 0x4, [⟨0, 16, .ro, 0x07D0⟩, ⟨16, 1, .ro, 0⟩, ⟨24, 8, .rc, 0⟩]⟩,
  ⟨"MGC_CS_DESC", 0xE000024, 4, 0x4, [⟨0, 32, .wo, 0⟩]⟩,
  ⟨"MGC_CS_CMPL_LO", 0xE000034, 1, 0x4, [⟨0, 32, .rc, 0xFFFFFFFF⟩]⟩,
  ⟨"MGC_CS_CMPL_HI", 0xE000038, 1, 0x4, [⟨0, 32, .ro, 0xFFFFFFFF⟩]⟩,
  ⟨"MGC_CS_CTL", 0xE00003C, 1, 0x4, [⟨0, 1, .wo, 0⟩]⟩,
  ⟨"MGC_CS_STS", 0xE000040, 1, 0x4, [⟨0, 1, .ro, 0⟩, ⟨1, 1, .ro, 0⟩, ⟨2, 1, .ro, 0⟩, ⟨8, 6, .ro, 0⟩, ⟨14, 3, .ro, 0⟩, ⟨17, 5, .ro, 0⟩]⟩,
  ⟨"MGC_CS_ERR", 0xE000044, 1, 0x4, [⟨0, 1, .w1c, 0⟩, ⟨1, 1, .w1c, 0⟩, ⟨2, 1, .w1c, 0⟩, ⟨3, 1, .w1c, 0⟩, ⟨4, 1, .w1c, 0⟩, ⟨5, 1, .w1c, 0⟩, ⟨16, 16, .rc, 0⟩]⟩,
  ⟨"MGC_CS_FAULT_ADDR", 0xE000048, 1, 0x4, [⟨0, 26, .ro, 0⟩]⟩,
  ⟨"MGC_CS_WEAR", 0xE00004C, 1, 0x4, [⟨0, 17, .rw, 0⟩]⟩,
  ⟨"MGC_CS_WEAR_LIMIT", 0xE000050, 1, 0x4, [⟨0, 17, .rw, 0x15F90⟩]⟩,
  ⟨"MGC_FUSE_STS", 0xE000054, 1, 0x4, [⟨0, 1, .ro, 0⟩, ⟨1, 1, .ro, 0⟩, ⟨2, 1, .ro, 0⟩, ⟨3, 1, .ro, 0⟩]⟩,
  ⟨"MGC_DIE_ID", 0xE000058, 4, 0x4, [⟨0, 32, .ro, 0⟩]⟩,
  ⟨"MGC_SB_CFG", 0xE000068, 1, 0x4, [⟨0, 7, .rw, 0x2A⟩, ⟨8, 7, .rw, 0x4C⟩, ⟨16, 3, .rw, 0x3⟩]⟩,
  ⟨"MGC_MCTP_STS", 0xE00006C, 1, 0x4, [⟨0, 8, .ro, 0⟩, ⟨8, 1, .ro, 0⟩, ⟨16, 16, .rc, 0⟩]⟩,
  ⟨"MGC_SPDM_STS", 0xE000070, 1, 0x4, [⟨0, 6, .ro, 0⟩, ⟨16, 16, .rc, 0⟩]⟩,
  ⟨"MGC_LOST_CLEAR", 0xE000074, 1, 0x4, [⟨0, 32, .rc, 0⟩]⟩]

/-- Registers of EVR: EVR_CTL to EVR_RING_WIN. -/
def regTableEvr : List RegDesc := [
  ⟨"EVR_CTL", 0xD000000, 1, 0x4, [⟨0, 1, .rw, 1⟩, ⟨8, 8, .rw, 0x01⟩, ⟨16, 8, .rw, 0x0A⟩]⟩,
  ⟨"EVR_RING_STS", 0xD000004, 1, 0x4, [⟨0, 17, .ro, 0⟩]⟩,
  ⟨"EVR_RING_UNSETTLED", 0xD000008, 1, 0x4, [⟨0, 17, .ro, 0⟩]⟩,
  ⟨"EVR_SEQ_NEXT", 0xD00000C, 1, 0x4, [⟨0, 32, .ro, 1⟩]⟩,
  ⟨"EVR_OLDEST_OFF", 0xD000010, 1, 0x4, [⟨0, 20, .ro, 0⟩]⟩,
  ⟨"EVR_OLDEST_SEQ", 0xD000014, 1, 0x4, [⟨0, 32, .ro, 0⟩]⟩,
  ⟨"EVR_HEAD_OFF", 0xD000018, 1, 0x4, [⟨0, 20, .ro, 0⟩]⟩,
  ⟨"EVR_BOOT_NUM", 0xD00001C, 1, 0x4, [⟨0, 32, .rw, 0⟩]⟩,
  ⟨"EVR_LOST_CNT", 0xD000020, 1, 0x4, [⟨0, 32, .rc, 0⟩]⟩,
  ⟨"EVR_SRC_SEL", 0xD000024, 1, 0x4, [⟨0, 11, .rw, 0⟩]⟩,
  ⟨"EVR_SRC_CFG", 0xD000028, 1, 0x4, [⟨0, 1, .rw, 1⟩, ⟨1, 1, .rw, 1⟩, ⟨2, 1, .rw, 1⟩, ⟨8, 8, .rw, 0x10⟩]⟩,
  ⟨"EVR_SRC_CNT", 0xD00002C, 1, 0x4, [⟨0, 16, .rc, 0⟩, ⟨16, 16, .rc, 0⟩]⟩,
  ⟨"EVR_IRQ", 0xD000030, 1, 0x4, [⟨0, 1, .w1c, 0⟩, ⟨1, 1, .w1c, 0⟩, ⟨8, 6, .rw, 0x3C⟩]⟩,
  ⟨"EVR_FETCH_CTL", 0xD000034, 1, 0x4, [⟨0, 32, .wo, 0⟩]⟩,
  ⟨"EVR_FETCH_STS", 0xD000038, 1, 0x4, [⟨0, 1, .ro, 0⟩, ⟨1, 1, .ro, 0⟩, ⟨2, 1, .ro, 0⟩]⟩,
  ⟨"EVR_IMPORT_CTL", 0xD00003C, 1, 0x4, [⟨0, 1, .wo, 0⟩]⟩,
  ⟨"EVR_CRASH_CTL", 0xD000040, 1, 0x4, [⟨0, 1, .w1s, 0⟩]⟩,
  ⟨"EVR_CRASH_STS", 0xD000044, 1, 0x4, [⟨0, 1, .ro, 0⟩, ⟨1, 1, .ro, 0⟩, ⟨2, 2, .ro, 0⟩, ⟨16, 16, .ro, 0⟩]⟩,
  ⟨"EVR_HEALTH", 0xD000048, 1, 0x4, [⟨0, 13, .ro, 0⟩, ⟨31, 1, .ro, 0⟩]⟩,
  ⟨"EVR_MSIX_TRIG", 0xD00004C, 1, 0x4, [⟨0, 8, .wo, 0⟩, ⟨8, 6, .wo, 0⟩]⟩,
  ⟨"EVR_ERR", 0xD000050, 1, 0x4, [⟨0, 1, .w1c, 0⟩, ⟨1, 1, .w1c, 0⟩, ⟨2, 1, .w1c, 0⟩, ⟨3, 1, .w1c, 0⟩, ⟨4, 1, .w1c, 0⟩, ⟨5, 1, .w1c, 0⟩]⟩,
  ⟨"EVR_LOST_CLEAR", 0xD000054, 1, 0x4, [⟨0, 32, .rc, 0⟩]⟩,
  ⟨"EVR_FETCH_WIN", 0xD001000, 1024, 0x4, [⟨0, 32, .ro, 0xFFFFFFFF⟩]⟩,
  ⟨"EVR_IMPORT_WIN", 0xD002000, 256, 0x4, [⟨0, 32, .wo, 0⟩]⟩,
  ⟨"EVR_RING_WIN", 0xD100000, 262144, 0x4, [⟨0, 32, .ro, 0xFFFFFFFF⟩]⟩]

/-- Registers of GLB: GLB_START_STS to GLB_LOST_CLEAR. -/
def regTableGlb : List RegDesc := [
  ⟨"GLB_START_STS", 0x200, 1, 0x4, [⟨0, 4, .ro, 0⟩, ⟨4, 2, .ro, 0⟩, ⟨6, 2, .ro, 0⟩, ⟨8, 4, .ro, 0⟩, ⟨12, 2, .ro, 0⟩, ⟨14, 1, .w1c, 0⟩]⟩,
  ⟨"GLB_START_CTL", 0x204, 1, 0x4, [⟨0, 1, .w1s, 0⟩]⟩,
  ⟨"GLB_START_CFG", 0x208, 1, 0x4, [⟨0, 8, .rw, 0x0A⟩, ⟨8, 8, .rw, 0x1E⟩]⟩,
  ⟨"GLB_RESET_CTL", 0x20C, 1, 0x4, [⟨0, 1, .wo, 0⟩]⟩,
  ⟨"GLB_START_TIME", 0x210, 1, 0x4, [⟨0, 32, .ro, 0⟩]⟩,
  ⟨"GLB_ID", 0x0, 1, 0x4, [⟨0, 16, .ro, 0x7416⟩, ⟨16, 8, .ro, 0xB1⟩, ⟨24, 8, .ro, 0x01⟩]⟩,
  ⟨"GLB_DEVTIME_LO", 0x8, 1, 0x4, [⟨0, 32, .ro, 0⟩]⟩,
  ⟨"GLB_DEVTIME_HI", 0xC, 1, 0x4, [⟨0, 32, .ro, 0⟩]⟩,
  ⟨"GLB_TIME_ALIGN", 0x10, 1, 0x4, [⟨0, 16, .ro, 0⟩, ⟨16, 1, .ro, 0⟩, ⟨17, 1, .ro, 0⟩]⟩,
  ⟨"GLB_CLK_STS", 0x14, 1, 0x4, [⟨0, 1, .ro, 0⟩, ⟨1, 16, .ro, 0⟩, ⟨17, 4, .ro, 0⟩, ⟨21, 2, .ro, 0⟩, ⟨23, 2, .ro, 0⟩, ⟨25, 1, .ro, 0⟩, ⟨26, 1, .ro, 0⟩, ⟨27, 1, .ro, 0⟩]⟩,
  ⟨"GLB_CLK_ERR", 0x18, 1, 0x4, [⟨0, 1, .w1c, 0⟩, ⟨1, 1, .w1c, 0⟩, ⟨2, 1, .w1c, 0⟩, ⟨3, 1, .w1c, 0⟩, ⟨4, 1, .w1c, 0⟩]⟩,
  ⟨"GLB_SCRATCH", 0x1C, 1, 0x4, [⟨0, 32, .rw, 0⟩]⟩,
  ⟨"GLB_LOST_CLEAR", 0x20, 1, 0x4, [⟨0, 32, .rc, 0⟩]⟩]

/-- Every register of the device (R595). -/
def regTable : List RegDesc :=
  regTableTmgA ++
  regTableTmgB ++
  regTablePou ++
  regTableHfp ++
  regTableLd ++
  regTableCre ++
  regTableFcd ++
  regTableLmc ++
  regTableBfc ++
  regTableFlkA ++
  regTableFlkB ++
  regTableDiu ++
  regTableCku ++
  regTableBpm ++
  regTablePhs ++
  regTableMgc ++
  regTableEvr ++
  regTableGlb

namespace Reg
/-! Fields of TMG. -/
def TMG_LOAM_RESERVED.rsv_mib : Field := ⟨0x8000130, 0, 32⟩
def TMG_LOAM_AVAIL.avail : Field := ⟨0x8000134, 0, 21⟩
def TMG_FLOOR_SUM.floor_sum : Field := ⟨0x8000138, 0, 21⟩
def TMG_ALLOW_SUM.allow_sum : Field := ⟨0x800013C, 0, 21⟩
def TMG_BEDROCK_AVAIL.avail : Field := ⟨0x8000140, 0, 21⟩
def TMG_SIZE_SUM.size_sum : Field := ⟨0x8000144, 0, 21⟩
def TMG_MAPC_HIT.hits : Field := ⟨0x8000148, 0, 32⟩
def TMG_MAPC_MISS.misses : Field := ⟨0x800014C, 0, 32⟩
def TMG_BUDGET_CFG.cfg_granules : Field := ⟨0x8000150, 0, 13⟩
def TMG_BUDGET_EFF.eff_mib : Field := ⟨0x8000154, 0, 21⟩
def TMG_DIRTY_GRAINS.grains : Field := ⟨0x8000158, 0, 29⟩
def TMG_SETTLE_OVERRIDE_MIB.override_mib : Field := ⟨0x800015C, 0, 32⟩
def TMG_LIFT_CFG.lift_heat : Field := ⟨0x8000000, 0, 8⟩
def TMG_LIFT_CFG.hold_us : Field := ⟨0x8000000, 16, 10⟩
def TMG_HEAT_CFG.decay_s : Field := ⟨0x8000004, 0, 8⟩
def TMG_SETTLE_CFG.age_s : Field := ⟨0x8000008, 0, 16⟩
def TMG_SETTLE_CFG.pslc_pct : Field := ⟨0x8000008, 16, 4⟩
def TMG_SETTLE_CFG.pslc_heat : Field := ⟨0x8000008, 20, 8⟩
def TMG_SETTLE_CFG2.fill_us : Field := ⟨0x800000C, 0, 10⟩
def TMG_SETTLE_CFG2.overlay_lift : Field := ⟨0x800000C, 16, 11⟩
def TMG_TD_CFG.topdress_gib : Field := ⟨0x8000010, 0, 8⟩
def TMG_TD_CFG.td_hi_pct : Field := ⟨0x8000010, 8, 7⟩
def TMG_TD_CFG.td_lo_pct : Field := ⟨0x8000010, 16, 7⟩
def TMG_TD_STS.overlays : Field := ⟨0x8000014, 0, 21⟩
def TMG_GOV_CFG.avg_mbps : Field := ⟨0x8000018, 0, 16⟩
def TMG_GOV_CFG.burst_mbps : Field := ⟨0x8000018, 16, 16⟩
def TMG_GOV_STS.used_pct : Field := ⟨0x800001C, 0, 8⟩
def TMG_GOV_STS.refused_class : Field := ⟨0x800001C, 8, 3⟩
def TMG_GOV_USED_MIB.used_mib : Field := ⟨0x8000020, 0, 32⟩
def TMG_GOV_REFUSED.refused_mib : Field := ⟨0x8000024, 0, 32⟩
def TMG_TILL_CFG.till_pct : Field := ⟨0x8000028, 0, 7⟩
def TMG_TILL_CFG.free_low_pct : Field := ⟨0x8000028, 8, 7⟩
def TMG_TILL_CFG.free_crit_pct : Field := ⟨0x8000028, 16, 7⟩
def TMG_FRAME_CFG.frame_low : Field := ⟨0x800002C, 0, 13⟩
def TMG_FRAME_STS.free_frames : Field := ⟨0x8000030, 0, 27⟩
def TMG_MIG_STS.lifts : Field := ⟨0x8000034, 0, 9⟩
def TMG_MIG_STS.settles : Field := ⟨0x8000034, 16, 9⟩
def TMG_MIG_STS.td_stop : Field := ⟨0x8000034, 25, 1⟩
def TMG_MIG_STS.frame_stop : Field := ⟨0x8000034, 26, 1⟩
def TMG_LIFT_CNT.lifts : Field := ⟨0x8000038, 0, 32⟩
def TMG_SETTLE_CNT.settles : Field := ⟨0x800003C, 0, 32⟩
def TMG_EVICT_CNT.evictions : Field := ⟨0x8000040, 0, 32⟩
def TMG_TILL_CNT.tilled : Field := ⟨0x8000044, 0, 32⟩
def TMG_RACE_CNT.settle_cancel : Field := ⟨0x8000048, 0, 16⟩
def TMG_RACE_CNT.evict_cancel : Field := ⟨0x8000048, 16, 16⟩
def TMG_WAIT_CNT.td_stops : Field := ⟨0x800004C, 0, 16⟩
def TMG_WAIT_CNT.frame_stops : Field := ⟨0x800004C, 16, 16⟩
def TMG_MIG_ERR.td_full : Field := ⟨0x8000050, 0, 1⟩
def TMG_MIG_ERR.frame_full : Field := ⟨0x8000050, 1, 1⟩
def TMG_MIG_ERR.gov_refuse : Field := ⟨0x8000050, 2, 1⟩
def TMG_MIG_ERR.no_erased : Field := ⟨0x8000050, 3, 1⟩
def TMG_MIG_ERR.overlay_crc : Field := ⟨0x8000050, 4, 1⟩
def TMG_MIG_ERR.repair_poison : Field := ⟨0x8000050, 5, 1⟩
def TMG_SETTLED_MIB.settled_mib : Field := ⟨0x8000054, 0, 32⟩
def TMG_LOST_CLEAR.lost_clears : Field := ⟨0x8000058, 0, 32⟩
def TMG_CKPT_CFG.pass_min : Field := ⟨0x8000180, 0, 8⟩
def TMG_CKPT_STS.pass_pct : Field := ⟨0x8000184, 0, 8⟩
def TMG_CKPT_STS.journal_kib : Field := ⟨0x8000184, 8, 24⟩
def TMG_PLOT_SEL.plot_id : Field := ⟨0x8000100, 0, 12⟩
def TMG_PLOT_DATA0.state : Field := ⟨0x8000104, 0, 3⟩
def TMG_PLOT_DATA0.mode : Field := ⟨0x8000104, 3, 2⟩
def TMG_PLOT_DATA0.depth : Field := ⟨0x8000104, 5, 1⟩
def TMG_PLOT_DATA0.pref_home : Field := ⟨0x8000104, 6, 1⟩
def TMG_PLOT_DATA0.cur_home : Field := ⟨0x8000104, 7, 1⟩
def TMG_PLOT_DATA0.generation : Field := ⟨0x8000104, 16, 16⟩
def TMG_PLOT_DATA1.dpa_base : Field := ⟨0x8000108, 0, 20⟩
def TMG_PLOT_DATA2.size : Field := ⟨0x800010C, 0, 21⟩
def TMG_PLOT_DATA3.floor : Field := ⟨0x8000110, 0, 21⟩
def TMG_PLOT_DATA4.dirty_allow : Field := ⟨0x8000114, 0, 21⟩
def TMG_PLOT_DATA5.resident : Field := ⟨0x8000118, 0, 27⟩
def TMG_PLOT_DATA6.dirty : Field := ⟨0x800011C, 0, 27⟩
def TMG_PLOT_DATA7.owner_mid : Field := ⟨0x8000120, 0, 12⟩
/-! Fields of POU. -/
def POU_ACL_SEL.entry : Field := ⟨0x3000200, 0, 6⟩
def POU_ACL_SEL.plot_id : Field := ⟨0x3000200, 6, 12⟩
def POU_ACL_SEL.acl_err : Field := ⟨0x3000200, 30, 1⟩
def POU_ACL_SEL.drain : Field := ⟨0x3000200, 31, 1⟩
def POU_ACL_DATA.acl_entry : Field := ⟨0x3000204, 0, 32⟩
def POU_ACL_DENY_CNT.denials : Field := ⟨0x3000208, 0, 32⟩
def POU_ACL_DENY_LAST.mid : Field := ⟨0x300020C, 0, 12⟩
def POU_ACL_DENY_LAST.plot_id : Field := ⟨0x300020C, 12, 12⟩
def POU_BP_CFG.soft_pct : Field := ⟨0x3000000, 0, 7⟩
def POU_BP_CFG.hard_pct : Field := ⟨0x3000000, 8, 7⟩
def POU_BP_CFG.max_delay_us : Field := ⟨0x3000000, 16, 10⟩
def POU_BP_STS.level_pct : Field := ⟨0x3000004, 0, 7⟩
def POU_BP_STS.partner_pct : Field := ⟨0x3000004, 7, 7⟩
def POU_BP_STS.stage : Field := ⟨0x3000004, 14, 2⟩
def POU_BP_STS.override : Field := ⟨0x3000004, 16, 1⟩
def POU_BP_STS.cfg_err : Field := ⟨0x3000004, 17, 1⟩
def POU_BP_DELAY_CNT.delayed : Field := ⟨0x3000008, 0, 32⟩
def POU_BP_STOP_TIME.stop_us : Field := ⟨0x300000C, 0, 32⟩
def POU_HAZ_STS.in_use : Field := ⟨0x3000010, 0, 14⟩
def POU_HAZ_STS.full_events : Field := ⟨0x3000010, 16, 16⟩
def POU_GPF_STS.ph2_busy : Field := ⟨0x3000014, 0, 1⟩
def POU_GPF_STS.ph2_late : Field := ⟨0x3000014, 1, 1⟩
def POU_GPF_STS.last_ph2_us : Field := ⟨0x3000014, 8, 16⟩
def POU_PLOT_SEL.plot_id : Field := ⟨0x3000020, 0, 12⟩
def POU_PLOT_SEQ_LO.seq_lo : Field := ⟨0x3000024, 0, 32⟩
def POU_PLOT_SEQ_HI.seq_hi : Field := ⟨0x3000028, 0, 32⟩
def POU_PLOT_DUR_LO.dur_lo : Field := ⟨0x300002C, 0, 32⟩
def POU_PLOT_DUR_HI.dur_hi : Field := ⟨0x3000030, 0, 32⟩
def POU_PLOT_DIRTY.dirty_grains : Field := ⟨0x3000034, 0, 29⟩
def POU_PLOT_DIRTY.over_allow : Field := ⟨0x3000034, 31, 1⟩
def POU_LOST_CLEAR.lost_clears : Field := ⟨0x3000038, 0, 32⟩
/-! Fields of HFP. -/
def HFP_BOND.grp0 : Field := ⟨0x1000000, 0, 2⟩
def HFP_BOND.grp1 : Field := ⟨0x1000000, 2, 2⟩
def HFP_BOND.grp2 : Field := ⟨0x1000000, 4, 2⟩
def HFP_BOND.grp3 : Field := ⟨0x1000000, 6, 2⟩
def HFP_BI_TIMEOUT.bi_timeout_us : Field := ⟨0x1000004, 0, 16⟩
def HFP_LOST_CLEAR.lost_clears : Field := ⟨0x1000008, 0, 32⟩
def HFP_PORT_CTL.enable : Field := ⟨0x1001000, 0, 1⟩
def HFP_PORT_CTL.cxl_allow : Field := ⟨0x1001000, 1, 1⟩
def HFP_PORT_CTL.plain_allow : Field := ⟨0x1001000, 2, 1⟩
def HFP_PORT_CTL.max_speed : Field := ⟨0x1001000, 3, 3⟩
def HFP_PORT_CTL.lat_opt_allow : Field := ⟨0x1001000, 6, 1⟩
def HFP_PORT_CTL.ide_required : Field := ⟨0x1001000, 7, 1⟩
def HFP_PORT_STS.link_up : Field := ⟨0x1001004, 0, 1⟩
def HFP_PORT_STS.speed : Field := ⟨0x1001004, 1, 3⟩
def HFP_PORT_STS.width : Field := ⟨0x1001004, 4, 3⟩
def HFP_PORT_STS.mode : Field := ⟨0x1001004, 7, 2⟩
def HFP_PORT_STS.lat_opt : Field := ⟨0x1001004, 9, 1⟩
def HFP_PORT_STS.mld : Field := ⟨0x1001004, 10, 1⟩
def HFP_PORT_STS.ide_mem : Field := ⟨0x1001004, 11, 1⟩
def HFP_PORT_STS.ide_io : Field := ⟨0x1001004, 12, 1⟩
def HFP_PORT_STS.viral : Field := ⟨0x1001004, 13, 1⟩
def HFP_PORT_ERR.link_down : Field := ⟨0x1001008, 0, 1⟩
def HFP_PORT_ERR.recovery : Field := ⟨0x1001008, 1, 1⟩
def HFP_PORT_ERR.width_loss : Field := ⟨0x1001008, 2, 1⟩
def HFP_PORT_ERR.ide_fail : Field := ⟨0x1001008, 3, 1⟩
def HFP_PORT_ERR.bi_timeout : Field := ⟨0x1001008, 4, 1⟩
def HFP_PORT_ERR.decoder_mode : Field := ⟨0x1001008, 5, 1⟩
def HFP_PORT_ERR.viral_rx : Field := ⟨0x1001008, 6, 1⟩
def HFP_PORT_CORR_CNT.corrected : Field := ⟨0x100100C, 0, 32⟩
def HFP_PORT_RECOV_CNT.recoveries : Field := ⟨0x1001010, 0, 16⟩
def HFP_PORT_RECOV_CNT.downs : Field := ⟨0x1001010, 16, 16⟩
/-! Fields of LD. -/
def CRE_RING_SEL.ring : Field := ⟨0x100001000, 0, 8⟩
def CRE_RING_CTL.enable : Field := ⟨0x100001004, 0, 1⟩
def CRE_RING_CTL.reset : Field := ⟨0x100001004, 1, 1⟩
def CRE_RING_CTL.weight : Field := ⟨0x100001004, 2, 4⟩
def CRE_RING_STS.state : Field := ⟨0x100001008, 0, 2⟩
def CRE_RING_STS.setup_err : Field := ⟨0x100001008, 2, 1⟩
def CRE_RING_STS.err_code : Field := ⟨0x100001008, 8, 8⟩
def CRE_RING_STS.inflight : Field := ⟨0x100001008, 16, 16⟩
def CRE_SQ_BASE_LO.base_lo : Field := ⟨0x10000100C, 0, 32⟩
def CRE_SQ_BASE_HI.base_hi : Field := ⟨0x100001010, 0, 32⟩
def CRE_SQ_SIZE.log2_entries : Field := ⟨0x100001014, 0, 5⟩
def CRE_CQ_BASE_LO.base_lo : Field := ⟨0x100001018, 0, 32⟩
def CRE_CQ_BASE_HI.base_hi : Field := ⟨0x10000101C, 0, 32⟩
def CRE_CQ_SIZE.log2_entries : Field := ⟨0x100001020, 0, 5⟩
def CRE_RING_IRQ.vector : Field := ⟨0x100001024, 0, 6⟩
def CRE_RING_IRQ.coal_count : Field := ⟨0x100001024, 8, 8⟩
def CRE_RING_IRQ.coal_time_us : Field := ⟨0x100001024, 16, 12⟩
def CRE_RING_CAP.rings_allowed : Field := ⟨0x100001028, 0, 9⟩
def CRE_SQ_TAIL.tail : Field := ⟨0x200000000, 0, 16⟩
def CRE_CQ_HEAD.head : Field := ⟨0x200000004, 0, 16⟩
def CRE_RING_PEEK.sq_head : Field := ⟨0x200000008, 0, 16⟩
def CRE_RING_PEEK.cq_tail : Field := ⟨0x200000008, 16, 16⟩
def CRE_RESULT_WIN.slot : Field := ⟨0x200000800, 0, 32⟩
def HFP_LD_ID.id : Field := ⟨0x100000000, 0, 32⟩
def HFP_LD_SELF.mid : Field := ⟨0x100000004, 0, 12⟩
def HFP_LD_SELF.side : Field := ⟨0x100000004, 12, 1⟩
def HFP_LD_CAP.max_granules : Field := ⟨0x100000008, 0, 21⟩
def HFP_LD_STATUS.memory_active : Field := ⟨0x10000000C, 0, 1⟩
def HFP_LD_STATUS.replace_advised : Field := ⟨0x10000000C, 1, 1⟩
def HFP_LD_STATUS.twin_mode : Field := ⟨0x10000000C, 2, 3⟩
def HFP_LD_STATUS.kiln_armed : Field := ⟨0x10000000C, 5, 1⟩
def HFP_LD_STATUS.ide_required : Field := ⟨0x10000000C, 6, 1⟩
def HFP_LD_DEVTIME_LO.time_lo : Field := ⟨0x100000018, 0, 32⟩
def HFP_LD_DEVTIME_HI.time_hi : Field := ⟨0x10000001C, 0, 32⟩
def HFP_LD_PLOT_SEL.plot_id : Field := ⟨0x100000100, 0, 12⟩
def HFP_LD_PLOT_STS0.state : Field := ⟨0x100000104, 0, 3⟩
def HFP_LD_PLOT_STS0.mode : Field := ⟨0x100000104, 3, 2⟩
def HFP_LD_PLOT_STS0.depth : Field := ⟨0x100000104, 5, 1⟩
def HFP_LD_PLOT_STS0.cur_home : Field := ⟨0x100000104, 6, 1⟩
def HFP_LD_PLOT_STS0.home_local : Field := ⟨0x100000104, 7, 1⟩
def HFP_LD_PLOT_STS0.rights : Field := ⟨0x100000104, 8, 2⟩
def HFP_LD_PLOT_STS0.visible : Field := ⟨0x100000104, 10, 1⟩
def HFP_LD_PLOT_STS0.generation : Field := ⟨0x100000104, 16, 16⟩
def HFP_LD_PLOT_STS1.dpa_base : Field := ⟨0x100000108, 0, 20⟩
def HFP_LD_PLOT_STS2.size : Field := ⟨0x10000010C, 0, 21⟩
def HFP_LD_PLOT_MAP.visible : Field := ⟨0x100000200, 0, 32⟩
/-! Fields of CRE. -/
def CRE_LD_SEL.ld : Field := ⟨0x2000000, 0, 8⟩
def CRE_LD_PRIV.rings_allowed : Field := ⟨0x2000004, 0, 9⟩
def CRE_LD_PRIV.admit_allow : Field := ⟨0x2000004, 9, 1⟩
def CRE_RINGS_ACTIVE.rings : Field := ⟨0x2000008, 0, 13⟩
def CRE_QUEUE_ERR_CNT.resets : Field := ⟨0x200000C, 0, 32⟩
def CRE_DOORBELL_DROP_CNT.drops : Field := ⟨0x2000010, 0, 32⟩
def CRE_LOST_CLEAR.lost_clears : Field := ⟨0x2000014, 0, 32⟩
/-! Fields of FCD. -/
def FCD_VICTIM_CFG.hold_us : Field := ⟨0x4000000, 0, 8⟩
def FCD_SLICE_SEL.slice : Field := ⟨0x4000004, 0, 4⟩
def FCD_SLICE_STS.victim_in_use : Field := ⟨0x4000008, 0, 10⟩
def FCD_SLICE_STS.fills_in_use : Field := ⟨0x4000008, 10, 8⟩
def FCD_SLICE_STS.victim_full_cnt : Field := ⟨0x4000008, 18, 14⟩
def FCD_HIT.hits : Field := ⟨0x400000C, 0, 32⟩
def FCD_MISS.misses : Field := ⟨0x4000010, 0, 32⟩
def FCD_VICTIM_HITS.read_hits : Field := ⟨0x4000014, 0, 16⟩
def FCD_VICTIM_HITS.cancels : Field := ⟨0x4000014, 16, 16⟩
def FCD_PAR_CNT.clean_par : Field := ⟨0x4000018, 0, 16⟩
def FCD_PAR_CNT.tag_corr : Field := ⟨0x4000018, 16, 16⟩
def FCD_PAR_LAST.set : Field := ⟨0x400001C, 0, 13⟩
def FCD_PAR_LAST.way : Field := ⟨0x400001C, 13, 4⟩
def FCD_PAR_LAST.slice : Field := ⟨0x400001C, 17, 4⟩
def FCD_PAR_LAST.dirty : Field := ⟨0x400001C, 21, 1⟩
def FCD_PAR_LAST.tag : Field := ⟨0x400001C, 22, 1⟩
def FCD_PAR_LAST.dir : Field := ⟨0x400001C, 23, 1⟩
def FCD_HARD_SLOTS.hard : Field := ⟨0x4000020, 0, 16⟩
def FCD_ERR.clean_par : Field := ⟨0x4000024, 0, 1⟩
def FCD_ERR.dirty_par : Field := ⟨0x4000024, 1, 1⟩
def FCD_ERR.tag_dual : Field := ⟨0x4000024, 2, 1⟩
def FCD_ERR.dir_par : Field := ⟨0x4000024, 3, 1⟩
def FCD_ERR.hard_slot : Field := ⟨0x4000024, 4, 1⟩
def FCD_ERR.bi_late : Field := ⟨0x4000024, 5, 1⟩
def FCD_DIR_STS.in_use : Field := ⟨0x4000040, 0, 26⟩
def FCD_DIR_COARSE.coarse : Field := ⟨0x4000044, 0, 26⟩
def FCD_DIR_EVICT_CNT.evictions : Field := ⟨0x4000048, 0, 32⟩
def FCD_BISNP_CNT.snoops : Field := ⟨0x400004C, 0, 32⟩
def FCD_BISNP_OUT.outstanding : Field := ⟨0x4000050, 0, 13⟩
def FCD_DIR_UNKNOWN_SETS.sets : Field := ⟨0x4000054, 0, 22⟩
def FCD_LOST_CLEAR.lost_clears : Field := ⟨0x4000058, 0, 32⟩
/-! Fields of LMC. -/
def LMC_POP.dimm_type : Field := ⟨0x5000000, 0, 2⟩
def LMC_POP.dpc2 : Field := ⟨0x5000000, 2, 1⟩
def LMC_POP.x8 : Field := ⟨0x5000000, 3, 1⟩
def LMC_POP.phys_ranks : Field := ⟨0x5000000, 4, 3⟩
def LMC_POP.stack : Field := ⟨0x5000000, 7, 2⟩
def LMC_POP.chan_gib : Field := ⟨0x5000000, 9, 13⟩
def LMC_POP.pop_err : Field := ⟨0x5000000, 22, 1⟩
def LMC_CFG.wcrc_en : Field := ⟨0x5000004, 0, 1⟩
def LMC_SPEED_CTL.target : Field := ⟨0x5000008, 0, 4⟩
def LMC_SPEED_CTL.change : Field := ⟨0x5000008, 4, 1⟩
def LMC_SPEED_STS.current : Field := ⟨0x500000C, 0, 4⟩
def LMC_SPEED_STS.busy : Field := ⟨0x500000C, 4, 1⟩
def LMC_SPEED_STS.refused : Field := ⟨0x500000C, 5, 1⟩
def LMC_SPEED_STS.aborted_steps : Field := ⟨0x500000C, 6, 10⟩
def LMC_SPEED_STS.fallback : Field := ⟨0x500000C, 16, 16⟩
def LMC_PAGE_CFG.open_thresh : Field := ⟨0x5000010, 0, 5⟩
def LMC_PAGE_CFG.idle_close : Field := ⟨0x5000010, 8, 8⟩
def LMC_PAGE_CFG.hit_cap : Field := ⟨0x5000010, 16, 5⟩
def LMC_WQ_CFG.hi_wm : Field := ⟨0x5000014, 0, 6⟩
def LMC_WQ_CFG.lo_wm : Field := ⟨0x5000014, 8, 6⟩
def LMC_QOS_SEL.class : Field := ⟨0x5000018, 0, 5⟩
def LMC_QOS_TARGET.lat_target_ns : Field := ⟨0x500001C, 0, 16⟩
def LMC_QOS_MISS_SEL.mid : Field := ⟨0x5000020, 0, 12⟩
def LMC_QOS_MISS_DATA.own : Field := ⟨0x5000024, 0, 16⟩
def LMC_QOS_MISS_DATA.caused : Field := ⟨0x5000024, 16, 16⟩
def LMC_RD_CFG.act_limit : Field := ⟨0x5000028, 0, 8⟩
def LMC_RD_CFG.throttle_acts : Field := ⟨0x5000028, 8, 8⟩
def LMC_RD_CFG.release_windows : Field := ⟨0x5000028, 16, 4⟩
def LMC_RD_CFG.prac_en : Field := ⟨0x5000028, 20, 1⟩
def LMC_THROTTLE_STS.active : Field := ⟨0x500002C, 0, 6⟩
def LMC_THROTTLE_STS.starts : Field := ⟨0x500002C, 16, 16⟩
def LMC_TRAIN_CFG.zq_ms : Field := ⟨0x5000030, 0, 8⟩
def LMC_TRAIN_CFG.osc_ms : Field := ⟨0x5000030, 8, 8⟩
def LMC_TRAIN_CFG.center_s : Field := ⟨0x5000030, 16, 4⟩
def LMC_TRAIN_CFG.drift_ps : Field := ⟨0x5000030, 20, 8⟩
def LMC_SR_CFG.idle_us : Field := ⟨0x5000034, 0, 16⟩
def LMC_PPR_STS.sppr_done : Field := ⟨0x5000038, 0, 16⟩
def LMC_PPR_STS.hppr_pending : Field := ⟨0x5000038, 16, 8⟩
def LMC_LOST_CLEAR.lost_clears : Field := ⟨0x500003C, 0, 32⟩
def LMC_CH_STS.state : Field := ⟨0x5001000, 0, 3⟩
def LMC_CH_STS.speed : Field := ⟨0x5001000, 3, 4⟩
def LMC_CH_STS.inorder_banks : Field := ⟨0x5001000, 8, 8⟩
def LMC_CH_STS.temp_max_c : Field := ⟨0x5001000, 16, 8⟩
def LMC_CH_ERR.ca_par : Field := ⟨0x5001004, 0, 1⟩
def LMC_CH_ERR.wcrc : Field := ⟨0x5001004, 1, 1⟩
def LMC_CH_ERR.train_fail : Field := ⟨0x5001004, 2, 1⟩
def LMC_CH_ERR.fallback : Field := ⟨0x5001004, 3, 1⟩
def LMC_CH_ERR.no_culprit : Field := ⟨0x5001004, 4, 1⟩
def LMC_CH_ERR.throttle_full : Field := ⟨0x5001004, 5, 1⟩
def LMC_CH_ERR.overtemp : Field := ⟨0x5001004, 6, 1⟩
def LMC_CH_ERR.ppr_exhausted : Field := ⟨0x5001004, 7, 1⟩
def LMC_CH_RD_LINES.reads : Field := ⟨0x5001008, 0, 32⟩
def LMC_CH_WR_LINES.writes : Field := ⟨0x500100C, 0, 32⟩
def LMC_CH_PAGE.row_hits : Field := ⟨0x5001010, 0, 16⟩
def LMC_CH_PAGE.row_misses : Field := ⟨0x5001010, 16, 16⟩
def LMC_CH_ACT.act_max : Field := ⟨0x5001014, 0, 8⟩
def LMC_CH_ACT.rfm_cnt : Field := ⟨0x5001014, 8, 24⟩
def LMC_CH_INORDER_CNT.entries : Field := ⟨0x5001018, 0, 32⟩
/-! Fields of BFC. -/
def BFC_IF_CFG.if_type : Field := ⟨0x7000000, 0, 1⟩
def BFC_IF_CFG.speed : Field := ⟨0x7000000, 1, 3⟩
def BFC_POP.dies_per_ch : Field := ⟨0x7000004, 0, 5⟩
def BFC_POP.planes4 : Field := ⟨0x7000004, 5, 1⟩
def BFC_POP.die_2tb : Field := ⟨0x7000004, 6, 1⟩
def BFC_POP.block_pairs : Field := ⟨0x7000004, 7, 16⟩
def BFC_POP.pop_err : Field := ⟨0x7000004, 23, 1⟩
def BFC_LAYOUT.strata_per_die : Field := ⟨0x7000008, 0, 16⟩
def BFC_LAYOUT.kiln_per_bed : Field := ⟨0x7000008, 16, 12⟩
def BFC_LAYOUT2.meta_per_bed : Field := ⟨0x700000C, 0, 10⟩
def BFC_LAYOUT2.op_pct : Field := ⟨0x700000C, 10, 6⟩
def BFC_HEDGE_CFG.hedge_x4 : Field := ⟨0x7000010, 0, 6⟩
def BFC_HEDGE_CFG.quar_x4 : Field := ⟨0x7000010, 8, 6⟩
def BFC_HEDGE_CFG.unquar_x4 : Field := ⟨0x7000010, 16, 6⟩
def BFC_HEDGE_CFG.ladder_4us : Field := ⟨0x7000010, 24, 8⟩
def BFC_SUSPEND_CFG.suspend_min_us : Field := ⟨0x7000014, 0, 8⟩
def BFC_SUSPEND_CFG.prog_max : Field := ⟨0x7000014, 8, 4⟩
def BFC_SUSPEND_CFG.erase_max : Field := ⟨0x7000014, 12, 5⟩
def BFC_REFRESH_CFG.refresh_bits : Field := ⟨0x7000018, 0, 8⟩
def BFC_REFRESH_CFG.rd_tlc_k : Field := ⟨0x7000018, 8, 8⟩
def BFC_REFRESH_CFG.rd_slc_10k : Field := ⟨0x7000018, 16, 8⟩
def BFC_REFRESH_CFG.scan_hours : Field := ⟨0x7000018, 24, 8⟩
def BFC_RETAIN_CFG.retain_days : Field := ⟨0x700001C, 0, 12⟩
def BFC_LADDER_CNT.retry_ok : Field := ⟨0x7000020, 0, 8⟩
def BFC_LADDER_CNT.recon_ok : Field := ⟨0x7000020, 8, 8⟩
def BFC_LADDER_CNT.twin_ok : Field := ⟨0x7000020, 16, 8⟩
def BFC_LADDER_CNT.poisoned : Field := ⟨0x7000020, 24, 8⟩
def BFC_HEDGE.hedges : Field := ⟨0x7000024, 0, 16⟩
def BFC_HEDGE.hedge_won : Field := ⟨0x7000024, 16, 16⟩
def BFC_KILN_STS.ready : Field := ⟨0x7000040, 0, 1⟩
def BFC_KILN_STS.flushing : Field := ⟨0x7000040, 1, 1⟩
def BFC_KILN_STS.last_complete : Field := ⟨0x7000040, 2, 1⟩
def BFC_KILN_STS.rate_gbps : Field := ⟨0x7000040, 8, 10⟩
def BFC_SPARE_STS.spare_pct : Field := ⟨0x7000044, 0, 7⟩
def BFC_SPARE_STS.quar_max : Field := ⟨0x7000044, 8, 3⟩
def BFC_SPARE_STS.lost_ch : Field := ⟨0x7000044, 16, 7⟩
def BFC_WEAR_SEL.bed : Field := ⟨0x7000048, 0, 2⟩
def BFC_WEAR_AVG.avg_pe : Field := ⟨0x700004C, 0, 16⟩
def BFC_WEAR_MAX.max_pe : Field := ⟨0x7000050, 0, 16⟩
def BFC_WEAR_ALLOW.allow_mib_day : Field := ⟨0x7000054, 0, 32⟩
def BFC_DIE_SEL.channel : Field := ⟨0x7000058, 0, 7⟩
def BFC_DIE_SEL.die : Field := ⟨0x7000058, 8, 4⟩
def BFC_DIE_STS.state : Field := ⟨0x700005C, 0, 2⟩
def BFC_DIE_STS.med_tlc : Field := ⟨0x700005C, 4, 12⟩
def BFC_DIE_STS.med_slc : Field := ⟨0x700005C, 16, 12⟩
def BFC_ERR.ladder_poison : Field := ⟨0x7000060, 0, 1⟩
def BFC_ERR.quarantine : Field := ⟨0x7000060, 1, 1⟩
def BFC_ERR.die_failed : Field := ⟨0x7000060, 2, 1⟩
def BFC_ERR.bad_block : Field := ⟨0x7000060, 3, 1⟩
def BFC_ERR.spare_low : Field := ⟨0x7000060, 4, 1⟩
def BFC_ERR.channel_lost : Field := ⟨0x7000060, 5, 1⟩
def BFC_ERR.kiln_not_ready : Field := ⟨0x7000060, 6, 1⟩
def BFC_LOST_CLEAR.lost_clears : Field := ⟨0x7000064, 0, 32⟩
def BFC_MEDIA_OFS_LO.ofs_lo : Field := ⟨0x7000068, 0, 32⟩
def BFC_MEDIA_OFS_HI.ofs_hi : Field := ⟨0x700006C, 0, 32⟩
def BFC_CH_STS.state : Field := ⟨0x7001000, 0, 2⟩
def BFC_CH_STS.speed : Field := ⟨0x7001000, 2, 3⟩
def BFC_CH_STS.remap_used : Field := ⟨0x7001000, 5, 9⟩
def BFC_CH_ERR.train_fail : Field := ⟨0x7001004, 0, 1⟩
def BFC_CH_ERR.fallback : Field := ⟨0x7001004, 1, 1⟩
def BFC_CH_ERR.prog_fail : Field := ⟨0x7001004, 2, 1⟩
def BFC_CH_ERR.erase_fail : Field := ⟨0x7001004, 3, 1⟩
def BFC_CH_ERR.die_timeout : Field := ⟨0x7001004, 4, 1⟩
def BFC_CH_RD_GRAINS.reads : Field := ⟨0x7001008, 0, 32⟩
def BFC_CH_PRG_GRAINS.programs : Field := ⟨0x700100C, 0, 32⟩
def BFC_CH_CORR.max_bits : Field := ⟨0x7001010, 0, 8⟩
def BFC_CH_CORR.over_thresh : Field := ⟨0x7001010, 8, 12⟩
def BFC_CH_CORR.uncorr : Field := ⟨0x7001010, 20, 12⟩
/-! Fields of FLK. -/
def FLK_TWIN_CFG.side : Field := ⟨0x9000000, 0, 1⟩
def FLK_TWIN_CFG.priority : Field := ⟨0x9000000, 1, 1⟩
def FLK_TWIN_CFG.takeback_en : Field := ⟨0x9000000, 2, 1⟩
def FLK_TWIN_CFG.takeback_s : Field := ⟨0x9000000, 8, 8⟩
def FLK_TWIN_CFG.resync_gbps : Field := ⟨0x9000000, 16, 8⟩
def FLK_TWIN_STS.mode : Field := ⟨0x9000004, 0, 3⟩
def FLK_TWIN_STS.link_lost : Field := ⟨0x9000004, 3, 1⟩
def FLK_TWIN_STS.alive_in : Field := ⟨0x9000004, 4, 2⟩
def FLK_TWIN_STS.fence_in : Field := ⟨0x9000004, 6, 1⟩
def FLK_TWIN_STS.fence_out : Field := ⟨0x9000004, 7, 1⟩
def FLK_TWIN_STS.copy_serving : Field := ⟨0x9000004, 8, 1⟩
def FLK_TWIN_STS.lease_valid : Field := ⟨0x9000004, 9, 1⟩
def FLK_TWIN_STS.ports_up : Field := ⟨0x9000004, 16, 8⟩
def FLK_EPOCH.epoch : Field := ⟨0x9000008, 0, 32⟩
def FLK_TWIN_EPOCH.twin_epoch : Field := ⟨0x900000C, 0, 32⟩
def FLK_LEASE_STS.silence_us : Field := ⟨0x9000010, 0, 8⟩
def FLK_LEASE_STS.lease_left_us : Field := ⟨0x9000010, 8, 8⟩
def FLK_LEASE_STS.lapses : Field := ⟨0x9000010, 16, 16⟩
def FLK_MIRROR_STS.retain_kib : Field := ⟨0x9000014, 0, 16⟩
def FLK_MIRROR_STS.nacks : Field := ⟨0x9000014, 16, 16⟩
def FLK_DIGEST_CNT.mismatches : Field := ⟨0x9000018, 0, 16⟩
def FLK_DIGEST_CNT.neither_24h : Field := ⟨0x9000018, 16, 8⟩
def FLK_DIGEST_LAST.group : Field := ⟨0x900001C, 0, 6⟩
def FLK_DIGEST_LAST.outcome : Field := ⟨0x900001C, 6, 2⟩
def FLK_DIGEST_LAST.period : Field := ⟨0x900001C, 8, 24⟩
def FLK_SAMPLE_CFG.rate_k : Field := ⟨0x9000020, 0, 8⟩
def FLK_SAMPLE_CNT.samples : Field := ⟨0x9000024, 0, 24⟩
def FLK_SAMPLE_CNT.mismatches : Field := ⟨0x9000024, 24, 8⟩
def FLK_SELFTEST_STS.coverage_pct : Field := ⟨0x9000028, 0, 8⟩
def FLK_CHANGE_CNT.clods : Field := ⟨0x900002C, 0, 32⟩
def FLK_RESYNC_STS.clods_left : Field := ⟨0x9000030, 0, 32⟩
def FLK_TWIN_HEALTH.spare_pct : Field := ⟨0x9000034, 0, 7⟩
def FLK_TWIN_HEALTH.replace_adv : Field := ⟨0x9000034, 7, 1⟩
def FLK_TWIN_HEALTH.quar_max : Field := ⟨0x9000034, 8, 3⟩
def FLK_TWIN_HEALTH.selftest_fail : Field := ⟨0x9000034, 11, 1⟩
def FLK_TWIN_HEALTH.age_ms : Field := ⟨0x9000034, 16, 16⟩
def FLK_STALE_CNT.rejected : Field := ⟨0x9000038, 0, 16⟩
def FLK_STALE_CNT.bounced : Field := ⟨0x9000038, 16, 16⟩
def FLK_TWIN_ERR.link_lost : Field := ⟨0x900003C, 0, 1⟩
def FLK_TWIN_ERR.alive_fault : Field := ⟨0x900003C, 1, 1⟩
def FLK_TWIN_ERR.fence_line_fault : Field := ⟨0x900003C, 2, 1⟩
def FLK_TWIN_ERR.fence_timeout : Field := ⟨0x900003C, 3, 1⟩
def FLK_TWIN_ERR.digest_mismatch : Field := ⟨0x900003C, 4, 1⟩
def FLK_TWIN_ERR.self_check_fail : Field := ⟨0x900003C, 5, 1⟩
def FLK_TWIN_ERR.sample_mismatch : Field := ⟨0x900003C, 6, 1⟩
def FLK_TWIN_ERR.selftest_fail : Field := ⟨0x900003C, 7, 1⟩
def FLK_TWIN_ERR.health_missing : Field := ⟨0x900003C, 8, 1⟩
def FLK_TWIN_ERR.cap_mismatch : Field := ⟨0x900003C, 9, 1⟩
def FLK_TWIN_ERR.priority_conflict : Field := ⟨0x900003C, 10, 1⟩
def FLK_TWIN_ERR.takeback_abort : Field := ⟨0x900003C, 11, 1⟩
def FLK_TWIN_ERR.side_conflict : Field := ⟨0x900003C, 12, 1⟩
def FLK_LOST_CLEAR.lost_clears : Field := ⟨0x9000040, 0, 32⟩
def FLK_TP_STS.up : Field := ⟨0x9001000, 0, 1⟩
def FLK_TP_STS.lanes : Field := ⟨0x9001000, 1, 3⟩
def FLK_TP_CORR_CNT.corrected : Field := ⟨0x9001004, 0, 32⟩
def FLK_TP_RETRY_CNT.retries : Field := ⟨0x9001008, 0, 16⟩
def FLK_TP_RETRY_CNT.downs : Field := ⟨0x9001008, 16, 16⟩
def FLK_CHAIN_CFG.node_id : Field := ⟨0x9000800, 0, 12⟩
def FLK_CHAIN_CFG.chain_en : Field := ⟨0x9000800, 12, 1⟩
def FLK_CHAIN_CFG.max_hops : Field := ⟨0x9000800, 13, 6⟩
def FLK_CHAIN_CFG.resp_ms : Field := ⟨0x9000800, 19, 4⟩
def FLK_CHAIN_EPOCH.epoch : Field := ⟨0x9000804, 0, 32⟩
def FLK_ROUTE_SEL.entry : Field := ⟨0x9000808, 0, 8⟩
def FLK_ROUTE_DATA.prefix : Field := ⟨0x900080C, 0, 12⟩
def FLK_ROUTE_DATA.prefix_len : Field := ⟨0x900080C, 12, 4⟩
def FLK_ROUTE_DATA.port : Field := ⟨0x900080C, 16, 3⟩
def FLK_ROUTE_DATA.alt_port : Field := ⟨0x900080C, 19, 3⟩
def FLK_ROUTE_DATA.alt_valid : Field := ⟨0x900080C, 22, 1⟩
def FLK_ROUTE_DATA.valid : Field := ⟨0x900080C, 31, 1⟩
def FLK_WIN_SEL.window : Field := ⟨0x9000810, 0, 6⟩
def FLK_WIN_DATA0.local_base : Field := ⟨0x9000814, 0, 20⟩
def FLK_WIN_DATA1.size : Field := ⟨0x9000818, 0, 20⟩
def FLK_WIN_DATA2.remote_base : Field := ⟨0x900081C, 0, 20⟩
def FLK_WIN_DATA3.pri_node : Field := ⟨0x9000820, 0, 12⟩
def FLK_WIN_DATA3.alt_node : Field := ⟨0x9000820, 12, 12⟩
def FLK_WIN_DATA3.alt_valid : Field := ⟨0x9000820, 24, 1⟩
def FLK_WIN_DATA3.valid : Field := ⟨0x9000820, 31, 1⟩
def FLK_WIN_DATA4.pri_epoch : Field := ⟨0x9000824, 0, 32⟩
def FLK_WIN_DATA5.alt_epoch : Field := ⟨0x9000828, 0, 32⟩
def FLK_INGRESS_SEL.mid : Field := ⟨0x900082C, 0, 8⟩
def FLK_INGRESS_DATA.class : Field := ⟨0x9000830, 0, 5⟩
def FLK_INGRESS_DATA.valid : Field := ⟨0x9000830, 31, 1⟩
def FLK_CLASS_SEL.class : Field := ⟨0x9000834, 0, 5⟩
def FLK_CLASS_BIND.node : Field := ⟨0x9000838, 0, 12⟩
def FLK_CLASS_BIND.valid : Field := ⟨0x9000838, 31, 1⟩
def FLK_CHAIN_STS.ports_up : Field := ⟨0x900083C, 0, 8⟩
def FLK_CHAIN_STS.inflight : Field := ⟨0x900083C, 8, 13⟩
def FLK_CHAIN_FWD_CNT.forwarded : Field := ⟨0x9000840, 0, 32⟩
def FLK_CHAIN_DROP.no_route : Field := ⟨0x9000844, 0, 16⟩
def FLK_CHAIN_DROP.hop_expired : Field := ⟨0x9000844, 16, 16⟩
def FLK_CHAIN_ABORT.aborts : Field := ⟨0x9000848, 0, 16⟩
def FLK_CHAIN_ABORT.resends : Field := ⟨0x9000848, 16, 16⟩
def FLK_CHAIN_ERR.win_overlap : Field := ⟨0x900084C, 0, 1⟩
def FLK_CHAIN_ERR.class_refused : Field := ⟨0x900084C, 1, 1⟩
def FLK_CHAIN_ERR.stale : Field := ⟨0x900084C, 2, 1⟩
def FLK_CHAIN_ERR.exhausted : Field := ⟨0x900084C, 3, 1⟩
def FLK_CHAIN_ERR.dedup_full : Field := ⟨0x900084C, 4, 1⟩
def FLK_CHAIN_ERR.snoop_late : Field := ⟨0x900084C, 5, 1⟩
def FLK_CP_STS.up : Field := ⟨0x9002000, 0, 1⟩
def FLK_CP_STS.lanes : Field := ⟨0x9002000, 1, 3⟩
def FLK_CP_CORR_CNT.corrected : Field := ⟨0x9002004, 0, 32⟩
def FLK_CP_RETRY_CNT.retries : Field := ⟨0x9002008, 0, 16⟩
def FLK_CP_RETRY_CNT.downs : Field := ⟨0x9002008, 16, 16⟩
/-! Fields of DIU. -/
def DIU_SCRUB_CFG.period_h : Field := ⟨0x6000000, 0, 8⟩
def DIU_SCRUB_CFG.enable : Field := ⟨0x6000000, 8, 1⟩
def DIU_SCRUB_STS.progress_pct : Field := ⟨0x6000004, 0, 7⟩
def DIU_SCRUB_STS.passes : Field := ⟨0x6000004, 8, 8⟩
def DIU_SCRUB_STS.dropped : Field := ⟨0x6000004, 16, 16⟩
def DIU_CFG.ce_event_thresh : Field := ⟨0x6000008, 0, 16⟩
def DIU_CE_SEL.channel : Field := ⟨0x600000C, 0, 4⟩
def DIU_CE_DATA.corrected : Field := ⟨0x6000010, 0, 16⟩
def DIU_CE_DATA.uncorrectable : Field := ⟨0x6000010, 16, 16⟩
def DIU_CE_LOG_SEL.entry : Field := ⟨0x6000014, 0, 6⟩
def DIU_CE_LOG_LO.lpa_lo : Field := ⟨0x6000018, 0, 32⟩
def DIU_CE_LOG_HI.lpa_hi : Field := ⟨0x600001C, 0, 5⟩
def DIU_CE_LOG_HI.device : Field := ⟨0x600001C, 5, 4⟩
def DIU_CE_LOG_HI.count : Field := ⟨0x600001C, 9, 2⟩
def DIU_CE_LOG_HI.hard : Field := ⟨0x600001C, 11, 1⟩
def DIU_CE_LOG_HI.valid : Field := ⟨0x600001C, 12, 1⟩
def DIU_HARD_CNT.loam_hard : Field := ⟨0x6000020, 0, 16⟩
def DIU_HARD_CNT.sram_hard : Field := ⟨0x6000020, 16, 16⟩
def DIU_MERGE_STS.in_use : Field := ⟨0x6000024, 0, 6⟩
def DIU_MERGE_STS.waits : Field := ⟨0x6000024, 16, 16⟩
def DIU_UE_REPAIR.base_ok : Field := ⟨0x6000028, 0, 8⟩
def DIU_UE_REPAIR.twin_ok : Field := ⟨0x6000028, 8, 8⟩
def DIU_UE_REPAIR.poisoned : Field := ⟨0x6000028, 16, 8⟩
def DIU_POISON_STS.entries : Field := ⟨0x600002C, 0, 17⟩
def DIU_POISON_STS.overflow : Field := ⟨0x600002C, 17, 1⟩
def DIU_POISON_CNT.created : Field := ⟨0x6000030, 0, 32⟩
def DIU_SPARE_STS.field_repairs : Field := ⟨0x6000034, 0, 16⟩
def DIU_SPARE_STS.exhausted : Field := ⟨0x6000034, 16, 8⟩
def DIU_ERR.loam_ue : Field := ⟨0x6000038, 0, 1⟩
def DIU_ERR.loam_hard : Field := ⟨0x6000038, 1, 1⟩
def DIU_ERR.sram_hard : Field := ⟨0x6000038, 2, 1⟩
def DIU_ERR.spare_exhausted : Field := ⟨0x6000038, 3, 1⟩
def DIU_ERR.device_degraded : Field := ⟨0x6000038, 4, 1⟩
def DIU_ERR.log_full : Field := ⟨0x6000038, 5, 1⟩
def DIU_ERR.poison_full : Field := ⟨0x6000038, 6, 1⟩
def DIU_LOST_CLEAR.lost_clears : Field := ⟨0x600003C, 0, 32⟩
/-! Fields of CKU. -/
def CKU_STS.root_ok : Field := ⟨0xB000000, 0, 1⟩
def CKU_STS.kat_fail : Field := ⟨0xB000000, 1, 1⟩
def CKU_STS.keys_ready : Field := ⟨0xB000000, 2, 1⟩
def CKU_XTS_STS.in_service : Field := ⟨0xB000004, 0, 16⟩
def CKU_GCM_STS.in_service : Field := ⟨0xB000008, 0, 24⟩
def CKU_GCM_STS.spares : Field := ⟨0xB000008, 24, 5⟩
def CKU_GCM_SEL.pair : Field := ⟨0xB00000C, 0, 5⟩
def CKU_GCM_ROLE.role : Field := ⟨0xB000010, 0, 3⟩
def CKU_GCM_EPOCH.epoch : Field := ⟨0xB000014, 0, 32⟩
def CKU_PLOT_SEL.plot_id : Field := ⟨0xB000018, 0, 12⟩
def CKU_PLOT_KEYGEN.erase_count : Field := ⟨0xB00001C, 0, 16⟩
def CKU_PLOT_KEYGEN.generation : Field := ⟨0xB00001C, 16, 16⟩
def CKU_CHECK_CNT.xts_mismatch : Field := ⟨0xB000020, 0, 16⟩
def CKU_CHECK_CNT.gcm_mismatch : Field := ⟨0xB000020, 16, 16⟩
def CKU_TAG_FAIL.grain : Field := ⟨0xB000024, 0, 16⟩
def CKU_TAG_FAIL.frame : Field := ⟨0xB000024, 16, 16⟩
def CKU_LEN_ERR.last_mid : Field := ⟨0xB000028, 0, 12⟩
def CKU_LEN_ERR.count : Field := ⟨0xB000028, 16, 16⟩
def CKU_KEY_CACHE.gcm_misses : Field := ⟨0xB00002C, 0, 16⟩
def CKU_KEY_CACHE.kdf_runs : Field := ⟨0xB00002C, 16, 16⟩
def CKU_LINK_KEY_STS.twin_keyed : Field := ⟨0xB000030, 0, 1⟩
def CKU_LINK_KEY_STS.chain_keyed : Field := ⟨0xB000030, 1, 8⟩
def CKU_LINK_KEY_STS.rekeys : Field := ⟨0xB000030, 16, 16⟩
def CKU_KEYWIN_CTL.slot : Field := ⟨0xB000040, 0, 8⟩
def CKU_KEYWIN_CTL.kind : Field := ⟨0xB000040, 8, 2⟩
def CKU_KEYWIN_CTL.load : Field := ⟨0xB000040, 10, 1⟩
def CKU_KEYWIN_CTL.clear : Field := ⟨0xB000040, 11, 1⟩
def CKU_KEYWIN_DATA.data : Field := ⟨0xB000044, 0, 32⟩
def CKU_ERR.xts_mismatch : Field := ⟨0xB000074, 0, 1⟩
def CKU_ERR.xts_core_out : Field := ⟨0xB000074, 1, 1⟩
def CKU_ERR.gcm_mismatch : Field := ⟨0xB000074, 2, 1⟩
def CKU_ERR.gcm_pair_out : Field := ⟨0xB000074, 3, 1⟩
def CKU_ERR.no_spare : Field := ⟨0xB000074, 4, 1⟩
def CKU_ERR.len_err : Field := ⟨0xB000074, 5, 1⟩
def CKU_ERR.tag_fail : Field := ⟨0xB000074, 6, 1⟩
def CKU_ERR.kat_fail : Field := ⟨0xB000074, 7, 1⟩
def CKU_ERR.stale_assign : Field := ⟨0xB000074, 8, 1⟩
def CKU_ERR.key_write_denied : Field := ⟨0xB000074, 9, 1⟩
def CKU_LOST_CLEAR.lost_clears : Field := ⟨0xB000078, 0, 32⟩
/-! Fields of BPM. -/
def BPM_POOL_SEL.pool : Field := ⟨0xA000000, 0, 2⟩
def BPM_POOL_CFG.count_units : Field := ⟨0xA000004, 0, 8⟩
def BPM_POOL_USABLE.usable : Field := ⟨0xA000008, 0, 24⟩
def BPM_POOL_FREE.free : Field := ⟨0xA00000C, 0, 24⟩
def BPM_POOL_CACHE.cached : Field := ⟨0xA000010, 0, 11⟩
def BPM_POOL_WM.low_pct : Field := ⟨0xA000014, 0, 7⟩
def BPM_POOL_GRANTS.grants : Field := ⟨0xA000018, 0, 32⟩
def BPM_POOL_EMPTY_CNT.empties : Field := ⟨0xA00001C, 0, 16⟩
def BPM_POOL_EMPTY_CNT.low_events : Field := ⟨0xA00001C, 16, 16⟩
def BPM_REGION.region_mib : Field := ⟨0xA000020, 0, 16⟩
def BPM_REGION.meta_bufs : Field := ⟨0xA000020, 16, 16⟩
def BPM_BAD_FREE_LAST.mid : Field := ⟨0xA000024, 0, 12⟩
def BPM_BAD_FREE_LAST.block : Field := ⟨0xA000024, 12, 4⟩
def BPM_BAD_FREE_LAST.pool : Field := ⟨0xA000024, 16, 2⟩
def BPM_BAD_FREE_LAST.reason : Field := ⟨0xA000024, 18, 2⟩
def BPM_BAD_FREE_IDX.index : Field := ⟨0xA000028, 0, 23⟩
def BPM_BAD_FREE_CNT.rejects : Field := ⟨0xA00002C, 0, 16⟩
def BPM_BAD_FREE_CNT.share_full : Field := ⟨0xA00002C, 16, 16⟩
def BPM_QUAR.quarantined : Field := ⟨0xA000030, 0, 16⟩
def BPM_ERR.bad_free : Field := ⟨0xA000034, 0, 1⟩
def BPM_ERR.foreign_access : Field := ⟨0xA000034, 1, 1⟩
def BPM_ERR.share_full : Field := ⟨0xA000034, 2, 1⟩
def BPM_ERR.ptr_mismatch : Field := ⟨0xA000034, 3, 1⟩
def BPM_ERR.pool_low : Field := ⟨0xA000034, 4, 1⟩
def BPM_ERR.untrusted_read : Field := ⟨0xA000034, 5, 1⟩
def BPM_ERR.record_ue : Field := ⟨0xA000034, 6, 1⟩
def BPM_LOST_CLEAR.lost_clears : Field := ⟨0xA000038, 0, 32⟩
/-! Fields of PHS. -/
def PHS_STATE.state : Field := ⟨0xC000000, 0, 3⟩
def PHS_STATE.pwr_req : Field := ⟨0xC000000, 3, 1⟩
def PHS_STATE.fail_latched : Field := ⟨0xC000000, 4, 1⟩
def PHS_STATE.last_cause : Field := ⟨0xC000000, 5, 5⟩
def PHS_STATE.last_kind : Field := ⟨0xC000000, 10, 3⟩
def PHS_PWR_CTL.off_req : Field := ⟨0xC000004, 0, 1⟩
def PHS_PWR_CTL.cycle_req : Field := ⟨0xC000004, 1, 1⟩
def PHS_SEQ_CFG.pg_timeout_ms : Field := ⟨0xC000008, 0, 8⟩
def PHS_SEQ_CFG.step_ms : Field := ⟨0xC000008, 8, 4⟩
def PHS_SEQ_CFG.off_timeout_ms : Field := ⟨0xC000008, 12, 8⟩
def PHS_SEQ_CFG.min_off_10ms : Field := ⟨0xC000008, 20, 8⟩
def PHS_RAIL_STS.en_out : Field := ⟨0xC00000C, 0, 7⟩
def PHS_RAIL_STS.pg_in : Field := ⟨0xC00000C, 7, 7⟩
def PHS_RAIL_STS.failed : Field := ⟨0xC00000C, 14, 9⟩
def PHS_RST_SEL.output : Field := ⟨0xC000010, 0, 4⟩
def PHS_RST_CFG.stretch_ms : Field := ⟨0xC000014, 0, 8⟩
def PHS_RST_CFG.sw_assert : Field := ⟨0xC000014, 8, 1⟩
def PHS_RST_CFG.asserted : Field := ⟨0xC000014, 9, 1⟩
def PHS_MON_SEL.channel : Field := ⟨0xC000018, 0, 5⟩
def PHS_MON_CTL.enable : Field := ⟨0xC00001C, 0, 1⟩
def PHS_MON_CTL.action : Field := ⟨0xC00001C, 1, 2⟩
def PHS_MON_CTL.digital : Field := ⟨0xC00001C, 3, 1⟩
def PHS_MON_CTL.warn_filter : Field := ⟨0xC00001C, 4, 4⟩
def PHS_MON_CTL.fault_filter : Field := ⟨0xC00001C, 8, 4⟩
def PHS_MON_SCALE.gain_q10 : Field := ⟨0xC000020, 0, 20⟩
def PHS_MON_SCALE.offset_mv : Field := ⟨0xC000020, 20, 12⟩
def PHS_MON_WARN.warn_lo : Field := ⟨0xC000024, 0, 16⟩
def PHS_MON_WARN.warn_hi : Field := ⟨0xC000024, 16, 16⟩
def PHS_MON_FAULT.fault_lo : Field := ⟨0xC000028, 0, 16⟩
def PHS_MON_FAULT.fault_hi : Field := ⟨0xC000028, 16, 16⟩
def PHS_MON_VAL.value : Field := ⟨0xC00002C, 0, 16⟩
def PHS_MON_VAL.warn : Field := ⟨0xC00002C, 16, 1⟩
def PHS_MON_VAL.fault : Field := ⟨0xC00002C, 17, 1⟩
def PHS_WARN_FLAGS.warn : Field := ⟨0xC000030, 0, 24⟩
def PHS_FAULT_FLAGS.fault : Field := ⟨0xC000034, 0, 24⟩
def PHS_HOLDUP_CFG.eff_pct : Field := ⟨0xC000038, 0, 7⟩
def PHS_HOLDUP_CFG.margin_pct : Field := ⟨0xC000038, 7, 7⟩
def PHS_HOLDUP_CFG.fixed_ms : Field := ⟨0xC000038, 14, 10⟩
def PHS_HOLDUP_CFG.test_min : Field := ⟨0xC000038, 24, 8⟩
def PHS_HOLDUP_CFG2.flush_w : Field := ⟨0xC00003C, 0, 16⟩
def PHS_HOLDUP_CFG2.vmin_10mv : Field := ⟨0xC00003C, 16, 16⟩
def PHS_HOLDUP_CAP.cap_mf : Field := ⟨0xC000040, 0, 24⟩
def PHS_HOLDUP_CAP.valid : Field := ⟨0xC000040, 24, 1⟩
def PHS_HOLDUP_CAP.test_busy : Field := ⟨0xC000040, 25, 1⟩
def PHS_HOLDUP_E.e_use_j : Field := ⟨0xC000044, 0, 16⟩
def PHS_HOLDUP_E.e_net_j : Field := ⟨0xC000044, 16, 16⟩
def PHS_BUDGET_PUB.pub_mib : Field := ⟨0xC000048, 0, 21⟩
def PHS_BUDGET_PUB.valid : Field := ⟨0xC000048, 21, 1⟩
def PHS_BUDGET_PUB.kiln_capped : Field := ⟨0xC000048, 22, 1⟩
def PHS_KILN_CTL.arm : Field := ⟨0xC00004C, 0, 1⟩
def PHS_KILN_CTL.flush_now : Field := ⟨0xC00004C, 1, 1⟩
def PHS_KILN_STS.armed : Field := ⟨0xC000050, 0, 1⟩
def PHS_KILN_STS.flushing : Field := ⟨0xC000050, 1, 1⟩
def PHS_KILN_STS.last_result : Field := ⟨0xC000050, 2, 2⟩
def PHS_KILN_STS.last_cause : Field := ⟨0xC000050, 4, 5⟩
def PHS_KILN_STS.last_ms : Field := ⟨0xC000050, 16, 16⟩
def PHS_KILN_IMG_LO.img_lo : Field := ⟨0xC000054, 0, 32⟩
def PHS_KILN_IMG_HI.img_hi : Field := ⟨0xC000058, 0, 32⟩
def PHS_SNAP_CTL.slot : Field := ⟨0xC00005C, 0, 3⟩
def PHS_SNAP_CTL.count : Field := ⟨0xC00005C, 3, 4⟩
def PHS_SNAP_CTL.clear : Field := ⟨0xC00005C, 7, 1⟩
def PHS_SNAP_HDR.cause : Field := ⟨0xC000060, 0, 5⟩
def PHS_SNAP_HDR.kind : Field := ⟨0xC000060, 5, 2⟩
def PHS_SNAP_HDR.state : Field := ⟨0xC000060, 7, 3⟩
def PHS_SNAP_HDR.valid : Field := ⟨0xC000060, 10, 1⟩
def PHS_SNAP_TIME_LO.time_lo : Field := ⟨0xC000064, 0, 32⟩
def PHS_SNAP_TIME_HI.time_hi : Field := ⟨0xC000068, 0, 32⟩
def PHS_ERR.rail_fault : Field := ⟨0xC00006C, 0, 1⟩
def PHS_ERR.pg_timeout : Field := ⟨0xC00006C, 1, 1⟩
def PHS_ERR.off_timeout : Field := ⟨0xC00006C, 2, 1⟩
def PHS_ERR.power_fail : Field := ⟨0xC00006C, 3, 1⟩
def PHS_ERR.cap_test_invalid : Field := ⟨0xC00006C, 4, 1⟩
def PHS_ERR.holdup_low : Field := ⟨0xC00006C, 5, 1⟩
def PHS_ERR.kiln_incomplete : Field := ⟨0xC00006C, 6, 1⟩
def PHS_ERR.arm_refused : Field := ⟨0xC00006C, 7, 1⟩
def PHS_ERR.vpp_present : Field := ⟨0xC00006C, 8, 1⟩
def PHS_LOST_CLEAR.lost_clears : Field := ⟨0xC000070, 0, 32⟩
def PHS_SNAP_VAL.value : Field := ⟨0xC000080, 0, 16⟩
def PHS_SNAP_VAL.warn : Field := ⟨0xC000080, 16, 1⟩
def PHS_SNAP_VAL.fault : Field := ⟨0xC000080, 17, 1⟩
/-! Fields of MGC. -/
def MGC_CORE_STS.running : Field := ⟨0xE000000, 0, 6⟩
def MGC_RST_CAUSE.cause : Field := ⟨0xE000004, 0, 3⟩
def MGC_RST_CAUSE.wdt_cnt : Field := ⟨0xE000004, 8, 8⟩
def MGC_RST_CAUSE.lockstep_cnt : Field := ⟨0xE000004, 16, 8⟩
def MGC_RST_CTL.mgmt_reset : Field := ⟨0xE000008, 0, 1⟩
def MGC_BOOT_STS.bank : Field := ⟨0xE00000C, 0, 1⟩
def MGC_BOOT_STS.no_option : Field := ⟨0xE00000C, 1, 1⟩
def MGC_BOOT_STS.opt_copy : Field := ⟨0xE00000C, 2, 1⟩
def MGC_BOOT_STS.fallback : Field := ⟨0xE00000C, 3, 1⟩
def MGC_BOOT_STS.count_a : Field := ⟨0xE00000C, 4, 2⟩
def MGC_BOOT_STS.count_b : Field := ⟨0xE00000C, 6, 2⟩
def MGC_BOOT_STS.valid : Field := ⟨0xE00000C, 8, 4⟩
def MGC_BOOT_CTL.boot_ok : Field := ⟨0xE000010, 0, 1⟩
def MGC_BOOT_SEQ.seq : Field := ⟨0xE000014, 0, 32⟩
def MGC_WDT_CFG.timeout_ms : Field := ⟨0xE000018, 0, 16⟩
def MGC_WDT_CFG.enable : Field := ⟨0xE000018, 16, 1⟩
def MGC_WDT_KICK.kick : Field := ⟨0xE00001C, 0, 16⟩
def MGC_WDT_STS.remaining_ms : Field := ⟨0xE000020, 0, 16⟩
def MGC_WDT_STS.warned : Field := ⟨0xE000020, 16, 1⟩
def MGC_WDT_STS.bad_kicks : Field := ⟨0xE000020, 24, 8⟩
def MGC_CS_DESC.word : Field := ⟨0xE000024, 0, 32⟩
def MGC_CS_CMPL_LO.cmpl_lo : Field := ⟨0xE000034, 0, 32⟩
def MGC_CS_CMPL_HI.cmpl_hi : Field := ⟨0xE000038, 0, 32⟩
def MGC_CS_CTL.flush : Field := ⟨0xE00003C, 0, 1⟩
def MGC_CS_STS.busy_a : Field := ⟨0xE000040, 0, 1⟩
def MGC_CS_STS.busy_b : Field := ⟨0xE000040, 1, 1⟩
def MGC_CS_STS.suspended : Field := ⟨0xE000040, 2, 1⟩
def MGC_CS_STS.normal : Field := ⟨0xE000040, 8, 6⟩
def MGC_CS_STS.urgent : Field := ⟨0xE000040, 14, 3⟩
def MGC_CS_STS.cmpl : Field := ⟨0xE000040, 17, 5⟩
def MGC_CS_ERR.busy_fault : Field := ⟨0xE000044, 0, 1⟩
def MGC_CS_ERR.desc_err : Field := ⟨0xE000044, 1, 1⟩
def MGC_CS_ERR.uncorr : Field := ⟨0xE000044, 2, 1⟩
def MGC_CS_ERR.erase_fail : Field := ⟨0xE000044, 3, 1⟩
def MGC_CS_ERR.verify_fail : Field := ⟨0xE000044, 4, 1⟩
def MGC_CS_ERR.protected : Field := ⟨0xE000044, 5, 1⟩
def MGC_CS_ERR.corr : Field := ⟨0xE000044, 16, 16⟩
def MGC_CS_FAULT_ADDR.addr : Field := ⟨0xE000048, 0, 26⟩
def MGC_CS_WEAR.max_cycles : Field := ⟨0xE00004C, 0, 17⟩
def MGC_CS_WEAR_LIMIT.limit : Field := ⟨0xE000050, 0, 17⟩
def MGC_FUSE_STS.debug_closed : Field := ⟨0xE000054, 0, 1⟩
def MGC_FUSE_STS.root_present : Field := ⟨0xE000054, 1, 1⟩
def MGC_FUSE_STS.repair_map_valid : Field := ⟨0xE000054, 2, 1⟩
def MGC_FUSE_STS.fuse_err : Field := ⟨0xE000054, 3, 1⟩
def MGC_DIE_ID.die_id : Field := ⟨0xE000058, 0, 32⟩
def MGC_SB_CFG.i3c_static : Field := ⟨0xE000068, 0, 7⟩
def MGC_SB_CFG.smbus_addr : Field := ⟨0xE000068, 8, 7⟩
def MGC_SB_CFG.update_paths : Field := ⟨0xE000068, 16, 3⟩
def MGC_MCTP_STS.eid : Field := ⟨0xE00006C, 0, 8⟩
def MGC_MCTP_STS.eid_valid : Field := ⟨0xE00006C, 8, 1⟩
def MGC_MCTP_STS.msgs : Field := ⟨0xE00006C, 16, 16⟩
def MGC_SPDM_STS.sessions : Field := ⟨0xE000070, 0, 6⟩
def MGC_SPDM_STS.auth_fail : Field := ⟨0xE000070, 16, 16⟩
def MGC_LOST_CLEAR.lost_clears : Field := ⟨0xE000074, 0, 32⟩
/-! Fields of EVR. -/
def EVR_CTL.drain_en : Field := ⟨0xD000000, 0, 1⟩
def EVR_CTL.drain_ms : Field := ⟨0xD000000, 8, 8⟩
def EVR_CTL.seg_settle_s : Field := ⟨0xD000000, 16, 8⟩
def EVR_RING_STS.used_16 : Field := ⟨0xD000004, 0, 17⟩
def EVR_RING_UNSETTLED.unsettled_16 : Field := ⟨0xD000008, 0, 17⟩
def EVR_SEQ_NEXT.seq : Field := ⟨0xD00000C, 0, 32⟩
def EVR_OLDEST_OFF.offset : Field := ⟨0xD000010, 0, 20⟩
def EVR_OLDEST_SEQ.seq : Field := ⟨0xD000014, 0, 32⟩
def EVR_HEAD_OFF.offset : Field := ⟨0xD000018, 0, 20⟩
def EVR_BOOT_NUM.boot_num : Field := ⟨0xD00001C, 0, 32⟩
def EVR_LOST_CNT.lost : Field := ⟨0xD000020, 0, 32⟩
def EVR_SRC_SEL.source : Field := ⟨0xD000024, 0, 11⟩
def EVR_SRC_CFG.enable : Field := ⟨0xD000028, 0, 1⟩
def EVR_SRC_CFG.mgmt_irq : Field := ⟨0xD000028, 1, 1⟩
def EVR_SRC_CFG.host : Field := ⟨0xD000028, 2, 1⟩
def EVR_SRC_CFG.max_per_ms : Field := ⟨0xD000028, 8, 8⟩
def EVR_SRC_CNT.raised : Field := ⟨0xD00002C, 0, 16⟩
def EVR_SRC_CNT.suppressed : Field := ⟨0xD00002C, 16, 16⟩
def EVR_IRQ.new_record : Field := ⟨0xD000030, 0, 1⟩
def EVR_IRQ.ring_high : Field := ⟨0xD000030, 1, 1⟩
def EVR_IRQ.core_mask : Field := ⟨0xD000030, 8, 6⟩
def EVR_FETCH_CTL.seq : Field := ⟨0xD000034, 0, 32⟩
def EVR_FETCH_STS.busy : Field := ⟨0xD000038, 0, 1⟩
def EVR_FETCH_STS.ready : Field := ⟨0xD000038, 1, 1⟩
def EVR_FETCH_STS.not_found : Field := ⟨0xD000038, 2, 1⟩
def EVR_IMPORT_CTL.commit : Field := ⟨0xD00003C, 0, 1⟩
def EVR_CRASH_CTL.ready : Field := ⟨0xD000040, 0, 1⟩
def EVR_CRASH_STS.ready : Field := ⟨0xD000044, 0, 1⟩
def EVR_CRASH_STS.flushing : Field := ⟨0xD000044, 1, 1⟩
def EVR_CRASH_STS.last_result : Field := ⟨0xD000044, 2, 2⟩
def EVR_CRASH_STS.written : Field := ⟨0xD000044, 16, 16⟩
def EVR_HEALTH.reasons : Field := ⟨0xD000048, 0, 13⟩
def EVR_HEALTH.replace_advised : Field := ⟨0xD000048, 31, 1⟩
def EVR_MSIX_TRIG.ld : Field := ⟨0xD00004C, 0, 8⟩
def EVR_MSIX_TRIG.vector : Field := ⟨0xD00004C, 8, 6⟩
def EVR_ERR.records_lost : Field := ⟨0xD000050, 0, 1⟩
def EVR_ERR.drain_abort : Field := ⟨0xD000050, 1, 1⟩
def EVR_ERR.crash_not_ready : Field := ⟨0xD000050, 2, 1⟩
def EVR_ERR.crash_cut : Field := ⟨0xD000050, 3, 1⟩
def EVR_ERR.fetch_miss : Field := ⟨0xD000050, 4, 1⟩
def EVR_ERR.import_bad : Field := ⟨0xD000050, 5, 1⟩
def EVR_LOST_CLEAR.lost_clears : Field := ⟨0xD000054, 0, 32⟩
def EVR_FETCH_WIN.block : Field := ⟨0xD001000, 0, 32⟩
def EVR_IMPORT_WIN.record : Field := ⟨0xD002000, 0, 32⟩
def EVR_RING_WIN.ring : Field := ⟨0xD100000, 0, 32⟩
/-! Fields of GLB. -/
def GLB_START_STS.stage : Field := ⟨0x200, 0, 4⟩
def GLB_START_STS.kind : Field := ⟨0x200, 4, 2⟩
def GLB_START_STS.image : Field := ⟨0x200, 6, 2⟩
def GLB_START_STS.halt : Field := ⟨0x200, 8, 4⟩
def GLB_START_STS.pair : Field := ⟨0x200, 12, 2⟩
def GLB_START_STS.warm_refused : Field := ⟨0x200, 14, 1⟩
def GLB_START_CTL.force_solo : Field := ⟨0x204, 0, 1⟩
def GLB_START_CFG.hello_wait_s : Field := ⟨0x208, 0, 8⟩
def GLB_START_CFG.pair_wait_s : Field := ⟨0x208, 8, 8⟩
def GLB_RESET_CTL.warm_req : Field := ⟨0x20C, 0, 1⟩
def GLB_START_TIME.restore_ms : Field := ⟨0x210, 0, 32⟩
def GLB_ID.part : Field := ⟨0x0, 0, 16⟩
def GLB_ID.stepping : Field := ⟨0x0, 16, 8⟩
def GLB_ID.family : Field := ⟨0x0, 24, 8⟩
def GLB_DEVTIME_LO.time_lo : Field := ⟨0x8, 0, 32⟩
def GLB_DEVTIME_HI.time_hi : Field := ⟨0xC, 0, 32⟩
def GLB_TIME_ALIGN.offset_ns : Field := ⟨0x10, 0, 16⟩
def GLB_TIME_ALIGN.reference : Field := ⟨0x10, 16, 1⟩
def GLB_TIME_ALIGN.aligned : Field := ⟨0x10, 17, 1⟩
def GLB_CLK_STS.root_lock : Field := ⟨0x14, 0, 1⟩
def GLB_CLK_STS.ddr_lock : Field := ⟨0x14, 1, 16⟩
def GLB_CLK_STS.host_sd_lock : Field := ⟨0x14, 17, 4⟩
def GLB_CLK_STS.twin_sd_lock : Field := ⟨0x14, 21, 2⟩
def GLB_CLK_STS.chain_sd_lock : Field := ⟨0x14, 23, 2⟩
def GLB_CLK_STS.refclk_a_ok : Field := ⟨0x14, 25, 1⟩
def GLB_CLK_STS.refclk_b_ok : Field := ⟨0x14, 26, 1⟩
def GLB_CLK_STS.holdover : Field := ⟨0x14, 27, 1⟩
def GLB_CLK_ERR.root_unlock : Field := ⟨0x18, 0, 1⟩
def GLB_CLK_ERR.ddr_unlock : Field := ⟨0x18, 1, 1⟩
def GLB_CLK_ERR.sd_unlock : Field := ⟨0x18, 2, 1⟩
def GLB_CLK_ERR.refclk_a_loss : Field := ⟨0x18, 3, 1⟩
def GLB_CLK_ERR.refclk_b_loss : Field := ⟨0x18, 4, 1⟩
def GLB_SCRATCH.scratch : Field := ⟨0x1C, 0, 32⟩
def GLB_LOST_CLEAR.lost_clears : Field := ⟨0x20, 0, 32⟩
end Reg

end Sys2Proof.Machine
end

