-- ==== Sys2Proof/Machine/State.lean ====
section
/-! DEFINITION. The machine's state: one structure per block of the spec, the registers, the queue of waiting
commands and what the block has driven out; the reasons a step can stop; and the state right after reset. -/

namespace Sys2Proof.Machine

/-- Who made a request to a plot (R22, R24, R25), and how its answer finds its way back. -/
inductive Origin where
  /-- A CXL.mem request of a local LD, named by the host's own tag. -/
  | host (ld : Ld) (tag : Nat)
  /-- A line of a ring operation: LD, ring and the operation's number. -/
  | ring (ld : Ld) (ring : RingNo) (op : Nat)
  /-- A request the partner forwarded, named by the partner's tag (R31, R344). -/
  | forwarded (mid : Mid) (tag : Nat)
  /-- A request of a chain ingress class, answered to a chain node under its tag (R396, R397). -/
  | chain (mid : Mid) (node tag : Nat)
  /-- An Inject Poison or Clear Poison of an LD's mailbox (R428). -/
  | mailbox (ld : Ld)
  /-- A host's write-back in answer to a snoop (R213). -/
  | writeBack (mid : Mid)
  /-- A mirrored write applied from the twin's stream (R31, R340). -/
  | mirror
  deriving DecidableEq, Repr

/-- A run of granules whose table entries are valid and name one plot (R34). -/
structure GranuleRun where
  base : Nat
  size : Nat
  plot : Nat
  deriving DecidableEq, Repr

/-- A clod's translation entry (R44). The default is the zero entry: never written (R40). -/
structure Entry where
  tier : Fin 4 := 0
  dirty : Bool := false
  hasBase : Bool := false
  /-- migr_lock with lock_engine: the low four bits of the engine's master ID -/
  lock : Option (Fin 16) := none
  pins : Fin 16 := 0
  marked : Bool := false
  frame : Nat := 0
  overlay : Nat := 0
  bed : Fin 4 := 0
  stratum : Nat := 0
  row : Nat := 0
  grain : Nat := 0
  heat : Nat := 0
  /-- the stored crc8 does not match (R46) -/
  crcBad : Bool := false
  deriving DecidableEq, Repr

/-- Who asked for an admission or a release clean-up, to be answered (R52). -/
inductive AdmOrigin where
  | ring (ld : Ld) (ring : RingNo) (op : Nat)
  | fabricManager
  | twin (tag : Nat)
  deriving DecidableEq, Repr

/-- A job of the side-A admission engine (R52). -/
inductive AdmJob where
  | admitPlot (origin : AdmOrigin) (a : Admission)
  | cleanup (plot : PlotId)
  deriving DecidableEq, Repr

/-- TMG's plot and translation state (02). -/
structure Plots where
  /-- the 4,096 plot IDs; unlisted: FREE, never admitted -/
  plots : Sparse Plot := []
  /-- the granule table as its runs (R34); reset: every entry invalid -/
  granules : List GranuleRun := []
  /-- the translation table (R44); unlisted: the zero entry (R40) -/
  entries : Sparse Entry := []
  /-- the map cache: sets of clod numbers, most recently used first (R47, R48) -/
  mapCache : Sparse (List Nat) := []
  /-- map-cache misses whose Loam read is outstanding, with the clod changed meanwhile (R49) -/
  mapFills : List (Nat × Bool) := []
  /-- jobs waiting at the admission engine, in arrival order (R52) -/
  admQueue : List AdmJob := []
  /-- the job in progress, waiting for the partner or for zeroing (R55, R40) -/
  admActive : Option AdmJob := none
  /-- the plot of the admission in progress: proposed to the partner, or zeroing (R55) -/
  admPlot : Option AdminPlot := none
  /-- requests sent to the engine on side A, by their tag, and the next tag (R52) -/
  admSent : List (Nat × AdmJob) := []
  admTag : Nat := 1
  /-- requests of side B whose plot has entered ADMITTING here, by their tag (R55) -/
  admGiven : List (Nat × Nat) := []
  /-- masters and plots denied in the current window: (mid, plot, window) (R66) -/
  denySeen : List (Nat × Nat × Nat) := []
  /-- per plot, the checked requests a drain still waits for (R64) -/
  aclDrain : Sparse (List Nat) := []
  /-- max_capacity in granules, from the option area (R32) -/
  maxCapacity : Nat := 0
  /-- installed Loam in MiB, and the pools' and record region's share (R50) -/
  loamMib : Nat := 0
  poolsMib : Nat := 9216
  recordMib : Nat := 1024
  deriving DecidableEq, Repr

/-- Where a write accepted by the POU stands (R157, R171, R172, R411). -/
inductive WriteStage where
  /-- accepted, not yet ordered -/
  | waiting
  /-- ordered, waiting in the merge buffer for its old line (R411) -/
  | merging
  /-- ordered and whole, waiting for a front-cache way (R190, R195) -/
  | unapplied
  /-- applied at this controller (R156) -/
  | applied
  deriving DecidableEq, Repr

/-- One write the POU holds, from acceptance to completion. -/
structure WriteRec where
  id : Nat
  origin : Origin
  mid : Nat
  plot : Nat
  line : Nat
  data : Line
  be : ByteMask
  poison : Bool
  metaVal : MetaValue
  acceptedAt : Nat
  stage : WriteStage := .waiting
  /-- the directory: 0 not asked, 1 snoops out, 2 done or none needed (R172) -/
  dir : Fin 3 := 0
  /-- the plot's sequence number, once ordered (R168) -/
  seq : Nat := 0
  /-- place in the controller's order, once ordered -/
  ord : Nat := 0
  /-- counter of the ordered twin frame that carries it, once sent -/
  frameCtr : Nat := 0
  /-- the partner's acknowledgement has been received (R29) -/
  acked : Bool := false
  /-- the clod's change-map entry is set (R30) -/
  mapped : Bool := false
  /-- merged into an old line that was poisoned (R412) -/
  oldPoison : Bool := false
  /-- the back-pressure delay still holds the completion (R179) -/
  delayed : Bool := false
  /-- durable (R156) -/
  durable : Bool := false
  /-- a counted wait it stands in: 0 none, 1 for a hazard entry (R171), 2 for a merge entry (R410) -/
  stalled : Fin 3 := 0
  /-- the MAC of the epoch it came in: 0 checked good or none, 1 not yet checked, 2 still arriving (R88) -/
  mac : Fin 3 := 0
  /-- its host has no write credit left: not accepted yet (R180) -/
  uncredited : Bool := false
  /-- its wait for a victim entry has been counted (R195) -/
  fullCounted : Bool := false
  /-- its clod's lookup in the map cache: 0 not begun, 1 waiting for the entry, 2 done (R49) -/
  looked : Fin 3 := 0
  /-- a host's write-back in answer to a snoop (R213) -/
  back : Bool := false
  deriving DecidableEq, Repr

/-- One read the POU holds (R158, R169). -/
structure ReadRec where
  id : Nat
  origin : Origin
  mid : Nat
  plot : Nat
  line : Nat
  metaVal : MetaValue
  dir : Fin 3 := 0
  /-- place in the order, once ordered -/
  ord : Nat := 0
  /-- the line is being fetched: by a fill, a grain read, or the partner's answer under a tag (R46) -/
  fetching : Bool := false
  remoteTag : Option Nat := none
  /-- the front cache has missed and the clod's lookup is: 0 not begun, 1 waiting for the entry, 2 done (R49) -/
  looked : Fin 3 := 0
  /-- its wait for a victim entry has been counted (R195) -/
  fullCounted : Bool := false
  /-- the MAC of the epoch it came in, as for a write (R88) -/
  mac : Fin 3 := 0
  /-- the data, once found -/
  val : Option LineVal := none
  deriving DecidableEq, Repr

/-- A write this controller forwarded to the plot's home (R31, R344). -/
structure FwdWrite where
  id : Nat
  tag : Nat
  origin : Origin
  mid : Nat
  plot : Nat
  line : Nat
  data : Line
  be : ByteMask
  poison : Bool
  metaVal : MetaValue
  acceptedAt : Nat
  /-- the sequence number its mirrored copy carried, once applied -/
  seq : Option Nat := none
  /-- the home's durable notice, or a durable mark, covers it -/
  noticed : Bool := false
  delayed : Bool := false
  deriving DecidableEq, Repr

/-- A read this controller forwarded to the plot's home (R13). -/
structure FwdRead where
  id : Nat
  tag : Nat
  origin : Origin
  mid : Nat
  plot : Nat
  line : Nat
  metaVal : MetaValue
  deriving DecidableEq, Repr

/-- A GPF Phase 2 in progress: its port, its start and its marked writes (R166). -/
structure Gpf where
  port : Port
  start : Nat
  marked : List Nat
  deriving DecidableEq, Repr

/-- The POU's state (05). -/
structure Pou where
  /-- the next request number, and the next place in the order -/
  nextId : Nat := 1
  nextOrd : Nat := 1
  writes : List WriteRec := []
  reads : List ReadRec := []
  fwdWrites : List FwdWrite := []
  fwdReads : List FwdRead := []
  /-- GPF Phase 2 requests in progress (R166) -/
  gpfs : List Gpf := []
  /-- the partner's level in 1/1,024, and its latest stop bit (R177, R178) -/
  partnerLevel : Nat := 0
  partnerStop : Bool := false
  /-- write credits withheld from each port's host in stage 3 (R180) -/
  withheld : Sparse Nat := []
  /-- stage 3: since when (R180) -/
  stopSince : Option Nat := none
  /-- dirty grains: key clod × 16 + grain (R175) -/
  dirty : Sparse Bool := []
  /-- per dirty clod, one more than the time of the first write that dirtied it (R314) -/
  dirtyAge : Sparse Nat := []
  deriving DecidableEq, Repr

/-- One way of the front cache: its tag entry (R188) and its data slot (R189). -/
structure FcWay where
  line : Nat := 0
  /-- 0 invalid, 1 clean, 2 dirty, 3 filling -/
  state : Fin 4 := 0
  poison : Bool := false
  hard : Bool := false
  data : Line := 0
  /-- chunks whose parity fails, bit c for chunk c (R189) -/
  badChunks : BitVec 4 := 0
  /-- tag copies with bad parity, and whether two good copies differ (R203) -/
  badTag0 : Bool := false
  badTag1 : Bool := false
  tagDiffer : Bool := false
  /-- parity errors the slot has shown after being rewritten (R205) -/
  parCount : Nat := 0
  deriving DecidableEq, Repr

/-- One victim-buffer line (R195 to R197). -/
structure Victim where
  line : Nat
  val : LineVal
  slice : Nat
  set : Nat
  way : Nat
  /-- held as dirty after a cancelled eviction (R196) -/
  held : Bool
  /-- the Loam write that frees the entry: its request's number, once it has one -/
  write : Option Nat
  /-- where its latest write went, and the master the eviction is issued for -/
  lpa : Nat := 0
  mid : Nat
  /-- chunks whose parity fails (R202) -/
  badChunks : BitVec 4 := 0
  deriving DecidableEq, Repr

/-- Who waits for a fill. -/
inductive FillUser where
  | read (id : Nat)
  | merge (line : Nat)
  | flush
  /-- a clod fetch served for the partner (R288) -/
  | service (tag : Nat)
  /-- the repair of an uncorrectable Loam line (R418) -/
  | repair (line : Nat)
  /-- a clod to be sent to the twin (R374) -/
  | copy (clod : Nat)
  deriving DecidableEq, Repr

/-- A pending fill: the line, what Loam holds for it, and who waits (R192, R193). -/
structure Fill where
  line : Nat
  /-- the contents the read finds, taken when LMC received it (R232) -/
  val : LineVal
  /-- the frame and line of the Loam read -/
  lpa : Nat
  /-- the master it was read for, and its request's number at LMC -/
  mid : Nat := 0
  req : Nat := 0
  users : List FillUser
  /-- the beat the requester named first (R193) -/
  startBeat : Fin 4
  /-- an XTS check failed on it once; the line is decrypted again (R448) -/
  rechecked : Bool := false
  deriving DecidableEq, Repr

/-- What a maintenance operation does (R198). -/
inductive MaintOp where
  | zero | flush | drop
  deriving DecidableEq, Repr

/-- A maintenance operation that waits: for the fill of its line to write its way (R199), for a way, or behind another of its line. -/
structure Maint where
  line : Nat
  mid : Nat
  op : MaintOp
  deriving DecidableEq, Repr

/-- A directory entry (R207). -/
structure DirEntry where
  line : Nat := 0
  /-- 0 invalid, 1 shared, 2 exclusive, 3 busy -/
  state : Fin 4 := 0
  coarse : Bool := false
  /-- up to four master IDs, the owner first -/
  ptrs : List Nat := []
  vector : BitVec 64 := 0
  deriving DecidableEq, Repr

/-- Why a snoop was sent (R212, R217, R210, R401). -/
inductive SnoopCause where
  | read (id : Nat)
  | write (id : Nat)
  /-- an eviction of a full set's entry, for the line that takes its place -/
  | evict (newLine : Nat)
  /-- a snoop request of the home, to be answered over the twin link -/
  | twin (tag : Nat)
  /-- a snoop request of a chain owner, to be answered to its node -/
  | chain (node tag : Nat)
  deriving DecidableEq, Repr

/-- One snoop slot in use (R215). -/
structure Snoop where
  id : Nat
  /-- the holder: a local LD, one of the partner's, or a chain ingress class -/
  target : Nat
  line : Nat
  /-- true: BISnpInv, false: BISnpData -/
  inv : Bool
  cause : SnoopCause
  sentAt : Nat
  /-- requests with a lower number had reached the POU when it was sent (R214) -/
  before : Nat := 0
  /-- modified data the host wrote back, for the answer to a chain owner (R401) -/
  back : Option LineVal := none
  /-- the host's answer has come, but its MAC has yet to be checked (R88) -/
  answer : Option (Option LineVal) := none
  mac : Fin 3 := 0
  deriving DecidableEq, Repr

/-- What a controller-fatal error names (R204): the clod of a dirty line in error; a way whose tags are unreadable; or no line of the front
cache (R247, R448). -/
inductive FatalCause where
  | line (clod : Nat)
  | tags
  | elsewhere
  deriving DecidableEq, Repr

/-- FCD's state (06). -/
structure Fcd where
  /-- ways, key (slice × 8,192 + set) × 16 + way -/
  ways : Sparse FcWay := []
  /-- pseudo-LRU trees of the front cache, key slice × 8,192 + set (R190) -/
  plru : Sparse (BitVec 15) := []
  victims : List Victim := []
  fills : List Fill := []
  /-- lines from Bedrock that wait for a fill buffer or a way: the line, its reader's master, what arrived (R194) -/
  installs : List (Nat × Nat × LineVal) := []
  /-- maintenance operations that wait, in the order they came (R199) -/
  maint : List Maint := []
  /-- holders recorded for a line whose full set has not yet freed an entry for it (R209, R217) -/
  dirNext : List DirEntry := []
  /-- directory entries, key (slice × 131,072 + set) × 16 + way -/
  dir : Sparse DirEntry := []
  dirPlru : Sparse (BitVec 15) := []
  /-- directory sets, by key, an entry of which has a parity error that no lookup has met yet (R219) -/
  dirBad : List Nat := []
  /-- directory sets with the unknown flag, key slice × 131,072 + set: one more than the mask of the ports that went
  down since (R219) -/
  unknownSets : Sparse Nat := []
  snoops : List Snoop := []
  nextSnoop : Nat := 1
  /-- BIConflictAcks owed once a host's own request has been answered: LD, line, request (R214) -/
  conflicts : List (Nat × Nat × Nat) := []
  /-- a controller-fatal error has been found (R204) -/
  fatal : Option FatalCause := none
  deriving DecidableEq, Repr

/-- An overlay record (R303). -/
structure Overlay where
  clod : Nat
  generation : Nat
  valid : BitVec 1024
  crcBad : Bool := false
  deriving DecidableEq, Repr

/-- Why a lift started (R309). -/
inductive LiftTrigger where
  | read | hint | pin | overlay
  deriving DecidableEq, Repr

/-- A lift in flight (R310). -/
structure Lift where
  clod : Nat
  engine : Nat
  frame : Nat
  trigger : LiftTrigger
  /-- grains read so far (step 2) -/
  got : BitVec 16 := 0
  /-- rung 3 supplied the whole clod (R324, R326) -/
  image : Option ClodImage := none
  /-- the plot has asked for the frame back while the lift is in flight (R324) -/
  evict : Bool := false
  deriving DecidableEq, Repr

/-- Why a clod is queued for settling (R314). -/
inductive SettleReason where
  | override_ | repair | relocation | backpressure | resource | eviction | hint | overlays | seal | age | tilling
  deriving DecidableEq, Repr

/-- A clod queued for settling, with its governor class (R314, R321). -/
structure SettleReq where
  clod : Nat
  cls : Nat
  reason : SettleReason
  /-- refused at the last offer: offered again at the next minute -/
  refused : Bool := false
  /-- met a lift in flight: offered again once that has committed (R324) -/
  waits : Bool := false
  /-- the class and reason it was queued for before the energy override took it up (R182) -/
  before : Option (Nat × SettleReason) := none
  deriving DecidableEq, Repr

/-- A settle in flight (R317). -/
structure Settle where
  clod : Nat
  engine : Nat
  reason : SettleReason
  rewrite : BitVec 1024
  /-- one more than the time of the first write the map recorded (R314) -/
  rewriteAt : Nat := 0
  /-- the snapshot staged in sand buffers -/
  image : ClodImage
  generation : Nat
  /-- the program unit and the clod's place in it -/
  unit : Nat
  slot : Nat
  /-- the rows are sealed and the journal record packed (R559) -/
  sealed_ : Bool := false
  /-- stopped without commit by a release or erase (R325) -/
  dropped : Bool := false
  deriving DecidableEq, Repr

/-- TMG's movement state (09). -/
structure Tmg where
  /-- clods fetched from the partner that wait for a free frame (R286) -/
  fetched : List (Nat × ClodImage) := []
  /-- frames below nextFrame have been handed out at least once; freed ones may be handed out again -/
  nextFrame : Nat := 0
  freedFrames : List Nat := []
  /-- frames, overlay frames among them, waiting for the reads ordered against them (R313, R310 step 5) -/
  draining : List (Nat × List Nat) := []
  overlays : Sparse Overlay := []
  freedOverlays : List Nat := []
  nextOverlay : Nat := 0
  /-- overlay records cached on chip, most recently used first (R304) -/
  overlayCache : List Nat := []
  overlayFills : List Nat := []
  lifts : List Lift := []
  /-- lifts asked for while the clod settles (R324) -/
  liftWaits : List (Nat × LiftTrigger) := []
  /-- lift holds: clods that may not be evicted yet (R311) -/
  liftHolds : List Nat := []
  /-- clods asked for eviction while their lift was in flight, evicted when their lift hold lapses (R324) -/
  evictAfter : List Nat := []
  /-- Topdressed clods whose record has reached overlay_lift valid lines (R309) -/
  density : List Nat := []
  liftHints : List Nat := []
  settleHints : List Nat := []
  /-- PIN operations' clods that wait for a frame (R309) -/
  pinWaits : List Nat := []
  queue : List SettleReq := []
  settles : List Settle := []
  /-- the bed the next settled clod goes to (R315) -/
  nextBed : Nat := 0
  /-- the governor's bins: key minute number, MiB programmed (R320) -/
  bins : Sparse Nat := []
  minute : Nat := 0
  /-- bytes granted at class 4 in this minute, for the avg_mbps bound; the millisecond and bytes of the burst bound (R321) -/
  grantedSlow : Nat := 0
  burstMs : Nat := 0
  burstBytes : Nat := 0
  /-- the lowest class refused in this minute -/
  refusedClass : Nat := 0
  /-- KiB of settled data not yet a whole MiB of TMG_SETTLED_MIB -/
  settledKib : Nat := 0
  /-- the same for TMG_SETTLE_OVERRIDE_MIB and TMG_GOV_REFUSED -/
  overrideKib : Nat := 0
  refusedKib : Nat := 0
  /-- PHS has published a figure since the reset: until then no effective budget stands (R177, R184) -/
  budgetSet : Bool := false
  /-- TMG_GOV_CFG as the present minute uses it (R329) -/
  govCfg : Word := 0xEA6005DC
  deriving DecidableEq, Repr

/-- A merge-buffer entry (R410, R411): the writes of one line in order. -/
structure Merge where
  line : Nat
  plot : Nat
  /-- the ids of the partial writes that joined, first ordered first -/
  ids : List Nat
  /-- the old line has been asked of Loam or Bedrock -/
  asked : Bool := false
  /-- its wait for a victim entry has been counted (R195) -/
  fullCounted : Bool := false
  deriving DecidableEq, Repr

/-- An entry of the correctable-error log (R415). -/
structure CeEntry where
  lpa : Nat
  device : Nat
  count : Nat
  hard : Bool
  writtenBack : Bool
  lastHit : Nat
  deriving DecidableEq, Repr

/-- A scrub write-back queued or issued (R413, R414). -/
structure ScrubWb where
  lpa : Nat
  val : LineVal
  /-- a write to the address reached the scheduler after the scrub's read -/
  stale : Bool
  deriving DecidableEq, Repr

/-- The repair of an uncorrectable Loam line in progress (R418). -/
structure UeRepair where
  line : Nat
  lpa : Nat
  step : Nat
  users : List FillUser
  deriving DecidableEq, Repr

/-- An entry of the poison list (R426). -/
structure PoisonEntry where
  generation : Nat
  source : Fin 8
  base : Bool
  deriving DecidableEq, Repr

/-- DIU's state (12). -/
structure Diu where
  merges : List Merge := []
  ceLog : List (Option CeEntry) := []
  /-- corrections on each channel in the current second (R416) -/
  ceSecond : Sparse Nat := []
  /-- hard rows of each device: key subchannel × 64 + rank × 16 + device (R416) -/
  hardRows : Sparse (List Nat) := []
  /-- per channel the next line its engine reads, and per engine its write-back queue (R413, R417) -/
  scrubNext : Sparse Nat := []
  scrubQueue : Sparse (List ScrubWb) := []
  repairs : List UeRepair := []
  /-- the poison list, key line (R426) -/
  poison : Sparse PoisonEntry := []
  /-- the SRAM repair list: macro and location (R420) -/
  sramRepairs : List (Nat × Nat) := []
  deriving DecidableEq, Repr

/-- The payloads of the frames that are not ordered (R335). -/
inductive TwinBody where
  | ordered (b : OrderedBody)
  | mirrorAck (ctr : Nat)
  | durableNotice (plot seq : Nat)
  | fwdWrite (mid tag line : Nat) (data : Line) (be : ByteMask) (poison : Bool) (metaVal : MetaValue)
  | fwdRead (mid tag line : Nat) (metaVal : MetaValue)
  | readData (mid tag : Nat) (poison : Bool) (data : Line) (denied : Bool)
  | lease (ctr : Nat) (marks : List (Nat × Nat))
  | leaseAck (ctr : Nat)
  | digestReply (period : Nat) (digests : List DWord)
  | digestResult (period group : Nat) (passed : Bool)
  | nack (ctr : Nat)
  | snoopReq (tag line : Nat) (inv : Bool) (ahead : List (Nat × Nat))
  | snoopRsp (tag : Nat)
  | clodFetch (tag clod seq : Nat)
  | clodData (tag clod half : Nat) (lines : ClodImage)
  /-- a fetch the partner could not answer (R288) -/
  | clodRefuse (tag clod : Nat)
  | sampleReq (tag line plot seq : Nat)
  | sampleRsp (tag : Nat) (crc : Option DWord)
  | health (sparePct quarMax : Nat) (lostLoam lostBedrock : Nat) (coverage : Nat) (selftestFail : Bool)
      (ceSecond level : Nat) (replaceAdvised : Bool)
  | admin (op : AdminOp)
  | roleChange (epoch : Word) (group : Nat) (plots : List (Nat × Nat))
  | roleAck (epoch : Word)
  | fenceDemand
  | fenceNotice
  | staleEpoch (epoch : Word) (ctr ftype : Nat)
  | hello (h : Hello)
  | time (deviceTime : Nat)
  | fwdRefuse (mid tag : Nat)
  deriving DecidableEq, Repr

/-- A frame this controller sends on the twin link (R334). -/
structure TwinFrame where
  ftype : Nat
  sideB : Bool
  ordered : Bool
  epoch : Word
  ctr : Nat
  seq : Nat
  plot : Nat
  level : Nat
  stop : Bool
  body : TwinBody
  deriving DecidableEq, Repr

/-- A retained MIRROR or RESYNC_CLOD frame (R341). -/
structure Retained where
  ctr : Nat
  body : OrderedBody
  period : Nat
  acked : Bool
  compared : Bool
  deriving DecidableEq, Repr

/-- A disputed plot group (R366): the group is stopped until the checks end. -/
structure Dispute where
  group : Nat
  period : Nat
  /-- this controller's stream carried the disputed period -/
  mine : Bool
  ownPassed : Option Bool
  twinPassed : Option Bool
  lines : List Nat
  deriving DecidableEq, Repr

/-- A twin frame rejected with STALE_EPOCH and waiting to be sent again (R381). -/
structure StaleResend where
  body : TwinBody
  /-- the receiver's epoch, which this controller must reach first, when it was higher -/
  waitFor : Option Word
  deriving DecidableEq, Repr

/-- What the returning controller and the survivor hold of a resynchronisation (R372, R373). -/
structure Resync where
  full : Bool
  /-- clods still to send, in clod order -/
  left : List Nat
  /-- clods sent whose frames are not yet acknowledged, with the last frame's counter -/
  sent : List (Nat × Nat)
  deriving DecidableEq, Repr

/-- A takeback in progress (R377 to R379). -/
structure Takeback where
  /-- plot groups still to move -/
  groups : List Nat
  /-- the group whose plots are stopped, with its plots, and whether its ROLE_CHANGE was sent -/
  group : Nat
  plots : List Nat
  sent : Option Word
  deriving DecidableEq, Repr

/-- FLK's twin state (10). -/
structure Twin where
  /-- epoch before the last fence, and the epoch recorded at takeover (R372) -/
  lastEpoch : Word := 0
  takeoverEpoch : Word := 0
  /-- the option area's claim of priority, which HELLO carries (R330) -/
  optPriority : Bool := false
  /-- frames sent, per stream; the next ordered counter expected (R334, R338) -/
  txOrdered : Nat := 0
  txOther : Nat := 0
  rxExpected : Nat := 1
  reorder : List (Nat × OrderedBody) := []

  /-- latest counter received in MIRROR_ACK, and latest applied but not yet acknowledged -/
  ackedCtr : Nat := 0
  ackOwed : Bool := false
  retained : List Retained := []
  /-- own lease: valid until; LEASEs sent and not yet answered: (counter, send time) (R345) -/
  lease : Option Nat := none
  leaseSent : List (Nat × Nat) := []
  /-- serving needs a LEASE_ACK for a LEASE sent after a pair restart or resynchronisation -/
  twinLeaseAt : Nat := 0
  /-- the pair's device times were aligned at the latest pairing (R21) -/
  timePaired : Bool := false
  /-- what the device timer has still to make up, in ns: positive while the reference is ahead (R21) -/
  slew : Int := 0
  /-- the two controllers carried different capacities: the next resynchronisation is full (R32) -/
  mustFull : Bool := false
  /-- administrative frames that wait for the link -/
  adminHeld : List AdminOp := []
  /-- the level driven on TW_ALIVE_OUT: 0 low, 1 toggling, 2 steady high (R347) -/
  aliveOut : Fin 3 := 0
  /-- times of the two demands, and of the latest FENCE_DEMAND frame (R349, R351) -/
  fenceInAt : Option Nat := none
  fenceOutAt : Option Nat := none
  demandFrameAt : Option Nat := none
  fenceLineIgnored : Bool := false
  /-- running digests of the period, own stream and applied stream: 64 groups (R364) -/
  txCrc : Sparse DWord := []
  rxCrc : Sparse DWord := []
  txPeriod : Nat := 0
  /-- digests sent and not yet compared: period and group values -/
  txDigests : List (Nat × List DWord) := []
  /-- lines written in each period not yet compared, own stream and applied stream: (period, plot, line) -/
  txLines : List (Nat × Nat × Nat) := []
  rxPeriod : Nat := 0
  rxLines : List (Nat × Nat × Nat) := []
  disputes : List Dispute := []
  neitherTimes : List Nat := []
  /-- samples in flight: tag, line, plot, sequence, own CRC (R368) -/
  samples : List (Nat × Nat × Nat × Nat × DWord) := []
  /-- sample requests waiting until the sequence is applied: (tag, line, plot, seq) -/
  sampleWaits : List (Nat × Nat × Nat × Nat) := []
  /-- engines running a self-test slice, and engines taken out of service (R369) -/
  slices : List Nat := []
  engineOut : List Nat := []
  sliceDone : List Nat := []
  /-- HEALTH: time of the twin's last report (R370) -/
  healthAt : Nat := 0
  /-- the change map and the plot change vector (R371) -/
  changeMap : Sparse Bool := []
  plotChange : Sparse Bool := []
  /-- the rejoin list in reserved Loam (R359), and whether it is intact -/
  rejoin : List Nat := []
  rejoinIntact : Bool := true
  /-- the survivor's or the returning controller's part of a resynchronisation -/
  resync : Option Resync := none
  /-- the latest write applied from the stream to each line: plot, sequence number, line (R353, R356) -/
  applied : List (Nat × Nat × Nat) := []
  /-- halves of RESYNC_CLOD and CLOD_DATA received and waiting for the other half -/
  halfClods : List (Nat × Nat × ClodImage) := []
  takeback : Option Takeback := none
  /-- start of the stable period before a takeback, and takeback_s as it stood then (R377, R383) -/
  stableAt : Nat := 0
  stableS : Nat := 10
  /-- clods to be sent whose grains Bedrock still reads: clod and grains awaited; time of the next copy (R374, R375) -/
  copies : List (Nat × List Nat) := []
  copyNext : Nat := 0
  /-- plots moved by ROLE_CHANGE groups already adopted, to answer a repeat (R379) -/
  adopted : List Word := []
  staleResends : List StaleResend := []
  /-- clod fetches of the twin that wait for a sequence: (tag, clod, seq) (R288) -/
  fetchWaits : List (Nat × Nat × Nat) := []
  /-- reads of clods whose entry is lost at their home, waiting for their sequence: master, tag, line, sequence (R46) -/
  copyReads : List (Nat × Nat × Nat × Nat) := []
  /-- snoop requests of the home that wait for requests in flight here: (tag, line, inv) (R209) -/
  snoopWaits : List (Nat × Nat × Bool × List (Nat × Nat)) := []
  /-- the twin's HELLO has been seen since start-up -/
  helloSeen : Bool := false
  /-- durable notices received before their write was applied: plot and sequence (R31) -/
  notices : List (Nat × Nat) := []
  /-- when the twin's latest LEASE arrived (R346) -/
  leaseRxAt : Nat := 0
  /-- clods to send as RESYNC_CLOD outside a resynchronisation (R288, R366) -/
  resend : List Nat := []
  deriving DecidableEq, Repr

/-- One request in a subchannel queue (R227 to R230). -/
structure LmcReq where
  id : Nat
  mid : Nat
  write : Bool
  /-- Loam line address: frame × 1,024 + line -/
  lpa : Nat
  arrival : Nat
  /-- its class's target and the settings as they stood at its arrival (R255) -/
  target : Nat
  page : Word
  wq : Word
  rd : Word
  /-- its column command has been issued; a write stays in its buffer until it is reported written (R227) -/
  issued : Bool := false
  /-- the encryption of the write's line failed its check once, and is done again (R448) -/
  again : Bool := false
  /-- the read's miss has been counted (R229) -/
  missed : Bool := false
  /-- the master the RFM it waited behind is attributed to (R238) -/
  behindRfm : Option Nat := none
  deriving DecidableEq, Repr

/-- One bank of a subchannel (R231 to R235). -/
structure Bank where
  openRow : Option Nat := none
  lastRow : Option Nat := none
  history : BitVec 16 := 0
  /-- consecutive column commands the open row has served -/
  streak : Nat := 0
  raa : Nat := 0
  acts : Nat := 0
  /-- up to four masters with their activations in the window -/
  top : List (Nat × Nat) := []
  inOrder : Bool := false
  /-- act_limit has been reached in the window (R235) -/
  limited : Bool := false
  refreshDue : Bool := false
  /-- the last RFM command: the master it is attributed to, and the device time it ends at (R234, R238) -/
  rfmBy : Option Nat := none
  rfmUntil : Nat := 0
  deriving DecidableEq, Repr

/-- A throttle in force (R236). -/
structure Throttle where
  mid : Nat
  bank : Nat
  /-- activations used in the current window; consecutive quiet windows -/
  used : Nat
  quiet : Nat
  /-- started in the current window -/
  fresh : Bool
  /-- LMC_RD_CFG as the request that started it found it (R255) -/
  rd : Word
  deriving DecidableEq, Repr

/-- One Loam channel (R240 to R249). -/
structure LoamChannel where
  /-- a retraining is under way, and whether it repeats command/address training (R243) -/
  retrain : Bool := false
  retrainCa : Bool := false
  /-- a segment of it is running; else when the next may start -/
  segment : Bool := false
  segmentAt : Nat := 0
  /-- periodic step in progress: 0 none, 1 ZQ, 2 oscillator, 3 centering; and those due, the oscillator's with its drift -/
  step : Fin 4 := 0
  zqDue : Bool := false
  oscDue : Option Nat := none
  centerDue : Bool := false
  /-- drift_ps as it holds for the read that is due, and for the interval that runs (R255) -/
  driftDue : Nat := 20
  driftNext : Nat := 20
  /-- initial training was cut short by a speed change and runs again at the new speed (R246) -/
  again : Bool := false
  /-- result sets kept, most recent first: speeds (R244) -/
  kept : List Nat := []
  refresh2x : Bool := false
  /-- the hottest device of each DIMM, as last polled and as it stood at the last centering (R239, R243) -/
  temps : Nat × Nat := (0, 0)
  tempAtCenter : Nat × Nat := (0, 0)
  caErrors : List Nat := []
  /-- self-refresh entry waiting for a training step to end (R248) -/
  srWanted : Bool := false
  /-- its DDR PHY PLL is unlocked: held until it is retrained (R588) -/
  heldByPll : Bool := false
  deriving DecidableEq, Repr

/-- A speed change in progress (R245, R246). -/
structure SpeedChange where
  target : Nat
  /-- the channel in turn, the speed it changes to, and its row of R245's table, 0 while it waits for a training step -/
  channel : Nat
  trial : Nat
  step : Nat
  since : Nat
  /-- the channel in turn has fallen back from the present target (R247) -/
  fell : Bool
  /-- channels done for the present target, and those still refining in segments (row 7) -/
  done : List Nat
  refining : List Nat
  deriving DecidableEq, Repr

/-- An sPPR in progress (R250). -/
structure Sppr where
  channel : Nat
  bank : Nat
  row : Nat
  /-- the devices DIU named -/
  devices : List Nat
  /-- the frame of the line found hard -/
  frame : Nat
  /-- the two sand buffers the row's lines are staged in, once it has begun; the bank is held from then on -/
  buffers : List Nat := []
  deriving DecidableEq, Repr

/-- LMC's state and Loam's contents (07). -/
structure Lmc where
  /-- Loam's lines in plaintext, key frame × 1,024 + line; unlisted: 64 zero bytes, good -/
  lines : Sparse LineVal := []
  retired : List Nat := []
  nextReq : Nat := 1
  /-- queues, key subchannel: requests in arrival order (R227) -/
  queues : Sparse (List LmcReq) := []
  draining : Sparse Bool := []
  /-- banks, key subchannel × 512 + rank × 32 + bank group × 4 + bank -/
  banks : Sparse Bank := []
  throttles : List Throttle := []
  channels : Sparse LoamChannel := []
  change : Option SpeedChange := none
  spprs : List Sppr := []
  /-- the repair list in the code store: (subchannel × rank × bank key, row, device) (R250, R251) -/
  repairs : List (Nat × Nat × Nat) := []
  /-- the devices' RAAIMT, RAAMMT and RAA decrement per refresh, how long their RFMsb takes, and whether they advertise per-row activation
  counting (R233) -/
  raaimt : Nat := 32
  raammt : Nat := 96
  raaDec : Nat := 16
  rfmNs : Nat := 130
  prac : Bool := false
  /-- the SPD critical temperature (R239) -/
  critC : Nat := 95
  /-- Loam stands in self-refresh with its trained values held in the PHY (R241) -/
  held : Bool := false
  deriving DecidableEq, Repr

/-- Stratum states, in the order of their codes (R268). -/
inductive StratumState where
  | erased | open_ | sealed | stale | retired
  deriving DecidableEq, Repr

/-- What a stratum number is for (R272). -/
inductive StratumUse where
  | kiln | metadata | data
  deriving DecidableEq, Repr

/-- One stratum (R268, R271). -/
structure Stratum where
  state : StratumState := .erased
  /-- true: pSLC, false: TLC -/
  slc : Bool := false
  eraseCount : Nat := 0
  gen : Nat := 0
  /-- next unit to program; rows sealed so far (R263) -/
  nextUnit : Nat := 0
  sealedRows : Nat := 0
  /-- reads accepted and outstanding (R292) -/
  reading : Nat := 0
  /-- block-pair reads since the last erase, per die index (R290) -/
  readCounts : Sparse Nat := []
  /-- seal time of the first row, in media time (R266) -/
  sealTime : Nat := 0
  /-- live grains TMG counts (R318) -/
  live : Nat := 0
  /-- whose it is while OPEN: 0 settling, 1 tilling and relocation, 2 metadata (R315) -/
  purpose : Fin 3 := 0
  /-- put up for relocation (R290) -/
  relocate : Bool := false
  /-- channels whose block pair is retired once the stratum is erased (R293) -/
  badChannels : List Nat := []
  /-- an erase has been issued -/
  erasing : Bool := false
  deriving DecidableEq, Repr

/-- An operation of a die (R276, R277). -/
structure DieOp where
  /-- 1 to 6: the rank of R276; 7: a program to a quarantined die (R281) -/
  rank : Nat
  /-- 0 read, 1 program, 2 erase -/
  kind : Fin 3
  /-- the grain read, program unit or stratum it belongs to -/
  id : Nat
  suspends : Nat := 0
  /-- device time of its start or last resume -/
  startedAt : Nat := 0
  /-- BFC_SUSPEND_CFG as it stood when the operation was accepted (R298) -/
  cfg : Word := 0
  deriving DecidableEq, Repr

/-- One die (R276, R279, R281, R282). -/
structure Die where
  /-- 0 normal, 1 quarantined, 2 failed -/
  state : Fin 3 := 0
  /-- running medians in units of 0.25 µs; none: at their start, the die's tR plus 4 µs (R279) -/
  medTlc : Option Nat := none
  medSlc : Option Nat := none
  queue : List DieOp := []
  busy : Option DieOp := none
  /-- the operation suspended under the reads that run -/
  held : Option DieOp := none
  /-- strata of the consecutive reads that failed LDPC while their rows rebuilt good (R282) -/
  fails : List Nat := []
  deriving DecidableEq, Repr

/-- Where a clod's base lies (R44). -/
structure BaseLoc where
  bed : Nat
  stratum : Nat
  row : Nat
  grain : Nat
  deriving DecidableEq, Repr

/-- The state of the repair ladder of one grain (R283, R284). -/
structure Ladder where
  /-- rung 1: attempts ended, of seven level sets and one soft decision; 8 when it failed or does not run -/
  tries : Nat := 0
  rung2Failed : Bool := false
  /-- the first read failed its tag or header check, not LDPC (R270, R287) -/
  otherwise : Bool := false
  /-- the fetch of rung 3 has been sent -/
  fetching : Bool := false
  deriving DecidableEq, Repr

/-- A rebuild of a grain from its row (R280): other grains outstanding, by their reads, and good so far. -/
structure Rebuild where
  left : List Nat
  good : Nat
  deriving DecidableEq, Repr

/-- What a grain read is for. -/
inductive GrainPurpose where
  /-- a grain of a clod that readers or a lift want -/
  | wanted
  /-- another grain of the row of read `parent`; `reread` once it has been reread with shifted levels -/
  | source (parent : Nat) (reread : Bool)
  /-- a probe of a quarantined die (R281) -/
  | probe
  deriving DecidableEq, Repr

/-- A grain read in progress (R278 to R285): one per grain, whatever its readers. -/
structure GrainRead where
  id : Nat
  purpose : GrainPurpose
  clod : Nat
  grain : Nat
  bed : Nat
  stratum : Nat
  row : Nat
  /-- position in the row, 0 to 23 (R264) -/
  pos : Nat
  /-- the die: channel × 16 + die index -/
  die : Nat
  slc : Bool := false
  users : List FillUser := []
  lift : Bool := false
  acceptedAt : Nat := 0
  /-- BFC_HEDGE_CFG and BFC_REFRESH_CFG as they stood when the read was accepted (R298) -/
  hedgeCfg : Word := 0
  refreshCfg : Word := 0
  /-- an own read of the grain is under way; false when its die is out of use for reads -/
  direct : Bool := true
  /-- a hedge has been started for it -/
  hedged : Bool := false
  rebuild : Option Rebuild := none
  ladder : Option Ladder := none
  /-- a pair's cores differed on it once; the grain is decrypted again (R448) -/
  rechecked : Bool := false
  /-- tag failures met: each leaves its buffer untrusted, and the next decryption takes another (R287, R449) -/
  tagFails : Nat := 0
  /-- the GCM pair its job is assigned to, with the assignment epoch (R16, R445) -/
  job : Option (Nat × Nat) := none
  deriving DecidableEq, Repr

/-- A clod staged in, or sealed by, a program unit (R315). -/
structure UnitSlot where
  clod : Nat
  generation : Nat
  image : ClodImage
  deriving DecidableEq, Repr

/-- A program unit being filled or programmed (R263, R315). -/
structure ProgUnit where
  id : Nat
  bed : Nat
  stratum : Nat
  number : Nat
  slc : Bool
  /-- 0 settle, 1 tilling and relocation, 2 metadata -/
  purpose : Fin 3
  slots : List UnitSlot
  /-- history segments the unit carries (R542) -/
  segments : List Nat
  /-- handed to the sequencers -/
  started : Bool
  /-- its GCM job's pair with the assignment epoch (R16, R445), and whether its encryption failed its check once (R448) -/
  job : Option (Nat × Nat) := none
  again : Bool := false
  deriving DecidableEq, Repr

/-- One Bedrock channel (R259, R260, R262). -/
structure BedrockChannel where
  lost : Bool := false
  /-- held for a ZQ calibration until this time (R259) -/
  zqUntil : Nat := 0
  /-- remap entries in use: stratum, spare, the spare's own erase count (R262, R295) -/
  remap : List (Nat × Nat × Nat) := []
  /-- spares handed out -/
  sparesUsed : Nat := 0
  deriving DecidableEq, Repr

/-- BFC's state and Bedrock's contents (08). -/
structure Bfc where
  channels : Sparse BedrockChannel := []
  /-- dies, key channel × 16 + die index -/
  dies : Sparse Die := []
  /-- the dies' parameter page: TLC rows of a stratum, longest array reads in µs, read-retry level sets (R257, R271, R279, R283) -/
  rowsTlc : Nat := 0
  trTlc : Nat := 40
  trSlc : Nat := 8
  retrySets : Nat := 7
  /-- the interface type in use: BFC_IF_CFG.if_type as the last BFC reset took it (R256, R297) -/
  toggle : Bool := false
  /-- the factory marks have been read once: the remap table is the only record (R293) -/
  marksRead : Bool := false
  /-- per bed and mode, the bed's median in 0.25 µs: key bed × 2, + 1 for pSLC (R279) -/
  bedMedian : Sparse Nat := []
  /-- strata, key bed × 2^20 + stratum -/
  strata : Sparse Stratum := []
  /-- sealed clods, key of their base location (R44, R264) -/
  base : Sparse UnitSlot := []
  reads : List GrainRead := []
  nextRead : Nat := 1
  units : List ProgUnit := []
  nextUnit : Nat := 1
  /-- fetches from the partner in flight for rung 3 and for R418: tag and clod (R284) -/
  fetches : List (Nat × Nat) := []
  nextFetch : Nat := 1
  /-- fetches served for the partner: tag, clod, grains still awaited, a grain failed (R288) -/
  serves : List (Nat × Nat × List Nat × Bool) := []
  deriving DecidableEq, Repr

/-- The type of a record (R534). -/
inductive RecordType where
  | event | pad | lossMarker
  deriving DecidableEq, Repr

/-- One record (R534, R535). -/
structure Record where
  rtype : RecordType
  imported : Bool := false
  severity : Fin 4 := 0
  source : Nat := 0
  len16 : Nat
  seq : Nat
  time : Nat
  code : EventKind := .firmware 0
  mid : Nat := 0xFFF
  suppressed : Nat := 0
  /-- the block's detail, one item to 8 bytes -/
  detail : List Nat := []
  /-- records lost, of a loss marker -/
  lost : Nat := 0
  /-- ring offset in bytes -/
  offset : Nat
  /-- the history block that holds it is sealed in Bedrock (R537) -/
  settled : Bool := false
  /-- the drain has copied it into a history block (R541) -/
  drained : Bool := false
  deriving DecidableEq, Repr

/-- What a record becomes for hosts (R548). -/
inductive HostFormat where
  | generalMedia | dram | memoryModule | vendor
  deriving DecidableEq, Repr

/-- A history block (R541): its first sequence number and its records. -/
structure HistoryBlock where
  number : Nat
  boot : Word
  firstSeq : Nat
  records : List Record
  deriving DecidableEq, Repr

/-- Where an event's host record goes (R548). -/
inductive HostLogEntry where
  /-- a record; a vendor-specific one holds the EVR record's first 80 bytes -/
  | record (seq : Nat) (kind : EventKind) (severity : Fin 4) (detail : List Nat) (format : HostFormat) (data : List Word)
  | extent (plot : PlotId) (generation : Nat) (add shared : Bool)
  deriving DecidableEq, Repr

/-- A crash area (R544): its bank, its header words and the records behind them, newest first. -/
structure CrashArea where
  bank : Bool
  boot : Word
  start : Nat
  cause : Nat
  firstSeq : Nat
  records : List Record
  /-- the end word has been programmed -/
  ended : Bool
  deriving DecidableEq, Repr

/-- EVR's state (17). -/
structure Evr where
  /-- records standing in the ring, oldest first -/
  ring : List Record := []
  head : Nat := 0
  /-- the record reclaimed last: what stands between the head and the oldest record is left of it (R538) -/
  gone : Option Record := none
  seqNext : Nat := 1
  /-- per source: the window its count belongs to, the count, the suppressed events owed (R533) -/
  rates : Sparse (Nat × Nat × Nat) := []
  /-- records lost since the last loss marker, and the time of the oldest (R539) -/
  lostSince : Nat := 0
  lostTime : Nat := 0
  /-- history: blocks of the segment being filled, segments handed to BFC and not yet sealed, sealed ones -/
  blocks : List HistoryBlock := []
  segmentSince : Option Nat := none
  handed : List (Nat × List HistoryBlock) := []
  history : List (Nat × List HistoryBlock) := []
  nextSegment : Nat := 0
  nextBlock : Nat := 0
  fetchSeq : Option Nat := none
  /-- the block the fetch window holds (R543) -/
  fetchBlock : Option HistoryBlock := none
  importWin : Sparse Word := []
  /-- the crash flush running: what it writes (R545) -/
  crash : Option CrashArea := none
  /-- the crash areas as the code store holds them (R544) -/
  crashAreas : List CrashArea := []
  /-- event logs of each LD: key LD × 8 + log, unread records oldest first; overflow counts (R548) -/
  logs : Sparse (List HostLogEntry) := []
  overflow : Sparse Nat := []
  /-- interrupt policy: key LD × 8 + log, the vector when MSI-X is on (R549) -/
  policy : Sparse (Option Nat) := []
  /-- MSI-X: address and data words (key LD × 64 + vector), masks, pending bits, function masks (R550) -/
  msixAddr : Sparse DWord := []
  msixData : Sparse Word := []
  msixMask : Sparse Bool := []
  msixPending : Sparse Bool := []
  msixFnMask : Sparse Bool := []
  deriving DecidableEq, Repr

/-- A submission descriptor (R119). -/
structure Desc where
  opcode : BitVec 8
  fence : Bool
  irqNow : Bool
  cid : BitVec 16
  plot : PlotId
  generation : BitVec 16
  offset : DWord
  hostAddr : DWord
  length : DWord
  /-- p0 to p7 -/
  params : List Word
  /-- a bit that R119 reserves is set -/
  reserved : Bool
  deriving DecidableEq, Repr

/-- Where a fetched operation stands. -/
inductive OpStage where
  /-- fetched, in the descriptor fetch queue -/
  | fetched
  /-- started and still at work -/
  | running
  /-- ended; its completion is in the staging queue, or waits for room there -/
  | ended
  deriving DecidableEq, Repr

/-- An operation of a ring, from its fetch to its completion entry (R133, R139). -/
structure RingOp where
  num : Nat
  desc : Desc
  stage : OpStage := .fetched
  status : Nat := 0
  result : Nat := 0
  /-- bytes of the range whose lines have been issued to the POU -/
  next : Nat := 0
  /-- bytes asked of host memory so far, and host reads outstanding (R121, R122) -/
  asked : Nat := 0
  hostReads : List Nat := []
  /-- host bytes that arrived and wait to be ordered, each with its poison -/
  bytes : List (BitVec 8 × Bool) := []
  /-- POU requests outstanding -/
  lines : List Nat := []
  /-- lines read for a digest, by line of the range -/
  got : Sparse LineVal := []
  /-- writes and operations a barrier waits for (R124) -/
  waits : List Nat := []
  waitsOps : List Nat := []
  /-- clods a PIN still waits for (R125) -/
  pins : List Nat := []
  /-- first poisoned line's plot offset, and poisoned lines (R123) -/
  poisonFirst : Option Nat := none
  poisonCount : Nat := 0
  /-- a read of host memory failed (R122) -/
  faulted : Bool := false
  /-- buffers held: pool and handle (R121) -/
  buffers : List (Nat × Nat) := []
  /-- it has ended, and its completion stands in the staging queue (R145) -/
  queued : Bool := false
  deriving DecidableEq, Repr

/-- Ring states, in the order of their codes (R109). -/
inductive RingState where
  | disabled | active | reset | error
  deriving DecidableEq, Repr

/-- One ring's state beyond its set-up registers (R109 to R118, R130 to R134, R137). -/
structure Ring where
  state : RingState := .disabled
  /-- an enable's checks are running (R112) -/
  enabling : Bool := false
  sqHead : Nat := 0
  sqTail : Nat := 0
  cqHead : Nat := 0
  cqTail : Nat := 0
  phase : Bool := true
  ops : List RingOp := []
  nextOp : Nat := 0
  /-- SQ entries asked for in outstanding host reads (at most two), oldest first (R140) -/
  sqReads : List (Nat × Nat) := []
  /-- written entries no interrupt has covered (R134) -/
  unsignalled : Nat := 0
  /-- result window: the 64 bytes of each ready slot (R137, R138) -/
  results : Sparse Line := []
  deriving DecidableEq, Repr

/-- A queue of the shared design: its pointers, each held twice (R148), and the visible items in the bank the consumer reads and in the
bank the producer fills (R145). -/
structure QueuePtrs where
  rd : Nat := 0
  rdCopy : Nat := 0
  wr : Nat := 0
  wrCopy : Nat := 0
  drain : Nat := 0
  fill : Nat := 0
  deriving DecidableEq, Repr

/-- CRE's state (04). -/
structure Cre where
  /-- rings, key LD × 256 + ring; unlisted: DISABLED, never enabled -/
  rings : Sparse Ring := []
  fetchQ : QueuePtrs := {}
  stageQ : QueuePtrs := {}
  /-- the LD that had the last fetch opportunity; per LD, the ring in turn and its used opportunities (R140) -/
  lastLd : Nat := 255
  turns : Sparse (Nat × Nat) := []
  deriving DecidableEq, Repr

/-- A window in effect (R386). -/
structure Window where
  localBase : Nat
  size : Nat
  remoteBase : Nat
  priNode : Fin 4096
  altNode : Fin 4096
  altValid : Bool
  priEpoch : Word
  altEpoch : Word
  deriving DecidableEq, Repr

/-- A chain request of this ingress node in flight (R396, R398). -/
structure ChainReq where
  /-- the POU's number for it, which barriers and GPF wait on (R400) -/
  id : Nat
  tag : Word
  origin : Origin
  mid : Nat
  cls : Fin 32
  window : Nat
  /-- the window as it stood when the request was issued (R405) -/
  snap : Window
  write : Bool
  dpa : DWord
  be : ByteMask
  data : Line
  poison : Bool
  metaVal : MetaValue
  /-- the alternate node was tried last -/
  alt : Bool
  resends : Nat
  /-- some attempt ended otherwise than in CH_UNREACH, CH_STALE or CH_REFUSE (R399) -/
  unsure : Bool
  /-- its MAC has yet to be checked: 2 as it arrives, 1 until the epoch's end (R88) -/
  mac : Fin 3 := 0
  deriving DecidableEq, Repr

/-- FLK's chain state (11). -/
structure Chain where
  /-- node ID and epoch in use, as the last write to FLK_CHAIN_CFG applied them (R404) -/
  nodeId : Nat := 0
  nodeEpoch : Word := 0
  windows : Sparse (Option Window) := []
  reqs : List ChainReq := []
  waiting : List ChainReq := []
  nextTag : Word := 1
  /-- tags of chain writes completed here, per source node (R398) -/
  done : List (Nat × Word) := []
  /-- chain writes at this owner that wait for the table (R398) -/
  dedupWaits : List (Fin 8 × ChainFrame) := []
  /-- snoop requests of owners that wait: node, tag, local line, invalidating, and the requests of this node ordered ahead (R209, R401) -/
  snoopWaits : List (Nat × Nat × Nat × Bool × List Word) := []
  /-- the latest source epoch each node's requests carried, which frames to it carry (R391) -/
  seenEpochs : Sparse Word := []
  /-- neighbours' node IDs and epochs as their CH_HELLO reported them: key port -/
  neighbours : Sparse (Nat × Word) := []
  /-- frames sent on each chain port, the frame_ctr of the latest (R334, R440): key port -/
  sent : Sparse Nat := []
  /-- per egress port, the header of the item written last in its forwarding queue (R146, R394, R395) -/
  items : Sparse Word := []
  deriving DecidableEq, Repr

/-- What an SPDM measurement says (R529). -/
inductive Measurement where
  | bootRom (digest : BitVec 384)
  | image (digest : BitVec 384) (seq : Nat)
  | optionCopy (digest : BitVec 384) (seq : Nat)
  | device (debugClosed : Bool) (dieId : BitVec 128)
  | securityVersion (v : Nat)
  deriving DecidableEq, Repr

/-- Answers to SMBus, MCTP, PLDM and SPDM requests (R526 to R529), with what the spec says they carry. -/
inductive SidebandReply where
  | smbusBusy
  | pldmError (code : Nat)
  | smbusBlock (flags state temp : Nat) (events : Word)
  | addressAssigned (addr : Nat)
  | endpointId (eid : Nat) (accepted : Bool)
  | pldmBase (cmd : Nat)
  | pldmPlatform (cmd : Nat) (sensor : Nat) (value : Nat) (states : List Nat)
  | pldmFru (cmd : Nat)
  | pldmUpdate (cmd : Nat) (status : Nat)
  | spdmVersion (v : Nat)
  | spdmCapabilities
  | spdmAlgorithms (accepted : Bool)
  | spdmDigests (d : BitVec 384)
  | spdmCertificate (offset length : Nat) (portion : List (BitVec 8))
  | spdmChallengeAuth (sig : BitVec 768)
  | spdmMeasurements (index : Nat) (values : List Measurement) (sig : Option (BitVec 768))
  | spdmKeyExchange (session : Nat)
  | spdmFinish (session : Nat)
  | spdmKeyUpdate (session : Nat)
  | spdmHeartbeat (session : Nat)
  | spdmEndSession (session : Nat)
  | spdmError (code : Nat)
  deriving DecidableEq, Repr

/-- Responses of an LD's mailbox (R77). -/
inductive MailboxReply where
  | unsupported
  | invalidInput
  | success
  | eventRecords (log : Nat) (entries : List HostLogEntry) (overflow : Nat) (more : Bool)
  | eventPolicy (vectors : List (Option Nat))
  | supportedLogs
  | commandEffects
  | timestamp (t : Nat)
  | identify (staticCapacity dynamicCapacity : Nat)
  | health (maintenanceNeeded : Bool) (lifeUsed lifeStatus : Nat) (dirtyShutdowns : Nat)
  | alertConfiguration (warn crit : Option Nat)
  | poisonList (records : List (Nat × Fin 8)) (more overflow : Bool)
  | dcConfiguration (base size blockSize : Nat)
  /-- per extent its plot, generation, base and size in bytes, and whether it is shared (R81) -/
  | extents (list : List (Nat × Nat × Nat × Nat × Bool))
  deriving DecidableEq, Repr

/-- One thing the block drives out on a link, a line or a bus. -/
inductive Emit where
  /-- S2M DRS: read data with the poison bit (R92) -/
  | memData (ld : Ld) (tag : Nat) (data : Line) (poison : Bool)
  /-- S2M NDR: a write's completion -/
  | memDone (ld : Ld) (tag : Nat)
  /-- S2M BISnp to an LD: a line, BISnpInv or BISnpData (R212) -/
  | biSnp (ld : Ld) (line : Nat) (inv : Bool)
  | biConflictAck (ld : Ld) (line : Nat)
  | gpfResponse (port : Port) (phase : Nat)
  | mailbox (ld : Ld) (reply : MailboxReply)
  | cdat (ld : Ld) (readNs writeNs : Nat) (mbps : Nat)
  /-- an extent offered to, or asked back from, a host (R82); `shared`: it is offered as a shared extent (R81) -/
  | extentEvent (ld : Ld) (plot : PlotId) (generation : Nat) (add shared : Bool)
  /-- a read of host memory, for a ring's descriptors or an operation's data (R107) -/
  | hostRead (ld : Ld) (ring : RingNo) (op : Option Nat) (addr : Nat) (bytes : Nat)
  /-- a posted write of an operation's data to host memory (R123) -/
  | hostWrite (ld : Ld) (ring : RingNo) (op : Nat) (addr : Nat) (data : Line) (be : ByteMask)
  /-- a completion entry's two posted writes to host memory: bytes 0 to 11, then bytes 12 to 15 (R129, R131) -/
  | cqLow (ld : Ld) (ring : RingNo) (addr : Nat) (bytes : BitVec 96)
  | cqHigh (ld : Ld) (ring : RingNo) (addr : Nat) (bytes : Word)
  /-- an MSI-X message: address and data of the vector's entry (R550) -/
  | msix (ld : Ld) (vector : Nat) (addr : DWord) (data : Word)
  /-- the answer to a register read (R6, R583) -/
  | regData (r : Accessor) (space : RegSpace) (addr : Nat) (value : Word)
  /-- a rejected host read answers all ones (R594) -/
  | regReject (r : Accessor) (space : RegSpace) (addr : Nat)
  | twin (f : TwinFrame)
  | chain (port : Fin 8) (f : ChainFrame)
  /-- a chain frame ended with a failing tag (R395) -/
  | chainFailTag (port : Fin 8) (f : ChainFrame)
  /-- a fabric manager's dynamic-capacity add is answered with a status and a plot (R54) -/
  | fmDcAdd (status : Nat) (plot : PlotId)
  /-- an engine takes an assignment, or rejects it with STALE_EPOCH (R16) -/
  | assignment (engine : Mid) (taken : Bool)
  /-- a PCIe link's lanes: held without termination, or training (R99, R100) -/
  | linkTrain (port : Port)
  | linkQuiet (port : Port)
  /-- an interrupt to management cores: bit n is core n (R547, R521) -/
  | coreIrq (cores : Nat)
  /-- BPM's answers: a handle, POOL_EMPTY, BAD_SIZE, or a line's data (R459, R465, R470) -/
  | bufGrant (owner : Owner) (handle : Nat)
  | bufEmpty (owner : Owner)
  | bufBadSize (owner : Owner)
  | bufData (owner : Owner) (val : LineVal)
  /-- an SPDM KEY_UPDATE for a link: the first counters under the new keys (R441) -/
  | keyUpdate (link : Nat) (fromOrdered fromOther : Nat)
  /-- answers on a sideband bus or a mailbox of a standard, by name -/
  | sideband (r : SidebandReply)
  deriving DecidableEq, Repr

/-- One committed HDM decoder of an LD (R76, R83): its HPA range and the DPA it begins at, in bytes. -/
structure Decoder where
  enabled : Bool := false
  hpaBase : Nat := 0
  size : Nat := 0
  dpaBase : Nat := 0
  /-- interleave ways 1, 2, 4, 8, 16, and the granularity in bytes -/
  ways : Nat := 1
  granularity : Nat := 256
  /-- back-invalidation enabled: HDM-DB (R83) -/
  backInval : Bool := false
  deriving DecidableEq, Repr

/-- An extent of a plot as an LD sees it (R82). -/
inductive ExtentState where
  | offered | held | rejected | releaseAsked
  deriving DecidableEq, Repr

/-- An IDE key set: 8 key words and 3 IV words (R443). -/
structure KeySet where
  key : List Word
  iv : List Word
  deriving DecidableEq, Repr

/-- One host link (R71 to R100). -/
structure HostLink where
  /-- HFP_PERST_N asserted (R100) -/
  perst : Bool := true
  /-- the link is in recovery: completions are held (R96) -/
  recovery : Bool := false
  /-- failed replays of the flit in hand (R96) -/
  replays : Nat := 0
  /-- the link is training, and HFP_PORT_CTL as its training began (R105) -/
  training : Bool := false
  ctl : Word := 0x6F
  /-- IDE keys of the staged and the active set, key stream × 2 + direction (R442) -/
  staged : Sparse KeySet := []
  active : Sparse KeySet := []
  /-- the active key set runs in skid mode, else in containment mode (R88) -/
  skid : Bool := false
  deriving DecidableEq, Repr

/-- A CXL mailbox's alert thresholds and policy live with their LD (R77, R552). -/
structure LdState where
  memoryActive : Bool := false
  /-- CXL timestamp as last set, and the device time it was set at (R77) -/
  timestamp : Option (Nat × Nat) := none
  decoders : Sparse Decoder := []
  /-- the HDM decoder capability's words as written, key word number (R76, R590) -/
  hdm : Sparse Word := []
  /-- extents, key generation × 4,096 + plot (R81, R82) -/
  extents : Sparse (Option ExtentState) := []
  /-- offers (true) and release requests held while the link is down, by the same key (R82) -/
  heldExtents : List (Nat × Bool) := []
  alertWarn : Option Nat := none
  alertCrit : Option Nat := none
  deriving DecidableEq, Repr

/-- HFP's state (03). -/
structure Hfp where
  links : Sparse HostLink := []
  lds : Sparse LdState := []
  /-- HFP_BOND as it stood at the last release of the HFP reset (R73) -/
  bondActive : BitVec 8 := 0
  /-- completions held by a link in recovery, oldest first -/
  held : List (Nat × Emit) := []
  dirtyShutdowns : Nat := 0
  /-- Memory_Active_Timeout as the DVSEC advertises it (R84) -/
  memActiveTo : Nat := 3
  /-- what the GPF DVSEC advertises: the Phase 2 duration in µs and the Phase 2 power in W (R91) -/
  gpfPhase2Us : Nat := 20
  gpfPhase2Watts : Nat := 0
  deriving DecidableEq, Repr

/-- A link's session secret as loaded, eight words (R439, R443). -/
abbrev Secret := List Word

/-- A key update of a link in progress (R441): the first counters, ordered and unordered, that use the new keys. -/
structure Rekey where
  fromOrdered : Nat
  fromOther : Nat
  deriving DecidableEq, Repr

/-- CKU's state (13). -/
structure Cku where
  /-- the key window's DATA0 to DATA11, key 0 to 11 (R443) -/
  window : Sparse Word := []
  /-- session secrets, key: twin 0 current, 1 next; chain port p at 2 + 2p and 3 + 2p -/
  secrets : Sparse Secret := []
  /-- old secrets kept while retained frames may be resent, key link: twin 0, chain port p at 1 + p -/
  old : Sparse Secret := []
  rekeys : Sparse (Option Rekey) := []
  /-- plots whose XTS slot is derived (R435) -/
  xtsSlots : Sparse Bool := []
  /-- grain keys in the cache, most recently used first: (plot or 4,095, bed, stratum, generation) (R435) -/
  gcmCache : List (Nat × Nat × Nat × Nat) := []
  deriving DecidableEq, Repr

/-- A buffer's record and its poison map (R462); unlisted: free, tag 0. -/
structure BufRec where
  held : Bool := false
  untrusted : Bool := false
  quarantined : Bool := false
  owners : List Owner := []
  tag : Nat := 0
  poison : Sparse Bool := []
  deriving DecidableEq, Repr

/-- One pool (R458, R463 to R465). -/
structure Pool where
  /-- buffers that can be issued (R460); 0 until start-up fills the rings -/
  usable : Nat := 0
  /-- the handle cache: buffer indices, last in first out -/
  cache : List Nat := []
  /-- the free ring: runs of consecutive indices, head first -/
  ring : List (Nat × Nat) := []
  rebuilding : Bool := false
  /-- PUTs waiting for a rebuild: buffer index, tag and owner (R464) -/
  waitingPuts : List (Nat × Nat × Owner) := []
  /-- last requester granted (R465) -/
  lastGrant : Option Owner := none
  /-- a low event has been raised and not rearmed -/
  low : Bool := false
  deriving DecidableEq, Repr

/-- What a hardware engine holds a sand buffer for. -/
inductive BufUse where
  /-- a grain read: its number, the tag failures it has met (R287), and its grain (R278) -/
  | grain (read fails clod grain : Nat)
  /-- a grain that waits for its lift -/
  | lift (clod grain : Nat)
  /-- a grain staged for a settle, at its clod's place in the program unit (R317) -/
  | settle (clod slot grain : Nat)
  /-- 4 KiB of retained frames (R341) -/
  | frames (n : Nat)
  deriving DecidableEq, Repr

/-- BPM's state (14). -/
structure Bpm where
  pools : Sparse Pool := []
  /-- records, key pool × 2^23 + index -/
  recs : Sparse BufRec := []
  /-- lines of buffers, key (pool × 2^23 + index) × 1,024 + line -/
  lines : Sparse Line := []
  /-- sand buffers that hardware engines hold: what for, the owner's name and the handle -/
  uses : List (BufUse × Owner × Nat) := []
  deriving DecidableEq, Repr

/-- A code-store descriptor, four words (R507). -/
structure CsDesc where
  w0 : Word
  w1 : Word
  w2 : Word
  w3 : Word
  deriving DecidableEq, Repr

/-- A code-store operation in progress (R508, R510). -/
structure CsOp where
  /-- the issuing master's index: 0 for 0x340, 1 to 5 for 0x341 to 0x345, 6 for JTAG -/
  master : Nat
  desc : CsDesc
  /-- words programmed or sectors erased so far -/
  done : Nat
  suspends : Nat
  urgent : Bool
  deriving DecidableEq, Repr

/-- An open code-store descriptor of a master (R506). -/
structure CsOpen where
  w0 : Word
  w1 : Word := 0
  w2 : Word := 0
  deriving DecidableEq, Repr

/-- One core's descriptor and completion queues (R506, R509). -/
structure CsQueues where
  opened : Option CsOpen := none
  normal : List CsDesc := []
  urgent : List CsDesc := []
  /-- the two queues' banks and pointers (R145, R506) -/
  normalPtrs : QueuePtrs := {}
  urgentPtrs : QueuePtrs := {}
  /-- completions: LO and HI words -/
  cmpl : List (Word × Word) := []
  /-- the HI latched by the last read of LO -/
  latchedHi : Word := 0xFFFFFFFF
  deriving DecidableEq, Repr

/-- An SPDM session (R529). -/
structure SpdmSession where
  id : Nat
  /-- FINISH has completed -/
  established : Bool
  mutualAuth : Bool
  /-- the host link whose DOE mailbox carries it (R87) -/
  doe : Option Nat := none
  deriving DecidableEq, Repr

/-- An MCTP message in reassembly (R527). -/
structure Reassembly where
  source : Nat
  tag : Nat
  msgType : Nat
  bytes : Nat
  nextSeq : Nat
  deriving DecidableEq, Repr

/-- A PLDM firmware update in progress (R519, R528). -/
structure Update where
  component : Nat
  image : ImageHeader
  option : Option OptionArea
  /-- 0 sectors erased, 1 body programmed, 2 verified, 3 header programmed -/
  phase : Nat
  deriving DecidableEq, Repr

/-- MGC's state (16). -/
structure Mgc where
  /-- SRAM words, private and shared, key core address ÷ 4 (R501) -/
  sram : Sparse Word := []
  /-- code-store words that have been programmed since their sector's erase, key word address; unlisted: erased, reads
  0xFFFF_FFFF (R503, R505) -/
  store : Sparse (Option Word) := []
  /-- undefined sectors (R512), key sector -/
  undefinedSectors : Sparse Bool := []
  queues : Sparse CsQueues := []
  op : Option CsOp := none
  /-- an erase or program suspended under an urgent one (R510) -/
  suspendedOp : Option CsOp := none
  lastNormal : Nat := 0
  lastUrgent : Nat := 0
  /-- sector erase counts (R513) -/
  wear : Sparse Nat := []
  images : Sparse ImageHeader := []
  options : Sparse OptionArea := []
  /-- firmware has set boot_ok; requests of mailboxes, DOE and sideband wait for it, oldest first (R523) -/
  booted : Bool := false
  waiting : List Instr := []
  lockstepTimes : List Nat := []
  /-- the watchdog: its last restart, and the timeout in force since then, in ms (R521, R531) -/
  wdtAt : Nat := 0
  wdtMs : Nat := 2000
  /-- MGC_WDT_CFG.enable as the latest kick took it (R531) -/
  wdtOn : Bool := true
  debugClosed : Bool := false
  sessions : List SpdmSession := []
  nextSession : Nat := 1
  /-- algorithms negotiated (R529) -/
  negotiated : Bool := false
  reassembly : List Reassembly := []
  i3cDynamic : Option Nat := none
  update : Option Update := none
  /-- events raised since power-up (R526) -/
  eventsRaised : Nat := 0
  deriving DecidableEq, Repr

/-- A snapshot (R486): the time, the header fields and 24 readings with their flags. -/
structure Snapshot where
  time : Nat
  cause : Nat
  kind : Nat
  state : Nat
  /-- per channel: reading, warning held, fault held -/
  values : List (BitVec 16 × Bool × Bool)
  deriving DecidableEq, Repr

/-- One sense channel's filters (R483). -/
structure Sense where
  warnRun : Nat := 0
  faultRun : Nat := 0
  deriving DecidableEq, Repr

/-- A capacitance test running (R487): the store voltage at its start, in 10 mV. -/
structure CapTest where
  vStart : Nat
  deriving DecidableEq, Repr

/-- A kiln image section (R493). -/
inductive KilnSection where
  | plotChange (plots : List Nat)
  | poisonList (entries : List (Nat × PoisonEntry))
  | changeMap (clods : List Nat)
  /-- a dirty grain: clod, grain, plot generation, its lines (poisoned and unset lines hold zeros), the dirty map -/
  | data (clod grain generation : Nat) (lines : ClodImage)
  | overlayMap (clod generation : Nat) (valid : BitVec 1024)
  deriving DecidableEq, Repr

/-- A closing grain (R494). -/
structure ClosingGrain where
  image : Nat
  startTime : Nat
  closeTime : Nat
  cause : Nat
  complete : Bool
  bed : Nat
  side : Bool
  mode : Nat
  epoch : Word
  /-- last clod of this bed whose grains are all sealed -/
  lastClod : Option Nat
  dataGrains : Nat
  sectionGrains : Nat
  walk : Nat
  mediaTime : Nat
  deriving DecidableEq, Repr

/-- A kiln image as the kiln strata hold it (R493, R494), with the start of what a scan of its grain headers finds lost. -/
structure KilnImage where
  sections : List KilnSection
  closing : List ClosingGrain
  lost : Option Nat
  deriving DecidableEq, Repr

/-- PHS's state (15); its registers stand with the others. -/
structure Phs where
  /-- VDD_AON is good and the always-on reset released: PHS runs (R477) -/
  running : Bool := false
  /-- since when PWR_REQ has been low -/
  lowSince : Nat := 0
  /-- an off request with PWR_REQ high: PHS stays off until PWR_REQ rises again (R475) -/
  stayOff : Bool := false
  /-- consecutive samples of V12_IN above its warning-low threshold, at most 100: 1 ms (R475) -/
  v12Run : Nat := 0
  /-- EN outputs, power-good inputs and rails whose step has passed, by up order as bits 0 to 6 (R476) -/
  enables : BitVec 7 := 0
  pg : BitVec 7 := 0
  railsUp : BitVec 7 := 0
  /-- the rail whose step is in progress, in up order 0 to 6 -/
  step : Option (Fin 7) := none
  /-- power-up turns back when the step in progress ends: its cause and kind (R480) -/
  turnBack : Option (Nat × Nat) := none
  /-- filters of the sense channels -/
  senses : Sparse Sense := []
  /-- the latest readings of HOLDUP_V, newest first, at most 100: 1 ms (R487) -/
  holdup : List Nat := []
  /-- reset outputs whose stretch is running (R482) -/
  stretching : List Nat := []
  /-- snapshots: slot 0, and slots 1 to 7 (R486) -/
  snapFirst : Option Snapshot := none
  snapRest : List Snapshot := []
  /-- the slot after 0 that the next snapshot takes once all are in use -/
  snapNext : Nat := 0
  /-- a capacitance test is running; HOLDUP_TEST is asserted -/
  capTest : Option CapTest := none
  /-- the flush: its start, and its cause channel (R492) -/
  flushStart : Option Nat := none
  flushCause : Nat := 0
  /-- the on-die reset is asserted (R477 step 6, R479) -/
  dieReset : Bool := true
  deriving DecidableEq, Repr

/-- A change the translation journal records (R559). -/
inductive JournalChange where
  | settled (clod : Nat) (loc : BaseLoc)
  | plot (plot : Nat) (record : Plot) (acl : List (Nat × Word))
  | acl (plot entry : Nat) (value : Word)
  | shutdown (side : Bool) (mode : Nat) (epoch : Word)
  | imageConsumed (number : Nat)
  deriving DecidableEq, Repr

/-- What completes when a journal record is sealed (R559). -/
inductive JournalThen where
  | nothing
  /-- the commit of the settle of this clod (R318) -/
  | commit (clod : Nat)
  /-- a ring operation's end, with its status and result -/
  | endOp (ld : Ld) (ring : RingNo) (op : Nat) (status : Nat) (result : DWord)
  deriving DecidableEq, Repr

/-- One journal record (R559). -/
structure JournalRec where
  seq : Nat
  mediaTime : Nat
  change : JournalChange
  after : JournalThen := .nothing
  deriving DecidableEq, Repr

/-- One checkpoint grain (R560): the journal sequence current when it was read and what it holds. -/
structure CkptGrain where
  seq : Nat
  /-- the plot records, and each one's valid access entries -/
  plots : List (Nat × Plot)
  acl : List (Nat × List (Nat × Word))
  granules : List GranuleRun
  bases : List (Nat × BaseLoc)
  deriving DecidableEq, Repr

/-- What the twin's HELLO said of its start (R570). -/
structure TwinStart where
  record : Option StopRecord
  image : Nat
  lostFrom : Option Nat
  restored : Bool
  deriving DecidableEq, Repr

/-- The shutdown in progress (R574, R576). -/
inductive Shutdown where
  | none | orderly | warm
  deriving DecidableEq, Repr

/-- GLB's state (18). -/
structure Glb where
  /-- sealed journal records, oldest first -/
  journal : List JournalRec := []
  /-- records packed and not yet programmed; units being programmed, by unit number -/
  packing : List JournalRec := []
  journalUnits : List (Nat × List JournalRec) := []
  journalSeq : Nat := 0
  /-- the checkpoint pass in progress and the latest complete one, by grain number -/
  ckptNext : Nat := 0
  ckptNow : Sparse (Option CkptGrain) := []
  ckptDone : Sparse (Option CkptGrain) := []
  ckptValid : Bool := false
  /-- the image in the kiln strata (R493, R494), and the lost range of its class (R562) -/
  kiln : Option KilnImage := none
  lostFrom : Option Nat := none
  /-- data grains of a complete image that failed: clod and grain, until the twin supplies them or they are poisoned (R563) -/
  lostGrains : List (Nat × Nat) := []
  /-- clods that recovery could not place: lost, once the twin or nobody can supply them (R46, R561) -/
  unplaced : List Nat := []
  /-- restore has ended (R564) -/
  restored : Bool := false
  /-- Loam, and Bedrock, have ended their training at this start (R556 steps 6 and 7) -/
  loamReady : Bool := false
  bedrockReady : Bool := false
  /-- own recorded state at the stop, and the twin's -/
  record : Option StopRecord := none
  twinStart : Option TwinStart := none
  shutdown : Shutdown := .none
  /-- device time at which RUNNING was entered -/
  runningAt : Nat := 0
  /-- HFP's reset is held (R556 step 14, R576) -/
  hfpReset : Bool := true
  /-- the twin's role has been decided and this side serves (R572) -/
  roleDecided : Bool := false
  deriving DecidableEq, Repr

/-- The machine. -/
structure State where
  glb : Glb := {}
  hfp : Hfp := {}
  cre : Cre := {}
  plots : Plots := {}
  pou : Pou := {}
  fcd : Fcd := {}
  lmc : Lmc := {}
  diu : Diu := {}
  bfc : Bfc := {}
  tmg : Tmg := {}
  twin : Twin := {}
  chain : Chain := {}
  bpm : Bpm := {}
  cku : Cku := {}
  phs : Phs := {}
  evr : Evr := {}
  mgc : Mgc := {}
  /-- every register bit that hardware or software stores, key address × 2^20 + index; unlisted: its reset value -/
  regs : Sparse Word := []
  /-- pending LO halves and latched HI halves of 64-bit pairs, key (pair, accessor) (R6, R581) -/
  pairPend : Sparse (Option Word) := []
  pairLatch : Sparse (Option Word) := []
  /-- the commands that wait, first in, first out -/
  pending : List Instr := []
  /-- what the block has driven out, newest first -/
  out : List Emit := []
  /-- how many free values have been taken: the model's own counter -/
  freeCount : Nat := 0
  /-- device time in ns (R20) -/
  devTime : Nat := 0
  deriving DecidableEq, Repr

/-- Why a step stops the machine. No command of this block does: the spec gives every row of the table an effect. -/
inductive Fault where
  /-- raised by no meaning; safe -/
  | none
  deriving DecidableEq, Repr

/-- Why a command has no meaning. -/
inductive Refusal where
  /-- raised by an arm of the dispatch whose command has no meaning yet; safe: nothing is claimed of it -/
  | notModelled (mnemonic : String)
  deriving DecidableEq, Repr

/-- The machine right after reset: every field at the value the spec gives, or the one the log names. -/
def State.reset : State := {}

end Sys2Proof.Machine
end

