-- ==== Sys2Proof/Machine/Ops.lean ====
section
/-! DEFINITION. The named operations over sparse tables and registers that every meaning shares. -/

namespace Sys2Proof.Machine

/-! ### Sparse tables -/

/-- The value at a key; `d` for an unlisted one. -/
def sget {α : Type} (d : α) : Sparse α → Nat → α
  | [], _ => d
  | (a, v) :: t, k => if a = k then v else sget d t k

/-- Write a value at a key, keeping keys rising and no entry equal to `d`. -/
def sput {α : Type} [DecidableEq α] (d : α) : Sparse α → Nat → α → Sparse α
  | [], k, v => if v = d then [] else [(k, v)]
  | (a, w) :: t, k, v =>
    if k < a then (if v = d then (a, w) :: t else (k, v) :: (a, w) :: t)
    else if k = a then (if v = d then t else (a, v) :: t)
    else (a, w) :: sput d t k v

/-- Apply a function to the value at a key. -/
def supd {α : Type} [DecidableEq α] (d : α) (t : Sparse α) (k : Nat) (f : α → α) : Sparse α :=
  sput d t k (f (sget d t k))

/-- The canonical form of a sparse table: keys strictly rising, no entry equal to the default. -/
def sparseWf {α : Type} [DecidableEq α] (d : α) : Sparse α → Bool
  | [] => true
  | [(_, v)] => decide (v ≠ d)
  | (a, v) :: (b, w) :: t => decide (v ≠ d) && decide (a < b) && sparseWf d ((b, w) :: t)

/-- Keep the entries whose key passes. -/
def sdrop {α : Type} (t : Sparse α) (gone : Nat → Bool) : Sparse α := t.filter fun e => !gone e.1

/-! ### Registers -/

/-- The key of a register: its address and its index (a selected entry, an accessor, an LD). -/
def regKey (addr idx : Nat) : Nat := addr * 1048576 + idx

/-- Does a table row cover an address? -/
def RegDesc.covers (d : RegDesc) (addr : Nat) : Bool :=
  decide (d.addr ≤ addr) && decide ((addr - d.addr) % d.stride = 0) && decide ((addr - d.addr) / d.stride < d.count)

/-- The table row of an address. -/
def regRow (addr : Nat) : Option RegDesc := regTable.find? fun d => d.covers addr

/-- The reset value of a row of fields. -/
def fieldsReset : List FieldDesc → Nat
  | [] => 0
  | f :: t => f.reset * 2 ^ f.lo + fieldsReset t

/-- Thresholds and controls a sense channel resets to (R484). -/
structure SenseReset where
  warnLo : Nat
  warnHi : Nat
  faultLo : Nat
  faultHi : Nat
  action : Nat
  digital : Nat
  enable : Nat
  gain : Nat
  deriving DecidableEq, Repr

/-- The sense channels at reset, in channel order (R484). A factor the table leaves to the option area is 1,024. -/
def senseResets : List SenseReset := [
  ⟨1746, 1854, 1710, 1890, 2, 0, 1, 1024⟩, ⟨873, 927, 855, 945, 2, 0, 1, 1024⟩,
  ⟨922, 979, 903, 998, 2, 0, 1, 1024⟩, ⟨873, 927, 855, 945, 1, 0, 1, 1024⟩,
  ⟨1164, 1236, 1140, 1260, 1, 0, 1, 1024⟩, ⟨1067, 1133, 1045, 1155, 2, 0, 1, 1024⟩,
  ⟨1164, 1236, 1140, 1260, 2, 0, 1, 1024⟩, ⟨1746, 1854, 1710, 1890, 1, 0, 1, 1024⟩,
  ⟨0, 200, 0, 400, 0, 0, 1, 1024⟩, ⟨11000, 13000, 10200, 13800, 1, 0, 1, 12288⟩,
  ⟨0, 0xFFFF, 0, 0xFFFF, 0, 0, 1, 1024⟩, ⟨0x8000, 0x7FFF, 0x8000, 0x7FFF, 0, 0, 1, 1024⟩,
  ⟨0, 0xFFFF, 1, 0xFFFF, 2, 1, 1, 1024⟩, ⟨0, 0xFFFF, 1, 0xFFFF, 2, 1, 1, 1024⟩,
  ⟨2425, 2575, 2375, 2625, 2, 0, 1, 3072⟩, ⟨2425, 2575, 2375, 2625, 2, 0, 1, 3072⟩,
  ⟨2425, 2575, 2375, 2625, 2, 0, 1, 3072⟩, ⟨2425, 2575, 2375, 2625, 2, 0, 1, 3072⟩,
  ⟨3201, 3399, 3135, 3465, 1, 0, 1, 3072⟩, ⟨1, 0xFFFF, 0, 0xFFFF, 0, 1, 1, 1024⟩,
  ⟨0, 700, 0, 850, 1, 0, 1, 1024⟩, ⟨0, 0xFFFF, 0, 0xFFFF, 0, 0, 0, 1024⟩,
  ⟨0, 0xFFFF, 0, 0xFFFF, 0, 0, 0, 1024⟩, ⟨0, 0xFFFF, 0, 0xFFFF, 0, 0, 0, 1024⟩]

/-- The sense channel's reset row. -/
def senseReset (ch : Nat) : SenseReset := senseResets.getD ch ⟨0, 0xFFFF, 0, 0xFFFF, 0, 0, 0, 1024⟩

/-- The stretch a reset output resets to, in ms (R482). -/
def stretchReset (output : Nat) : Nat :=
  if output < 4 then 2 else if output < 8 then 10 else if output < 11 then 100 else 20

/-- Reset values that depend on the index (R228, R445, R482, R484, R553, R589). -/
def resetByIndex (addr idx : Nat) : Option Nat :=
  match addr with
  | 0x500001C => some (if idx = 19 then 20000 else if idx = 18 then 4000 else 400)
  | 0xA000004 => some (if idx = 0 then 0x40 else 0x10)
  | 0xB000010 => some (if idx < 6 then 1 else if idx < 10 then 2 else if idx < 14 then 3 else if idx < 18 then 4
      else if idx < 22 then 5 else 0)
  | 0xC000014 => some (stretchReset idx + 512)
  | 0xC00001C =>
    let r := senseReset idx
    some (r.enable + r.action * 2 + r.digital * 8 + 0x280)
  | 0xC000020 => some (senseReset idx).gain
  | 0xC000024 => some ((senseReset idx).warnLo + (senseReset idx).warnHi * 65536)
  | 0xC000028 => some ((senseReset idx).faultLo + (senseReset idx).faultHi * 65536)
  | 0xD000028 => some (if idx < 512 ∨ idx = 1281 ∨ idx = 1520 ∨ idx = 1521 then 0x1007 else 0x1003)
  | _ => none

/-- The value a register resets to (R589). -/
def resetAt (addr idx : Nat) : Word :=
  match resetByIndex addr idx with
  | some v => BitVec.ofNat 32 v
  | none =>
    match regRow addr with
    | some d => BitVec.ofNat 32 (fieldsReset d.fields)
    | none => 0

/-- The entry of a key, if listed. -/
def slook {α : Type} : Sparse α → Nat → Option α
  | [], _ => none
  | (a, v) :: t, k => if a = k then some v else slook t k

/-- The stored bits of a register. -/
def regAt (s : State) (addr idx : Nat) : Word :=
  match slook s.regs (regKey addr idx) with
  | some v => v
  | none => resetAt addr idx

/-- Store a register's bits. -/
def setRegAt (s : State) (addr idx : Nat) (v : Word) : State :=
  { s with regs := sput (resetAt addr idx) s.regs (regKey addr idx) v }

/-- A field's value in a word. -/
def fieldOf (w : Word) (lo width : Nat) : Nat := w.toNat / 2 ^ lo % 2 ^ width

/-- A word with one field replaced; the value is taken modulo the field's width. -/
def withField (w : Word) (lo width v : Nat) : Word :=
  BitVec.ofNat 32 (w.toNat - fieldOf w lo width * 2 ^ lo + v % 2 ^ width * 2 ^ lo)

/-- Read a field of a register with an index. -/
def getFi (s : State) (f : Field) (i : Nat) : Nat := fieldOf (regAt s f.addr i) f.lo f.width

/-- Read a field of a register that has no index. -/
def getF (s : State) (f : Field) : Nat := getFi s f 0

/-- Write a field of a register with an index. -/
def setFi (s : State) (f : Field) (i v : Nat) : State :=
  setRegAt s f.addr i (withField (regAt s f.addr i) f.lo f.width v)

/-- Write a field of a register that has no index. -/
def setF (s : State) (f : Field) (v : Nat) : State := setFi s f 0 v

/-- A one-bit field as a truth value. -/
def flag (s : State) (f : Field) : Bool := getF s f = 1

/-- A one-bit field of an indexed register as a truth value. -/
def flagI (s : State) (f : Field) (i : Nat) : Bool := getFi s f i = 1

/-- Add to a counter that saturates at its width. -/
def incFiBy (s : State) (f : Field) (i n : Nat) : State := setFi s f i (min (getFi s f i + n) (2 ^ f.width - 1))

/-- Count one on a saturating counter. -/
def incF (s : State) (f : Field) : State := incFiBy s f 0 1

/-- Count one on an indexed saturating counter. -/
def incFi (s : State) (f : Field) (i : Nat) : State := incFiBy s f i 1

/-- Set a flag. -/
def setFlag (s : State) (f : Field) : State := setF s f 1

/-- Set a flag of an indexed register. -/
def setFlagI (s : State) (f : Field) (i : Nat) : State := setFi s f i 1

/-- Give a one-bit field a truth value. -/
def putFlag (s : State) (f : Field) (b : Bool) : State := setF s f (if b then 1 else 0)

/-- Give a one-bit field of an indexed register a truth value. -/
def putFlagI (s : State) (f : Field) (i : Nat) (b : Bool) : State := setFi s f i (if b then 1 else 0)

/-- Drive something out. -/
def emit (s : State) (e : Emit) : State := { s with out := e :: s.out }

/-- Drive several things out, in order. -/
def emitAll (s : State) (es : List Emit) : State := { s with out := es.reverse ++ s.out }

/-- Take a free value: a word the spec leaves open. -/
def takeFree (s : State) : Word × State := (Config.freeWord s.freeCount, { s with freeCount := s.freeCount + 1 })

/-- The accessor's number in the tables held once per master (R581): masters 0x340 to 0x345, then JTAG. -/
def accessorIdx (who : Accessor) : Nat :=
  match who with
  | .mid m => m.val - 0x340
  | .jtag => 6

/-- The ID an error event names for an accessor; JTAG has none, so 0xFFF. -/
def accessorMid (who : Accessor) : Nat :=
  match who with
  | .mid m => m.val
  | .jtag => 0xFFF

/-- May this accessor write set-up registers (R14)? -/
def isManager (s : State) (who : Accessor) : Bool :=
  match who with
  | .mid m => decide (0x340 ≤ m.val) && decide (m.val ≤ 0x345)
  | .jtag => !s.mgc.debugClosed

/-- A command's end: the effect on everything but the queue; a command takes no device time of its own. -/
def completes (s t : State) : Host.Outcome State Fault Refusal :=
  .next { t with pending := s.pending, devTime := s.devTime }

/-- A command's end for the families that hold no buffer of the pools, so that BPM stays as it was. -/
def finishes (s t : State) : Host.Outcome State Fault Refusal := completes s { t with bpm := s.bpm }

/-- By how much a tick of 10 ns is longer or shorter: a count that is being slewed moves 1 ns toward the reference in the tick that
enters a new µs (R21). -/
def slewStep (devTime : Nat) (slew : Int) : Int :=
  if devTime / 1000 = (devTime + 10) / 1000 then 0 else if 0 < slew then 1 else if slew < 0 then -1 else 0

/-- What passes while no command waits: one tick of the 100 MHz device timer, once the always-on reset has been
released (R20). DESIGN CHOICE: the table has no row for a tick. -/
def idleTick (s : State) : State :=
  if s.phs.running then
    let d := slewStep s.devTime s.twin.slew
    { s with devTime := (s.devTime + 10 + d).toNat, twin.slew := s.twin.slew - d }
  else s

end Sys2Proof.Machine
end

