-- ==== Sys2Proof/Machine/EventOps.lean ====
section
/-! DEFINITION. The event fabric every block raises its events through (17): the record in the ring, its delivery
to the cores and to hosts, MSI-X messages and the replace-advised state. -/

namespace Sys2Proof.Machine

/-! ### Items of the shared queue design (R146, R147, R152) -/

/-- The header of a queue item: its type in bits [31:28], and what the queue puts below, a length in bytes here. -/
def itemHeader (type len : Nat) : Word := BitVec.ofNat 32 (type * 2 ^ 28 + len)

/-- Type of an item that failed after it had begun: it carries its true length, and the consumer skips it. -/
def itemFailed : Nat := 0xD

/-- Type of the placeholder in an item that is still arriving. -/
def itemOpen : Nat := 0xE

/-- The idle item, type 0xF: what a consumer reads from an empty queue. -/
def idleItem : Word := itemHeader 0xF 0xFFFFFFF

/-! ### Access rights, which choose the LDs an event reaches (R60 to R62) -/

/-- An entry of a plot's access table. -/
def aclWord (s : State) (plot entry : Nat) : Word := regAt s 0x3000204 (plot * 64 + entry)

/-- Does a valid entry match a master ID (R60)? -/
def aclMatches (w : Word) (mid : Nat) : Bool :=
  fieldOf w 31 1 = 1 && ((BitVec.ofNat 12 mid ^^^ BitVec.ofNat 12 (fieldOf w 0 12)) &&& BitVec.ofNat 12 (fieldOf w 12 12)) = 0

/-- Rights by the lowest valid entry that matches, from entry `e` with `n` entries left (R61). -/
def aclScan (s : State) (plot mid : Nat) : Nat → Nat → Nat
  | 0, _ => 0
  | n + 1, e => if aclMatches (aclWord s plot e) mid then fieldOf (aclWord s plot e) 24 2 else aclScan s plot mid n (e + 1)

/-- A master's rights in a plot; the management cores have none whatever the table says (R61, R62). -/
def aclRights (s : State) (plot mid : Nat) : Nat :=
  if 0x340 ≤ mid ∧ mid ≤ 0x345 then 0 else aclScan s plot mid 64 0

/-! ### MSI-X (R550) -/

/-- A port's link is up. -/
def linkUp (s : State) (port : Nat) : Bool := getF s (fieldAt Reg.HFP_PORT_STS.link_up (port * 0x100)) = 1

/-- A host link. -/
def hostLink (s : State) (port : Nat) : HostLink := sget {} s.hfp.links port

/-- Drive something out on a host link: a link in recovery holds it, and a link that is down discards it (R96, R97). -/
def toPort (s : State) (port : Nat) (e : Emit) : State :=
  if (hostLink s port).recovery then { s with hfp.held := s.hfp.held ++ [(port, e)] }
  else if linkUp s port then emit s e
  else s

/-- Drive something out on an LD's link. -/
def toHost (s : State) (ld : Ld) (e : Emit) : State := toPort s (ld.val / 16) e

/-- Send a vector's message, or set its pending bit while it is masked or the link is down (R550). -/
def sendMsix (s : State) (ld : Ld) (vector : Nat) : State :=
  let k := ld.val * 64 + vector
  if sget true s.evr.msixMask k || sget false s.evr.msixFnMask ld.val || !linkUp s (ld.val / 16) then
    { s with evr.msixPending := sput false s.evr.msixPending k true }
  else toHost s ld (.msix ld vector (sget 0 s.evr.msixAddr k) (sget 0 s.evr.msixData k))

/-- Send every pending message of an LD that nothing holds back any more. -/
def flushMsix (s : State) (ld : Ld) (vectors : List Nat) : State :=
  vectors.foldl (fun s v =>
    if sget false s.evr.msixPending (ld.val * 64 + v) then
      sendMsix { s with evr.msixPending := sput false s.evr.msixPending (ld.val * 64 + v) false } ld v
    else s) s

/-! ### Records as words (R534, R535) -/

/-- A word of two halves. -/
def twoHalves (lo hi : Nat) : Word := BitVec.ofNat 32 (lo % 65536 + hi % 65536 * 65536)

/-- Type code of a record. -/
def typeCode : RecordType → Nat
  | .event => 1
  | .pad => 2
  | .lossMarker => 3

/-- Bytes 0 to 3 of a record's header. -/
def headerWord (r : Record) : Word :=
  let own := r.rtype = .event || r.imported
  let mid : BitVec 13 := if own then BitVec.ofNat 13 (r.severity.val + r.source * 4) else Config.markerBits (r.rtype = .lossMarker)
  BitVec.ofNat 32 ((if r.imported then 2 else 0) + mid.toNat * 4 + r.len16 % 64 * 32768 + 127 * 2097152 + typeCode r.rtype * 268435456)

/-- An event's code: firmware's own, or the block's. -/
def codeOf (k : EventKind) : Nat :=
  match k with
  | .firmware c => c
  | k => (Config.eventCode k).toNat

/-- Word n of an event's detail: as given for firmware's own events, in the block's layout for the others. -/
def detailOf (r : Record) (n : Nat) : Word :=
  if r.detail.length * 2 ≤ n then Config.recordPad (BitVec.ofNat 32 r.seq) (n + 6)
  else match r.code with
    | .firmware _ => BitVec.ofNat 32 (r.detail.getD (n / 2) 0 / (if n % 2 = 0 then 1 else 4294967296))
    | k => Config.detailWord k r.detail n

/-- Word n of a record. -/
def recordWord (r : Record) (n : Nat) : Word :=
  match n with
  | 0 => headerWord r
  | 1 => BitVec.ofNat 32 r.seq
  | 2 => BitVec.ofNat 32 r.time
  | 3 => BitVec.ofNat 32 (r.time / 4294967296)
  | 4 =>
    match r.rtype with
    | .event => twoHalves (codeOf r.code) r.mid
    | .lossMarker => BitVec.ofNat 32 r.lost
    | .pad => Config.recordPad (BitVec.ofNat 32 r.seq) 4
  | 5 => if r.rtype = .event || r.imported then BitVec.ofNat 32 r.suppressed else Config.recordPad (BitVec.ofNat 32 r.seq) 5
  | n => if r.rtype = .event || r.imported then detailOf r (n - 6) else Config.recordPad (BitVec.ofNat 32 r.seq) n

/-- The words of a record. -/
def recordWords (r : Record) : List Word := (List.range (r.len16 * 4)).map (recordWord r)

/-! ### Delivery to hosts (R548, R549) -/

/-- Records a log holds (R548). -/
def logCapacity : Nat := 64

/-- Add a record to an LD's log and send the log's interrupt, if its policy names one. -/
def deliverLog (s : State) (ld : Ld) (log : Nat) (e : HostLogEntry) : State :=
  let k := ld.val * 8 + log
  let have_ := sget [] s.evr.logs k
  if have_.length < logCapacity then
    let s := { s with evr.logs := sput [] s.evr.logs k (have_ ++ [e]) }
    match sget none s.evr.policy k with
    | some v => sendMsix s ld v
    | none => s
  else { s with evr.overflow := supd 0 s.evr.overflow k (· + 1) }

/-- Every local LD. -/
def allLds : List Ld := List.finRange 256

/-- Who a record concerns (R548). -/
inductive Concern where
  | port (p : Nat)
  | plot (plot : Nat)
  | everyone
  | nobody
  deriving DecidableEq, Repr

/-- Does a record concern an LD? -/
def concerns (s : State) (c : Concern) (ld : Ld) : Bool :=
  match c with
  | .port p => ld.val / 16 = p
  | .plot q => decide (aclRights s q ld.val > 0)
  | .everyone => true
  | .nobody => false

/-- A record's form for hosts: Loam and front-cache errors that name a DPA become DRAM and General Media Event records, health changes
Memory Module Event records, and every other record is vendor-specific (R548; which of the first two each takes is log entry 52). -/
def hostFormat (k : EventKind) (detail : List Nat) : HostFormat :=
  match k with
  | .loamUe => if detail.length = 2 then .dram else .vendor
  | .dirtyParity => .generalMedia
  | .poisonCreated => match detail.getD 1 0 with
    | 2 => .dram
    | 4 => .generalMedia
    | _ => .vendor
  | .replaceAdvised => .memoryModule
  | _ => .vendor

/-- A record of the ring as a host's log takes it. -/
def hostEntry (r : Record) : HostLogEntry :=
  let f := hostFormat r.code r.detail
  .record r.seq r.code r.severity r.detail f (if f = .vendor then (recordWords r).take 20 else [])

/-- Deliver one record to the LDs it concerns. -/
def deliver (s : State) (c : Concern) (sev : Fin 4) (e : HostLogEntry) : State :=
  match c with
  | .nobody => s
  | _ => (allLds.filter (concerns s c)).foldl (fun s ld => deliverLog s ld sev.val e) s

/-! ### The ring (R533 to R539) -/

/-- The ring's size in bytes (R537). -/
def ringBytes : Nat := 1048576

/-- Length of an event record in units of 16 bytes: header, prefix and detail (R534, R535). -/
def eventLen16 (detail : List Nat) : Nat := (24 + 8 * detail.length + 15) / 16

/-- Bytes that records take. -/
def bytesOf : List Record → Nat
  | [] => 0
  | r :: t => r.len16 * 16 + bytesOf t

/-- Unsettled records' bytes (R541, R547). -/
def unsettledBytes (rs : List Record) : Nat := bytesOf (rs.filter fun r => !r.settled)

/-- Reclaim the oldest records until `need` bytes fit (R538, R539): those reclaimed, oldest first, and those left. -/
def reclaim : List Record → Nat → List Record × List Record
  | [], _ => ([], [])
  | r :: t, need =>
    if bytesOf (r :: t) + need ≤ ringBytes then ([], r :: t)
    else ((r :: (reclaim t need).1), (reclaim t need).2)

/-- Records that a loss marker must count: not settled, and no pad. -/
def lostOf (gone : List Record) : List Record := gone.filter fun r => !r.settled && r.rtype ≠ .pad

/-- The next sequence number; it wraps from 0xFFFF_FFFF to 1 (R536). -/
def nextSeq (n : Nat) : Nat := if n = 0xFFFFFFFF then 1 else n + 1

/-- Put one record at the head, reclaiming what stands there. -/
def placeRecord (s : State) (r : Record) : State :=
  let (gone, left) := reclaim s.evr.ring (r.len16 * 16)
  let lost := lostOf gone
  let r := { r with seq := s.evr.seqNext, offset := s.evr.head }
  let s := { s with
    evr.ring := left ++ [r]
    evr.gone := gone.getLast?.or s.evr.gone
    evr.head := (s.evr.head + r.len16 * 16) % ringBytes
    evr.seqNext := nextSeq s.evr.seqNext
    evr.lostSince := s.evr.lostSince + lost.length
    evr.lostTime := if s.evr.lostSince = 0 then (lost.head?.map (·.time)).getD s.evr.lostTime else s.evr.lostTime }
  if lost.isEmpty then s else setFlag (incFiBy s Reg.EVR_LOST_CNT.lost 0 lost.length) Reg.EVR_ERR.records_lost

/-- Write a record, with a pad record first when it would wrap (R537). A pad holds nothing that must be settled (log entry 52). -/
def writeRecord (s : State) (r : Record) : State :=
  let room := ringBytes - s.evr.head
  if r.len16 * 16 ≤ room then placeRecord s r
  else
    placeRecord (placeRecord s {
      rtype := .pad, len16 := room / 16, seq := 0, time := s.devTime, offset := 0, settled := true, drained := true }) r

/-- Deliver the record just written (R548): only if its source's host bit is set. -/
def deliverNewest (s : State) (c : Concern) : State :=
  match s.evr.ring.getLast? with
  | some r => if flagI s Reg.EVR_SRC_CFG.host r.source then deliver s c r.severity (hostEntry r) else s
  | none => s

/-- Once space has become free, one loss marker counts the records lost since the last one (R539). -/
def lossMarker (s : State) : State :=
  if s.evr.lostSince = 0 then s
  else
    let r : Record := { rtype := .lossMarker, len16 := 2, seq := 0, offset := 0, time := s.evr.lostTime, lost := s.evr.lostSince }
    writeRecord { s with evr.lostSince := 0, evr.lostTime := 0 } r

/-- The flags and interrupt that a new record of a source raises (R547). -/
def notifyCores (s : State) (src : Nat) : State :=
  let s := if unsettledBytes s.evr.ring > 524288 then setFlag s Reg.EVR_IRQ.ring_high else s
  if flagI s Reg.EVR_SRC_CFG.mgmt_irq src then
    emit (setFlag s Reg.EVR_IRQ.new_record) (.coreIrq (getF s Reg.EVR_IRQ.core_mask))
  else s

/-- Raise an event from a source: recorded unless the source is off or over its limit (R532, R533), then
delivered. While the die is in reset there is no recorder (R477, R479). -/
def raiseFull (s : State) (src : Nat) (sev : Fin 4) (kind : EventKind) (mid : Nat) (detail : List Nat) (c : Concern) :
    State :=
  if s.phs.dieReset || !flagI s Reg.EVR_SRC_CFG.enable src then s
  else
    let window := s.devTime / 1000000
    let (w, n, owed) := sget (0, 0, 0) s.evr.rates src
    let n := if w = window then n else 0
    let limit := getFi s Reg.EVR_SRC_CFG.max_per_ms src
    if limit ≠ 0 ∧ limit ≤ n then
      incFi { s with evr.rates := sput (0, 0, 0) s.evr.rates src (window, n, owed + 1), mgc.eventsRaised := s.mgc.eventsRaised + 1 }
        Reg.EVR_SRC_CNT.suppressed src
    else
      let s := { s with evr.rates := sput (0, 0, 0) s.evr.rates src (window, n + 1, 0), mgc.eventsRaised := s.mgc.eventsRaised + 1 }
      let r : Record :=
        { rtype := .event, severity := sev, source := src, len16 := eventLen16 (detail.take 125), seq := 0, offset := 0,
          time := s.devTime, code := kind, mid := mid, suppressed := min owed 0xFFFF, detail := detail.take 125 }
      deliverNewest (notifyCores (incFi (writeRecord s r) Reg.EVR_SRC_CNT.raised src) src) c

/-- The severity a block gives an event (R532). The rules state some; the rest are the model's. -/
def severityOf (k : EventKind) : Fin 4 :=
  match k with
  | .fatalFrontCache | .sideConflict | .startHalt | .senseFault | .clockFault | .powerCause
  | .katFail | .selftestFail | .aliveFault => 3
  | .kilnIncomplete | .dirtyParity | .translationLost | .ladder | .dieFailed | .channelLost | .loamUe
  | .poisonCreated | .digestMismatch | .sampleMismatch | .capMismatch | .linkLost | .cipherOut | .lockstep | .coreFault
  | .wdtExpiry | .authFail | .importBad | .queueError | .sqFault
  | .bufferUe | .poolRebuild | .chainError | .deviceDegraded | .spareExhausted => 2
  | .homeChange | .twinMode | .shutdown | .warmReset | .extentEvent | .keyEvent | .mgmtReset
  | .throttleStart | .firmware _ => 0
  | _ => 1

/-- Who an event concerns by its source and kind (R548). -/
def concernOf (src : Nat) (k : EventKind) (plot : Option Nat) : Concern :=
  if src < 512 then .port (src / 32)
  else if src = 1281 ∨ src = 1520 ∨ src = 1521 ∨ k = .kilnIncomplete then .everyone
  else match plot with
    | some p => .plot p
    | none => .nobody

/-- Raise an event with its severity by kind. -/
def raise (s : State) (src : Nat) (k : EventKind) (mid : Nat) (detail : List Nat) (plot : Option Nat := none) : State :=
  raiseFull s src (severityOf k) k mid detail (concernOf src k plot)

/-- The twin's sources (R532, R553): 1,520 twin mode and homes, 1,521 the fence, the pair's conflicts and the lost link, 1,522 everything
else (the split is log entry 52). -/
def twinSource : Nat := 1522

/-- The source of each block's register events, by the block's base address (R532, R579). -/
def blockSource (addr : Nat) : Nat :=
  match addr / 16777216 with
  | 0 => 1280
  | 1 => 0
  | 2 => 1296
  | 3 => 1312
  | 4 => 1344
  | 5 => 512
  | 6 => 1392
  | 7 => 768
  | 8 => 1408
  | 9 => if (0x9000800 ≤ addr ∧ addr < 0x9001000) ∨ 0x9002000 ≤ addr then 1528 else twinSource
  | 10 => 1440
  | 11 => 1448
  | 12 => 1472
  | 13 => 1496
  | _ => 1504

/-! ### Replace-advised (R551, R552) -/

/-- A reason bit arises: set once, and each new bit raises one health event of severity warning from source 1,281. -/
def adviseReplace (s : State) (bit : Nat) : State :=
  let reasons := getF s Reg.EVR_HEALTH.reasons
  if reasons / 2 ^ bit % 2 = 1 then s
  else
    let s := setFlag (setF s Reg.EVR_HEALTH.reasons (reasons + 2 ^ bit)) Reg.EVR_HEALTH.replace_advised
    raiseFull s 1281 1 .replaceAdvised 0xFFF [bit, reasons + 2 ^ bit] .everyone

end Sys2Proof.Machine
end

