-- ==== Sys2Proof/Machine/BpmOps.lean ====
section
/-! DEFINITION. The buffer pools as their requesters use them (14): grants, shares, frees and line accesses. -/

namespace Sys2Proof.Machine

/-! ### Pools and handles (R458 to R461) -/

/-- The pool that serves a size: the smallest whose buffers are at least that large; none for a bad size (R459). -/
def poolFor (bytes : Nat) : Option Nat :=
  if bytes = 0 then none
  else if bytes ≤ 256 then some 0
  else if bytes ≤ 4096 then some 1
  else if bytes ≤ 65536 then some 2
  else none

/-- Lines of a buffer of a pool (R458). -/
def poolLines (pool : Nat) : Nat := if pool = 0 then 4 else if pool = 1 then 64 else 1024

/-- A pool. -/
def poolAt (s : State) (pool : Nat) : Pool := sget {} s.bpm.pools pool

/-- Change a pool. -/
def updPool (s : State) (pool : Nat) (f : Pool → Pool) : State := { s with bpm.pools := supd {} s.bpm.pools pool f }

/-- Key of a buffer's record. -/
def bufKey (pool index : Nat) : Nat := pool * 8388608 + index

/-- A buffer's record. -/
def bufAt (s : State) (pool index : Nat) : BufRec := sget {} s.bpm.recs (bufKey pool index)

/-- Store a buffer's record. -/
def setBuf (s : State) (pool index : Nat) (r : BufRec) : State := { s with bpm.recs := sput {} s.bpm.recs (bufKey pool index) r }

/-- A handle (R461). -/
def handleOf (pool index tag : Nat) : Nat := pool + index * 4 + tag * 33554432

/-- Pool field of a handle. -/
def handlePool (h : Nat) : Nat := h % 4

/-- Index field of a handle. -/
def handleIndex (h : Nat) : Nat := h / 4 % 8388608

/-- Tag field of a handle. -/
def handleTag (h : Nat) : Nat := h / 33554432 % 128

/-- A handle whose pool is 3 or whose index is no usable buffer (R461). -/
def badHandle (s : State) (h : Nat) : Bool := handlePool h = 3 || decide ((poolAt s (handlePool h)).usable ≤ handleIndex h)

/-- Handles in a ring's runs. -/
def runsCount : List (Nat × Nat) → Nat
  | [] => 0
  | r :: t => r.2 + runsCount t

/-- Free buffers of a pool, cache and ring. -/
def poolFree (p : Pool) : Nat := p.cache.length + runsCount p.ring

/-! ### Low pools (R472) -/

/-- Raise the low event when free buffers fall below low_pct of the usable ones; rearm it above twice that. -/
def checkLow (s : State) (pool : Nat) : State :=
  let p := poolAt s pool
  let pct := min 50 (getFi s Reg.BPM_POOL_WM.low_pct pool)
  if !p.low && poolFree p * 100 < pct * p.usable then
    let s := updPool s pool fun p => { p with low := true }
    let s := incFi (setFlag s Reg.BPM_ERR.pool_low) Reg.BPM_POOL_EMPTY_CNT.low_events pool
    raise s 1440 .poolLow 0xFFF [pool]
  else if p.low && 2 * pct * p.usable < poolFree p * 100 then updPool s pool fun p => { p with low := false }
  else s

/-! ### Grants (R465) -/

/-- Grant the handle on top of a pool's cache to an owner; none while the cache is empty or the pool is being rebuilt. -/
def bufGrant (s : State) (pool : Nat) (owner : Owner) : Option (Nat × State) :=
  let p := poolAt s pool
  match p.cache with
  | [] => none
  | i :: t =>
    if p.rebuilding then none
    else
      let tag := ((bufAt s pool i).tag + 1) % 128
      let s := updPool s pool fun p => { p with cache := t, lastGrant := some owner }
      let s := setBuf s pool i { held := true, owners := [owner], tag := tag }
      let s := incFi s Reg.BPM_POOL_GRANTS.grants pool
      some (handleOf pool i tag, checkLow s pool)

/-- A POOL_EMPTY answer. -/
def poolEmpty (s : State) (pool : Nat) : State := incFi s Reg.BPM_POOL_EMPTY_CNT.empties pool

/-- Place of a requester in the order of a pool's round robin: by block code, then by master ID. -/
def ownerNo (o : Owner) : Nat := o.block.val * 4096 + o.mid.val

/-- The requester whose turn it is: the first just after the last one granted. -/
def nextOwner (last : Option Owner) (asks : List Owner) : Option Owner :=
  let n := (last.map ownerNo).getD 65535
  let turn (o : Owner) : Nat := (ownerNo o + 65536 - n - 1) % 65536
  asks.foldl (fun best o =>
    match best with
    | some b => if turn o < turn b then some o else some b
    | none => some o) none

/-- Remove one index from a ring's runs. -/
def cutRun (gone : Nat) : List (Nat × Nat) → List (Nat × Nat)
  | [] => []
  | (i, k) :: t =>
    if i ≤ gone ∧ gone < i + k then
      (if gone = i then [] else [(i, gone - i)]) ++ (if gone + 1 = i + k then [] else [(gone + 1, i + k - gone - 1)]) ++ t
    else (i, k) :: cutRun gone t

/-! ### Rejections (R469) -/

/-- Record a rejected PUT, SHARE or access, with its reason, and raise its event. -/
def rejectBuf (s : State) (h : Nat) (owner : Owner) (reason : Nat) : State :=
  let s := setF (setF s Reg.BPM_BAD_FREE_LAST.mid owner.mid.val) Reg.BPM_BAD_FREE_LAST.block owner.block.val
  let s := setF (setF s Reg.BPM_BAD_FREE_LAST.pool (handlePool h)) Reg.BPM_BAD_FREE_LAST.reason reason
  let s := setF s Reg.BPM_BAD_FREE_IDX.index (handleIndex h)
  let s := incF (setFlag s (if reason = 3 then Reg.BPM_ERR.foreign_access else Reg.BPM_ERR.bad_free)) Reg.BPM_BAD_FREE_CNT.rejects
  raise s 1440 .badFree owner.mid.val [owner.block.val, handlePool h, handleIndex h, reason]

/-- Why a PUT or SHARE of a good handle is rejected, if it is. -/
def freeReason (r : BufRec) (tag : Nat) (owner : Owner) : Option Nat :=
  if !r.held || r.tag ≠ tag then some 0 else if !r.owners.contains owner then some 1 else none

/-- A buffer whose record cannot be read is quarantined, once, and is never issued again (R469). -/
def quarantineBuf (s : State) (pool index : Nat) : State :=
  let r := bufAt s pool index
  if r.quarantined then s
  else
    let s := setBuf s pool index { r with quarantined := true }
    let s := updPool s pool fun p => { p with cache := p.cache.filter fun i => i ≠ index, ring := cutRun index p.ring }
    let s := incF (setFlag s Reg.BPM_ERR.record_ue) Reg.BPM_QUAR.quarantined
    checkLow (raise s 1440 .bufferUe 0xFFF [pool, index]) pool

/-! ### PUT and SHARE (R467, R468) -/

/-- Remove an owner's name; the last one frees the buffer. -/
def bufPut (s : State) (h : Nat) (owner : Owner) : State :=
  let pool := handlePool h
  let i := handleIndex h
  if badHandle s h then rejectBuf s h owner 2
  else
    let r := bufAt s pool i
    if r.quarantined then s
    else if (poolAt s pool).rebuilding then updPool s pool fun p => { p with waitingPuts := p.waitingPuts ++ [(i, handleTag h, owner)] }
    else match freeReason r (handleTag h) owner with
      | some reason => rejectBuf s h owner reason
      | none =>
        let left := r.owners.filter fun o => o ≠ owner
        if left.isEmpty then
          let s := setBuf s pool i { r with held := false, untrusted := false, owners := [] }
          checkLow (updPool s pool fun p => { p with cache := i :: p.cache }) pool
        else setBuf s pool i { r with owners := left }

/-- Add an owner's name to a held buffer; a ninth is refused. -/
def bufShare (s : State) (h : Nat) (owner adds : Owner) : State :=
  let pool := handlePool h
  let i := handleIndex h
  if badHandle s h then rejectBuf s h owner 2
  else
    let r := bufAt s pool i
    if r.quarantined then s
    else match freeReason r (handleTag h) owner with
      | some reason => rejectBuf s h owner reason
      | none =>
        if r.owners.contains adds then s
        else if r.owners.length < 8 then setBuf s pool i { r with owners := r.owners ++ [adds] }
        else incF (setFlag s Reg.BPM_ERR.share_full) Reg.BPM_BAD_FREE_CNT.share_full

/-! ### Lines (R470) -/

/-- Key of a line of a buffer. -/
def bufLineKey (pool index line : Nat) : Nat := bufKey pool index * 1024 + line

/-- A line of a buffer as its owner reads it: poisoned if its bit is set, or if the buffer is untrusted or its
record cannot be read. -/
def bufLine (s : State) (pool index line : Nat) : LineVal :=
  let r := bufAt s pool index
  { data := sget 0 s.bpm.lines (bufLineKey pool index line),
    poison := r.untrusted || r.quarantined || sget false r.poison line }

/-! ### The free rings (R463, R464) -/

/-- Take up to n handles from the head of a ring. -/
def takeRuns : Nat → List (Nat × Nat) → List Nat × List (Nat × Nat)
  | _, [] => ([], [])
  | n, (i, k) :: t =>
    if n < k then ((List.range n).map (i + ·), (i + n, k - n) :: t)
    else
      let (more, rest) := takeRuns (n - k) t
      ((List.range k).map (i + ·) ++ more, rest)

/-- Indices of a pool's buffers that are held or quarantined. -/
def takenIndices (s : State) (pool : Nat) : List Nat :=
  (s.bpm.recs.filter fun e => e.1 / 8388608 = pool && (e.2.held || e.2.quarantined)).map fun e => e.1 % 8388608

/-- Count of a pool's buffers by its units (R458), clamped to its range. -/
def poolCount (pool units : Nat) : Nat :=
  if pool = 0 then max 1048576 (min 8388608 (units * 65536))
  else if pool = 1 then max 262144 (min 2097152 (units * 65536))
  else max 16384 (min 131072 (units * 4096))

/-- A pool's count in use. -/
def poolSize (s : State) (pool : Nat) : Nat := poolCount pool (getFi s Reg.BPM_POOL_CFG.count_units pool)

/-- Gravel buffers set aside for metadata (R460). -/
def metaBuffers (s : State) : Nat :=
  ((poolSize s 0 + poolSize s 1) * 36 + poolSize s 2 * 164 + 65535) / 65536

/-- The pool region in MiB (R460). -/
def regionMib (s : State) : Nat := (poolSize s 0 * 256 + poolSize s 1 * 4096 + poolSize s 2 * 65536) / 1048576

/-- Start-up: every record free with tag 0, every ring filled in index order (R471). -/
def fillPools (s : State) : State :=
  let one (usable : Nat) : Pool := { usable := usable, ring := if usable = 0 then [] else [(0, usable)] }
  { s with
    bpm.pools := [(0, one (poolSize s 0)), (1, one (poolSize s 1)), (2, one (poolSize s 2 - metaBuffers s))]
    bpm.recs := []
    bpm.lines := []
    bpm.uses := [] }

end Sys2Proof.Machine
end

