-- ==== Sys2Proof/Machine/Ciphers.lean ====
section
/-! DEFINITION. The published algorithms the spec names as results and transforms: SHA-256 (R127), SHA-384 (R517, R529), AES-256 in the modes of R430 and the
AES-256-CMAC of R432. Bytes are numbers below 256. -/

namespace Sys2Proof.Machine

/-! ### SHA-256 (FIPS 180-4) -/

/-- The round constants. -/
def sha256K : List (BitVec 32) :=
  [0x428a2f98, 0x71374491, 0xb5c0fbcf, 0xe9b5dba5, 0x3956c25b, 0x59f111f1, 0x923f82a4, 0xab1c5ed5,
   0xd807aa98, 0x12835b01, 0x243185be, 0x550c7dc3, 0x72be5d74, 0x80deb1fe, 0x9bdc06a7, 0xc19bf174] ++
  [0xe49b69c1, 0xefbe4786, 0x0fc19dc6, 0x240ca1cc, 0x2de92c6f, 0x4a7484aa, 0x5cb0a9dc, 0x76f988da,
   0x983e5152, 0xa831c66d, 0xb00327c8, 0xbf597fc7, 0xc6e00bf3, 0xd5a79147, 0x06ca6351, 0x14292967] ++
  [0x27b70a85, 0x2e1b2138, 0x4d2c6dfc, 0x53380d13, 0x650a7354, 0x766a0abb, 0x81c2c92e, 0x92722c85,
   0xa2bfe8a1, 0xa81a664b, 0xc24b8b70, 0xc76c51a3, 0xd192e819, 0xd6990624, 0xf40e3585, 0x106aa070] ++
  [0x19a4c116, 0x1e376c08, 0x2748774c, 0x34b0bcb5, 0x391c0cb3, 0x4ed8aa4a, 0x5b9cca4f, 0x682e6ff3,
   0x748f82ee, 0x78a5636f, 0x84c87814, 0x8cc70208, 0x90befffa, 0xa4506ceb, 0xbef9a3f7, 0xc67178f2]

/-- The initial hash value. -/
def sha256H : List (BitVec 32) :=
  [0x6a09e667, 0xbb67ae85, 0x3c6ef372, 0xa54ff53a, 0x510e527f, 0x9b05688c, 0x1f83d9ab, 0x5be0cd19]

/-- The n-th word of a list of words. -/
def shaAt (ws : List (BitVec 32)) (n : Nat) : BitVec 32 := ws.getD n 0

/-- The next word of a message schedule whose words so far stand newest first. -/
def shaNext (w : List (BitVec 32)) : BitVec 32 :=
  let s0 := (shaAt w 14).rotateRight 7 ^^^ (shaAt w 14).rotateRight 18 ^^^ (shaAt w 14 >>> 3)
  let s1 := (shaAt w 1).rotateRight 17 ^^^ (shaAt w 1).rotateRight 19 ^^^ (shaAt w 1 >>> 10)
  shaAt w 15 + s0 + shaAt w 6 + s1

/-- A schedule with `n` more words. -/
def shaExtend : Nat → List (BitVec 32) → List (BitVec 32)
  | 0, w => w
  | n + 1, w => shaExtend n (shaNext w :: w)

/-- One round over the working variables a to h. -/
def shaRound (v : List (BitVec 32)) (kw : BitVec 32 × BitVec 32) : List (BitVec 32) :=
  let a := shaAt v 0
  let e := shaAt v 4
  let ch := (e &&& shaAt v 5) ^^^ (~~~e &&& shaAt v 6)
  let maj := (a &&& shaAt v 1) ^^^ (a &&& shaAt v 2) ^^^ (shaAt v 1 &&& shaAt v 2)
  let t1 := shaAt v 7 + (e.rotateRight 6 ^^^ e.rotateRight 11 ^^^ e.rotateRight 25) + ch + kw.1 + kw.2
  let t2 := (a.rotateRight 2 ^^^ a.rotateRight 13 ^^^ a.rotateRight 22) + maj
  [t1 + t2, a, shaAt v 1, shaAt v 2, shaAt v 3 + t1, e, shaAt v 5, shaAt v 6]

/-- One block of sixteen words. -/
def shaBlock (h block : List (BitVec 32)) : List (BitVec 32) :=
  let w := (shaExtend 48 block.reverse).reverse
  List.zipWith (· + ·) h ((sha256K.zip w).foldl shaRound h)

/-- Big-endian words of a list of bytes. -/
def beWords : List (BitVec 8) → List (BitVec 32)
  | a :: b :: c :: d :: t => (a ++ b ++ c ++ d) :: beWords t
  | _ => []

/-- A message with its padding: a one bit, zeros, and its length in bits. -/
def shaPad (m : List (BitVec 8)) : List (BitVec 8) :=
  m ++ [0x80] ++ List.replicate ((119 - m.length % 64) % 64) 0 ++ (List.range 8).map fun i => BitVec.ofNat 8 (m.length * 8 / 256 ^ (7 - i))

/-- Blocks of sixteen words, at most `n`. -/
def shaBlocks : Nat → List (BitVec 32) → List (BitVec 32) → List (BitVec 32)
  | 0, h, _ => h
  | n + 1, h, ws => if ws.isEmpty then h else shaBlocks n (shaBlock h (ws.take 16)) (ws.drop 16)

/-- SHA-256 of a list of bytes, its first byte the most significant. -/
def sha256 (m : List (BitVec 8)) : BitVec 256 :=
  let ws := beWords (shaPad m)
  (shaBlocks ws.length sha256H ws).foldl (fun acc w => (acc <<< 32) ||| w.zeroExtend 256) 0

/-! ### SHA-384 (FIPS 180-4) -/

/-- The round constants. -/
def sha512K : List (BitVec 64) :=
  [0x428a2f98d728ae22, 0x7137449123ef65cd, 0xb5c0fbcfec4d3b2f, 0xe9b5dba58189dbbc,
   0x3956c25bf348b538, 0x59f111f1b605d019, 0x923f82a4af194f9b, 0xab1c5ed5da6d8118,
   0xd807aa98a3030242, 0x12835b0145706fbe, 0x243185be4ee4b28c, 0x550c7dc3d5ffb4e2,
   0x72be5d74f27b896f, 0x80deb1fe3b1696b1, 0x9bdc06a725c71235, 0xc19bf174cf692694] ++
  [0xe49b69c19ef14ad2, 0xefbe4786384f25e3, 0x0fc19dc68b8cd5b5, 0x240ca1cc77ac9c65,
   0x2de92c6f592b0275, 0x4a7484aa6ea6e483, 0x5cb0a9dcbd41fbd4, 0x76f988da831153b5,
   0x983e5152ee66dfab, 0xa831c66d2db43210, 0xb00327c898fb213f, 0xbf597fc7beef0ee4,
   0xc6e00bf33da88fc2, 0xd5a79147930aa725, 0x06ca6351e003826f, 0x142929670a0e6e70] ++
  [0x27b70a8546d22ffc, 0x2e1b21385c26c926, 0x4d2c6dfc5ac42aed, 0x53380d139d95b3df,
   0x650a73548baf63de, 0x766a0abb3c77b2a8, 0x81c2c92e47edaee6, 0x92722c851482353b,
   0xa2bfe8a14cf10364, 0xa81a664bbc423001, 0xc24b8b70d0f89791, 0xc76c51a30654be30,
   0xd192e819d6ef5218, 0xd69906245565a910, 0xf40e35855771202a, 0x106aa07032bbd1b8] ++
  [0x19a4c116b8d2d0c8, 0x1e376c085141ab53, 0x2748774cdf8eeb99, 0x34b0bcb5e19b48a8,
   0x391c0cb3c5c95a63, 0x4ed8aa4ae3418acb, 0x5b9cca4f7763e373, 0x682e6ff3d6b2b8a3,
   0x748f82ee5defb2fc, 0x78a5636f43172f60, 0x84c87814a1f0ab72, 0x8cc702081a6439ec,
   0x90befffa23631e28, 0xa4506cebde82bde9, 0xbef9a3f7b2c67915, 0xc67178f2e372532b] ++
  [0xca273eceea26619c, 0xd186b8c721c0c207, 0xeada7dd6cde0eb1e, 0xf57d4f7fee6ed178,
   0x06f067aa72176fba, 0x0a637dc5a2c898a6, 0x113f9804bef90dae, 0x1b710b35131c471b,
   0x28db77f523047d84, 0x32caab7b40c72493, 0x3c9ebe0a15c9bebc, 0x431d67c49c100d4c,
   0x4cc5d4becb3e42b6, 0x597f299cfc657e2a, 0x5fcb6fab3ad6faec, 0x6c44198c4a475817]

/-- The initial hash value. -/
def sha384H : List (BitVec 64) :=
  [0xcbbb9d5dc1059ed8, 0x629a292a367cd507, 0x9159015a3070dd17, 0x152fecd8f70e5939,
   0x67332667ffc00b31, 0x8eb44a8768581511, 0xdb0c2e0d64f98fa7, 0x47b5481dbefa4fa4]

/-- The n-th of a list of 64-bit words. -/
def wideAt (ws : List (BitVec 64)) (n : Nat) : BitVec 64 := ws.getD n 0

/-- The next word of a message schedule whose words so far stand newest first. -/
def wideNext (w : List (BitVec 64)) : BitVec 64 :=
  let s0 := (wideAt w 14).rotateRight 1 ^^^ (wideAt w 14).rotateRight 8 ^^^ (wideAt w 14 >>> 7)
  let s1 := (wideAt w 1).rotateRight 19 ^^^ (wideAt w 1).rotateRight 61 ^^^ (wideAt w 1 >>> 6)
  wideAt w 15 + s0 + wideAt w 6 + s1

/-- A schedule with `n` more words. -/
def wideExtend : Nat → List (BitVec 64) → List (BitVec 64)
  | 0, w => w
  | n + 1, w => wideExtend n (wideNext w :: w)

/-- One round over the working variables a to h. -/
def wideRound (v : List (BitVec 64)) (kw : BitVec 64 × BitVec 64) : List (BitVec 64) :=
  let a := wideAt v 0
  let e := wideAt v 4
  let ch := (e &&& wideAt v 5) ^^^ (~~~e &&& wideAt v 6)
  let maj := (a &&& wideAt v 1) ^^^ (a &&& wideAt v 2) ^^^ (wideAt v 1 &&& wideAt v 2)
  let t1 := wideAt v 7 + (e.rotateRight 14 ^^^ e.rotateRight 18 ^^^ e.rotateRight 41) + ch + kw.1 + kw.2
  let t2 := (a.rotateRight 28 ^^^ a.rotateRight 34 ^^^ a.rotateRight 39) + maj
  [t1 + t2, a, wideAt v 1, wideAt v 2, wideAt v 3 + t1, e, wideAt v 5, wideAt v 6]

/-- One block of sixteen words. -/
def wideBlock (h block : List (BitVec 64)) : List (BitVec 64) :=
  let w := (wideExtend 64 block.reverse).reverse
  List.zipWith (· + ·) h ((sha512K.zip w).foldl wideRound h)

/-- Pairs of 32-bit words, the first the more significant. -/
def wideWords : List (BitVec 32) → List (BitVec 64)
  | a :: b :: t => (a ++ b) :: wideWords t
  | _ => []

/-- A message with its padding: a one bit, zeros, and its length in bits over 16 bytes. -/
def widePad (m : List (BitVec 8)) : List (BitVec 8) :=
  m ++ [0x80] ++ List.replicate ((239 - m.length % 128) % 128) 0 ++ (List.range 16).map fun i => BitVec.ofNat 8 (m.length * 8 / 256 ^ (15 - i))

/-- Blocks of sixteen words, at most `n`. -/
def wideBlocks : Nat → List (BitVec 64) → List (BitVec 64) → List (BitVec 64)
  | 0, h, _ => h
  | n + 1, h, ws => if ws.isEmpty then h else wideBlocks n (wideBlock h (ws.take 16)) (ws.drop 16)

/-- SHA-384 of a list of bytes, its first byte the most significant. -/
def sha384 (m : List (BitVec 8)) : BitVec 384 :=
  let ws := wideWords (beWords (widePad m))
  ((wideBlocks ws.length sha384H ws).take 6).foldl (fun acc w => (acc <<< 64) ||| w.zeroExtend 384) 0

/-! ### AES-256 (FIPS 197) -/

/-- Multiply by x in the field of AES. -/
def aesDouble (b : Nat) : Nat := if b < 128 then b * 2 else b * 2 % 256 ^^^ 0x1B

/-- The product of two bytes, `n` bits of the first from the top. -/
def aesMul (a b : Nat) : Nat → Nat
  | 0 => 0
  | n + 1 =>
    let r := aesDouble (aesMul a b n)
    if a.testBit (7 - n) then r ^^^ b else r

/-- A byte to the power 254: its inverse, and 0 for 0. -/
def aesInverse (b : Nat) : Nat :=
  let sq (x : Nat) : Nat := aesMul x x 8
  let p2 := sq b
  let p3 := aesMul p2 b 8
  let p12 := sq (sq p3)
  let p15 := aesMul p12 p3 8
  let p240 := sq (sq (sq (sq p15)))
  aesMul p240 (aesMul p12 p2 8) 8

/-- A byte rotated left. -/
def rotl8 (b n : Nat) : Nat := b * 2 ^ n % 256 + b / 2 ^ (8 - n)

/-- The S-box. -/
def aesSub (b : Nat) : Nat :=
  let i := aesInverse b
  i ^^^ rotl8 i 1 ^^^ rotl8 i 2 ^^^ rotl8 i 3 ^^^ rotl8 i 4 ^^^ 0x63

/-- Bytes combined one by one. -/
def xorBytes (a b : List Nat) : List Nat := List.zipWith (· ^^^ ·) a b

/-- The next word of a key schedule; `w` holds the words so far, newest first, `n` is the new word's number. -/
def aesKeyWord (w : List (List Nat)) (n rcon : Nat) : List Nat :=
  let prev := w.getD 0 []
  let t :=
    if n % 8 = 0 then xorBytes ((prev.drop 1 ++ prev.take 1).map aesSub) [rcon, 0, 0, 0]
    else if n % 8 = 4 then prev.map aesSub
    else prev
  xorBytes (w.getD 7 []) t

/-- A key schedule with `n` more words. -/
def aesExpand : Nat → Nat → List (List Nat) → List (List Nat)
  | 0, _, w => w
  | n + 1, rcon, w => aesExpand n (if w.length % 8 = 0 then aesDouble rcon else rcon) (aesKeyWord w w.length rcon :: w)

/-- A list of bytes in groups of `k`, at most `n` groups. -/
def groupsOfBytes (k : Nat) : Nat → List Nat → List (List Nat)
  | 0, _ => []
  | n + 1, bs => if bs.isEmpty then [] else bs.take k :: groupsOfBytes k n (bs.drop k)

/-- The fifteen round keys of a 32-byte key. -/
def aesRoundKeys (key : List Nat) : List (List Nat) :=
  groupsOfBytes 16 15 (aesExpand 52 1 (groupsOfBytes 4 8 key).reverse).reverse.flatten

/-- Row r of the state moves left by r; the state stands column by column. -/
def aesShift (b : List Nat) : List Nat := (List.range 16).map fun i => b.getD ((i + 4 * (i % 4)) % 16) 0

/-- One column mixed. -/
def aesMixColumn (c : List Nat) : List Nat :=
  (List.range 4).map fun i =>
    let at_ (k : Nat) : Nat := c.getD ((i + k) % 4) 0
    aesDouble (at_ 0) ^^^ (aesDouble (at_ 1) ^^^ at_ 1) ^^^ at_ 2 ^^^ at_ 3

/-- Every column mixed. -/
def aesMix (b : List Nat) : List Nat := (groupsOfBytes 4 4 b).flatMap aesMixColumn

/-- The rounds after the first key: the last does not mix. -/
def aesRounds : List (List Nat) → List Nat → List Nat
  | [], b => b
  | [k], b => xorBytes (aesShift (b.map aesSub)) k
  | k :: ks, b => aesRounds ks (xorBytes (aesMix (aesShift (b.map aesSub))) k)

/-- AES-256 of a block of 16 bytes under a key of 32. -/
def aes256 (key block : List Nat) : List Nat :=
  match aesRoundKeys key with
  | [] => block
  | k :: ks => aesRounds ks (xorBytes block k)

/-! ### CMAC (SP 800-38B) -/

/-- A number of 16 bytes, the first most significant. -/
def beNumber (bs : List Nat) : Nat := bs.foldl (fun n b => n * 256 + b) 0

/-- The n bytes of a number, the first most significant. -/
def beBytes (n v : Nat) : List Nat := (List.range n).map fun i => v / 256 ^ (n - 1 - i) % 256

/-- A subkey of CMAC from the one before it. -/
def cmacDouble (b : List Nat) : List Nat :=
  let v := beNumber b * 2
  beBytes 16 (if v < 2 ^ 128 then v else v % 2 ^ 128 ^^^ 0x87)

/-- Chain blocks under a key; the last is combined with its subkey. -/
def cmacChain (key k1 k2 : List Nat) : List (List Nat) → List Nat → List Nat
  | [], acc => aes256 key (xorBytes acc (xorBytes k2 (0x80 :: List.replicate 15 0)))
  | [b], acc =>
    if b.length = 16 then aes256 key (xorBytes acc (xorBytes b k1))
    else aes256 key (xorBytes acc (xorBytes (b ++ 0x80 :: List.replicate (15 - b.length) 0) k2))
  | b :: bs, acc => cmacChain key k1 k2 bs (aes256 key (xorBytes acc b))

/-- AES-256-CMAC of a message. -/
def aesCmac (key m : List Nat) : List Nat :=
  let k1 := cmacDouble (aes256 key (List.replicate 16 0))
  cmacChain key k1 (cmacDouble k1) (groupsOfBytes 16 m.length m) (List.replicate 16 0)

/-! ### XTS (IEEE 1619) -/

/-- A tweak times α: least significant byte first. -/
def xtsDouble (t : List Nat) : List Nat :=
  let v := beNumber t.reverse * 2
  (beBytes 16 (if v < 2 ^ 128 then v else v % 2 ^ 128 ^^^ 0x87)).reverse

/-- Encrypt blocks under a key, each with its tweak. -/
def xtsBlocks (key : List Nat) : List (List Nat) → List Nat → List (List Nat)
  | [], _ => []
  | b :: bs, t => xorBytes (aes256 key (xorBytes b t)) t :: xtsBlocks key bs (xtsDouble t)

/-- Encrypt a data unit under a data key and a tweak key. -/
def xtsEncrypt (dataKey tweakKey tweak unit_ : List Nat) : List Nat :=
  (xtsBlocks dataKey (groupsOfBytes 16 unit_.length unit_) (aes256 tweakKey tweak)).flatten

/-! ### GCM (SP 800-38D) -/

/-- A product in the field of GHASH: `n` bits of x from its most significant, which is the coefficient of 1. -/
def ghashMul (x : Nat) : Nat → Nat → Nat → Nat
  | 0, _, z => z
  | n + 1, v, z =>
    let z := if x.testBit n then z ^^^ v else z
    ghashMul x n (if v % 2 = 1 then v / 2 ^^^ 0xE1000000000000000000000000000000 else v / 2) z

/-- Bytes filled up with zeros to whole blocks. -/
def padBlocks (bs : List Nat) : List (List Nat) :=
  groupsOfBytes 16 bs.length (bs ++ List.replicate ((16 - bs.length % 16) % 16) 0)

/-- GHASH of blocks under a hash key. -/
def ghash (h : Nat) (blocks : List (List Nat)) : Nat :=
  blocks.foldl (fun y b => ghashMul (y ^^^ beNumber b) 128 h 0) 0

/-- Encrypt blocks in counter mode from a counter on. -/
def gcmCounter (key iv : List Nat) : Nat → List (List Nat) → List Nat
  | _, [] => []
  | c, b :: bs => xorBytes b (aes256 key (iv ++ beBytes 4 c)) ++ gcmCounter key iv (c + 1) bs

/-- AES-256-GCM under a 12-byte IV: ciphertext and 16-byte tag. -/
def gcmEncrypt (key iv aad m : List Nat) : List Nat × List Nat :=
  let c := gcmCounter key iv 2 (groupsOfBytes 16 m.length m)
  let h := beNumber (aes256 key (List.replicate 16 0))
  let s := ghash h (padBlocks aad ++ padBlocks c ++ [beBytes 8 (aad.length * 8) ++ beBytes 8 (c.length * 8)])
  (c, xorBytes (beBytes 16 s) (aes256 key (iv ++ beBytes 4 1)))

end Sys2Proof.Machine
end

