-- ==== Sys2Proof/Machine/Operands.lean ====
section
/-! DEFINITION. Operand forms: the fields of an address (R33), the plot and clod it reaches, the translation entry
and its cache (R44 to R49), rights (R59 to R66), reservations (R50 to R54) and the dirty budget's figures (R175 to R179). -/

namespace Sys2Proof.Machine

/-! ### Address fields (R33) -/

/-- Clod number of a line number. -/
def clodOf (line : Nat) : Nat := line / 1024

/-- Line within its clod. -/
def lineIn (line : Nat) : Nat := line % 1024

/-- Grain within its clod. -/
def grainIn (line : Nat) : Nat := line % 1024 / 64

/-- Dirty-grain key of a line: clod × 16 + grain. -/
def grainKey (line : Nat) : Nat := line / 64

/-- Granule of a line number. -/
def granuleOfLine (line : Nat) : Nat := line / 4194304

/-- Granule of a clod number. -/
def granuleOfClod (clod : Nat) : Nat := clod / 4096

/-! ### Plots -/

/-- The plot a granule's table entry names, if it is valid (R34). -/
def granulePlot (s : State) (g : Nat) : Option Nat :=
  (s.plots.granules.find? fun r => decide (r.base ≤ g) && decide (g < r.base + r.size)).map (·.plot)

/-- A plot ID's record. -/
def plotRec (s : State) (p : Nat) : Plot := sget {} s.plots.plots p

/-- Store a plot ID's record. -/
def setPlot (s : State) (p : Nat) (r : Plot) : State := { s with plots.plots := sput {} s.plots.plots p r }

/-- Change a plot ID's record. -/
def updPlot (s : State) (p : Nat) (f : Plot → Plot) : State := setPlot s p (f (plotRec s p))

/-- A plot that requests can reach: LOADING or ACTIVE (R34, R39). -/
def plotOpen (r : Plot) : Bool := r.state = .active || r.state = .loading

/-- No write of a sealed or sealing read-only plot is allowed (R39, R41). -/
def takesWrites (r : Plot) : Bool := !(r.mode = .sharedReadOnly && (r.state = .active || r.sealing))

/-- The plot a line lies in, whatever its state. -/
def plotOfLine (s : State) (line : Nat) : Option Nat := granulePlot s (granuleOfLine line)

/-- The plot a clod lies in. -/
def plotOfClod (s : State) (clod : Nat) : Option Nat := granulePlot s (granuleOfClod clod)

/-- The plot a request for a line reaches (R34). -/
def reach (s : State) (line : Nat) : Option Nat :=
  match plotOfLine s line with
  | some p => if plotOpen (plotRec s p) then some p else none
  | none => none

/-- Does a plot's range hold a line? -/
def plotHasLine (r : Plot) (line : Nat) : Bool := decide (r.base ≤ granuleOfLine line) && decide (granuleOfLine line < r.base + r.size)

/-- Does a plot's range hold a clod? -/
def plotHasClod (r : Plot) (clod : Nat) : Bool := decide (r.base ≤ granuleOfClod clod) && decide (granuleOfClod clod < r.base + r.size)

/-- The plots that are not FREE, with their IDs (an ID that was never admitted is unlisted and FREE). -/
def admitted (s : State) : List (Nat × Plot) := s.plots.plots.filter fun e => e.2.state != .free

/-- Sum of a figure over the admitted plots (R53). -/
def sumOver (f : Plot → Nat) : List (Nat × Plot) → Nat
  | [] => 0
  | e :: t => f e.2 + sumOver f t

/-! ### This controller's place in the pair -/

/-- Twin modes of FLK_TWIN_STS.mode. -/
def twinMode (s : State) : Nat := getF s Reg.FLK_TWIN_STS.mode

/-- Mirrored operation: serving with the twin, its lease lapsed or a fence handshake open included. -/
def mirrored (s : State) : Bool := decide (twinMode s = 1) || decide (twinMode s = 2) || decide (twinMode s = 3)

/-- Serving alone: solo or the source of a resynchronisation. -/
def solo (s : State) : Bool := decide (twinMode s = 4) || decide (twinMode s = 5)

/-- This controller serves: mirrored or alone. -/
def serving (s : State) : Bool := mirrored s || solo s

/-- Side B (R330). -/
def sideB (s : State) : Bool := flag s Reg.FLK_TWIN_CFG.side

/-- The kiln flush is armed (R490). -/
def armed (s : State) : Bool := flag s Reg.PHS_KILN_STS.armed

/-- A kiln flush runs: only the flush engine is served (R275, R491). -/
def flushing (s : State) : Bool := s.phs.flushStart.isSome

/-- This controller is the current home of a plot (R332). -/
def isHome (s : State) (r : Plot) : Bool := solo s || decide (r.curHome = sideB s)

/-- The role epoch (R380). -/
def epoch (s : State) : Word := regAt s 0x9000008 0

/-! ### Translation (R44 to R49) -/

/-- A clod's entry in the table. -/
def entryOf (s : State) (clod : Nat) : Entry := sget {} s.plots.entries clod

/-- Set a clod's entry: the map cache and the table change in one step (R47), and an outstanding fill of the
entry is marked so that it is reissued (R49). -/
def setEntry (s : State) (clod : Nat) (e : Entry) : State :=
  { s with
    plots.entries := sput {} s.plots.entries clod e
    plots.mapFills := s.plots.mapFills.map fun f => if f.1 = clod then (f.1, true) else f }

/-- Change a clod's entry. -/
def updEntry (s : State) (clod : Nat) (f : Entry → Entry) : State := setEntry s clod (f (entryOf s clod))

/-- The set of the map cache a clod indexes: the spec names a hash and not which. -/
def mapSet (clod : Nat) : Nat := clod % 65536

/-- The read of a clod's entry from Loam is under way. -/
def mapFilling (s : State) (clod : Nat) : Bool := s.plots.mapFills.any fun f => f.1 = clod

/-- Look a clod up in the map cache, counting it; a miss starts the entry's read from Loam (R47 to R49). An entry known to be lost is not
read again (R46). True: the entry is at hand. -/
def mapLookup (s : State) (clod : Nat) : Bool × State :=
  let ways := sget [] s.plots.mapCache (mapSet clod)
  if ways.contains clod then
    (true, incF { s with plots.mapCache := sput [] s.plots.mapCache (mapSet clod) (clod :: ways.erase clod) } Reg.TMG_MAPC_HIT.hits)
  else
    let s := incF s Reg.TMG_MAPC_MISS.misses
    if (entryOf s clod).crcBad then (true, s)
    else (false, if mapFilling s clod then s else { s with plots.mapFills := s.plots.mapFills ++ [(clod, false)] })

/-- A request's lookup of its clod's entry: 0 not begun, 1 waiting for the entry's read, 2 done (R49). -/
def lookEntry (s : State) (clod : Nat) (looked : Fin 3) : Fin 3 × State :=
  match looked with
  | 0 =>
    match mapLookup s clod with
    | (true, s) => (2, s)
    | (false, s) => (1, s)
  | 1 => (if mapFilling s clod then 1 else 2, s)
  | 2 => (2, s)

/-- May an entry be replaced in the map cache (R48)? -/
def mapEvictable (s : State) (clod : Nat) : Bool :=
  let e := entryOf s clod
  e.lock.isNone && e.pins.val = 0

/-- Drop the least recently used entry that may go; ways stand most recently used first. -/
def mapDropOld (s : State) (ways : List Nat) : List Nat :=
  match ways.reverse.find? (mapEvictable s) with
  | some v => ways.erase v
  | none => ways

/-- Put a clod's entry into the map cache, if a way can be had (R48). -/
def mapInstall (s : State) (clod : Nat) : State :=
  let ways := sget [] s.plots.mapCache (mapSet clod)
  if ways.contains clod then s
  else
    let ways := if ways.length < 16 then ways else mapDropOld s ways
    if ways.length < 16 then { s with plots.mapCache := sput [] s.plots.mapCache (mapSet clod) (clod :: ways) } else s

/-! ### Master IDs (R22, R23) -/

/-- A master ID that no master holds (R22). -/
def reservedMid (mid : Nat) : Bool := (decide (0x31E ≤ mid) && decide (mid < 0x340)) || decide (0x346 ≤ mid)

/-! ### Denials (R65, R66) -/

/-- Count a denial or NO_PLOT result; the first of a master and plot in a window raises an event (R66). -/
def countDenial (s : State) (mid plot line : Nat) : State :=
  let s := incF s Reg.POU_ACL_DENY_CNT.denials
  let s := setF (setF s Reg.POU_ACL_DENY_LAST.mid mid) Reg.POU_ACL_DENY_LAST.plot_id plot
  let window := s.devTime / 1000000
  if s.plots.denySeen.contains (mid, plot, window) then s
  else
    let s := { s with plots.denySeen := (mid, plot, window) :: s.plots.denySeen.filter fun e => e.2.2 = window }
    raise s 1312 .accessDenied mid [mid, plot, line * 64] (if plot = 0xFFF then none else some plot)

/-- Does a master hold at least these rights in a plot? -/
def hasRights (s : State) (plot mid need : Nat) : Bool := decide (need ≤ aclRights s plot mid)

/-! ### Reservations (R50 to R53) -/

/-- Reserved Loam in KiB (R50): translation table, change map, topdressing region, buffer pools, record region. -/
def reservedKib (s : State) : Nat :=
  s.plots.maxCapacity * 64 + (s.plots.maxCapacity + 1) / 2 + getF s Reg.TMG_TD_CFG.topdress_gib * 1048576
    + s.plots.poolsMib * 1024 + s.plots.recordMib * 1024

/-- Loam that floors may take, in granules (R50). -/
def loamAvail (s : State) : Nat := (s.plots.loamMib * 1024 - reservedKib s) / 262144

/-- The own lease is valid: it was given and its 50 µs have not passed (R345). -/
def leaseValid (s : State) : Bool := flag s Reg.FLK_TWIN_STS.lease_valid && !(s.twin.lease.any fun t => t ≤ s.devTime)

/-- Admission capacity in granules (R53). -/
def admissionCapacity (s : State) : Nat := min s.plots.maxCapacity (getF s Reg.TMG_BEDROCK_AVAIL.avail)

/-! ### The dirty budget (R175 to R178) -/

/-- Effective budget in bytes (R177). -/
def budgetBytes (s : State) : Nat := getF s Reg.TMG_BUDGET_EFF.eff_mib * 1048576

/-- Dirty grains on this controller (R175). -/
def dirtyGrains (s : State) : Nat := s.pou.dirty.length

/-- Dirty bytes on this controller. -/
def dirtyBytes (s : State) : Nat := dirtyGrains s * 4096

/-- Dirty grains of a plot on this controller. -/
def plotDirty (s : State) (r : Plot) : Nat := (s.pou.dirty.filter fun e => plotHasClod r (e.1 / 16)).length

/-- This controller's level in 1/1,024 (R177); with no budget, any dirty byte is above every threshold. -/
def ownLevel (s : State) : Nat :=
  if budgetBytes s = 0 then (if dirtyBytes s = 0 then 0 else 2047) else min (dirtyBytes s * 1024 / budgetBytes s) 2047

/-- The level that governs a write: the higher of both in mirrored operation (R177). -/
def governingLevel (s : State) : Nat := if mirrored s then max (ownLevel s) s.pou.partnerLevel else ownLevel s

/-- This controller stands at or above its own stop level (R178). Until PHS has published a figure there is no level to stand at: the
stage reads 0 at reset (R184). -/
def ownStop (s : State) : Bool := s.tmg.budgetSet && decide (budgetBytes s - 268435456 ≤ dirtyBytes s)

/-- TMG has stopped writes for want of overlays or frames (R322); the stop bit carries it to the twin. -/
def resourceStop (s : State) : Bool := flag s Reg.TMG_MIG_STS.td_stop || flag s Reg.TMG_MIG_STS.frame_stop

/-- The stop bit of the frames this controller sends (R178, R322). -/
def stopBit (s : State) : Bool := ownStop s || resourceStop s

/-- The pair accepts no write (R178, R180). -/
def writesStopped (s : State) : Bool := stopBit s || (mirrored s && s.pou.partnerStop)

/-- A level in 1/1,024 has reached a threshold in per cent. -/
def reached (level pct : Nat) : Bool := decide (pct * 1024 ≤ level * 100)

/-- The back-pressure stage (R178). -/
def bpStage (s : State) : Nat :=
  if writesStopped s then 3
  else if reached (governingLevel s) (getF s Reg.POU_BP_CFG.hard_pct) then 2
  else if reached (governingLevel s) (getF s Reg.POU_BP_CFG.soft_pct) then 1
  else 0

/-- Sum of stored allowances in granules. -/
def allowSum (s : State) : Nat := sumOver (·.allow) (admitted s)

/-- A plot's effective allowance in bytes (R58). -/
def effectiveAllowance (s : State) (r : Plot) : Nat :=
  if budgetBytes s < allowSum s * 268435456 then r.allow * budgetBytes s / allowSum s else r.allow * 268435456

/-- A plot is above its effective allowance (R178). -/
def overAllowance (s : State) (r : Plot) : Bool := decide (effectiveAllowance s r < plotDirty s r * 4096)

/-- The completion delay of a write in ns (R179). -/
def writeDelay (s : State) (r : Plot) : Nat :=
  let maxNs := min (getF s Reg.POU_BP_CFG.max_delay_us) 1000 * 1000
  let soft := getF s Reg.POU_BP_CFG.soft_pct
  let hard := getF s Reg.POU_BP_CFG.hard_pct
  match bpStage s with
  | 0 => 0
  | 1 => if overAllowance s r then maxNs * (governingLevel s * 100 - soft * 1024) / ((hard - soft) * 1024) else 0
  | _ => maxNs

/-! ### Completion statuses of ring operations (R135) -/

/-- The completion statuses, by their values. -/
def stSuccess : Nat := 0x00
/-- Opcode not in R120. -/
def stBadOpcode : Nat := 0x01
/-- A field outside R120 to R128. -/
def stBadField : Nat := 0x02
/-- Range outside the plot or the opcode's limits. -/
def stBadRange : Nat := 0x03
/-- The access table refuses. -/
def stAccessDenied : Nat := 0x04
/-- Plot not LOADING or ACTIVE. -/
def stNoPlot : Nat := 0x05
/-- Another generation. -/
def stGenMismatch : Nat := 0x06
/-- Plot state or mode forbids the operation. -/
def stWrongState : Nat := 0x07
/-- No buffer (R121). -/
def stNoBuffer : Nat := 0x08
/-- Poison met (R122, R123, R128). -/
def stPoisoned : Nat := 0x09
/-- A host read failed (R122). -/
def stHostFault : Nat := 0x0A
/-- Fetched and never started (R149). -/
def stAborted : Nat := 0x0B
/-- A pin count stands at 15 (R125). -/
def stPinLimit : Nat := 0x0C
/-- A pin count stands at 0 (R125). -/
def stNotPinned : Nat := 0x0D
/-- The statuses of R54 in the order of its table. -/
def stBadSize : Nat := 0x10
/-- No FREE plot ID. -/
def stNoPlotId : Nat := 0x11
/-- No contiguous DPA run. -/
def stNoDpaRange : Nat := 0x12
/-- Floors exceed Loam. -/
def stNoLoamFloor : Nat := 0x13
/-- Allowances exceed the budget. -/
def stNoDirtyAllowance : Nat := 0x14
/-- Sizes exceed Bedrock. -/
def stNoBedrock : Nat := 0x15
/-- Deep shared-coherent plot. -/
def stModeConflict : Nat := 0x16
/-- The partner's own check fails. -/
def stPartnerRefused : Nat := 0x17

end Sys2Proof.Machine
end

