-- ==== Sys2Proof/Machine/LoamOps.lean ====
section
/-! DEFINITION. Loam as every block sees it (07, 09, 12): contents by frame and line, the interleave, the request
queues, the pools of clod frames and overlays, the poison list. -/

namespace Sys2Proof.Machine

/-- A good line of zeros. -/
def zeroLine : LineVal := { data := 0, poison := false }

/-- A poisoned line as it is stored: zeros, marked (R409). -/
def poisonLine : LineVal := { data := 0, poison := true }

/-! ### Interleave (R224 to R226) -/

/-- Bits lo to lo + width - 1 of a number. -/
def bitsOf (n lo width : Nat) : Nat := n / 2 ^ lo % 2 ^ width

/-- The Loam line address of a line of a frame: LPA[42:6] (R224). -/
def lpaOf (frame line : Nat) : Nat := frame * 1024 + line % 1024

/-- The channel of a line address (R225); line address bit i is LPA bit i + 6. -/
def channelOf (lpa : Nat) : Nat :=
  bitsOf lpa 2 4 ^^^ bitsOf lpa 10 4 ^^^ bitsOf lpa 18 4 ^^^ bitsOf lpa 26 4 ^^^ bitsOf lpa 34 4

/-- The subchannel within its channel (R225). -/
def subOfLpa (lpa : Nat) : Nat := bitsOf lpa 6 1 ^^^ bitsOf lpa 14 1 ^^^ bitsOf lpa 22 1 ^^^ bitsOf lpa 30 1

/-- The subchannel of a line address over the whole controller: channel × 2 + subchannel. -/
def subchannelOf (lpa : Nat) : Nat := channelOf lpa * 2 + subOfLpa lpa

/-- The address within the subchannel, in lines: LPA[43:13] above LPA[7:6] (R225). -/
def scaLine (lpa : Nat) : Nat := lpa / 128 * 4 + lpa % 4

/-- Line-address bits of a row's column: cw - 6, with cw 13 for ×4 devices and 12 for ×8 (R226). -/
def columnBits (s : State) : Nat := if flag s Reg.LMC_POP.x8 then 6 else 7

/-- Rank bits the population needs: physical ranks, then stacked logical ranks (R226). -/
def rankBits (s : State) : Nat :=
  let ranks := getF s Reg.LMC_POP.phys_ranks
  (if ranks ≤ 1 then 0 else if ranks = 2 then 1 else 2) + getF s Reg.LMC_POP.stack

/-- Row of a line address (R226). -/
def rowOf (s : State) (lpa : Nat) : Nat := scaLine lpa / 2 ^ (columnBits s + 5 + rankBits s)

/-- Bank of a line address within its subchannel: rank × 32 + bank group × 4 + bank (R226). -/
def bankOf (s : State) (lpa : Nat) : Nat :=
  let a := scaLine lpa
  let c := columnBits s
  let row := rowOf s lpa
  let group := bitsOf a c 3 ^^^ bitsOf row 0 3
  let bank := bitsOf a (c + 3) 2 ^^^ bitsOf row 3 2
  bitsOf a (c + 5) (rankBits s) * 32 + group * 4 + bank

/-! ### Contents -/

/-- What Loam holds at a line address; a line nothing has written reads as zeros (its frame was zero-filled). -/
def loamAt (s : State) (lpa : Nat) : LineVal := sget zeroLine s.lmc.lines lpa

/-- Store a line. -/
def setLoam (s : State) (lpa : Nat) (v : LineVal) : State := { s with lmc.lines := sput zeroLine s.lmc.lines lpa v }

/-- Fill a frame with zero lines (R301). -/
def zeroFrame (s : State) (frame : Nat) : State :=
  { s with lmc.lines := sdrop s.lmc.lines fun k => k / 1024 = frame }

/-! ### Channels and banks -/

/-- A register of channel c. -/
def lmcField (f : Field) (ch : Nat) : Field := fieldAt f (ch * 0x100)

/-- A channel. -/
def loamChan (s : State) (ch : Nat) : LoamChannel := sget {} s.lmc.channels ch

/-- Change a channel. -/
def updLoamChan (s : State) (ch : Nat) (f : LoamChannel → LoamChannel) : State := { s with lmc.channels := supd {} s.lmc.channels ch f }

/-- A bank, by subchannel × 512 + bank. -/
def loamBank (s : State) (key : Nat) : Bank := sget {} s.lmc.banks key

/-- Change a bank. -/
def updBank (s : State) (key : Nat) (f : Bank → Bank) : State := { s with lmc.banks := supd {} s.lmc.banks key f }

/-- LMC_CH_STS.state: 1 serving, 2 training step or segment, 3 self-refresh, 4 speed change, 5 failed. -/
def loamState (s : State) (ch : Nat) : Nat := getF s (lmcField Reg.LMC_CH_STS.state ch)

/-- Set it. -/
def setLoamState (s : State) (ch n : Nat) : State := setF s (lmcField Reg.LMC_CH_STS.state ch) n

/-- A channel's speed. -/
def loamSpeed (s : State) (ch : Nat) : Nat := getF s (lmcField Reg.LMC_CH_STS.speed ch)

/-- First source number of a channel's events (R532). -/
def loamSource (ch : Nat) : Nat := 512 + ch * 16

/-- Requests of a subchannel whose column command has not been issued. -/
def waitingReqs (s : State) (sub : Nat) : List LmcReq := (sget [] s.lmc.queues sub).filter fun r => !r.issued

/-- A channel has no request waiting. -/
def quiet (s : State) (ch : Nat) : Bool := (waitingReqs s (ch * 2)).isEmpty && (waitingReqs s (ch * 2 + 1)).isEmpty

/-- Close every open row of a channel. -/
def closeRows (s : State) (ch : Nat) : State :=
  (s.lmc.banks.map (·.1)).foldl (fun s k => if k / 1024 = ch then updBank s k fun b => { b with openRow := none, streak := 0 } else s) s

/-- Set or clear bit `ch` of LMC_SPEED_STS.fallback. -/
def setFallback (s : State) (ch : Nat) (b : Bool) : State :=
  let v := getF s Reg.LMC_SPEED_STS.fallback
  let has := v / 2 ^ ch % 2 = 1
  setF s Reg.LMC_SPEED_STS.fallback (if b && !has then v + 2 ^ ch else if !b && has then v - 2 ^ ch else v)

/-- Give a channel a speed. -/
def setLoamSpeed (s : State) (ch speed : Nat) : State :=
  let s := setF s (lmcField Reg.LMC_CH_STS.speed ch) speed
  if ch = 0 then setF s Reg.LMC_SPEED_STS.current speed else s

/-! ### Row disturbance (R233 to R238) -/

/-- Insert into the table of top activators: a fifth master replaces the lowest (R234). -/
def countActivator (top : List (Nat × Nat)) (mid : Nat) : List (Nat × Nat) :=
  if top.any fun e => e.1 = mid then top.map fun e => if e.1 = mid then (mid, e.2 + 1) else e
  else if top.length < 4 then top ++ [(mid, 1)]
  else
    let low := top.foldl (fun n e => min n e.2) (2 ^ 32)
    match top.find? fun e => e.2 = low with
    | some e => (top.erase e) ++ [(mid, 1)]
    | none => top

/-- The master with the most activations, with its count. -/
def topActivator (top : List (Nat × Nat)) : Option (Nat × Nat) :=
  top.foldl (fun (best : Option (Nat × Nat)) e =>
    match best with
    | some b => if b.2 < e.2 then some e else best
    | none => some e) none

/-- Issue RFMsb to a bank: its RAA count falls by RAAIMT, its row closes, and the reads that wait for the bank, or come while it runs, have
waited behind a command attributed to its top activator (R233, R234, R238). -/
def issueRfm (s : State) (key : Nat) : State :=
  let by_ := (topActivator (loamBank s key).top).map (·.1)
  let s := incF s (lmcField Reg.LMC_CH_ACT.rfm_cnt (key / 1024))
  let s := updBank s key fun b => { b with raa := b.raa - s.lmc.raaimt, openRow := none, streak := 0, rfmBy := by_, rfmUntil := s.devTime + s.lmc.rfmNs }
  let q := sget [] s.lmc.queues (key / 512)
  { s with lmc.queues := sput [] s.lmc.queues (key / 512) (q.map fun r =>
      if !r.write && !r.issued && bankOf s r.lpa = key % 512 then { r with behindRfm := by_ } else r) }

/-- A master's throttle at a bank. -/
def throttleOf (s : State) (key mid : Nat) : Option Throttle := s.lmc.throttles.find? fun t => t.bank = key && t.mid = mid

/-- Victim write-backs and scrub write-backs are never held, nor is the kiln flush (R228, R236). -/
def neverHeld (s : State) (r : LmcReq) : Bool :=
  r.mid = 0x31C || (r.write && (r.mid < 0x300 || (0x310 ≤ r.mid && r.mid ≤ 0x313) || s.fcd.victims.any fun v => v.write = some r.id))

/-- A request hits its bank's open row. -/
def hitsRow (s : State) (sub : Nat) (r : LmcReq) : Bool := (loamBank s (sub * 512 + bankOf s r.lpa)).openRow = some (rowOf s r.lpa)

/-- A throttled master's request that its allowance does not permit (R236). -/
def heldBack (s : State) (sub : Nat) (r : LmcReq) : Bool :=
  !neverHeld s r && !hitsRow s sub r && match throttleOf s (sub * 512 + bankOf s r.lpa) r.mid with
    | some t => t.fresh || decide (fieldOf r.rd 8 8 ≤ t.used)
    | none => false

/-- A bank has reached act_limit: throttle the culprit, or issue an extra RFMsb (R235, R236). A culprit that is throttled there already goes on
being so. -/
def reachLimit (s : State) (key : Nat) (rd : Word) : State :=
  let b := loamBank s key
  let ch := key / 1024
  match (topActivator b.top).filter fun e => b.acts ≤ e.2 * 2 && e.1 ≠ 0x31C with
  | none => issueRfm (setFlag s (lmcField Reg.LMC_CH_ERR.no_culprit ch)) key
  | some e =>
    if (throttleOf s key e.1).isSome then s
    else if 32 ≤ s.lmc.throttles.length then issueRfm (setFlag s (lmcField Reg.LMC_CH_ERR.throttle_full ch)) key
    else
      let s := { s with lmc.throttles := s.lmc.throttles ++ [{ mid := e.1, bank := key, used := 0, quiet := 0, fresh := true, rd := rd }] }
      let s := incF (setF s Reg.LMC_THROTTLE_STS.active s.lmc.throttles.length) Reg.LMC_THROTTLE_STS.starts
      raise s (loamSource ch) .throttleStart e.1 [e.1, ch, key / 512 % 2, key % 512 / 32, key % 32]

/-- Count an activation by a master (R233, R234); the one that reaches act_limit in the window has its consequence, once (R235). -/
def activate (s : State) (key mid : Nat) (rd : Word) : State :=
  let s := updBank s key fun b => { b with raa := b.raa + 1, acts := b.acts + 1, top := countActivator b.top mid }
  let s := { s with lmc.throttles := s.lmc.throttles.map fun t => if t.bank = key && t.mid = mid then { t with used := t.used + 1 } else t }
  let f := lmcField Reg.LMC_CH_ACT.act_max (key / 1024)
  let s := setF s f (min 255 (max (getF s f) (loamBank s key).acts))
  if max 1 (fieldOf rd 0 8) ≤ (loamBank s key).acts && !(loamBank s key).limited then
    reachLimit (updBank s key fun b => { b with limited := true }) key rd
  else s

/-- An activation now would bring the bank's count to RAAIMT, or to RAAMMT, which it never reaches (R233). -/
def rfmNeeded (s : State) (key : Nat) : Bool :=
  decide (s.lmc.raaimt ≤ (loamBank s key).raa + 1) || decide (s.lmc.raammt ≤ (loamBank s key).raa + 1)

/-- An access to a row that stands open or has just been activated (R231): it is issued without auto-precharge where the history before it is
dense enough, then its bit is shifted in. -/
def accessRow (page : Word) (row : Nat) (b : Bank) : Bank :=
  let ones := ((List.range 16).filter fun i => b.history.getLsbD i).length
  let keep := decide (min 16 (fieldOf page 0 5) ≤ ones)
  { b with history := (b.history <<< 1) ||| (if b.lastRow = some row then 1 else 0), lastRow := some row
           openRow := if keep then some row else none, streak := if keep then b.streak + 1 else 0 }

/-- The column commands of one activation at most: n accesses to a row for a master, counted with its activation where it was not open. -/
def serveRow (s : State) (key row mid n : Nat) (page rd : Word) : State :=
  let ch := key / 1024
  let hit := (loamBank s key).openRow = some row
  let s :=
    if hit then incFiBy s (lmcField Reg.LMC_CH_PAGE.row_hits ch) 0 n
    else
      let s := activate (incF s (lmcField Reg.LMC_CH_PAGE.row_misses ch)) key mid rd
      updBank (incFiBy s (lmcField Reg.LMC_CH_PAGE.row_hits ch) 0 (n - 1)) key fun b => { b with streak := 0 }
  updBank s key fun b => (List.range n).foldl (fun b _ => accessRow page row b) b

/-! ### Engines' transfers (R228, R232, R253)

An engine moves whole runs of lines. Its requests are counted and their rows activated as its command runs, a run of one row under one
activation (DESIGN CHOICE: they take no place in the 64-entry queues). A command that would reach a held channel waits: it changes nothing. -/

/-- A channel is held by training or a speed change (R242, R245). -/
def chanHeld (s : State) (ch : Nat) : Bool := loamState s ch = 2 || loamState s ch = 4

/-- Any request to a channel in self-refresh starts its exit (R249). -/
def wakeChan (s : State) (ch : Nat) : State := if loamState s ch = 3 then setLoamState s ch 1 else s

/-- n lines of one row, that of a line address, are read or written for an engine. -/
def engineRow (s : State) (mid : Nat) (write : Bool) (lpa n : Nat) : State :=
  let sub := subchannelOf lpa
  let ch := sub / 2
  let key := sub * 512 + bankOf s lpa
  let s := wakeChan s ch
  let s := if (loamBank s key).openRow ≠ some (rowOf s lpa) && rfmNeeded s key then issueRfm s key else s
  let s := serveRow s key (rowOf s lpa) mid n (regAt s Reg.LMC_PAGE_CFG.open_thresh.addr 0) (regAt s Reg.LMC_RD_CFG.act_limit.addr 0)
  if write then incFiBy s (lmcField Reg.LMC_CH_WR_LINES.writes ch) 0 n else incFiBy s (lmcField Reg.LMC_CH_RD_LINES.reads ch) 0 n

/-- n × 32 lines of a frame from a line on: n in each subchannel's row (R226). -/
def engineFrame (s : State) (mid : Nat) (write : Bool) (frame first n : Nat) : State :=
  (List.range 32).foldl (fun s j => engineRow s mid write (lpaOf frame (first + 4 * j)) n) s

/-- The lines of a map of a frame, one by one. -/
def engineLines (s : State) (mid : Nat) (write : Bool) (frame : Nat) (lines : BitVec 1024) : State :=
  ((List.range 1024).filter fun i => lines.getLsbD i).foldl (fun s i => engineRow s mid write (lpaOf frame i) 1) s

/-- A frame's lines cannot all be reached now: some channel is held, or a bank of its rows by sPPR (R253). -/
def frameHeld (s : State) (frame : Nat) : Bool :=
  (List.range 16).any (chanHeld s) || s.lmc.spprs.any fun x => !x.buffers.isEmpty && (List.range 32).any fun j =>
    let lpa := lpaOf frame (4 * j)
    subchannelOf lpa * 512 + bankOf s lpa = x.bank


/-! ### Requests to LMC (R227 to R229, R232) -/

/-- The QoS class of a master (R228). -/
def qosClass (mid : Nat) : Nat :=
  if mid < 0x100 then mid / 16
  else if mid < 0x200 then 16
  else if mid < 0x300 then 17
  else if mid < 0x310 then 18
  else if mid = 0x31C then 20
  else 19

/-- A class's latency target; the kiln flush has none (R228). -/
def qosTarget (s : State) (mid : Nat) : Nat := max 1 (getFi s Reg.LMC_QOS_TARGET.lat_target_ns (qosClass mid))

/-- Charge a read's miss once, to itself or to the master whose RFM it waited behind (R238). -/
def chargeMiss (s : State) (r : LmcReq) : State :=
  match r.behindRfm with
  | some m => incFi s Reg.LMC_QOS_MISS_DATA.caused m
  | none => incFi s Reg.LMC_QOS_MISS_DATA.own r.mid

/-- A read has reached its deadline and its miss has not been counted (R229). -/
def missesNow (s : State) (r : LmcReq) : Bool := !r.write && !r.missed && r.mid ≠ 0x31C && decide (r.arrival + r.target ≤ s.devTime)

/-- Count the misses of a subchannel's reads. -/
def countMisses (s : State) (sub : Nat) : State :=
  let q := sget [] s.lmc.queues sub
  let s := (q.filter (missesNow s)).foldl chargeMiss s
  { s with lmc.queues := sput [] s.lmc.queues sub (q.map fun r => { r with missed := r.missed || missesNow s r }) }

/-- A write reaches the scheduler: a scrub write-back of the same address that waits is dropped when its turn comes (R414). -/
def staleScrubs (s : State) (lpa : Nat) : State :=
  { s with diu.scrubQueue := s.diu.scrubQueue.map fun e => (e.1, e.2.map fun w => if w.lpa = lpa then { w with stale := true } else w) }

/-- Queue a request at its subchannel's scheduler; a match with a queued address puts the bank in order (R232), and a channel in self-refresh
starts its exit (R249). -/
def lmcRequest (s : State) (mid : Nat) (write : Bool) (lpa : Nat) : State :=
  let sub := subchannelOf lpa
  let s := wakeChan s (sub / 2)
  let q := sget [] s.lmc.queues sub
  let key := sub * 512 + bankOf s lpa
  let hit := q.any fun r => r.lpa = lpa && !r.issued
  let r : LmcReq :=
    { id := s.lmc.nextReq, mid := mid, write := write, lpa := lpa, arrival := s.devTime, target := qosTarget s mid,
      page := regAt s Reg.LMC_PAGE_CFG.open_thresh.addr 0, wq := regAt s Reg.LMC_WQ_CFG.hi_wm.addr 0, rd := regAt s Reg.LMC_RD_CFG.act_limit.addr 0,
      behindRfm := if write || (loamBank s key).rfmUntil ≤ s.devTime then none else (loamBank s key).rfmBy }
  let s := { s with lmc.queues := sput [] s.lmc.queues sub (q ++ [r]), lmc.nextReq := s.lmc.nextReq + 1 }
  let s := if write then staleScrubs s lpa else s
  if hit && !(sget {} s.lmc.banks key).inOrder then
    incF { s with lmc.banks := supd {} s.lmc.banks key fun b => { b with inOrder := true } }
      (fieldAt Reg.LMC_CH_INORDER_CNT.entries (sub / 2 * 0x100))
  else s

/-- A bank leaves in-order mode when no two of its queued requests share an address (R232). -/
def checkInOrder (s : State) (key : Nat) : State :=
  let mine := ((sget [] s.lmc.queues (key / 512)).filter fun r => !r.issued && bankOf s r.lpa = key % 512).map (·.lpa)
  if (sget {} s.lmc.banks key).inOrder && mine.eraseDups.length = mine.length then
    { s with lmc.banks := supd {} s.lmc.banks key fun b => { b with inOrder := false } }
  else s

/-- The request of a number whose column command has been issued, at an address (R227, R253): until then it only waits. -/
def issuedReq (s : State) (lpa id : Nat) : Option LmcReq := (sget [] s.lmc.queues (subchannelOf lpa)).find? fun r => r.id = id && r.issued

/-- A request that has ended leaves its queue; a read's miss is counted with it. -/
def lmcEnded (s : State) (r : LmcReq) : State :=
  let sub := subchannelOf r.lpa
  let s := if missesNow s r then chargeMiss s r else s
  checkInOrder { s with lmc.queues := sput [] s.lmc.queues sub ((sget [] s.lmc.queues sub).filter fun x => x.id ≠ r.id) } (sub * 512 + bankOf s r.lpa)

/-- Change a request that waits at LMC. -/
def updLmcReq (s : State) (r : LmcReq) (f : LmcReq → LmcReq) : State :=
  let sub := subchannelOf r.lpa
  { s with lmc.queues := sput [] s.lmc.queues sub ((sget [] s.lmc.queues sub).map fun x => if x.id = r.id then f x else x) }

/-! ### Frames and overlays (R301, R302) -/

/-- Clod frames a controller has (R301). -/
def frameTotal (s : State) : Nat := loamAvail s * 4096

/-- Frames never handed out that have been retired (R252). -/
def retiredAhead (s : State) : Nat := (s.lmc.retired.filter fun f => s.tmg.nextFrame ≤ f && f < frameTotal s).length

/-- Free clod frames. -/
def freeFrames (s : State) : Nat := frameTotal s - s.tmg.nextFrame - retiredAhead s + s.tmg.freedFrames.length

/-- Overlays a controller can hold (R302). -/
def overlayTotal (s : State) : Nat := getF s Reg.TMG_TD_CFG.topdress_gib * 16320

/-- The first frame of the topdressing region. DESIGN CHOICE: the reserved regions follow the clod frames in the order
topdressing, table, change map, pools, record (log entry 51). -/
def regionFrame (s : State) : Nat := loamAvail s * 4096

/-- The frame of overlay i: the topdressing region begins with its records, 64 frames a GiB (R302, log entry 51). -/
def overlayFrame (s : State) (i : Nat) : Nat := regionFrame s + getF s Reg.TMG_TD_CFG.topdress_gib * 64 + i

/-- The first line of the translation table, which follows the topdressing region (log entry 51). -/
def tableLpa (s : State) : Nat := (regionFrame s + getF s Reg.TMG_TD_CFG.topdress_gib * 16384) * 1024

/-- The first line of the change map. -/
def changeLpa (s : State) : Nat := tableLpa s + s.plots.maxCapacity * 1024

/-- The first line of the buffer pools. -/
def poolLpa (s : State) : Nat := changeLpa s + (s.plots.maxCapacity + 1) / 2 * 16

/-- The first line of the record region. -/
def recordLpa (s : State) : Nat := poolLpa s + s.plots.poolsMib * 16384

/-- Overlays never handed out whose frames have been retired (R252). -/
def retiredOverlays (s : State) : Nat :=
  (s.lmc.retired.filter fun f => overlayFrame s s.tmg.nextOverlay ≤ f && f < overlayFrame s (overlayTotal s)).length

/-- Free overlays. -/
def freeOverlays (s : State) : Nat := overlayTotal s - s.tmg.nextOverlay - retiredOverlays s + s.tmg.freedOverlays.length

/-- Take a free frame: a returned one first. -/
def takeFrame (s : State) : Option (Nat × State) :=
  match s.tmg.freedFrames with
  | f :: t => some (f, { s with tmg.freedFrames := t })
  | [] =>
    match ((List.range (s.lmc.retired.length + 1)).map (s.tmg.nextFrame + ·)).find? fun f => !s.lmc.retired.contains f with
    | some f => if f < frameTotal s then some (f, { s with tmg.nextFrame := f + 1 }) else none
    | none => none

/-- Take a free overlay for a clod: its record starts with no valid line (R302, R303). -/
def takeOverlay (s : State) (clod generation : Nat) : Option (Nat × State) :=
  let give (i : Nat) (s : State) : Option (Nat × State) :=
    some (i, { s with tmg.overlays := sput { clod := 0, generation := 0, valid := 0 } s.tmg.overlays i { clod := clod, generation := generation, valid := 0 } })
  match s.tmg.freedOverlays with
  | i :: t => give i { s with tmg.freedOverlays := t }
  | [] =>
    match ((List.range (s.lmc.retired.length + 1)).map (s.tmg.nextOverlay + ·)).find? fun i => !s.lmc.retired.contains (overlayFrame s i) with
    | some i => if i < overlayTotal s then give i { s with tmg.nextOverlay := i + 1 } else none
    | none => none

/-- An overlay's record. -/
def overlayOf (s : State) (i : Nat) : Overlay := sget { clod := 0, generation := 0, valid := 0 } s.tmg.overlays i

/-- Change an overlay's record. -/
def setOverlay (s : State) (i : Nat) (o : Overlay) : State :=
  { s with tmg.overlays := sput { clod := 0, generation := 0, valid := 0 } s.tmg.overlays i o }

/-- Look an overlay record up in the record cache (R304): the least recently used record whose clod holds no lock goes. -/
def overlayLookup (s : State) (i : Nat) : State :=
  if s.tmg.overlayCache.contains i then { s with tmg.overlayCache := i :: s.tmg.overlayCache.erase i }
  else if s.tmg.overlayFills.contains i then s else { s with tmg.overlayFills := s.tmg.overlayFills ++ [i] }

/-- Put a record into the cache (R304). -/
def overlayInstall (s : State) (i : Nat) : State :=
  let c := s.tmg.overlayCache
  if c.contains i then s
  else if c.length < 16384 then { s with tmg.overlayCache := i :: c }
  else match c.reverse.find? fun j => (entryOf s (overlayOf s j).clod).lock.isNone with
    | some j => { s with tmg.overlayCache := i :: c.erase j }
    | none => s

/-- The resource stop's entries and end (R322). -/
def resourceCheck (s : State) : State :=
  let td := flag s Reg.TMG_MIG_STS.td_stop
  let fr := flag s Reg.TMG_MIG_STS.frame_stop
  let s :=
    if !td && freeOverlays s ≤ 65536 then
      setFlag (incF (setFlag s Reg.TMG_MIG_STS.td_stop) Reg.TMG_WAIT_CNT.td_stops) Reg.TMG_MIG_ERR.td_full
    else s
  let s :=
    if !fr && freeFrames s ≤ 65536 then
      setFlag (incF (setFlag s Reg.TMG_MIG_STS.frame_stop) Reg.TMG_WAIT_CNT.frame_stops) Reg.TMG_MIG_ERR.frame_full
    else s
  if freeOverlays s > 131072 && freeFrames s > 131072 then
    putFlag (putFlag s Reg.TMG_MIG_STS.td_stop false) Reg.TMG_MIG_STS.frame_stop false
  else s

/-! ### The poison list (R422, R426, R427) -/

/-- A line's entry in the poison list, if its generation is the plot's (R426). -/
def poisonEntry (s : State) (line : Nat) : Option PoisonEntry :=
  match slook s.diu.poison line with
  | some e =>
    match plotOfLine s line with
    | some p => if e.generation = (plotRec s p).generation then some e else none
    | none => none
  | none => none

/-- The entry an unlisted line has. -/
def noPoison : PoisonEntry := { generation := 0, source := 0, base := false }

/-- The poison list is full and a poisoned line has no entry in it (R427). -/
def poisonOverflow (s : State) : Bool := flag s Reg.DIU_POISON_STS.overflow && decide (65536 ≤ s.diu.poison.length)

/-- Enter a line in the poison list under a source code, with its event; a full list overflows (R422, R427). -/
def enterPoison (s : State) (line : Nat) (source : Fin 8) (base : Bool) : State :=
  let generation := match plotOfLine s line with
    | some p => (plotRec s p).generation
    | none => 0
  let s := incF s Reg.DIU_POISON_CNT.created
  let s := raise s 1392 .poisonCreated 0xFFF [line * 64, source.val] (plotOfLine s line)
  if (slook s.diu.poison line).isSome || s.diu.poison.length < 65536 then
    { s with diu.poison := sput noPoison s.diu.poison line { generation := generation, source := source, base := base } }
  else adviseReplace (setFlag (setFlag s Reg.DIU_ERR.poison_full) Reg.DIU_POISON_STS.overflow) 11

/-- Remove a line's entry (R424). -/
def clearPoison (s : State) (line : Nat) : State := { s with diu.poison := sput noPoison s.diu.poison line noPoison }

/-! ### A clod's contents by its entry (R299, R305) -/

/-- The key of a base location. -/
def baseKey (bed stratum row grain : Nat) : Nat := ((bed * 1048576 + stratum) * 16384 + row) * 32 + grain

/-- The key of an entry's base location. -/
def entryBaseKey (e : Entry) : Nat := baseKey e.bed.val e.stratum e.row e.grain

/-- A line of an entry's sealed base: zeros in place of each poisoned line, which the poison list marks (R423). -/
def baseLine (s : State) (e : Entry) (line : Nat) : LineVal :=
  let v := match slook s.bfc.base (entryBaseKey e) with
    | some u => sget zeroLine u.image (lineIn line)
    | none => zeroLine
  match poisonEntry s line with
  | some p => if p.base then poisonLine else v
  | none => v

/-- The tier a line of a clod is read from: none (never written), Loam at a line address, or the base (R299, R305). -/
inductive Place where
  | nowhere
  | loam (lpa : Nat)
  | base
  deriving DecidableEq, Repr

/-- Where a line lies below the front cache. -/
def placeOf (s : State) (line : Nat) : Place :=
  let e := entryOf s (clodOf line)
  match e.tier with
  | 0 => .nowhere
  | 1 => .loam (lpaOf e.frame line)
  | 2 => .base
  | 3 => if (overlayOf s e.overlay).valid.getLsbD (lineIn line) then .loam (lpaOf e.frame line) else .base

/-- A line's contents below the front cache. -/
def tierLine (s : State) (line : Nat) : LineVal :=
  match placeOf s line with
  | .nowhere => zeroLine
  | .loam lpa => loamAt s lpa
  | .base => baseLine s (entryOf s (clodOf line)) line

end Sys2Proof.Machine
end

