-- ==== Sys2Proof/Machine/FrameOps.lean ====
section
/-! DEFINITION. Sending frames on the twin link (R334 to R341) and the CRC-64 of R127 that digests and samples use. -/

namespace Sys2Proof.Machine

/-! ### CRC-64 (R127) -/

/-- One bit of the reflected CRC. -/
def crcBit (c : BitVec 64) : BitVec 64 :=
  if c.getLsbD 0 then (c >>> 1) ^^^ 0xC96C5795D7870F42#64 else c >>> 1

/-- One byte, least significant bit first. -/
def crcByte (c : BitVec 64) (b : BitVec 8) : BitVec 64 :=
  crcBit (crcBit (crcBit (crcBit (crcBit (crcBit (crcBit (crcBit (c ^^^ b.zeroExtend 64))))))))

/-- Go on with a CRC whose value over the bytes before is `d`; over no bytes the value is 0. -/
def crcExtend (d : BitVec 64) (bs : List (BitVec 8)) : BitVec 64 := ~~~(bs.foldl crcByte (~~~d))

/-- The CRC of a list of bytes. -/
def crc64 (bs : List (BitVec 8)) : BitVec 64 := crcExtend 0 bs

/-- The bytes of a line, byte 0 first. -/
def lineBytes (l : Line) : List (BitVec 8) := (List.range 64).map fun i => l.extractLsb' (8 * i) 8

/-- A number as k little-endian bytes. -/
def natBytes : Nat → Nat → List (BitVec 8)
  | 0, _ => []
  | k + 1, n => BitVec.ofNat 8 n :: natBytes k (n / 256)

/-! ### The link's state (R333) -/

/-- At least one twin port is up and the link is not held for lost. -/
def linkOk (s : State) : Bool := decide (getF s Reg.FLK_TWIN_STS.ports_up ≠ 0) && !flag s Reg.FLK_TWIN_STS.link_lost

/-- Put a frame on the link; while the link is lost nothing leaves. -/
def putFrame (s : State) (f : TwinFrame) : State := if linkOk s then emit s (.twin f) else s

/-- Send a frame outside the ordered stream. -/
def sendFrame (s : State) (ftype seq plot : Nat) (body : TwinBody) : State :=
  let s := { s with twin.txOther := s.twin.txOther + 1 }
  putFrame s { ftype := ftype, sideB := sideB s, ordered := false, epoch := epoch s, ctr := s.twin.txOther, seq := seq, plot := plot,
               level := ownLevel s, stop := stopBit s, body := body }

/-! ### The ordered stream (R338, R341, R364) -/

/-- The plot group of a plot (R364). -/
def groupOf (plot : Nat) : Nat := plot / 64

/-- A record's descriptor as a number (R339). -/
def descriptorOf (r : MirrorRec) : Nat :=
  r.line.val + (if r.poison then 2 ^ 42 else 0) + (if r.fwd then 2 ^ 43 else 0) + r.mid.val * 2 ^ 44 + r.fwdTag.val * 2 ^ 56

/-- The bytes that one MIRROR record adds to its group's digest (R364). -/
def recordBytes (plot seq : Nat) (r : MirrorRec) : List (BitVec 8) :=
  natBytes 2 plot ++ natBytes 8 seq ++ natBytes 8 (descriptorOf r) ++ lineBytes r.data

/-- The bytes of a MIRROR frame's records, with consecutive sequence numbers. -/
def recordsBytes (plot : Nat) : Nat → List MirrorRec → List (BitVec 8)
  | _, [] => []
  | seq, r :: t => recordBytes plot seq r ++ recordsBytes plot (seq + 1) t

/-- The lines of half a clod, in order (R374). -/
def halfLines (lines : ClodImage) (half : Nat) : List LineVal :=
  (List.range 512).map fun i => sget zeroLine lines (half * 512 + i)

/-- The bytes that a RESYNC_CLOD frame adds: descriptor, poison map, data. -/
def resyncBytes (clod half : Nat) (lines : ClodImage) : List (BitVec 8) :=
  let ls := halfLines lines half
  let map := (List.range 512).foldl (fun m i => if ((ls.getD i zeroLine).poison) then m + 2 ^ i else m) 0
  natBytes 8 (clod + half * 2 ^ 32) ++ natBytes 64 map ++ ls.flatMap fun l => lineBytes l.data

/-- What an ordered frame adds to the digests: its group and bytes. A marker adds nothing. -/
def digestPart (s : State) (b : OrderedBody) : Option (Nat × List (BitVec 8)) :=
  match b with
  | .mirror plot seq rs => some (groupOf plot, recordsBytes plot seq rs)
  | .resyncClod clod half lines => (plotOfClod s clod).map fun p => (groupOf p, resyncBytes clod half lines)
  | .digestMarker _ _ => none

/-- The lines an ordered frame writes in a period, with their plots. -/
def linesOf (s : State) (period : Nat) (b : OrderedBody) : List (Nat × Nat × Nat) :=
  match b with
  | .mirror plot _ rs => rs.map fun r => (period, plot, r.line.val)
  | .resyncClod clod half _ =>
    match plotOfClod s clod with
    | some p => (List.range 512).map fun i => (period, p, clod * 1024 + half * 512 + i)
    | none => []
  | .digestMarker _ _ => []

/-- Payload bytes a retained frame takes (R341): markers take none. -/
def payloadBytes (b : OrderedBody) : Nat :=
  match b with
  | .mirror _ _ rs => rs.length * 64
  | .resyncClod _ _ _ => 32840
  | .digestMarker _ _ => 0

/-- Bytes FLK retains. -/
def retainedBytes : List Retained → Nat
  | [] => 0
  | r :: t => payloadBytes r.body + retainedBytes t

/-- Sand buffers that a number of retained bytes fill. -/
def frameBuffers (bytes : Nat) : Nat := (bytes + 4095) / 4096

/-- FLK's sand buffers (R341). -/
def framesHeld (s : State) : Nat :=
  (s.bpm.uses.filter fun u => match u.1 with
    | .frames _ => true
    | _ => false).length

/-- Room for a frame of some bytes: within 16 MiB, and with sand buffers to be had for it (R341, R465). -/
def retainFits (s : State) (bytes : Nat) : Bool :=
  decide (retainedBytes s.twin.retained + bytes ≤ 16777216) &&
    decide (frameBuffers (retainedBytes s.twin.retained + bytes) ≤ framesHeld s + (sget {} s.bpm.pools 1).cache.length)

/-- Room for one more retained write (R341). -/
def retainRoom (s : State) : Bool := retainFits s 64

/-- The frame that carries an ordered body. -/
def orderedFrame (s : State) (ctr : Nat) (b : OrderedBody) : TwinFrame :=
  let (t, q, p) := match b with
    | .mirror plot seq _ => (1, seq, plot)
    | .resyncClod _ _ _ => (0xF, 0, 0)
    | .digestMarker _ _ => (9, 0, 0)
  { ftype := t, sideB := sideB s, ordered := true, epoch := epoch s, ctr := ctr, seq := q, plot := p, level := ownLevel s, stop := stopBit s,
    body := .ordered b }

/-- Send an ordered frame: it is retained, enters its group's digest, and carries the next counter. -/
def sendOrdered (s : State) (b : OrderedBody) : State :=
  let ctr := s.twin.txOrdered + 1
  let s := { s with
    twin.txOrdered := ctr
    twin.retained := s.twin.retained ++ [{ ctr := ctr, body := b, period := s.twin.txPeriod, acked := false, compared := false }]
    twin.txLines := s.twin.txLines ++ linesOf s s.twin.txPeriod b }
  let s := match digestPart s b with
    | some (g, bs) => { s with twin.txCrc := supd 0 s.twin.txCrc g fun d => crcExtend d bs }
    | none => s
  putFrame s (orderedFrame s ctr b)

/-- Resend every retained frame from a counter on (R342). -/
def resendFrom (s : State) (ctr : Nat) : State :=
  (s.twin.retained.filter fun r => decide (ctr ≤ r.ctr)).foldl (fun s r => putFrame s (orderedFrame s r.ctr r.body)) s

/-- Free the retained frames that need not be kept any longer (R341). -/
def freeRetained (s : State) : State :=
  { s with twin.retained := s.twin.retained.filter fun r =>
      match r.body with
      | .digestMarker _ _ => !r.acked
      | _ => !(r.acked && r.compared) }

end Sys2Proof.Machine
end

