-- ==== Sys2Proof/Machine/ChainOps.lean ====
section
/-! DEFINITION. Chain routing and frames as the directory and the POU use them (11). -/

namespace Sys2Proof.Machine

/-- The chain is enabled (R384). -/
def chainOn (s : State) : Bool := flag s Reg.FLK_CHAIN_CFG.chain_en

/-- A chain port is up. -/
def chainPortUp (s : State) (p : Nat) : Bool := getF s Reg.FLK_CHAIN_STS.ports_up / 2 ^ p % 2 = 1

/-- How well a routing entry matches a node: none, or the length of its prefix (R392). -/
def routeMatch (s : State) (entry node : Nat) : Option Nat :=
  if getFi s Reg.FLK_ROUTE_DATA.valid entry = 0 then none
  else
    let len := min 12 (getFi s Reg.FLK_ROUTE_DATA.prefix_len entry)
    let cut := 2 ^ (12 - len)
    if getFi s Reg.FLK_ROUTE_DATA.prefix entry / cut = node / cut then some len else none

/-- The routing entry of a node: the longest match, the lowest-numbered of equals (R392). -/
def routeEntry (s : State) (node : Nat) : Option Nat :=
  ((List.range 256).foldl (fun (best : Option (Nat × Nat)) e =>
    match routeMatch s e node with
    | none => best
    | some len =>
      match best with
      | some b => if b.2 < len then some (e, len) else best
      | none => some (e, len)) none).map (·.1)

/-- The port a frame for a node leaves on: the entry's port, or its alternate when that is down (R392). -/
def routePort (s : State) (node : Nat) : Option Nat :=
  match routeEntry s node with
  | none => none
  | some e =>
    let p := getFi s Reg.FLK_ROUTE_DATA.port e
    let a := getFi s Reg.FLK_ROUTE_DATA.alt_port e
    if chainPortUp s p then some p
    else if flagI s Reg.FLK_ROUTE_DATA.alt_valid e && chainPortUp s a then some a
    else none

/-- A number as a node ID. -/
def nodeOf (n : Nat) : Fin 4096 := Fin.ofNat 4096 n

/-- Hops a frame starts with (R393). -/
def maxHops (s : State) : Fin 64 := Fin.ofNat 64 (max 1 (getF s Reg.FLK_CHAIN_CFG.max_hops))

/-- A frame leaves on a chain port; the port counts it (R334, R440). -/
def chainOut (s : State) (port : Nat) (f : ChainFrame) : State :=
  emit { s with chain.sent := supd 0 s.chain.sent port (· + 1) } (.chain (Fin.ofNat 8 port) f)

/-- Send a frame of this node by the routing table; false when no route or port takes it. -/
def sendChain (s : State) (f : ChainFrame) : Bool × State :=
  if !chainOn s then (false, s)
  else
    match routePort s f.dst.val with
    | some p => (true, chainOut s p { f with hops := maxHops s })
    | none => (false, incF s Reg.FLK_CHAIN_DROP.no_route)

/-- Send an answer to an ingress node: it carries the request's prefix, and the source epoch in the header (R391). -/
def answerChain (s : State) (pfx : ChainPrefix) (body : ChainBody) : State :=
  (sendChain s { dst := pfx.srcNode, hops := 0, epoch := pfx.srcEpoch, pfx := pfx, body := body }).2

/-- The node a class is bound to at this owner (R389). -/
def classNode (s : State) (cls : Nat) : Option Nat :=
  if flagI s Reg.FLK_CLASS_BIND.valid cls then some (getFi s Reg.FLK_CLASS_BIND.node cls) else none

/-- Ask the node of a chain ingress class to snoop its hosts (R401). DESIGN CHOICE: the prefix names the owner as the
source, so that the answer can reach it. -/
def sendChainSnoop (s : State) (mid line tag : Nat) (inv : Bool) (ahead : List Word) : State :=
  let cls := mid % 32
  match classNode s cls with
  | none => s
  | some node =>
    let pfx : ChainPrefix := { srcNode := nodeOf s.chain.nodeId, cls := Fin.ofNat 32 cls, poison := false, srcEpoch := s.chain.nodeEpoch,
                               tag := BitVec.ofNat 32 tag, lowTag := 0 }
    (sendChain s { dst := nodeOf node, hops := 0, epoch := sget 0 s.chain.seenEpochs node, pfx := pfx,
                   body := .snoopReq (BitVec.ofNat 64 (line * 64)) inv ahead }).2

/-! ### Windows (R386) -/

/-- The window a granule lies in. -/
def windowOf (s : State) (granule : Nat) : Option (Nat × Window) :=
  (List.range 64).findSome? fun i =>
    match sget none s.chain.windows i with
    | some w => if w.localBase ≤ granule ∧ granule < w.localBase + w.size then some (i, w) else none
    | none => none

/-- The ingress class of a local master (R388). -/
def classOf (s : State) (mid : Nat) : Option Nat :=
  if flagI s Reg.FLK_INGRESS_DATA.valid mid then some (getFi s Reg.FLK_INGRESS_DATA.class mid) else none

end Sys2Proof.Machine
end

