-- ==== Sys2Proof/Machine/FcdOps.lean ====
section
/-! DEFINITION. The front cache as every block uses it (06): places, ways and replacement, the victim buffer, fills,
parity, and the dirty charge of a line. -/

namespace Sys2Proof.Machine

/-! ### Places (R187, R206) -/

/-- XOR of the low 4-bit groups of a number, n groups. -/
def xorNibbles : Nat → Nat → Nat
  | 0, _ => 0
  | n + 1, x => (x % 16) ^^^ xorNibbles n (x / 16)

/-- The slice of a line (R187). -/
def sliceOf (line : Nat) : Nat := xorNibbles 11 line

/-- The front-cache set of a line (R187). -/
def setOf (line : Nat) : Nat := bitsOf line 4 13 ^^^ bitsOf line 17 13

/-- The directory set of a line (R206). -/
def dirSetOf (line : Nat) : Nat := bitsOf line 0 17 ^^^ bitsOf line 17 17

/-- Key of a line's set in the tables of sets. -/
def fcSetKey (line : Nat) : Nat := sliceOf line * 8192 + setOf line

/-- Key of a line's directory set. -/
def dirSetKey (line : Nat) : Nat := sliceOf line * 131072 + dirSetOf line

/-! ### Tree pseudo-LRU over 16 ways (R190, R206) -/

/-- Point every node on a way's path away from it. -/
def plruTouch (t : BitVec 15) (way : Nat) : BitVec 15 :=
  let go (t : BitVec 15) (node : Nat) (b : Nat) : BitVec 15 :=
    if b = 1 then t &&& ~~~(1#15 <<< (node - 1)) else t ||| (1#15 <<< (node - 1))
  let b3 := way / 8 % 2
  let b2 := way / 4 % 2
  let b1 := way / 2 % 2
  let b0 := way % 2
  go (go (go (go t 1 b3) (2 + b3) b2) (4 + b3 * 2 + b2) b1) (8 + b3 * 4 + b2 * 2 + b1) b0

/-- The way the tree points at. -/
def plruWay (t : BitVec 15) : Nat :=
  let bit (node : Nat) : Nat := if t.getLsbD (node - 1) then 1 else 0
  let b3 := bit 1
  let b2 := bit (2 + b3)
  let b1 := bit (4 + b3 * 2 + b2)
  let b0 := bit (8 + b3 * 4 + b2 * 2 + b1)
  b3 * 8 + b2 * 4 + b1 * 2 + b0

/-- The first way that passes, from the one the tree points at onwards. -/
def pickWay (t : BitVec 15) (ok : Nat → Bool) : Option Nat :=
  ((List.range 16).map fun i => (plruWay t + i) % 16).find? ok

/-! ### Ways -/

/-- A way, by the key of its set and its number. -/
def wayAt (s : State) (set way : Nat) : FcWay := sget {} s.fcd.ways (set * 16 + way)

/-- Store a way. -/
def setWay (s : State) (set way : Nat) (w : FcWay) : State :=
  { s with fcd.ways := sput {} s.fcd.ways (set * 16 + way) w }

/-- The way that holds or is being filled with a line. -/
def findWay (s : State) (line : Nat) : Option Nat :=
  (List.range 16).find? fun w =>
    let x := wayAt s (fcSetKey line) w
    x.state ≠ 0 && x.line = line && !x.hard

/-- A way in use by a line. -/
def touchWay (s : State) (line way : Nat) : State :=
  { s with fcd.plru := supd 0 s.fcd.plru (fcSetKey line) fun t => plruTouch t way }

/-- Record the latest parity error (R220). -/
def parLast (s : State) (set way slice : Nat) (dirty tag dir : Bool) : State :=
  let s := setF s Reg.FCD_PAR_LAST.set set
  let s := setF s Reg.FCD_PAR_LAST.way way
  let s := setF s Reg.FCD_PAR_LAST.slice slice
  putFlag (putFlag (putFlag s Reg.FCD_PAR_LAST.dirty dirty) Reg.FCD_PAR_LAST.tag tag) Reg.FCD_PAR_LAST.dir dir

/-- A source of a slice's events (R532). -/
def sliceSource (slice : Nat) : Nat := 1344 + slice * 3

/-- Enter a location in the SRAM repair list; a macro of four spare rows with none left is out of spares (R420, R421). -/
def sramRepair (s : State) (macro_ location : Nat) : State :=
  let s := incF (setFlag s Reg.DIU_ERR.sram_hard) Reg.DIU_HARD_CNT.sram_hard
  let used := (s.diu.sramRepairs.filter fun r => r.1 = macro_).length
  let s := { s with diu.sramRepairs := s.diu.sramRepairs ++ [(macro_, location)] }
  if used < 4 then s
  else adviseReplace (raise (setFlag s Reg.DIU_ERR.spare_exhausted) 1392 .spareExhausted 0xFFF [macro_, location]) 2

/-- Macros with no spare row left (R421, R429). -/
def exhaustedMacros (s : State) : Nat :=
  ((s.diu.sramRepairs.map (·.1)).eraseDups.filter fun m => 4 ≤ (s.diu.sramRepairs.filter fun r => r.1 = m).length).length

/-- The boot ROM applies the field repairs: each macro's first four get its spare rows, and the ways of the others stay out of
use (R420, R421). -/
def applyRepairs (s : State) : State :=
  let beyond := s.diu.sramRepairs.zipIdx.filter fun r => 4 ≤ ((s.diu.sramRepairs.take r.2).filter fun q => q.1 = r.1.1).length
  let s := beyond.foldl (fun s r => setWay s (r.1.2 / 16) (r.1.2 % 16) { hard := true, parCount := 3 }) s
  if beyond.isEmpty then s else adviseReplace s 2

/-- Chunks in the order a fill delivers them: the requester's first, then the others in wrap order (R193). -/
def beatOrder (f : Fill) : List (Fin 4) := (List.range 4).map fun i => Fin.ofNat 4 (f.startBeat.val + i)

/-- Count a slot's parity error; the third marks it hard and takes the way out of use (R205). -/
def slotError (s : State) (set way : Nat) : State :=
  let w := wayAt s set way
  if w.parCount + 1 < 3 then setWay s set way { w with parCount := w.parCount + 1 }
  else
    let s := setWay s set way { hard := true, parCount := 3 }
    let s := incFiBy (setFlag s Reg.FCD_ERR.hard_slot) Reg.FCD_HARD_SLOTS.hard 0 1
    let s := raise s (sliceSource (set / 8192)) .hardSlot 0xFFF [set / 8192, set % 8192, way]
    sramRepair s (set / 8192) (set * 16 + way)

/-! ### Dirty charges (R175, R176) -/

/-- Charge a line's grain on its first applied write (R175), starting the clod's dirty age (R314). -/
def chargeLine (s : State) (line : Nat) : State :=
  { s with
    pou.dirty := sput false s.pou.dirty (grainKey line) true
    pou.dirtyAge := supd 0 s.pou.dirtyAge (clodOf line) fun t => if t = 0 then s.devTime + 1 else t }

/-- Charge all 16 grains of a clod (R46, R326). -/
def chargeClod (s : State) (clod : Nat) : State := (List.range 16).foldl (fun s g => chargeLine s (clod * 1024 + g * 64)) s

/-- Release the charges of a clod's grains that pass (R176). -/
def releaseGrains (s : State) (clod : Nat) (ok : Nat → Bool) : State :=
  { s with pou.dirty := s.pou.dirty.filter fun e => !(e.1 / 16 = clod && ok (e.1 % 16)) }

/-! ### Write-backs (R195, R306) -/

/-- Where a clod's write-backs go: its frame, unless its entry is lost or it has none (R46, R300). -/
def writeTarget (s : State) (line : Nat) : Option Nat :=
  let e := entryOf s (clodOf line)
  if e.crcBad then none
  else match e.tier with
    | 1 => some (lpaOf e.frame line)
    | 3 => some (lpaOf e.frame line)
    | _ => none

/-- Number of valid lines of an overlay. -/
def validCount (v : BitVec 1024) : Nat := ((List.range 1024).filter fun i => v.getLsbD i).length

/-- Write a line back to its clod's frame; in an overlay its valid bit is set as the write is issued (R306). -/
def writeBack (s : State) (line mid : Nat) (v : LineVal) : State :=
  match writeTarget s line with
  | none => s
  | some lpa =>
    let s := lmcRequest (setLoam s lpa v) mid true lpa
    let e := entryOf s (clodOf line)
    if e.tier = 3 then
      let o := overlayOf s e.overlay
      let s := setOverlay (overlayLookup s e.overlay) e.overlay { o with valid := o.valid ||| (1#1024 <<< lineIn line) }
      let want := max 1 (min 1024 (getF s Reg.TMG_SETTLE_CFG2.overlay_lift))
      if want ≤ validCount (overlayOf s e.overlay).valid && !s.tmg.density.contains (clodOf line) then
        { s with tmg.density := s.tmg.density ++ [clodOf line] }
      else s
    else s

/-! ### Parity of dirty lines (R202 to R204) -/

/-- A dirty line whose data cannot be trusted: controller-fatal while a partner holds it, poisoned otherwise. DESIGN CHOICE: the write of
the poison carries the front cache's own engine ID, 0x31D. -/
def dirtyParity (s : State) (line : Nat) : State × Bool :=
  if mirrored s then ({ s with fcd.fatal := some (.line (clodOf line)) }, false)
  else
    let s := raise (setFlag s Reg.FCD_ERR.dirty_par) (sliceSource (sliceOf line)) .dirtyParity 0xFFF [line * 64] (plotOfLine s line)
    (writeBack (enterPoison s line 4 false) line 0x31D poisonLine, true)

/-! ### The victim buffer (R195 to R197) -/

/-- The victim entry of a line. -/
def findVictim (s : State) (line : Nat) : Option Victim := s.fcd.victims.find? fun v => v.line = line

/-- Change the victim entry of a line. -/
def updVictim (s : State) (line : Nat) (f : Victim → Victim) : State :=
  { s with fcd.victims := s.fcd.victims.map fun v => if v.line = line then f v else v }

/-- Remove the victim entry of a line. -/
def dropVictim (s : State) (line : Nat) : State := { s with fcd.victims := s.fcd.victims.filter fun v => v.line ≠ line }

/-- Victim entries of a slice in use. -/
def victimsOf (s : State) (slice : Nat) : Nat := (s.fcd.victims.filter fun v => v.slice = slice).length

/-- Is a back-invalidate snoop outstanding for a line (R218)? -/
def snoopOut (s : State) (line : Nat) : Bool := s.fcd.snoops.any fun x => x.line = line

/-- May a way be chosen as a victim (R190)? -/
def evictable (s : State) (set way : Nat) : Bool :=
  let w := wayAt s set way
  w.state ≠ 3 && !w.hard && !snoopOut s w.line

/-- A way of a set that no line uses. -/
def freeWay (s : State) (set : Nat) : Option Nat :=
  (List.range 16).find? fun w =>
    let x := wayAt s set w
    x.state = 0 && !x.hard

/-- A held victim line returns to its set when a way is free (R197). -/
def returnHeld (s : State) (set : Nat) : State :=
  match s.fcd.victims.find? fun v => v.held && v.slice * 8192 + v.set = set, freeWay s set with
  | some v, some w =>
    touchWay (setWay (dropVictim s v.line) set w
      { line := v.line, state := 2, poison := v.val.poison, data := v.val.data, badChunks := v.badChunks, parCount := (wayAt s set w).parCount }) v.line w
  | _, _ => s

/-- The tag check of a way (R203). In solo a dirty or filling way whose address is lost holds no line any more. -/
def checkTags (s : State) (set way : Nat) : State :=
  let w := wayAt s set way
  let bothBad := (w.badTag0 && w.badTag1) || (!w.badTag0 && !w.badTag1 && w.tagDiffer)
  if bothBad then
    let s := parLast (setFlag s Reg.FCD_ERR.tag_dual) (set % 8192) way (set / 8192) (w.state = 2) true false
    let s := raise s (sliceSource (set / 8192)) .tagDual 0xFFF [set / 8192, set % 8192, way]
    if w.state = 0 || w.state = 1 then returnHeld (setWay s set way { parCount := w.parCount }) set
    else
      let s := { s with fcd.fatal := some .tags }
      if mirrored s then s else returnHeld (setWay s set way { parCount := w.parCount }) set
  else if w.badTag0 || w.badTag1 then
    let s := parLast s (set % 8192) way (set / 8192) (w.state = 2) true false
    incF (setWay s set way { w with badTag0 := false, badTag1 := false, tagDiffer := false }) Reg.FCD_PAR_CNT.tag_corr
  else s

/-- The data check of a way as its line is read (R202): a clean line with an error is dropped, to be fetched again; a dirty one is
controller-fatal in mirrored operation, and otherwise written back as poison and left clean. -/
def checkData (s : State) (set way : Nat) : State :=
  let w := wayAt s set way
  if w.badChunks = 0 || w.state = 0 || w.state = 3 then s
  else
    let s := parLast s (set % 8192) way (set / 8192) (w.state = 2) false false
    if w.state = 2 then
      match dirtyParity s w.line with
      | (s, true) =>
        slotError (setWay s set way { line := w.line, state := 1, poison := true, data := 0, parCount := w.parCount }) set way
      | (s, false) => s
    else
      let s := incF (setFlag s Reg.FCD_ERR.clean_par) Reg.FCD_PAR_CNT.clean_par
      returnHeld (slotError (setWay s set way { parCount := w.parCount }) set way) set

/-- A victim entry as its line is read (R202): its line is dirty. -/
def checkVictim (s : State) (line : Nat) : State :=
  match findVictim s line with
  | none => s
  | some v =>
    if v.badChunks = 0 then s
    else
      match dirtyParity (parLast s v.set v.way v.slice true false false) line with
      | (s, true) => dropVictim s line
      | (s, false) => s

/-- Empty a way: a clean line is dropped, a dirty one is read into the victim buffer and written to Loam (R190, R195, R202). False: the
way stays as it is, for an error that stops the controller. -/
def vacate (s : State) (set way mid : Nat) : Bool × State :=
  let s := checkTags s set way
  let s := if (wayAt s set way).state = 2 then checkData s set way else s
  let w := wayAt s set way
  if s.fcd.fatal.isSome && w.state = 2 then (false, s)
  else
    let s := setWay s set way { parCount := w.parCount, hard := w.hard }
    if w.state ≠ 2 then (true, s)
    else
      let v : LineVal := { data := w.data, poison := w.poison }
      let target := writeTarget s w.line
      let s := { s with fcd.victims := s.fcd.victims ++
        [{ line := w.line, val := v, slice := set / 8192, set := set % 8192, way := way, held := false,
           write := target.map fun _ => s.lmc.nextReq, lpa := target.getD 0, mid := mid }] }
      (true, writeBack s w.line mid v)

/-- The way the tree chooses is dirty and the slice's victim buffer is full: a request for it waits for an entry (R195). -/
def victimFull (s : State) (line : Nat) : Bool :=
  let set := fcSetKey line
  (freeWay s set).isNone && decide (512 ≤ victimsOf s (set / 8192)) &&
    (match pickWay (sget 0 s.fcd.plru set) (evictable s set) with
     | some w => (wayAt s set w).state = 2
     | none => false)

/-- Find a way for a line: an invalid one, or the victim the tree chooses (R190). A held line of the set takes a vacated way before it
(R197). Without a way, what has been done in looking for one. -/
def allocWay (s : State) (line mid : Nat) : Nat → Option Nat × State
  | 0 => (none, s)
  | n + 1 =>
    let set := fcSetKey line
    match freeWay s set with
    | some w => (some w, s)
    | none =>
      if victimFull s line then (none, s)
      else match pickWay (sget 0 s.fcd.plru set) (evictable s set) with
        | none => (none, s)
        | some w =>
          match vacate s set w mid with
          | (true, s) => allocWay (returnHeld s set) line mid n
          | (false, s) => (none, s)

/-- Tries of a request for a way: each but the last makes a held line return or a slot hard. -/
def wayTries : Nat := 64

/-! ### Applying a whole line (R191, R196) -/

/-- Update the poison list for a whole line applied (R422, R424): `source` names why it is poisoned. -/
def applyPoison (s : State) (line : Nat) (poison : Bool) (source : Fin 8) : State :=
  match poisonEntry s line with
  | some e =>
    if poison then s
    else if e.base && (entryOf s (clodOf line)).tier = 3 then s
    else clearPoison s line
  | none => if poison then enterPoison s line source false else s

/-- Look a line's way up with the check that every lookup makes (R188, R203). -/
def lookWay (s : State) (line : Nat) : State :=
  match findWay s line with
  | some w => checkTags s (fcSetKey line) w
  | none => s

/-- Put a whole line into the front cache, dirty: into its way, its victim entry, or a new way; a filling way is held until its fill is
written (R192). False: no way yet. -/
def applyLine (s : State) (line mid : Nat) (v : LineVal) (source : Fin 8) : Bool × State :=
  let v : LineVal := if v.poison then poisonLine else v
  let set := fcSetKey line
  let fin (s : State) : State := applyPoison (chargeLine s line) line v.poison source
  let put (s : State) (w : Nat) : State :=
    fin (touchWay (setWay s set w { line := line, state := 2, poison := v.poison, data := v.data, parCount := (wayAt s set w).parCount }) line w)
  let s := lookWay s line
  if mirrored s && s.fcd.fatal.isSome then (false, s)
  else match findWay s line with
  | some w => if (wayAt s set w).state = 3 then (false, s) else (true, put s w)
  | none =>
    match findVictim s line with
    | some x =>
      if (wayAt s set x.way).state = 0 && !(wayAt s set x.way).hard then
        (true, put (incF (dropVictim s line) Reg.FCD_VICTIM_HITS.cancels) x.way)
      else
        let s := if x.held then s else incF s Reg.FCD_VICTIM_HITS.cancels
        (true, fin (updVictim s line fun x => { x with held := true, write := none, val := v, badChunks := 0 }))
    | none =>
      match allocWay s line mid wayTries with
      | (some w, s) => (true, put s w)
      | (none, s) => (false, s)

/-! ### Reading a line (R192 to R196, R202, R203) -/

/-- Mark the parity errors an access meets on the way it reads. -/
def markFaults (s : State) (line : Nat) (f : ArrayFaults) : State :=
  match findWay s line with
  | none => updVictim s line fun v => { v with badChunks := v.badChunks ||| f.chunks }
  | some way =>
    let set := fcSetKey line
    let w := wayAt s set way
    setWay s set way { w with
      badChunks := w.badChunks ||| f.chunks
      badTag0 := w.badTag0 || f.tag0
      badTag1 := w.badTag1 || f.tag1
      tagDiffer := w.tagDiffer || f.tagDiffer }

/-- What a probe of the front cache finds. -/
inductive Probe where
  | miss
  | filling
  | hit (v : LineVal)
  /-- an error that stops the controller: the read gets nothing -/
  | fatal
  deriving DecidableEq, Repr

/-- The checks a read of a line makes, in its way or its victim entry (R202, R203). -/
def checkLine (s : State) (line : Nat) : State :=
  let s := lookWay s line
  match findWay s line with
  | some w => checkData s (fcSetKey line) w
  | none => checkVictim s line

/-- Probe the front cache and the victim buffer for a line, with the checks of R202 and R203. `again`: the request has missed before. -/
def probe (s : State) (line : Nat) (f : ArrayFaults) (again : Bool) : Probe × State :=
  let s := checkLine (markFaults s line f) line
  if mirrored s && s.fcd.fatal.isSome then (.fatal, s)
  else match findWay s line with
  | some w =>
    let x := wayAt s (fcSetKey line) w
    if x.state = 3 then (.filling, if again then s else incF s Reg.FCD_MISS.misses)
    else (.hit { data := x.data, poison := x.poison }, incF (touchWay s line w) Reg.FCD_HIT.hits)
  | none =>
    match findVictim s line with
    | some v => (.hit v.val, incF s Reg.FCD_VICTIM_HITS.read_hits)
    | none => (.miss, if again then s else incF s Reg.FCD_MISS.misses)

/-- A way or victim entry with an error that a read of its line would find. -/
def faultyWay (w : FcWay) : Bool := w.state ≠ 0 && (w.badChunks ≠ 0 || w.badTag0 || w.badTag1 || w.tagDiffer)

/-- The lines that pass and have such an error, in ways and in victim entries. -/
def faultyLines (s : State) (which : Nat → Bool) : List Nat :=
  ((s.fcd.ways.filter fun e => faultyWay e.2 && which e.2.line).map fun e => e.2.line) ++
    (s.fcd.victims.filter fun v => v.badChunks ≠ 0 && which v.line).map fun v => v.line

/-- An internal read of many lines makes the same checks on each (R202). -/
def checkLines (s : State) (which : Nat → Bool) : State := (faultyLines s which).foldl checkLine s

/-- The same for a clod's lines. -/
def checkClod (s : State) (clod : Nat) : State := checkLines s fun l => clodOf l = clod

/-- A line's contents in the front cache or a victim entry. -/
def cachedLine (s : State) (line : Nat) : Option LineVal :=
  match findWay s line with
  | some w =>
    let x := wayAt s (fcSetKey line) w
    if x.state = 3 then none else some { data := x.data, poison := x.poison }
  | none => (findVictim s line).map (·.val)

/-- A line's contents on this controller, wherever they stand. -/
def currentLine (s : State) (line : Nat) : LineVal := (cachedLine s line).getD (tierLine s line)

/-- Is a line dirty in the front cache or a victim entry? -/
def dirtyCached (s : State) (line : Nat) : Bool :=
  match findWay s line with
  | some w => (wayAt s (fcSetKey line) w).state = 2
  | none => (findVictim s line).isSome

/-- Fill buffers of a slice in use (R192). -/
def fillsOf (s : State) (slice : Nat) : Nat := (s.fcd.fills.filter fun f => sliceOf f.line = slice).length

/-- Join the pending fill of a line. -/
def joinFill (s : State) (line : Nat) (users : List FillUser) : State :=
  { s with fcd.fills := s.fcd.fills.map fun x => if x.line = line then { x with users := x.users ++ users } else x }

/-- Start a fill that holds what Loam holds now. False: it waits for a fill buffer, a way or a victim entry, and its requester asks
again (R190, R192, R195). -/
def startFill (s : State) (f : Fill) (mid : Nat) : Bool × State :=
  if s.fcd.fills.any fun x => x.line = f.line then (true, joinFill s f.line f.users)
  else if 128 ≤ fillsOf s (sliceOf f.line) then (false, s)
  else match allocWay s f.line mid wayTries with
    | (some w, s) =>
      let s := setWay s (fcSetKey f.line) w { line := f.line, state := 3, parCount := (wayAt s (fcSetKey f.line) w).parCount }
      (true, lmcRequest { s with fcd.fills := s.fcd.fills ++ [{ f with mid := mid, req := s.lmc.nextReq }] } mid false f.lpa)
    | (none, s) => (false, s)

/-- Count the wait of a request that must evict a dirty line and finds the slice's victim buffer full, once (R195). -/
def countFull (s : State) (line : Nat) (counted : Bool) : Bool × State :=
  if !counted && victimFull s line then (true, incFi s Reg.FCD_SLICE_STS.victim_full_cnt (sliceOf line)) else (counted, s)

/-- A line stands in the front cache or a victim entry, or is being filled. -/
def atHand (s : State) (line : Nat) : Bool := (findWay s line).isSome || (findVictim s line).isSome

/-- A line from Bedrock waits for a fill buffer or a way. -/
def awaitInstall (s : State) (line mid : Nat) (v : LineVal) : State :=
  if s.fcd.installs.any fun x => x.1 = line then s else { s with fcd.installs := s.fcd.installs ++ [(line, mid, v)] }

/-- Install a line that came from Bedrock as clean: it takes a fill buffer and a way as a Loam fill does, and is not installed once a write
has placed the line (R194). -/
def installClean (s : State) (line mid : Nat) (v : LineVal) : State :=
  if atHand s line || tierLine s line ≠ v then s
  else if 128 ≤ fillsOf s (sliceOf line) then awaitInstall s line mid v
  else match allocWay s line mid wayTries with
    | (some w, s) =>
      touchWay (setWay s (fcSetKey line) w
        { line := line, state := 1, poison := v.poison, data := v.data, parCount := (wayAt s (fcSetKey line) w).parCount }) line w
    | (none, s) => awaitInstall s line mid v

/-- Install a line that arrived from below as clean, if its way is still being filled. -/
def installFill (s : State) (line : Nat) (v : LineVal) : State :=
  match findWay s line with
  | some w =>
    let x := wayAt s (fcSetKey line) w
    if x.state = 3 then
      touchWay (setWay s (fcSetKey line) w { line := line, state := 1, poison := v.poison, data := v.data, parCount := x.parCount }) line w
    else s
  | none => s

/-- Drop a line, dirty data and all: from its way and its victim entry (R198, R200). -/
def dropLine (s : State) (line : Nat) : State :=
  let s := match findWay s line with
    | some w =>
      let x := wayAt s (fcSetKey line) w
      if x.state = 3 then s else returnHeld (setWay s (fcSetKey line) w { parCount := x.parCount }) (fcSetKey line)
    | none => s
  dropVictim s line

/-- Issue the Loam write of a victim entry (R195). -/
def issueVictim (s : State) (v : Victim) : State :=
  match writeTarget s v.line with
  | none => updVictim s v.line fun v => { v with held := false, write := none }
  | some lpa =>
    writeBack (updVictim s v.line fun v => { v with held := false, write := some s.lmc.nextReq, lpa := lpa }) v.line v.mid v.val

/-- Flush a line: a dirty line's snapshot is read, with the checks of a read, and written to Loam; the line is left clean (R198, R200,
R202). -/
def flushLine (s : State) (line mid : Nat) : State :=
  let s := checkLine s line
  if mirrored s && s.fcd.fatal.isSome then s
  else match findWay s line with
  | some w =>
    let x := wayAt s (fcSetKey line) w
    if x.state = 2 && (writeTarget s line).isSome then
      writeBack (setWay s (fcSetKey line) w { x with state := 1 }) line mid { data := x.data, poison := x.poison }
    else s
  | none =>
    match findVictim s line with
    | some v => if v.held && (writeTarget s line).isSome then issueVictim s v else s
    | none => s

/-- Flush every cached line of a clod (R198). -/
def flushClod (s : State) (clod mid : Nat) : State :=
  (List.range 1024).foldl (fun s i => flushLine s (clod * 1024 + i) mid) s

/-- Held lines of every set return where ways have become free (R197). -/
def returnAllHeld (s : State) : State :=
  (s.fcd.victims.filter (·.held)).foldl (fun s v => returnHeld s (v.slice * 8192 + v.set)) s

/-- Invalidate every line and victim entry of a plot's range; a line that is still filling is invalidated once its way is written
(R201). -/
def walkPlot (s : State) (r : Plot) : State :=
  returnAllHeld { s with
    fcd.ways := s.fcd.ways.filterMap fun e =>
      if e.2.state ≠ 0 && e.2.state ≠ 3 && plotHasLine r e.2.line then
        (if e.2.parCount = 0 then none else some (e.1, { parCount := e.2.parCount }))
      else some e
    fcd.victims := s.fcd.victims.filter fun v => !plotHasLine r v.line
    fcd.installs := s.fcd.installs.filter fun x => !plotHasLine r x.1
    fcd.maint := (s.fcd.maint.filter fun m => !plotHasLine r m.line) ++
      (s.fcd.fills.filter fun f => plotHasLine r f.line).map fun f => { line := f.line, mid := 0x300, op := .drop }
    pou.dirty := s.pou.dirty.filter fun e => !plotHasClod r (e.1 / 16) }

end Sys2Proof.Machine
end

