-- ==== Sys2Proof/Machine/DirOps.lean ====
section
/-! DEFINITION. The coherence directory and its snoops (R206 to R219). -/

namespace Sys2Proof.Machine

/-! ### Entries (R206 to R208) -/

/-- A directory entry. -/
def dirAt (s : State) (set way : Nat) : DirEntry := sget {} s.fcd.dir (set * 16 + way)

/-- Store a directory entry. -/
def setDir (s : State) (set way : Nat) (e : DirEntry) : State := { s with fcd.dir := sput {} s.fcd.dir (set * 16 + way) e }

/-- The way that holds a line's entry. -/
def findDir (s : State) (line : Nat) : Option Nat :=
  (List.range 16).find? fun w => (dirAt s (dirSetKey line) w).state ≠ 0 && (dirAt s (dirSetKey line) w).line = line

/-- A line's entry: in its set, or recorded while its set frees an entry for it (R209); invalid when it has none. -/
def dirOf (s : State) (line : Nat) : DirEntry :=
  match findDir s line with
  | some w => dirAt s (dirSetKey line) w
  | none => (s.fcd.dirNext.find? fun e => e.line = line).getD { line := line }

/-- Keep an entry for a line whose set has none free. -/
def putNext (s : State) (line : Nat) (e : DirEntry) : State :=
  let rest := s.fcd.dirNext.filter fun x => x.line ≠ line
  { s with fcd.dirNext := if e.state = 0 then rest else rest ++ [{ e with line := line }] }

/-- Change the entry a line has. -/
def setDirOf (s : State) (line : Nat) (e : DirEntry) : State :=
  match findDir s line with
  | some w => setDir s (dirSetKey line) w e
  | none => if s.fcd.dirNext.any fun x => x.line = line then putNext s line e else s

/-- A directory entry fails its parity: the whole set is invalidated and marked unknown (R219). The way recorded is the line's own entry's. -/
def dirParity (s : State) (line : Nat) : State :=
  let set := dirSetKey line
  let way := (findDir s line).getD 0
  let s := { s with
    fcd.dirBad := s.fcd.dirBad.filter fun k => k ≠ set
    fcd.dir := sdrop s.fcd.dir fun k => k / 16 = set
    fcd.dirNext := s.fcd.dirNext.filter fun e => dirSetKey e.line ≠ set
    fcd.unknownSets := supd 0 s.fcd.unknownSets set fun v => if v = 0 then 1 else v }
  let s := parLast (setFlag s Reg.FCD_ERR.dir_par) (dirSetOf line % 8192) way (sliceOf line) false false true
  raise s (sliceSource (sliceOf line)) .dirParity 0xFFF [sliceOf line, dirSetOf line]

/-- The parity check of every lookup in a line's set, whoever asks. -/
def checkDir (s : State) (line : Nat) : State := if s.fcd.dirBad.contains (dirSetKey line) then dirParity s line else s

/-- A set carries the unknown flag (R219). -/
def setUnknown (s : State) (line : Nat) : Bool := sget 0 s.fcd.unknownSets (dirSetKey line) ≠ 0

/-- The 64-group vector of some holders (R207). -/
def groupsOf (mids : List Nat) : BitVec 64 := mids.foldl (fun v m => v ||| (1#64 <<< (m / 12))) 0

/-- Add a holder; a fifth turns the entry coarse (R208). -/
def addHolder (e : DirEntry) (mid : Nat) : DirEntry :=
  if e.coarse then { e with vector := e.vector ||| (1#64 <<< (mid / 12)) }
  else if e.ptrs.contains mid then e
  else if e.ptrs.length < 4 then { e with ptrs := e.ptrs ++ [mid] }
  else { e with coarse := true, ptrs := [], vector := groupsOf (e.ptrs ++ [mid]) }

/-- Masters a coarse entry, or an unknown set, stands for: those of its groups with rights in the plot (R208, R219). -/
def groupHolders (s : State) (plot : Nat) (v : BitVec 64) : List Nat :=
  (List.range 0x300).filter fun m => v.getLsbD (m / 12) && decide (0 < aclRights s plot m)

/-- The holders of an entry. -/
def holdersOf (s : State) (plot : Nat) (e : DirEntry) : List Nat :=
  if e.state = 0 then [] else if e.coarse then groupHolders s plot e.vector else e.ptrs

/-- The holders of a line's entry, a window's line included: no local plot holds that, and its masters are those with an
ingress class (R388, R401). -/
def holdersAt (s : State) (line : Nat) (e : DirEntry) : List Nat :=
  match plotOfLine s line with
  | some p => holdersOf s p e
  | none =>
    if e.state = 0 then []
    else if e.coarse then (List.range 0x100).filter fun m => e.vector.getLsbD (m / 12) && (classOf s m).isSome
    else e.ptrs

/-- Masters an unknown set stands for. -/
def anyHolder (s : State) (line : Nat) : List Nat :=
  holdersAt s line { line := line, state := 1, coarse := true, vector := BitVec.allOnes 64 }

/-! ### Snoops (R210, R212, R215) -/

/-- A request to a shared-coherent line: is it a write, what copy it keeps, and whose it is (none: a ring's). -/
structure DirReq where
  write : Bool
  metaVal : MetaValue
  requester : Option Nat
  deriving DecidableEq, Repr

/-- One recall target stands for every LD of the partner (R210). -/
def partnerTarget : Nat := 0x100

/-- The snoops that reach a list of holders: local LDs whose links are up, one for the partner's side, one for each
chain class. -/
def recallTargets (s : State) (mids : List Nat) : List Nat :=
  let loc := mids.filter fun m => m < 0x100 && linkUp s (m / 16)
  let far := if mids.any (fun m => 0x100 ≤ m && m < 0x200) && mirrored s then [partnerTarget] else []
  let chain := mids.filter fun m => 0x200 ≤ m && m < 0x300 && (classNode s (m % 32)).isSome
  loc ++ far ++ chain

/-- The snoops a request needs first: targets, and whether they invalidate (R212, R219). -/
def neededSnoops (s : State) (plot line : Nat) (q : DirReq) : List Nat × Bool :=
  let e := dirOf s line
  let inv := q.write || q.metaVal = .any
  let unknown := setUnknown s line
  let holders := if unknown then groupHolders s plot (BitVec.allOnes 64) else holdersOf s plot e
  let others := holders.filter fun m => some m ≠ q.requester
  let hit := if inv || unknown then others else if e.state = 2 then others.take 1 else []
  (recallTargets s hit, inv)

/-- The twin's forwarded requests of a line that have passed the directory here and are not yet answered: a snoop must
find them recorded at the partner (R209). -/
def aheadFwd (s : State) (line : Nat) : List (Nat × Nat) :=
  let of (o : Origin) : Option (Nat × Nat) :=
    match o with
    | .forwarded mid tag => some (mid.val, tag)
    | _ => none
  ((s.pou.reads.filter fun r => r.line = line && r.dir = 2).filterMap fun r => of r.origin) ++
    ((s.pou.writes.filter fun w => w.line = line && w.dir = 2).filterMap fun w => of w.origin)

/-- The same for the requests of a chain node. -/
def aheadChain (s : State) (line node : Nat) : List Word :=
  let of (o : Origin) : Option Word :=
    match o with
    | .chain _ n tag => if n = node then some (BitVec.ofNat 32 tag) else none
    | _ => none
  ((s.pou.reads.filter fun r => r.line = line && r.dir = 2).filterMap fun r => of r.origin) ++
    ((s.pou.writes.filter fun w => w.line = line && w.dir = 2).filterMap fun w => of w.origin)

/-- Send one snoop and take its slot. -/
def sendSnoop (s : State) (line : Nat) (inv : Bool) (cause : SnoopCause) (target : Nat) : State :=
  let id := s.fcd.nextSnoop
  let s := { s with
    fcd.snoops := s.fcd.snoops ++ [{ id := id, target := target, line := line, inv := inv, cause := cause, sentAt := s.devTime, before := s.pou.nextId }]
    fcd.nextSnoop := id + 1 }
  let s := incF s Reg.FCD_BISNP_CNT.snoops
  if target < 0x100 then toHost s (Fin.ofNat 256 target) (.biSnp (Fin.ofNat 256 target) line inv)
  else if target < 0x200 then sendFrame s 0x0B 0 0 (.snoopReq id line inv (aheadFwd s line))
  else sendChainSnoop s target line id inv (aheadChain s line ((classNode s (target % 32)).getD 0))

/-- Room for more snoop slots (R215). -/
def snoopRoom (s : State) (n : Nat) : Bool := decide (s.fcd.snoops.length + n ≤ 4096)

/-- Mark a line's entry busy, if it has one. -/
def markBusy (s : State) (line : Nat) : State := setDirOf s line { dirOf s line with state := 3 }

/-- Send a line's snoops and mark its entry busy. -/
def sendSnoops (s : State) (line : Nat) (inv : Bool) (cause : SnoopCause) (targets : List Nat) : State :=
  markBusy (targets.foldl (fun s t => sendSnoop s line inv cause t) s) line

/-- Snoops outstanding with a cause. -/
def snoopsFor (s : State) (c : SnoopCause) : List Snoop := s.fcd.snoops.filter fun x => x.cause = c

/-! ### Recording a request (R209, R212, R217) -/

/-- The entry of a line after a request (R212). -/
def entryAfter (e : DirEntry) (line : Nat) (q : DirReq) : DirEntry :=
  let alone (st : Fin 4) : DirEntry :=
    match q.requester with
    | some m => { line := line, state := st, ptrs := [m] }
    | none => {}
  match q.write, q.metaVal with
  | true, .invalid => {}
  | true, .shared => alone 1
  | true, .any => alone 2
  | false, .any => alone 2
  | false, .shared =>
    match q.requester with
    | some m => { addHolder { e with line := line } m with state := 1 }
    | none => e
  | false, .invalid => if e.state = 2 then { e with state := 1 } else e

/-- Use a way: its set's pseudo-LRU turns away from it. -/
def touchDir (s : State) (line way : Nat) : State :=
  { s with fcd.dirPlru := supd 0 s.fcd.dirPlru (dirSetKey line) fun t => plruTouch t way }

/-- The entry a freed way takes for the line it was freed for: what has been recorded of it meanwhile, or a shared entry without a holder,
which keeps the way for the request that waits (R217). -/
def nextEntry (s : State) (line : Nat) : DirEntry :=
  (s.fcd.dirNext.find? fun e => e.line = line).getD { line := line, state := 1 }

/-- A way has been freed for a line. -/
def takeNext (s : State) (set way line : Nat) : State :=
  let e := nextEntry s line
  let s := setDir { s with fcd.dirNext := s.fcd.dirNext.filter fun x => x.line ≠ line } set way e
  touchDir s line way

/-- An entry is being evicted for a line. -/
def evictingFor (s : State) (line : Nat) : Bool := s.fcd.snoops.any fun x => x.cause = .evict line

/-- Free an entry of a full set for another line: its holders are snooped, and it stays busy until they have answered; with no holder to
ask the way is free at once. Without a free snoop slot nothing happens yet (R215, R217). -/
def evictDir (s : State) (set way line : Nat) : State :=
  let e := dirAt s set way
  let targets := recallTargets s (holdersAt s e.line e)
  if !snoopRoom s targets.length then s
  else
    let s := incF s Reg.FCD_DIR_EVICT_CNT.evictions
    if targets.isEmpty then takeNext s set way line else sendSnoops s e.line true (.evict line) targets

/-- A way for a new entry: a free one, else the pseudo-LRU entry that is not busy (R206, R217). -/
def dirWay (s : State) (line : Nat) : Option (Nat × Bool) :=
  let set := dirSetKey line
  match (List.range 16).find? fun w => (dirAt s set w).state = 0 with
  | some w => some (w, true)
  | none => (pickWay (sget 0 s.fcd.dirPlru set) fun w => (dirAt s set w).state ≠ 3).map fun w => (w, false)

/-- Find an entry for a line that has none: a free way takes what is recorded of it, a full set evicts once (R217). -/
def placeDir (s : State) (line : Nat) : State :=
  if (findDir s line).isSome || evictingFor s line then s
  else match dirWay s line with
    | some (w, true) => takeNext s (dirSetKey line) w line
    | some (w, false) => evictDir s (dirSetKey line) w line
    | none => s

/-- Record a request in the directory. False: it waits until a full set's entry is evicted. -/
def recordDir (s : State) (line : Nat) (q : DirReq) : Bool × State :=
  let e := entryAfter (dirOf s line) line q
  if (findDir s line).isNone && e.state = 0 then (true, putNext s line {})
  else
    let s := placeDir s line
    match findDir s line with
    | some w =>
      (true, if e.state = 0 then setDir s (dirSetKey line) w {} else touchDir (setDir s (dirSetKey line) w e) line w)
    | none => (false, s)

/-- Record a holder on the partner's side as its data or completion leaves: this waits for nothing (R209). In a full set the record stands
beside the set until an entry has been evicted for it. -/
def recordHolder (s : State) (line : Nat) (q : DirReq) : State :=
  let s := checkDir s line
  let e := entryAfter (dirOf s line) line q
  match findDir s line with
  | some w => if e.state = 0 then setDir s (dirSetKey line) w {} else touchDir (setDir s (dirSetKey line) w e) line w
  | none => if e.state = 0 then putNext s line {} else placeDir (putNext s line e) line

/-- Records that stand beside a full set take an entry as soon as one can be had. -/
def placeNexts (s : State) : State := (s.fcd.dirNext.map (·.line)).foldl placeDir s

/-- How far a request has come at the directory. -/
inductive DirStep where
  | done | snooping | blocked
  deriving DecidableEq, Repr

/-- Take a request to the directory: issue the snoops it needs, or record it. -/
def dirStart (s : State) (plot line : Nat) (q : DirReq) (cause : SnoopCause) : DirStep × State :=
  let s := checkDir s line
  if (dirOf s line).state = 3 then (.blocked, s)
  else
    let (targets, inv) := neededSnoops s plot line q
    if targets.isEmpty then
      match recordDir s line q with
      | (true, s) => (.done, s)
      | (false, s) => (.blocked, s)
    else if snoopRoom s targets.length then (.snooping, sendSnoops s line inv cause targets)
    else (.blocked, s)

/-- A request whose snoops are out: record it once every answer is in. -/
def dirFinish (s : State) (line : Nat) (q : DirReq) (cause : SnoopCause) : Bool × State :=
  if (snoopsFor s cause).isEmpty then recordDir s line q else (false, s)

/-! ### Answers (R213, R216) -/

/-- A recall target no longer holds a line, or no longer exclusively. -/
def dropHolder (e : DirEntry) (target : Nat) (inv : Bool) : DirEntry :=
  if !inv || e.coarse then e
  else { e with ptrs := e.ptrs.filter fun m => if target = partnerTarget then !(0x100 ≤ m && m < 0x200) else m ≠ target }

/-- An entry whose last snoop has been answered is busy no longer. -/
def unbusy (e : DirEntry) (inv : Bool) : DirEntry :=
  if e.coarse then (if inv then {} else { e with state := 1 })
  else if e.ptrs.isEmpty then {} else { e with state := 1 }

/-- A snoop has been answered: its slot goes free, the entry loses the holder, and what it was sent for goes on.
Modified data for a chain owner go with the last answer (R401). -/
def answerSnoop (s : State) (x : Snoop) : State :=
  let s := { s with fcd.snoops := s.fcd.snoops.filter fun y => y.id ≠ x.id }
  let left := snoopsFor s x.cause
  let e := dropHolder (dirOf s x.line) x.target x.inv
  let s :=
    if left.isEmpty && e.state = 3 then
      match x.cause, findDir s x.line with
      | .evict l, some w => takeNext s (dirSetKey x.line) w l
      | _, _ => setDirOf s x.line (unbusy e x.inv)
    else setDirOf s x.line e
  if !left.isEmpty then
    { s with fcd.snoops := s.fcd.snoops.map fun y => if some y.id = (left.head?.map (·.id)) && x.back.isSome then { y with back := x.back } else y }
  else match x.cause with
    | .twin tag => sendFrame s 0x0C 0 0 (.snoopRsp tag)
    | .chain node tag =>
      let pfx : ChainPrefix := { srcNode := nodeOf s.chain.nodeId, cls := 0, poison := (x.back.map (·.poison)).getD false, srcEpoch := sget 0 s.chain.seenEpochs node,
                                 tag := BitVec.ofNat 32 tag, lowTag := 0 }
      (sendChain s { dst := nodeOf node, hops := 0, epoch := sget 0 s.chain.seenEpochs node, pfx := pfx, body := .snoopRsp (x.back.map fun v => if v.poison then 0 else v.data) }).2
    | _ => s

/-- A recall asked by the plot's home or a chain owner: snoop the local hosts this controller's entry names (R210,
R401). With none to ask, the answer leaves at once. False: no slot is free, or the entry is busy. -/
def serveRecall (s : State) (line : Nat) (inv : Bool) (cause : SnoopCause) : Bool × State :=
  let s := checkDir s line
  let e := dirOf s line
  if e.state = 3 then (false, s)
  else
    let holders := if setUnknown s line then anyHolder s line else holdersAt s line e
    let loc := (recallTargets s holders).filter fun m => m < 0x100
    let targets := if inv || setUnknown s line then loc else if e.state = 2 then loc.take 1 else []
    if targets.isEmpty then
      let x : Snoop := { id := 0, target := 0x300, line := line, inv := inv, cause := cause, sentAt := s.devTime }
      (true, answerSnoop s x)
    else if snoopRoom s targets.length then (true, sendSnoops s line inv cause targets)
    else (false, s)

/-! ### Lost links (R211, R219) -/

/-- Remove masters from every entry; an entry left with no holder becomes invalid (R211). -/
def purgeHolders (s : State) (gone : Nat → Bool) : State :=
  { s with
    fcd.dir := s.fcd.dir.filterMap fun e => (purged e.2).map fun x => (e.1, x)
    fcd.dirNext := s.fcd.dirNext.filterMap purged }
where
  /-- an entry without those masters; none once no holder is left -/
  purged (x : DirEntry) : Option DirEntry :=
    if x.coarse then
      let v := (List.range 64).foldl (fun (v : BitVec 64) g => if (List.range 12).all fun i => gone (12 * g + i) then v &&& ~~~(1#64 <<< g) else v) x.vector
      if v = 0 && x.state ≠ 3 then none else some { x with vector := v }
    else
      let ps := x.ptrs.filter fun m => !gone m
      if ps.isEmpty && x.state ≠ 3 then none else some { x with ptrs := ps }

/-- Ports with an enabled HDM-DB decoder (R219). -/
def hdmDbPorts (s : State) : List Nat :=
  (List.range 16).filter fun p => s.hfp.lds.any fun l => l.1 / 16 = p && l.2.decoders.any fun d => d.2.enabled && d.2.backInval

/-- A port goes down: an unknown set's flag clears once every link with an enabled HDM-DB decoder has gone down since. -/
def unknownLinkDown (s : State) (port : Nat) : State :=
  let need := hdmDbPorts s
  { s with fcd.unknownSets := s.fcd.unknownSets.filterMap fun e =>
      let mask := (e.2 - 1) ||| 2 ^ port
      if need.all fun p => mask / 2 ^ p % 2 = 1 then none else some (e.1, mask + 1) }

end Sys2Proof.Machine
end

