-- ==== Sys2Proof/Machine/BfcOps.lean ====
section
/-! DEFINITION. Bedrock as TMG and the readers use it (08): the layout of beds, strata, rows and grains, the dies'
queues, grain reads and rebuilds, strata and spare capacity. -/

namespace Sys2Proof.Machine

/-! ### Layout (R262 to R264, R271, R272) -/

/-- Dies per channel. -/
def diesPerChannel (s : State) : Nat := getF s Reg.BFC_POP.dies_per_ch

/-- From one valid block pair of a die to the next: a 2-plane die has only even ones (R261). -/
def pairStep (s : State) : Nat := if flag s Reg.BFC_POP.planes4 then 1 else 2

/-- Valid block pairs of a die that strata use: those below strata_per_die (R261, R262). -/
def strataPerDie (s : State) : Nat := (getF s Reg.BFC_LAYOUT.strata_per_die + pairStep s - 1) / pairStep s

/-- Strata of a bed, on all its die indices. -/
def strataPerBed (s : State) : Nat := strataPerDie s * diesPerChannel s

/-- Kiln strata of a bed. -/
def kilnPerBed (s : State) : Nat := getF s Reg.BFC_LAYOUT.kiln_per_bed

/-- Metadata strata of a bed. -/
def metaPerBed (s : State) : Nat := getF s Reg.BFC_LAYOUT2.meta_per_bed

/-- The n-th valid stratum number in ascending order: die index in [3:0], block pair above (R262). -/
def stratumNo (s : State) (n : Nat) : Nat := n / diesPerChannel s * pairStep s * 16 + n % diesPerChannel s

/-- The place of a stratum number in that order. -/
def stratumOrd (s : State) (k : Nat) : Nat := k / 16 / pairStep s * diesPerChannel s + k % 16

/-- What a stratum is for (R272). -/
def stratumUse (s : State) (k : Nat) : StratumUse :=
  let n := stratumOrd s k
  if n < kilnPerBed s then .kiln else if n < kilnPerBed s + metaPerBed s then .metadata else .data

/-- Key of a stratum. -/
def stratumKey (bed k : Nat) : Nat := bed * 1048576 + k

/-- A stratum. -/
def stratumAt (s : State) (bed k : Nat) : Stratum := sget {} s.bfc.strata (stratumKey bed k)

/-- Change a stratum. -/
def updStratum (s : State) (bed k : Nat) (f : Stratum → Stratum) : State :=
  { s with bfc.strata := supd {} s.bfc.strata (stratumKey bed k) f }

/-- Strata that differ from a never-used one: bed, number and record. -/
def usedStrata (s : State) : List (Nat × Nat × Stratum) :=
  s.bfc.strata.map fun e => (e.1 / 1048576, e.1 % 1048576, e.2)

/-- Rows of a stratum (R271). -/
def rowsOf (s : State) (slc : Bool) : Nat := if slc then s.bfc.rowsTlc / 3 else s.bfc.rowsTlc

/-- Rows of a program unit (R263). -/
def unitRows (slc : Bool) : Nat := if slc then 8 else 24

/-- Clods of a program unit (R315). -/
def unitSlots (slc : Bool) : Nat := if slc then 10 else 30

/-- Program units of a stratum. -/
def unitsOf (s : State) (slc : Bool) : Nat := rowsOf s slc / unitRows slc

/-- Row and data position of a clod's grain, from its first grain's row and position (R264). -/
def grainPlace (row first g : Nat) : Nat × Nat := (row + (first + g) / 20, (first + g) % 20)

/-- The channel of a position of a row (R264). -/
def channelAt (bed row pos : Nat) : Nat := bed * 24 + (pos + 4 * (row % 6)) % 24

/-- A channel. -/
def bchan (s : State) (ch : Nat) : BedrockChannel := sget {} s.bfc.channels ch

/-- Change a channel. -/
def updChan (s : State) (ch : Nat) (f : BedrockChannel → BedrockChannel) : State :=
  { s with bfc.channels := supd {} s.bfc.channels ch f }

/-- The die of a channel that holds a stratum's block pair: its own, or the spare's (R262). -/
def dieIndex (s : State) (ch k : Nat) : Nat :=
  match (bchan s ch).remap.find? fun r => r.1 = k with
  | some r => r.2.1 % diesPerChannel s
  | none => k % 16

/-- The die of a position of a row: channel × 16 + die index. -/
def dieAtPos (s : State) (bed k row pos : Nat) : Nat :=
  let ch := channelAt bed row pos
  ch * 16 + dieIndex s ch k

/-! ### Dies (R276 to R282) -/

/-- A die. -/
def dieAt (s : State) (d : Nat) : Die := sget {} s.bfc.dies d

/-- Change a die. -/
def updDie (s : State) (d : Nat) (f : Die → Die) : State := { s with bfc.dies := supd {} s.bfc.dies d f }

/-- A die that serves reads itself: neither quarantined nor failed, on a channel that answers. -/
def dieReads (s : State) (d : Nat) : Bool := decide ((dieAt s d).state = 0) && !(bchan s (d / 16)).lost

/-- A quarantined die may still be read as a last source (R281). -/
def dieLastSource (s : State) (d : Nat) : Bool := decide ((dieAt s d).state ≠ 2) && !(bchan s (d / 16)).lost

/-- A die's median for a mode in units of 0.25 µs; it starts at tR plus 4 µs (R279). -/
def dieMedian (s : State) (d : Nat) (slc : Bool) : Nat :=
  if slc then ((dieAt s d).medSlc).getD (s.bfc.trSlc * 4 + 16) else ((dieAt s d).medTlc).getD (s.bfc.trTlc * 4 + 16)

/-- Move a median one unit toward a sample (R279). -/
def toward (m sample : Nat) : Nat := if m < sample then m + 1 else if sample < m then m - 1 else m

/-- A completed read moves its die's median (R279). -/
def sampleMedian (s : State) (d : Nat) (slc : Bool) (sample : Nat) : State :=
  let m := toward (dieMedian s d slc) sample
  updDie s d fun x => if slc then { x with medSlc := some m } else { x with medTlc := some m }

/-- Insert into an ascending list. -/
def insertAsc (n : Nat) : List Nat → List Nat
  | [] => [n]
  | x :: t => if n ≤ x then n :: x :: t else x :: insertAsc n t

/-- Sort ascending. -/
def sortAsc (l : List Nat) : List Nat := l.foldr insertAsc []

/-- The median of a list. DESIGN CHOICE (log entry 49): of two middle values, the lower. -/
def medianOfList (l : List Nat) : Nat := (sortAsc l).getD ((l.length - 1) / 2) 0

/-- The dies of a bed that are populated. -/
def bedDies (s : State) (bed : Nat) : List Nat :=
  (List.range 24).flatMap fun c => (List.range (diesPerChannel s)).map fun d => (bed * 24 + c) * 16 + d

/-- The bed's median for a mode (R279): of its dies that are not failed. -/
def medianOfBed (s : State) (bed : Nat) (slc : Bool) : Nat :=
  medianOfList (((bedDies s bed).filter fun d => (dieAt s d).state ≠ 2).map fun d => dieMedian s d slc)

/-- Quarantined and failed dies of a bed (R281). -/
def badDies (s : State) (bed : Nat) : Nat :=
  (s.bfc.dies.filter fun e => e.2.state ≠ 0 && e.1 / 16 / 24 = bed).length

/-- More than two such dies in a bed advise replacement (R281, R294). -/
def checkBadDies (s : State) (bed : Nat) : State := if 2 < badDies s bed then adviseReplace s 4 else s

/-- Queue an operation at a die, with BFC_SUSPEND_CFG as it stands (R298). -/
def dieQueue (s : State) (d : Nat) (op : DieOp) : State :=
  updDie s d fun x => { x with queue := x.queue ++ [{ op with cfg := regAt s Reg.BFC_SUSPEND_CFG.prog_max.addr 0 }] }

/-- An operation has ended or is given up: it leaves its die. -/
def dieDone (s : State) (d : Nat) (kind : Fin 3) (id : Nat) : State :=
  let is (op : DieOp) : Bool := op.kind = kind && op.id = id
  updDie s d fun x => { x with
    queue := x.queue.filter fun op => !is op
    busy := match x.busy with
      | some op => if is op then none else some op
      | none => none
    held := match x.held with
      | some op => if is op then none else some op
      | none => none }

/-- Source number of a channel's events (R532): the first of its four; the second is the ladder's (R285). -/
def channelSource (ch : Nat) : Nat := 768 + ch * 4

/-! ### Derived keys (R433 to R435) -/

/-- The plot's XTS key is derived into its slot. -/
def deriveXts (s : State) (p : Nat) : State :=
  incF { s with cku.xtsSlots := sput false s.cku.xtsSlots p true } Reg.CKU_KEY_CACHE.kdf_runs

/-- A grain or metadata key is used: a hit becomes the most recently used; a miss is counted and derived, and the least
recently used of 4,096 keys goes. Plot 4,095 stands for keys of no plot. -/
def useGrainKey (s : State) (plot bed stratum : Nat) : State :=
  let k := (plot, bed, stratum, (stratumAt s bed stratum).gen)
  if s.cku.gcmCache.contains k then { s with cku.gcmCache := k :: s.cku.gcmCache.erase k }
  else incF (incF { s with cku.gcmCache := (k :: s.cku.gcmCache).take 4096 } Reg.CKU_KEY_CACHE.gcm_misses) Reg.CKU_KEY_CACHE.kdf_runs

/-- The key of a clod's grains in a stratum. -/
def useClodKey (s : State) (clod bed stratum : Nat) : State := useGrainKey s ((plotOfClod s clod).getD 0xFFF) bed stratum

/-! ### GCM pairs (R16, R445) -/

/-- A GCM pair is in service. -/
def gcmIn (s : State) (pair : Nat) : Bool := getF s Reg.CKU_GCM_STS.in_service / 2 ^ pair % 2 = 1

/-- The role a pair acts in: codes 6 and 7 act as 0, a spare (R456). -/
def gcmRole (s : State) (pair : Nat) : Nat :=
  let r := getFi s Reg.CKU_GCM_ROLE.role pair
  if r < 6 then r else 0

/-- A pair acts in the Bedrock role: while a kiln flush runs, pairs 6 to 21 do too (R445). -/
def gcmBedrock (s : State) (pair : Nat) : Bool := decide (gcmRole s pair = 1) || (flushing s && decide (6 ≤ pair) && decide (pair ≤ 21))

/-- A grain's job is assigned to a pair of the Bedrock role, with its epoch. DESIGN CHOICE: the first such pair in service. -/
def gcmAssign (s : State) : Option (Nat × Nat) :=
  ((List.range 24).find? fun p => gcmIn s p && gcmBedrock s p).map fun p => (p, getFi s Reg.CKU_GCM_EPOCH.epoch p)

/-- A job reaches its pair: under an old epoch it is rejected with STALE_EPOCH and issued again to a pair that holds the role. -/
def gcmSubmit (s : State) (job : Option (Nat × Nat)) : State :=
  match job with
  | some (p, e) => if getFi s Reg.CKU_GCM_EPOCH.epoch p = e then s else setFlag s Reg.CKU_ERR.stale_assign
  | none => s

/-! ### Grain reads (R278 to R281) -/

/-- Find a grain read. -/
def findRead (s : State) (id : Nat) : Option GrainRead := s.bfc.reads.find? fun r => r.id = id

/-- Change a grain read. -/
def updRead (s : State) (id : Nat) (f : GrainRead → GrainRead) : State :=
  { s with bfc.reads := s.bfc.reads.map fun r => if r.id = id then f r else r }

/-- Accept a read: it takes a number, counts against its stratum (R292), and, if its die reads, queues there. -/
def pushRead (s : State) (r : GrainRead) (rank : Nat) : State :=
  let id := s.bfc.nextRead
  let r := { r with
    id := id
    acceptedAt := s.devTime
    hedgeCfg := regAt s Reg.BFC_HEDGE_CFG.hedge_x4.addr 0
    refreshCfg := regAt s Reg.BFC_REFRESH_CFG.refresh_bits.addr 0
    job := if r.purpose = .wanted then gcmAssign s else none }
  let s := { s with bfc.reads := s.bfc.reads ++ [r], bfc.nextRead := id + 1 }
  let s := updStratum s r.bed r.stratum fun x => { x with reading := x.reading + 1 }
  let s := if r.purpose = .wanted then useClodKey s r.clod r.bed r.stratum else s
  if r.direct then dieQueue s r.die { rank := rank, kind := 0, id := id, startedAt := s.devTime } else s

/-- A read's record ends. -/
def dropRead (s : State) (id : Nat) : State :=
  match findRead s id with
  | none => s
  | some r =>
    let s := updStratum s r.bed r.stratum fun x => { x with reading := x.reading - 1 }
    let s := dieDone s r.die 0 id
    { s with bfc.reads := s.bfc.reads.filter fun x => x.id ≠ id }

/-- The other positions of a read's row whose dies can be sources of a rebuild (R280, R281). -/
def rebuildSources (s : State) (r : GrainRead) : List Nat :=
  let others := (List.range 24).filter fun p => p ≠ r.pos
  let good := others.filter fun p => dieReads s (dieAtPos s r.bed r.stratum r.row p)
  if 20 ≤ good.length then good else others.filter fun p => dieLastSource s (dieAtPos s r.bed r.stratum r.row p)

/-- Read the other grains of a row at rank 2 to rebuild one grain (R280). With fewer than 20 sources the rebuild
stands with none outstanding, and has failed. -/
def startRebuild (s : State) (id : Nat) : State :=
  match findRead s id with
  | none => s
  | some r =>
    if r.rebuild.isSome then s
    else
      let srcs := rebuildSources s r
      if srcs.length < 20 then updRead s id fun r => { r with rebuild := some { left := [], good := 0 } }
      else
        let first := s.bfc.nextRead
        let s := srcs.foldl (fun s p =>
          pushRead s { id := 0, purpose := .source id false, clod := r.clod, grain := r.grain, bed := r.bed, stratum := r.stratum,
                       row := r.row, pos := p, die := dieAtPos s r.bed r.stratum r.row p, slc := r.slc } 2) s
        updRead s id fun r => { r with rebuild := some { left := (List.range srcs.length).map (first + ·), good := 0 } }

/-- The read of a clod's grain that is under way, if any (R278). -/
def grainReadOf (s : State) (clod grain : Nat) : Option GrainRead :=
  s.bfc.reads.find? fun r => r.purpose = .wanted && r.clod = clod && r.grain = grain

/-- Read a grain of a clod's base for a user or a lift: join the read under way, or start one (R278). A die out of
use for reads sends the read straight to reconstruction (R281). -/
def wantGrain (s : State) (clod grain : Nat) (users : List FillUser) (lift urgent : Bool) : State :=
  match grainReadOf s clod grain with
  | some r => updRead s r.id fun r => { r with users := r.users ++ users, lift := r.lift || lift }
  | none =>
    let e := entryOf s clod
    let (row, pos) := grainPlace e.row e.grain grain
    let d := dieAtPos s e.bed.val e.stratum row pos
    let direct := dieReads s d
    let id := s.bfc.nextRead
    let s := pushRead s { id := 0, purpose := .wanted, clod := clod, grain := grain, bed := e.bed.val, stratum := e.stratum, row := row,
                          pos := pos, die := d, slc := (stratumAt s e.bed.val e.stratum).slc, users := users, lift := lift,
                          direct := direct } (if urgent then 2 else 3)
    if direct then s else startRebuild s id

/-! ### Strata (R268, R292, R293, R295) -/

/-- A settle's rows in a stratum are sealed and its commit waits for the journal (R318, R559). -/
def commitsDue (s : State) (bed k : Nat) : Bool :=
  (s.glb.packing ++ s.glb.journalUnits.flatMap (·.2)).any fun r =>
    match r.change with
    | .settled _ loc => loc.bed = bed && loc.stratum = k
    | _ => false

/-- A stratum with no live grain that is SEALED, and gets none from a settle about to commit, becomes STALE (R268, R318). -/
def checkStale (s : State) (bed k : Nat) : State :=
  let x := stratumAt s bed k
  if x.state = .sealed && x.live = 0 && !commitsDue s bed k then updStratum s bed k fun x => { x with state := .stale } else s

/-- Live grains leave a stratum. -/
def loseLive (s : State) (bed k n : Nat) : State :=
  checkStale (updStratum s bed k fun x => { x with live := x.live - n }) bed k

/-- The base of a clod no longer counts. -/
def loseBase (s : State) (e : Entry) : State := if e.hasBase then loseLive s e.bed.val e.stratum 16 else s

/-- Data strata of a bed. -/
def dataStrata (s : State) : Nat := strataPerBed s - kilnPerBed s - metaPerBed s

/-- Strata of a bed that are listed and used for data. -/
def usedData (s : State) (bed : Nat) : List (Nat × Stratum) :=
  ((usedStrata s).filter fun e => e.1 = bed && stratumUse s e.2.1 = .data).map fun e => e.2

/-- ERASED data strata of a bed. -/
def erasedData (s : State) (bed : Nat) : Nat := dataStrata s - ((usedData s bed).filter fun e => e.2.state ≠ .erased).length

/-- Data strata of a bed that are not RETIRED. -/
def liveData (s : State) (bed : Nat) : Nat := dataStrata s - ((usedData s bed).filter fun e => e.2.state = .retired).length

/-- The ERASED stratum of lowest erase count among a use's strata, the lowest number first (R295). -/
def chooseErased (s : State) (bed : Nat) (use : StratumUse) : Option Nat :=
  let (lo, hi) := match use with
    | .kiln => (0, kilnPerBed s)
    | .metadata => (kilnPerBed s, kilnPerBed s + metaPerBed s)
    | .data => (kilnPerBed s + metaPerBed s, strataPerBed s)
  let fresh := ((List.range (s.bfc.strata.length + 1)).map fun i => stratumNo s (lo + i)).find? fun k =>
    decide (stratumOrd s k < hi) && (slook s.bfc.strata (stratumKey bed k)).isNone
  let erased := (usedStrata s).filter fun e =>
    e.1 = bed && stratumUse s e.2.1 = use && e.2.2.state = .erased && !e.2.2.erasing
  match fresh with
  | some k =>
    match erased.find? fun e => e.2.2.eraseCount = 0 && decide (e.2.1 < k) with
    | some e => some e.2.1
    | none => some k
  | none =>
    (erased.foldl (fun (best : Option (Nat × Nat)) e =>
      match best with
      | some b => if e.2.2.eraseCount < b.2 then some (e.2.1, e.2.2.eraseCount) else best
      | none => some (e.2.1, e.2.2.eraseCount)) none).map (·.1)

/-- Open a stratum (R266, R268, R271). -/
def openStratum (s : State) (bed k : Nat) (slc : Bool) : State :=
  updStratum s bed k fun x => { x with state := .open_, slc := slc, gen := x.gen + 1, nextUnit := 0, sealedRows := 0, live := 0, sealTime := 0 }

/-- Media time: a 64-bit count (R267). -/
def mediaTime (s : State) : Nat :=
  (s.devTime + (regAt s Reg.BFC_MEDIA_OFS_LO.ofs_lo.addr 0).toNat + (regAt s Reg.BFC_MEDIA_OFS_HI.ofs_hi.addr 0).toNat * 4294967296) % 2 ^ 64

/-- Seal an open stratum: its last unit is in, or it is closed early (R268, R293). -/
def sealStratum (s : State) (bed k : Nat) : State :=
  checkStale (updStratum s bed k fun x => if x.state = .open_ then { x with state := .sealed } else x) bed k

/-! ### Capacity and spares (R273, R294) -/

/-- Data capacity of the data strata that are not RETIRED, in KiB. -/
def dataKib (s : State) : Nat := (liveData s 0 + liveData s 1 + liveData s 2 + liveData s 3) * s.bfc.rowsTlc * 80

/-- Host-addressable capacity in granules; it never falls below the admitted sizes (R273). -/
def bedrockAvail (s : State) : Nat :=
  max (min (dataKib s * (100 - min 50 (getF s Reg.BFC_LAYOUT2.op_pct)) / 100 / 262144) 1048576) (sumOver (·.size) (admitted s))

/-- Spare capacity in per cent of the data capacity (R273). -/
def sparePct (s : State) : Nat :=
  if dataKib s = 0 then 0 else min 100 ((dataKib s - getF s Reg.TMG_BEDROCK_AVAIL.avail * 262144) * 100 / dataKib s)

/-- Work the capacity figures out again; spare capacity below 3 % advises replacement (R273, R294). -/
def recountBedrock (s : State) : State :=
  let s := setF s Reg.TMG_BEDROCK_AVAIL.avail (bedrockAvail s)
  if dataKib s ≠ 0 && sparePct s < 3 then adviseReplace (setFlag s Reg.BFC_ERR.spare_low) 3 else s

/-- Spare block pairs of a channel (R262). -/
def sparesOf (s : State) : Nat := (getF s Reg.BFC_POP.block_pairs - strataPerDie s) * diesPerChannel s

/-- The next unused spare of a channel, on a die that has not failed (R282, R293). Spare n lies on die index n mod dies; unused spares have
never been erased, so the first has the lowest count. -/
def nextSpare (s : State) (ch : Nat) : Option Nat :=
  ((List.range (diesPerChannel s)).map ((bchan s ch).sparesUsed + ·)).find? fun n =>
    n < sparesOf s && (dieAt s (ch * 16 + n % diesPerChannel s)).state ≠ 2

/-- Retire a stratum's block pair on a channel: a spare replaces it, or the stratum is RETIRED (R293). -/
def replacePair (s : State) (bed k ch : Nat) : State :=
  let s := raise (setFlag s Reg.BFC_ERR.bad_block) (channelSource ch) .badBlock 0xFFF [ch, k]
  let kept := (bchan s ch).remap.filter fun r => r.1 ≠ k
  match (if kept.length < 4096 then nextSpare s ch else none) with
  | some n => updChan s ch fun c => { c with remap := kept ++ [(k, n, 0)], sparesUsed := n + 1 }
  | none => recountBedrock (updStratum s bed k fun x => { x with state := .retired, relocate := false, erasing := false })

/-- Replace a stratum's block pairs that lie on failed dies: they count as bad (R282, R293). -/
def replaceFailed (s : State) (bed k : Nat) : State :=
  if badDies s bed = 0 then s
  else ((List.range 24).map (bed * 24 + ·)).foldl (fun s ch =>
    if (dieAt s (ch * 16 + dieIndex s ch k)).state = 2 && (stratumAt s bed k).state ≠ .retired then replacePair s bed k ch else s) s

/-- Take an ERASED stratum for a use, its bad block pairs replaced; one that becomes RETIRED is passed over. -/
def takeErased (use : StratumUse) (bed : Nat) : Nat → State → Option (Nat × State)
  | 0, _ => none
  | n + 1, s =>
    match chooseErased s bed use with
    | none => none
    | some k =>
      let s := replaceFailed s bed k
      if (stratumAt s bed k).state = .retired then takeErased use bed n s else some (k, s)

/-- Is every kiln stratum ERASED (R274)? -/
def kilnReady (s : State) : Bool :=
  !((usedStrata s).any fun e => stratumUse s e.2.1 = .kiln && e.2.2.state ≠ .erased)

/-- Put every stratum that uses a die up for relocation; its block pair there counts as bad, and is replaced once the stratum is erased
(R282, R290, R293). -/
def relocateDie (s : State) (d : Nat) : State :=
  let ch := d / 16
  { s with bfc.strata := s.bfc.strata.map fun e =>
      if e.1 / 1048576 = ch / 24 && dieIndex s ch (e.1 % 1048576) = d % 16 && (e.2.state = .sealed || e.2.state = .open_ || e.2.state = .stale)
      then (e.1, { e.2 with
        relocate := e.2.state ≠ .stale
        badChannels := if e.2.badChannels.contains ch then e.2.badChannels else e.2.badChannels ++ [ch] })
      else e }

/-- A die fails (R282): served like a quarantined one, its block pairs bad, its strata up for relocation. -/
def failDie (s : State) (d : Nat) : State :=
  if (dieAt s d).state = 2 then s
  else
    let s := updDie s d fun x => { x with state := 2 }
    let s := raise (setFlag s Reg.BFC_ERR.die_failed) (channelSource (d / 16)) .dieFailed 0xFFF [d / 16, d % 16]
    checkBadDies (relocateDie s d) (d / 384)

end Sys2Proof.Machine
end

