-- ==== Sys2Proof/Machine/TmgOps.lean ====
section
/-! DEFINITION. TMG's movements (09): what a write takes, heat, lifts, eviction, settling, the wear governor's
figures, and the translation journal their commits are recorded in (R559). -/

namespace Sys2Proof.Machine

/-! ### The journal (R559) -/

/-- Pack a change into the journal; `after` completes when the record is sealed. -/
def packJournal (s : State) (change : JournalChange) (after : JournalThen) : State :=
  let r : JournalRec := { seq := s.glb.journalSeq, mediaTime := mediaTime s, change := change, after := after }
  { s with glb.packing := s.glb.packing ++ [r], glb.journalSeq := s.glb.journalSeq + 1 }

/-- The whole plot record a change of a plot journals: its fields and its valid access entries. -/
def plotChange (s : State) (p : Nat) : JournalChange :=
  .plot p (plotRec s p) (((List.range 64).map fun e => (e, aclWord s p e)).filter fun e => e.2 ≠ 0)

/-! ### Frames in use (R313) -/

/-- Reads that are being fetched from a clod and were ordered under its present entry. -/
def readsOf (s : State) (clod : Nat) : List Nat :=
  (s.pou.reads.filter fun r => clodOf r.line = clod && r.fetching).map (·.id)

/-- An engine reads what Loam holds of a clod: its frame, or its overlay's valid lines (R305). -/
def engineClod (s : State) (mid clod : Nat) : State :=
  let e := entryOf s clod
  if e.tier = 1 then engineFrame s mid false e.frame 0 32
  else if e.tier = 3 then engineLines s mid false e.frame (overlayOf s e.overlay).valid
  else s

/-- An engine cannot reach all that Loam holds of a clod now. -/
def clodHeld (s : State) (clod : Nat) : Bool :=
  let e := entryOf s clod
  (e.tier = 1 || e.tier = 3) && frameHeld s e.frame

/-- A frame leaves its clod and joins the free pool once the reads ordered against it have ended. -/
def drainFrame (s : State) (clod frame : Nat) : State :=
  { s with tmg.draining := s.tmg.draining ++ [(frame, readsOf s clod)] }

/-- Resident clods of a plot (R56). -/
def residents (s : State) (r : Plot) : Nat := (s.plots.entries.filter fun e => e.2.tier = 1 && plotHasClod r e.1).length

/-! ### What the ordering of a write takes (R300, R301) -/

/-- Change a clod's state for a write about to be ordered; none while it needs a frame or overlay and none is free. -/
def prepareWrite (s : State) (clod generation : Nat) : Option State :=
  let e := entryOf s clod
  match e.tier with
  | 0 =>
    match takeFrame s with
    | some (f, s) =>
      some (resourceCheck (setEntry (engineFrame (zeroFrame s f) 0x30E true f 0 32) clod { e with tier := 1, dirty := true, hasBase := false, frame := f }))
    | none => none
  | 1 => some (if e.dirty then s else setEntry s clod { e with dirty := true })
  | 2 =>
    match takeOverlay s clod generation with
    | some (i, s) =>
      some (resourceCheck (setEntry (zeroFrame s (overlayFrame s i)) clod { e with tier := 3, dirty := true, overlay := i, frame := overlayFrame s i }))
    | none => none
  | 3 => some s

/-- A write ordered while its clod settles sets its line's bit in the rewrite map (R317). -/
def markRewrite (s : State) (line : Nat) : State :=
  { s with tmg.settles := s.tmg.settles.map fun x =>
      if x.clod = clodOf line then
        { x with rewrite := x.rewrite ||| (1#1024 <<< lineIn line), rewriteAt := if x.rewriteAt = 0 then s.devTime + 1 else x.rewriteAt }
      else x }

/-! ### Heat (R308) -/

/-- A request that missed the front cache reaches the clod's translation: its heat rises, saturating at 255. -/
def bumpHeat (s : State) (clod : Nat) : State := updEntry s clod fun e => { e with heat := min (e.heat + 1) 255 }

/-! ### The settle queue (R314) -/

/-- A further request for a clod that is queued: the lower class stands; what the override takes up keeps what it was queued for. -/
def requeue (q : SettleReq) (cls : Nat) (reason : SettleReason) : SettleReq :=
  if q.reason = .override_ then
    if reason = .override_ then q
    else if cls = 0 then { q with reason := reason, before := none }
    else { q with before := match q.before with
      | some b => some (if cls < b.1 then (cls, reason) else b)
      | none => some (cls, reason) }
  else if cls < q.cls then
    { q with cls := cls, reason := reason, refused := false, before := if reason = .override_ then some (q.cls, q.reason) else none }
  else q

/-- Queue a clod for settling. -/
def queueSettle (s : State) (clod cls : Nat) (reason : SettleReason) : State :=
  if s.tmg.settles.any fun x => x.clod = clod && !x.dropped && reason ≠ .repair then s
  else if s.tmg.queue.any fun q => q.clod = clod then
    { s with tmg.queue := s.tmg.queue.map fun q => if q.clod = clod then requeue q cls reason else q }
  else { s with tmg.queue := s.tmg.queue ++ [{ clod := clod, cls := cls, reason := reason }] }

/-- Queue the live clods of every stratum put up for relocation (R290, R291). -/
def queueRelocations (s : State) : State :=
  let marked := (usedStrata s).filter fun e => e.2.2.relocate
  let clods := (s.plots.entries.filter fun e => e.2.hasBase && marked.any fun m => m.1 = e.2.bed.val && m.2.1 = e.2.stratum).map (·.1)
  clods.foldl (fun s c => queueSettle s c 0 .relocation) s

/-! ### Poison and bases (R423, R424, R427) -/

/-- Mark which poisoned lines of a clod lie only in its base: those for which `only` holds. -/
def markBase (s : State) (clod : Nat) (only : Nat → Bool) : State :=
  { s with diu.poison := s.diu.poison.map fun e =>
      if clodOf e.1 = clod then (e.1, { e.2 with base := only (lineIn e.1) }) else e }

/-- A settle that took a line without poison removes the entry the line's base still had (R424). -/
def settlePoison (s : State) (clod : Nat) (image : ClodImage) : State :=
  { s with diu.poison := s.diu.poison.filter fun e =>
      !(clodOf e.1 = clod && e.2.base && !(sget zeroLine image (lineIn e.1)).poison) }

/-- A clod holds a poisoned line that the full list has no entry for: it is neither settled nor evicted (R427). -/
def unlistedPoison (s : State) (clod : Nat) : Bool :=
  let e := entryOf s clod
  flag s Reg.DIU_POISON_STS.overflow &&
    (s.lmc.lines.any fun l => l.2.poison && l.1 / 1024 = e.frame && (poisonEntry s (clod * 1024 + l.1 % 1024)).isNone)

/-! ### The migration lock (R323) -/

/-- Take a clod's lock for an engine. -/
def lockClod (s : State) (clod engine : Nat) : State :=
  updEntry s clod fun e => { e with lock := some (Fin.ofNat 16 engine) }

/-- Release it. -/
def unlockClod (s : State) (clod : Nat) : State := updEntry s clod fun e => { e with lock := none }

/-- The first engine of a run that has room and is in service (R369). -/
def freeEngine (s : State) (base count cap : Nat) (inFlight : Nat → Nat) : Option Nat :=
  ((List.range count).map (base + ·)).find? fun e => inFlight e < cap && !s.twin.engineOut.contains e

/-! ### Lift (R309, R310, R324) -/

/-- Lifts in flight on an engine. -/
def liftsOn (s : State) (engine : Nat) : Nat := (s.tmg.lifts.filter fun l => l.engine = engine).length

/-- A frame counts as free for a lift by this trigger (R309). -/
def liftFrame (s : State) (r : Plot) (t : LiftTrigger) : Bool :=
  match t with
  | .hint | .pin => decide (0 < freeFrames s)
  | .read | .overlay => decide (residents s r < r.floor * 4096) || decide (max 1 (getF s Reg.TMG_FRAME_CFG.frame_low) * 4096 < freeFrames s)

/-- Outcome of asking for a lift. -/
inductive LiftAsk where
  /-- started, joined, or waiting for a settle's commit -/
  | taken
  /-- no frame, or no engine -/
  | noFrame
  /-- nothing to lift -/
  | resident
  deriving DecidableEq, Repr

/-- Ask for a clod's lift (R309): a lift in flight is joined; one in a settle waits for the commit (R324). A shallow plot's clod is lifted
too where a restart left it in Bedrock (R37). -/
def askLift (s : State) (clod : Nat) (t : LiftTrigger) : LiftAsk × State :=
  let e := entryOf s clod
  match plotOfClod s clod with
  | none => (.resident, s)
  | some p =>
    let r := plotRec s p
    if e.crcBad || (e.tier ≠ 2 && e.tier ≠ 3) then (.resident, s)
    else if s.tmg.lifts.any fun l => l.clod = clod then (.taken, s)
    else if e.lock.isSome then
      (.taken, if s.tmg.liftWaits.any fun w => w.1 = clod then s else { s with tmg.liftWaits := s.tmg.liftWaits ++ [(clod, t)] })
    else if !liftFrame s r t then (.noFrame, s)
    else
      match freeEngine s 0x300 8 32 (liftsOn s) with
      | none => (.noFrame, s)
      | some eng =>
        match takeFrame s with
        | none => (.noFrame, s)
        | some (f, s) =>
          let s := lockClod (resourceCheck s) clod eng
          let s := { s with tmg.lifts := s.tmg.lifts ++ [{ clod := clod, engine := eng, frame := f, trigger := t }] }
          (.taken, (List.range 16).foldl (fun s g => wantGrain s clod g [] true false) s)

/-- A lift by an overlay's density; without a free frame the clod is settled instead (R309, R314). DESIGN CHOICE (log entry 49): in class 3,
that of overlay retirement. -/
def densityLifts (s : State) : State :=
  s.tmg.density.foldl (fun s clod =>
    match askLift s clod .overlay with
    | (.noFrame, s) => queueSettle s clod 3 .overlays
    | (_, s) => s) { s with tmg.density := [] }

/-- Hints and pins that wait for a frame try again, and lifts whose clod's settle has ended (R309, R324). -/
def retryLifts (s : State) : State :=
  let free := s.tmg.liftWaits.filter fun w => (entryOf s w.1).lock.isNone
  let s := free.foldl (fun s w => (askLift { s with tmg.liftWaits := s.tmg.liftWaits.erase w } w.1 w.2).2) s
  let s := s.tmg.pinWaits.foldl (fun s clod =>
    match askLift s clod .pin with
    | (.noFrame, s) => { s with tmg.pinWaits := s.tmg.pinWaits ++ [clod] }
    | (_, s) => s) { s with tmg.pinWaits := [] }
  s.tmg.liftHints.foldl (fun s clod =>
    match askLift s clod .hint with
    | (.noFrame, s) => { s with tmg.liftHints := s.tmg.liftHints ++ [clod] }
    | (_, s) => s) { s with tmg.liftHints := [] }

/-- Fill a frame with a clod's lines. -/
def fillFrame (s : State) (frame : Nat) (line : Nat → LineVal) : State :=
  (List.range 1024).foldl (fun s i => setLoam s (lpaOf frame i) (line i)) (zeroFrame s frame)

/-- A clod's line below the front cache, with the base's contents taken from `image` when the partner supplied them:
overlay lines are copied, the others come from the base (R286, R310). -/
def mergedLine (s : State) (clod : Nat) (image : Option ClodImage) (i : Nat) : LineVal :=
  match placeOf s (clod * 1024 + i) with
  | .loam lpa => loamAt s lpa
  | _ =>
    match image with
    | some im => sget zeroLine im i
    | none => tierLine s (clod * 1024 + i)

/-- Put every waiting write-back of a clod's held or unissued victim lines into its frame (R46, R300). -/
def issueVictims (s : State) (clod : Nat) : State :=
  s.fcd.victims.foldl (fun s v =>
    if clodOf v.line = clod && v.write.isNone && !v.held then issueVictim s v else s) s

/-- The overlay of an entry leaves its clod (R310 step 5, R318). -/
def dropOverlay (s : State) (clod : Nat) (e : Entry) : State :=
  if e.tier = 3 then
    let s := drainFrame s clod (overlayFrame s e.overlay)
    { s with tmg.overlayCache := s.tmg.overlayCache.erase e.overlay }
  else s

/-- Poison that came with a fetched clod is entered with source 1 (R422, R423). -/
def imagePoison (s : State) (clod : Nat) (image : ClodImage) : State :=
  image.foldl (fun s e =>
    let line := clod * 1024 + e.1 % 1024
    if e.2.poison && (poisonEntry s line).isNone then enterPoison s line 1 false else s) s

/-- Make a clod Resident, new, from the partner's copy, in a frame (R286, R326): its 16 grains are charged and it is
queued for settling at class 0; the old base is dead. Nothing that only a lost entry places is used: the cached lines and the copy alone make
the new frame (R46). DESIGN CHOICE: the entry written anew keeps the pins and the heat that the lost one showed. -/
def commitFetched (s : State) (clod frame : Nat) (image : ClodImage) : State :=
  let e := entryOf s clod
  let local_ (s : State) (i : Nat) : Option LineVal :=
    if e.crcBad then cachedLine s (clod * 1024 + i)
    else match placeOf s (clod * 1024 + i) with
      | .loam lpa => some (loamAt s lpa)
      | _ => none
  let from_ := image.filter fun x => (local_ s (x.1 % 1024)).isNone
  let s := fillFrame s frame fun i => (local_ s i).getD (sget zeroLine image i)
  let s := dropOverlay (if e.crcBad then s else loseBase s e) clod e
  let s := setEntry s clod { e with tier := 1, dirty := true, hasBase := false, frame := frame, overlay := 0, lock := none, crcBad := false }
  let s := imagePoison (markBase s clod fun _ => false) clod from_
  let s := issueVictims (chargeClod s clod) clod
  queueSettle s clod 0 .repair

/-! ### Eviction (R312, R313) -/

/-- May a clod's frame be given up (R312)? -/
def evictableClod (s : State) (clod : Nat) : Bool :=
  let e := entryOf s clod
  match plotOfClod s clod with
  | none => false
  | some p =>
    let r := plotRec s p
    e.tier = 1 && e.pins.val = 0 && !s.tmg.liftHolds.contains clod && e.lock.isNone && !e.crcBad && r.deep && plotOpen r &&
      decide (r.floor * 4096 < residents s r) && !unlistedPoison s clod

/-- Evict a Resident, clean clod: one entry change, and the frame drains (R313). -/
def evictClod (s : State) (clod : Nat) : State :=
  let e := entryOf s clod
  let s := drainFrame s clod e.frame
  let s := setEntry s clod { e with tier := 2, frame := 0 }
  incF (markBase s clod fun _ => true) Reg.TMG_EVICT_CNT.evictions

/-- Plots that hold borrowed frames: residents above their floors (R56). -/
def borrows (s : State) (clod : Nat) : Bool :=
  match plotOfClod s clod with
  | some p => decide ((plotRec s p).floor * 4096 < residents s (plotRec s p))
  | none => false

/-- The coldest clod of a list of entries; of equals, the first in clod order. -/
def coldest : List (Nat × Entry) → Option (Nat × Entry)
  | [] => none
  | e :: t =>
    match coldest t with
    | some b => if b.2.heat < e.2.heat then some b else some e
    | none => some e

/-! ### Settling (R315 to R318) -/

/-- The first whole unit a bed's open strata still lack for a purpose: a unit being filled, or a new one. -/
def fillingUnit (s : State) (bed : Nat) (slc : Bool) (purpose : Fin 3) : Option ProgUnit :=
  s.bfc.units.find? fun u => u.bed = bed && u.slc = slc && u.purpose = purpose && !u.started && u.slots.length < unitSlots slc

/-- Open strata of a bed for a purpose and mode that still have units to give. -/
def openFor (s : State) (bed : Nat) (slc : Bool) (purpose : Fin 3) : List Nat :=
  ((usedStrata s).filter fun e =>
    e.1 = bed && e.2.2.state = .open_ && e.2.2.slc = slc && e.2.2.purpose = purpose && stratumUse s e.2.1 ≠ .kiln &&
      decide (e.2.2.nextUnit < unitsOf s slc) && e.2.2.badChannels.isEmpty).map (·.2.1)

/-- Make the next program unit of a stratum. -/
def newUnit (s : State) (bed k : Nat) (slc : Bool) (purpose : Fin 3) : Nat × State :=
  let id := s.bfc.nextUnit
  let u : ProgUnit := { id := id, bed := bed, stratum := k, number := (stratumAt s bed k).nextUnit, slc := slc, purpose := purpose,
                        slots := [], segments := [], started := false }
  let s := { s with bfc.units := s.bfc.units ++ [u], bfc.nextUnit := id + 1 }
  (id, updStratum s bed k fun x => { x with nextUnit := x.nextUnit + 1 })

/-- Does a stratum have a unit that is being programmed? -/
def programming (s : State) (bed k : Nat) : Bool := s.bfc.units.any fun u => u.bed = bed && u.stratum = k && u.started

/-- An ERASED data stratum on a die index no open stratum of the bed uses, for burst settling (R315). -/
def chooseFurther (s : State) (bed : Nat) : Option Nat :=
  let usedDies := ((usedStrata s).filter fun e => e.1 = bed && e.2.2.state = .open_).map fun e => e.2.1 % 16
  let lo := kilnPerBed s + metaPerBed s
  ((List.range (s.bfc.strata.length + 17)).map fun i => stratumNo s (lo + i)).find? fun k =>
    decide (stratumOrd s k < strataPerBed s) && (stratumAt s bed k).state = .erased && !(stratumAt s bed k).erasing && !usedDies.contains (k % 16)

/-- A program unit of a bed with room for one more clod (R315): the one being filled, the next of an open stratum, or
the first of a new one. `burst` lets a further stratum be opened while the open ones are being programmed. -/
def unitFor (s : State) (bed : Nat) (slc : Bool) (purpose : Fin 3) (burst : Bool) : Option (Nat × State) :=
  match fillingUnit s bed slc purpose with
  | some u => some (u.id, s)
  | none =>
    let opens := openFor s bed slc purpose
    let fresh (s : State) (k : Nat) : Option (Nat × State) :=
      some (newUnit (updStratum (openStratum s bed k slc) bed k fun x => { x with purpose := purpose }) bed k slc purpose)
    let taken : Option (Nat × State) :=
      (takeErased (if purpose = 2 then .metadata else .data) bed 64 s).bind fun t => fresh t.2 t.1
    match opens.find? fun k => !programming s bed k with
    | some k => some (newUnit s bed k slc purpose)
    | none =>
      match (if burst && opens.length < diesPerChannel s then chooseFurther s bed else none) with
      | some k =>
        let t := replaceFailed s bed k
        if (stratumAt t bed k).state = .retired then taken else fresh t k
      | none =>
        match opens with
        | k :: _ => some (newUnit s bed k slc purpose)
        | [] => taken

/-- Find a program unit. -/
def findUnit (s : State) (id : Nat) : Option ProgUnit := s.bfc.units.find? fun u => u.id = id

/-- Change a program unit. -/
def updUnit (s : State) (id : Nat) (f : ProgUnit → ProgUnit) : State :=
  { s with bfc.units := s.bfc.units.map fun u => if u.id = id then f u else u }

/-- The dies that program a unit, one of each of the bed's 24 channels (R263). -/
def unitDies (s : State) (u : ProgUnit) : List Nat :=
  (List.range 24).map fun c => (u.bed * 24 + c) * 16 + dieIndex s (u.bed * 24 + c) u.stratum

/-- Hand a unit to the sequencers: a program at rank 4, below erases on a quarantined die (R276, R281). -/
def startUnit (s : State) (id : Nat) : State :=
  match findUnit s id with
  | none => s
  | some u =>
    if u.started then s
    else
      let s := updUnit s id fun u => { u with started := true, job := gcmAssign s }
      let s :=
        if u.purpose = 2 then useGrainKey s 0xFFF u.bed u.stratum
        else u.slots.foldl (fun s x => useClodKey s x.clod u.bed u.stratum) s
      (unitDies s u).foldl (fun s d =>
        dieQueue s d { rank := if (dieAt s d).state = 1 then 7 else 4, kind := 1, id := id, startedAt := s.devTime }) s

/-- Stage a clod in a unit; a full unit is programmed (R315). -/
def stageClod (s : State) (unit : Nat) (slot : UnitSlot) : State :=
  let s := updUnit s unit fun u => { u with slots := u.slots ++ [slot] }
  match findUnit s unit with
  | some u => if unitSlots u.slc ≤ u.slots.length then startUnit s unit else s
  | none => s

/-- A channel of a bed is lost: the bed opens no new strata (R260). -/
def bedLost (s : State) (bed : Nat) : Bool := (List.range 24).any fun c => (bchan s (bed * 24 + c)).lost

/-- A bed settles may go to: no lost channel and an ERASED data stratum, or an open one with room (R315). -/
def bedTakes (s : State) (bed : Nat) : Bool := !bedLost s bed && decide (0 < erasedData s bed)

/-- The next bed in turn; a skipped bed sets no_erased (R315). -/
def nextBed (s : State) : Option (Nat × State) :=
  let order := (List.range 4).map fun i => (s.tmg.nextBed + i) % 4
  match order.find? (bedTakes s) with
  | none => none
  | some b =>
    let s := if b = s.tmg.nextBed then s else setFlag s Reg.TMG_MIG_ERR.no_erased
    some (b, { s with tmg.nextBed := (b + 1) % 4 })

/-- pSLC data strata of a bed that are not ERASED (R316). -/
def slcStrata (s : State) (bed : Nat) : Nat :=
  ((usedData s bed).filter fun e => e.2.slc && (e.2.state = .open_ || e.2.state = .sealed || e.2.state = .stale)).length

/-- A clod is warm enough for pSLC: settled for eviction, or tilled out of a pSLC stratum (R316). -/
def warmForSlc (s : State) (clod : Nat) (reason : SettleReason) : Bool :=
  let e := entryOf s clod
  let hot := getF s Reg.TMG_SETTLE_CFG.pslc_heat
  match reason with
  | .eviction => decide (hot ≤ e.heat)
  | .tilling => (stratumAt s e.bed.val e.stratum).slc && decide (hot / 4 ≤ e.heat)
  | _ => false

/-- Does a clod go to pSLC (R316)? -/
def goesSlc (s : State) (bed clod : Nat) (reason : SettleReason) : Bool :=
  warmForSlc s clod reason &&
    decide (slcStrata s bed * 100 < min 10 (getF s Reg.TMG_SETTLE_CFG.pslc_pct) * liveData s bed)

/-- Settles in flight on an engine. -/
def settlesOn (s : State) (engine : Nat) : Nat := (s.tmg.settles.filter fun x => x.engine = engine).length

/-- A settle by tilling or relocation (R323). -/
def moves (r : SettleReason) : Bool := r = .relocation || r = .tilling

/-- The clod as a settle reads it, after its front-cache lines were flushed: its nonzero or poisoned lines; a
poisoned one is staged as zeros under its mark (R317, R423). -/
def clodImage (s : State) (clod : Nat) : ClodImage :=
  (List.range 1024).filterMap fun i =>
    let v := tierLine s (clod * 1024 + i)
    if v = zeroLine then none else some (i, if v.poison then poisonLine else v)

/-- The lines of a clod with a write ordered and not yet applied: a settle's snapshot does not hold it, and the clod's charge for it stays
(R162, R175). -/
def unappliedLines (s : State) (clod : Nat) : BitVec 1024 :=
  (s.pou.writes.filter fun w => clodOf w.line = clod && (w.stage = .merging || w.stage = .unapplied)).foldl
    (fun m w => m ||| (1#1024 <<< lineIn w.line)) 0

/-- Start a granted settle (R317): lock, flush, read, stage. None: it cannot start now. -/
def startSettle (s : State) (q : SettleReq) : Option State :=
  let e := entryOf s q.clod
  let engines := if moves q.reason then freeEngine s 0x30C 2 64 (settlesOn s) else freeEngine s 0x308 4 64 (settlesOn s)
  if e.lock.isSome || e.crcBad || unlistedPoison s q.clod || clodHeld s q.clod then none
  else
    match engines, (if q.reason = .tilling && !bedLost s e.bed.val then some (e.bed.val, s) else nextBed s) with
    | some eng, some (bed, s) =>
      let slc := goesSlc s bed q.clod q.reason
      match unitFor s bed slc (if moves q.reason && !slc then 1 else 0) (decide (q.cls < 4) && !slc && !moves q.reason) with
      | none => none
      | some (u, s) =>
        let s := engineClod (flushClod (lockClod s q.clod eng) q.clod eng) eng q.clod
        let rewrite := unappliedLines s q.clod
        let generation := match plotOfClod s q.clod with
          | some p => (plotRec s p).generation
          | none => 0
        let image := clodImage s q.clod
        let slot := match findUnit s u with
          | some x => x.slots.length
          | none => 0
        let s := { s with tmg.settles := s.tmg.settles ++
          [{ clod := q.clod, engine := eng, reason := q.reason, rewrite := rewrite, rewriteAt := if rewrite = 0 then 0 else s.devTime + 1,
             image := image, generation := generation, unit := u, slot := slot }] }
        some (stageClod s u { clod := q.clod, generation := generation, image := image })
    | _, _ => none

/-- Where a slot of a unit lies (R264). -/
def slotLoc (u : ProgUnit) (slot : Nat) : BaseLoc :=
  { bed := u.bed, stratum := u.stratum, row := u.number * unitRows u.slc + slot * 16 / 20, grain := slot * 16 % 20 }

/-- Grain g of a clod has a line in a map. -/
def grainMarked (m : BitVec 1024) (g : Nat) : Bool := (m.extractLsb' (64 * g) 64) ≠ 0

/-- The entry of a clod pointed at a base. -/
def withBase (e : Entry) (l : BaseLoc) : Entry :=
  { e with hasBase := true, bed := Fin.ofNat 4 l.bed, stratum := l.stratum, row := l.row, grain := l.grain }

/-- A settle commits: one entry change by the table of R318, charges released, the base's live grains moved. DEDUCED (log entry 50): of the
rewrite map's lines, those not yet written back get their valid bit with their write-back (R306); until then the front cache holds them. -/
def settleCommit (s : State) (x : Settle) (loc : BaseLoc) : State :=
  let e := entryOf s x.clod
  let s := loseBase s e
  let s := updStratum s loc.bed loc.stratum fun y => { y with live := y.live + 16 }
  let s := settlePoison s x.clod x.image
  let base := withBase { e with lock := none } loc
  let clean := x.rewrite = 0
  let s :=
    if e.tier = 3 && clean then
      markBase (setEntry (dropOverlay s x.clod e) x.clod { base with tier := 2, dirty := false, overlay := 0, frame := 0 }) x.clod fun _ => true
    else if e.tier = 3 then
      let s := setOverlay s e.overlay { overlayOf s e.overlay with valid := (overlayOf s e.overlay).valid &&& x.rewrite }
      markBase (setEntry s x.clod base) x.clod fun i => !x.rewrite.getLsbD i
    else setEntry s x.clod { base with dirty := !clean }
  let s := releaseGrains s x.clod fun g => !grainMarked x.rewrite g
  let s := { s with
    pou.dirtyAge := sput 0 s.pou.dirtyAge x.clod (if clean then 0 else x.rewriteAt)
    tmg.settles := s.tmg.settles.filter fun y => y.clod ≠ x.clod }
  let s := incF s Reg.TMG_SETTLE_CNT.settles
  let s := if x.reason = .tilling then incF s Reg.TMG_TILL_CNT.tilled else s
  let s :=
    if x.reason ≠ .eviction then s
    else if clean && evictableClod s x.clod then evictClod s x.clod
    else if !clean then incF s Reg.TMG_RACE_CNT.evict_cancel
    else s
  retryLifts s

/-! ### The wear governor (R320, R321) -/

/-- Bytes a settle programs. -/
def clodBytes : Nat := 65536

/-- Bytes of the trailing 24 hours. -/
def trailing (s : State) : Nat := sumOver' s.tmg.bins
where
  sumOver' : List (Nat × Nat) → Nat
    | [] => 0
    | e :: t => e.2 + sumOver' t

/-- Mean erase count of a bed's TLC data strata (R295). -/
def wearAvg (s : State) (bed : Nat) : Nat :=
  if dataStrata s = 0 then 0
  else ((usedData s bed).filter fun e => !e.2.slc).foldl (fun n e => n + e.2.eraseCount) 0 / dataStrata s

/-- Highest erase count of one. -/
def wearMax (s : State) (bed : Nat) : Nat := ((usedData s bed).filter fun e => !e.2.slc).foldl (fun n e => max n e.2.eraseCount) 0

/-- Days remaining of 20 years from the first start, by media time. -/
def daysLeft (s : State) : Nat := max 1 (7305 - mediaTime s / 86400000000000)

/-- A bed's daily wear allowance in MiB (R296). -/
def wearAllow (s : State) (bed : Nat) : Nat :=
  liveData s bed * s.bfc.rowsTlc * 80 / 1024 * (3000 - wearAvg s bed) / daysLeft s

/-- avg_mbps and burst_mbps as the present minute uses them (R328, R329). -/
def avgMbps (s : State) : Nat := max 1 (fieldOf s.tmg.govCfg 0 16)

/-- The burst bound in MB/s. -/
def burstMbps (s : State) : Nat := min 60000 (fieldOf s.tmg.govCfg 16 16)

/-- The daily allowance A in bytes (R320). -/
def dailyAllowance (s : State) : Nat :=
  min (avgMbps s * 1000000 * 86400)
    ((wearAllow s 0 + wearAllow s 1 + wearAllow s 2 + wearAllow s 3) * 1048576)

/-- Charge programmed TLC data bytes to the minute's bin. -/
def chargeWear (s : State) (bytes : Nat) : State := { s with tmg.bins := supd 0 s.tmg.bins s.tmg.minute (· + bytes) }

/-- Is a clod's work of a class granted now (R321)? -/
def granted (s : State) (cls : Nat) : Bool :=
  let a := dailyAllowance s
  let t := trailing s
  match cls with
  | 0 | 1 => true
  | 2 => decide (t + clodBytes ≤ a)
  | 3 => decide (t * 100 < a * 90)
  | _ => decide (t * 100 < a * 90) && decide (s.tmg.grantedSlow + clodBytes ≤ avgMbps s * 60000000)

/-- The burst bound: bytes granted in the present millisecond (R321). -/
def burstRoom (s : State) : Bool :=
  let used := if s.tmg.burstMs = s.devTime / 1000000 then s.tmg.burstBytes else 0
  decide (used + clodBytes ≤ burstMbps s * 1000)

/-- Count a grant. -/
def countGrant (s : State) (cls : Nat) : State :=
  let ms := s.devTime / 1000000
  { s with
    tmg.burstBytes := (if s.tmg.burstMs = ms then s.tmg.burstBytes else 0) + clodBytes
    tmg.burstMs := ms
    tmg.grantedSlow := if cls = 4 then s.tmg.grantedSlow + clodBytes else s.tmg.grantedSlow }

/-! ### Tilling (R319) -/

/-- ERASED share of a bed below a percentage of its data strata. -/
def erasedBelow (s : State) (bed pct : Nat) : Bool := decide (erasedData s bed * 100 < pct * dataStrata s)

/-- The SEALED data stratum with the smallest live share, if that is below till_pct. -/
def tillChoice (s : State) (bed : Nat) : Option Nat :=
  let share (x : Stratum) : Nat := x.live * 10000 / max 1 (rowsOf s x.slc * 20)
  let cands := (usedData s bed).filter fun e =>
    e.2.state = .sealed && decide (e.2.live * 100 < getF s Reg.TMG_TILL_CFG.till_pct * (rowsOf s e.2.slc * 20))
  (cands.foldl (fun (best : Option (Nat × Nat)) e =>
    match best with
    | some b => if share e.2 < b.2 then some (e.1, share e.2) else best
    | none => some (e.1, share e.2)) none).map (·.1)

/-- Till a bed whose ERASED share is low: queue the live clods of the sparsest stratum (R319). -/
def tillBed (s : State) (bed : Nat) : State :=
  let low := getF s Reg.TMG_TILL_CFG.free_low_pct
  let crit := min (getF s Reg.TMG_TILL_CFG.free_crit_pct) low
  if dataStrata s = 0 || !erasedBelow s bed low then s
  else
    match tillChoice s bed with
    | none => s
    | some k =>
      let cls := if erasedBelow s bed crit then 1 else 4
      let clods := (s.plots.entries.filter fun e => e.2.hasBase && e.2.bed.val = bed && e.2.stratum = k).map (·.1)
      clods.foldl (fun s c => queueSettle s c cls .tilling) s

/-- Till every bed that needs it. -/
def tillAll (s : State) : State := [0, 1, 2, 3].foldl tillBed s

/-! ### The end of movements (R325) -/

/-- Every migration of the clods that pass ends without commit: frames and overlays go free, locks are released, and
rows already programmed count no live grains. -/
def dropMigrations (s : State) (gone : Nat → Bool) : State :=
  let ended := s.tmg.lifts.filter fun l => gone l.clod
  let s := ended.foldl (fun s l => unlockClod { s with tmg.draining := s.tmg.draining ++ [(l.frame, [])] } l.clod) s
  let s := (s.tmg.settles.filter fun x => gone x.clod).foldl (fun s x => unlockClod s x.clod) s
  { s with
    tmg.lifts := s.tmg.lifts.filter fun l => !gone l.clod
    tmg.liftWaits := s.tmg.liftWaits.filter fun w => !gone w.1
    tmg.liftHints := s.tmg.liftHints.filter fun c => !gone c
    tmg.pinWaits := s.tmg.pinWaits.filter fun c => !gone c
    tmg.liftHolds := s.tmg.liftHolds.filter fun c => !gone c
    tmg.evictAfter := s.tmg.evictAfter.filter fun c => !gone c
    tmg.settleHints := s.tmg.settleHints.filter fun c => !gone c
    tmg.fetched := s.tmg.fetched.filter fun x => !gone x.1
    tmg.queue := s.tmg.queue.filter fun q => !gone q.clod
    tmg.settles := s.tmg.settles.filter fun x => !gone x.clod }

/-- Clear every entry of a range of clods to Unwritten; frames, overlays and live grains are given back (R42). -/
def clearEntries (s : State) (r : Plot) : State :=
  let mine := s.plots.entries.filter fun e => plotHasClod r e.1
  let s := mine.foldl (fun s e =>
    let s := loseBase s e.2
    let s := if e.2.tier = 1 then drainFrame s e.1 e.2.frame else s
    dropOverlay s e.1 e.2) s
  let s := mine.foldl (fun s e => setEntry s e.1 {}) s
  { s with pou.dirtyAge := s.pou.dirtyAge.filter fun e => !plotHasClod r e.1 }

end Sys2Proof.Machine
end

