-- ==== Sys2Proof/Machine/PouOps.lean ====
section
/-! DEFINITION. The POU (05): what a request passes through from acceptance to its answer, at the plot's home and at
the partner. `pump` moves every request as far as the present state lets it come. -/

namespace Sys2Proof.Machine

/-! ### Requests -/

/-- Does this controller mirror the writes it orders (R29; R373 step 3)? -/
def mirrorsWrites (s : State) : Bool := mirrored s || decide (twinMode s = 5)

/-- May this controller order a plot's requests now (R169, R345)? -/
def canOrder (s : State) (r : Plot) : Bool :=
  solo s || (decide (twinMode s = 1) && leaseValid s && isHome s r)

/-- Writes of a plot stand still: a digest dispute of its group (R366) or its takeback (R378). -/
def writesHeld (s : State) (plot : Nat) : Bool :=
  s.twin.disputes.any (fun d => d.group = groupOf plot) ||
    match s.twin.takeback with
    | some t => t.plots.contains plot
    | none => false

/-- Give a request a number. -/
def newId (s : State) : Nat × State := (s.pou.nextId, { s with pou.nextId := s.pou.nextId + 1 })

/-- The master a request records in the directory: of a ring operation its LD's, which it never adds as a holder (R24, R212); none for a
mailbox command. -/
def requesterOf (o : Origin) (mid : Nat) : Option Nat :=
  match o with
  | .host _ _ => some mid
  | .forwarded _ _ => some mid
  | .chain _ _ _ => some mid
  | .ring ld _ _ => some ld.val
  | .mailbox _ => none
  | .writeBack _ => none
  | .mirror => none

/-- Do requests to a plot go through the directory (R206)? -/
def coherent (r : Plot) : Bool := r.mode = .sharedCoherent

/-- Hold a write of a plot, to be ordered. -/
def holdWrite (s : State) (w : WriteRec) : State := { s with pou.writes := s.pou.writes ++ [w] }

/-- Accept a write (R157, R179): its number and the state. -/
def acceptWrite (s : State) (origin : Origin) (mid plot line : Nat) (data : Line) (be : ByteMask) (poison : Bool)
    (metaVal : MetaValue) : Nat × State :=
  let (id, s) := newId s
  let w : WriteRec := { id := id, origin := origin, mid := mid, plot := plot, line := line, data := if poison then 0 else data, be := be, poison := poison,
                        metaVal := metaVal, acceptedAt := s.devTime, dir := if coherent (plotRec s plot) then 0 else 2 }
  (id, holdWrite s w)

/-- A write comes from a holder that is being snooped for the line, and gives up what the snoop asks for: its write-back (R213). After a
BISnpData it may keep a shared copy. -/
def answersSnoop (s : State) (mid line : Nat) (metaVal : MetaValue) : Bool :=
  let target := if 0x100 ≤ mid ∧ mid < 0x200 then partnerTarget else mid
  s.fcd.snoops.any fun x => x.line = line && x.target = target && (metaVal = .invalid || (metaVal = .shared && !x.inv))

/-- Accept a write, or a snooped holder's write-back: that passes the directory at once, and a read that caused the
snoop takes its place in the order only after it (R213). -/
def acceptHostWrite (s : State) (origin : Origin) (mid plot line : Nat) (data : Line) (be : ByteMask) (poison : Bool)
    (metaVal : MetaValue) : Nat × State :=
  let back := answersSnoop s mid line metaVal
  let (id, s) := acceptWrite s origin mid plot line data be poison metaVal
  if !back then (id, s)
  else (id, { s with
    pou.writes := s.pou.writes.map fun w => if w.id = id then { w with dir := 2, back := true } else w
    pou.reads := s.pou.reads.map fun r => if r.line = line && r.dir = 1 then { r with ord := 0 } else r })

/-- A write-back of a line has yet to take its place in the order. -/
def backWaiting (s : State) (line : Nat) : Bool := s.pou.writes.any fun w => w.line = line && w.back && w.stage = .waiting

/-- Accept a read. -/
def acceptRead (s : State) (origin : Origin) (mid plot line : Nat) (metaVal : MetaValue) : Nat × State :=
  let (id, s) := newId s
  let r : ReadRec := { id := id, origin := origin, mid := mid, plot := plot, line := line, metaVal := metaVal,
                       dir := if coherent (plotRec s plot) then 0 else 2 }
  (id, { s with pou.reads := s.pou.reads ++ [r] })

/-- Find a write the POU holds. -/
def findWrite (s : State) (id : Nat) : Option WriteRec := s.pou.writes.find? fun w => w.id = id

/-- Change one. -/
def updWrite (s : State) (id : Nat) (f : WriteRec → WriteRec) : State :=
  { s with pou.writes := s.pou.writes.map fun w => if w.id = id then f w else w }

/-- Remove one. -/
def dropWrite (s : State) (id : Nat) : State := { s with pou.writes := s.pou.writes.filter fun w => w.id ≠ id }

/-- Find a read the POU holds. -/
def findRdRec (s : State) (id : Nat) : Option ReadRec := s.pou.reads.find? fun r => r.id = id

/-- Change one. -/
def updRdRec (s : State) (id : Nat) (f : ReadRec → ReadRec) : State :=
  { s with pou.reads := s.pou.reads.map fun r => if r.id = id then f r else r }

/-- Remove one. -/
def dropRdRec (s : State) (id : Nat) : State := { s with pou.reads := s.pou.reads.filter fun r => r.id ≠ id }

/-- A write has been ordered. -/
def ordered (w : WriteRec) : Bool := w.stage ≠ .waiting

/-- A write has been ordered and is not yet applied here. -/
def unappliedW (w : WriteRec) : Bool := w.stage = .merging || w.stage = .unapplied

/-- Lines with a hazard entry: a write ordered and not yet durable (R171). -/
def hazardLines (s : State) : List Nat :=
  ((s.pou.writes.filter fun w => ordered w && !w.durable).map (·.line)).eraseDups

/-- The durable mark of a plot: every write at or below it is durable (R184, R343). -/
def durableMark (s : State) (plot : Nat) : Nat :=
  (s.pou.writes.filter fun w => w.plot = plot && ordered w && !w.durable).foldl (fun m w => min m (w.seq - 1)) (plotRec s plot).seq


/-! ### Write credits (R180) -/

/-- The completion of a host's write frees its write credit; in stage 3 the credit is withheld. -/
def freeCredit (s : State) (port : Nat) : State :=
  if writesStopped s then { s with pou.withheld := supd 0 s.pou.withheld port (· + 1) } else s

/-- A host's write completes. -/
def writeDone (s : State) (ld : Ld) (tag : Nat) : State := toHost (freeCredit s (ld.val / 16)) ld (.memDone ld tag)

/-- A request of a host on a port. -/
def fromPort (port : Nat) (o : Origin) : Bool :=
  match o with
  | .host ld _ => ld.val / 16 = port
  | _ => false

/-- Writes a port has accepted and not yet completed. -/
def portWrites (s : State) (port : Nat) : Nat :=
  (s.pou.writes.filter fun w => fromPort port w.origin && !w.uncredited).length +
    (s.pou.fwdWrites.filter fun f => fromPort port f.origin).length +
    ((s.chain.reqs ++ s.chain.waiting).filter fun r => r.write && fromPort port r.origin).length

/-- Write credits of a link (R180). DESIGN CHOICE: 1,024; the spec gives no number. -/
def linkCredits : Nat := 1024

/-- A port's host holds a write credit. -/
def creditLeft (s : State) (port : Nat) : Bool := decide (portWrites s port + sget 0 s.pou.withheld port < linkCredits)

/-- Withheld credits go back once writes are accepted again, and writes that waited at their host for one are accepted in their order. -/
def giveCredits (s : State) : State :=
  let s := if writesStopped s then s else { s with pou.withheld := [] }
  (s.pou.writes.filter (·.uncredited)).foldl (fun s w =>
    match w.origin with
    | .host ld _ =>
      if creditLeft s (ld.val / 16) then
        { s with pou.writes := s.pou.writes.map fun x => if x.id = w.id then { x with uncredited := false, acceptedAt := s.devTime } else x }
      else s
    | _ => s) s

/-! ### IDE epochs (R88) -/

/-- A request that arrived in an earlier command of its link has had its MAC checked good by now; one that has just arrived has its check
to come. -/
def nextEpoch (m : Fin 3) : Fin 3 := if m = 2 then 1 else 0

/-- Requests whose MACs have yet to be checked. -/
def macWaits (s : State) : Bool :=
  s.pou.writes.any (fun w => w.mac ≠ 0) || s.pou.reads.any (fun r => r.mac ≠ 0) || s.chain.waiting.any (fun r => r.mac ≠ 0) ||
    s.fcd.snoops.any fun x => x.mac ≠ 0

/-- The MAC of every epoch received before the present command has checked good: IDE_MAC_FAIL would have come. -/
def macsGood (s : State) : State :=
  if macWaits s then
    { s with
      pou.writes := s.pou.writes.map fun w => { w with mac := nextEpoch w.mac }
      pou.reads := s.pou.reads.map fun r => { r with mac := nextEpoch r.mac }
      chain.waiting := s.chain.waiting.map fun r => { r with mac := nextEpoch r.mac }
      fcd.snoops := s.fcd.snoops.map fun x => { x with mac := nextEpoch x.mac } }
  else s

/-- A read's MAC has yet to be checked, and its link's mode lets nothing of it begin before (R88). -/
def macBlocks (s : State) (r : ReadRec) : Bool :=
  r.mac ≠ 0 && match r.origin with
    | .host ld _ => !(hostLink s (ld.val / 16)).skid
    | _ => false

/-! ### Ring operations' lines -/

/-- Change a ring's operation. -/
def updOp (s : State) (ld : Ld) (ring : RingNo) (op : Nat) (f : RingOp → RingOp) : State :=
  { s with cre.rings := supd {} s.cre.rings (ld.val * 256 + ring.val) fun r =>
      { r with ops := r.ops.map fun o => if o.num = op then f o else o } }

/-- Find a ring's operation. -/
def findOp (s : State) (ld : Ld) (ring : RingNo) (op : Nat) : Option RingOp :=
  (sget {} s.cre.rings (ld.val * 256 + ring.val)).ops.find? fun o => o.num = op

/-- First line of an operation's plot range. -/
def opFirstLine (s : State) (o : RingOp) : Nat :=
  (plotRec s o.desc.plot.val).base * 4194304 + o.desc.offset.toNat / 64

/-- Note a poisoned line of an operation's range (R123). -/
def notePoison (s : State) (o : RingOp) (line : Nat) : RingOp :=
  let off := (line - (plotRec s o.desc.plot.val).base * 4194304) * 64
  { o with
    poisonFirst := some (match o.poisonFirst with
      | some f => min f off
      | none => off)
    poisonCount := o.poisonCount + 1 }

/-- Bytes of a line of the plot that an operation's range covers, as a mask. -/
def coveredBytes (s : State) (o : RingOp) (line : Nat) : ByteMask :=
  let start := o.desc.offset.toNat
  let stop := start + o.desc.length.toNat
  let base := (line - (plotRec s o.desc.plot.val).base * 4194304) * 64
  (List.range 64).foldl (fun (m : ByteMask) i => if start ≤ base + i ∧ base + i < stop then m ||| (1#64 <<< i) else m) 0

/-- A line that a ring operation read has arrived: COPY_OUT writes it to host memory, poison as zeros; a digest keeps
it (R123, R127). -/
def ringLine (s : State) (ld : Ld) (ring : RingNo) (op id line : Nat) (v : LineVal) : State :=
  match findOp s ld ring op with
  | none => s
  | some o =>
    let s := updOp s ld ring op fun o =>
      let o := { o with lines := o.lines.erase id }
      let o := if v.poison then notePoison s o line else o
      if o.desc.opcode = 0x18 then { o with got := sput zeroLine o.got (line - opFirstLine s o) v } else o
    if o.desc.opcode = 0x02 then
      let first := opFirstLine s o
      let addr := (o.desc.hostAddr.toNat + 2 ^ 64 + (line - first) * 64 - o.desc.offset.toNat % 64) % 2 ^ 64
      toHost s ld (.hostWrite ld ring op addr (if v.poison then 0 else v.data) (coveredBytes s o line))
    else s

/-- A line that a ring operation wrote is complete; a line merged into poison marks the operation (R412). -/
def ringWritten (s : State) (ld : Ld) (ring : RingNo) (op id line : Nat) (poisoned : Bool) : State :=
  updOp s ld ring op fun o =>
    let o := { o with lines := o.lines.erase id }
    if poisoned then notePoison s o line else o

/-- A line of a ring operation is denied: the operation ends with NO_PLOT where its plot can be reached no longer (R42, R143), and with
ACCESS_DENIED where the plot is open (R65). -/
def ringRefused (s : State) (ld : Ld) (ring : RingNo) (op id : Nat) : State :=
  updOp s ld ring op fun o =>
    { o with lines := o.lines.erase id, status := if plotOpen (plotRec s o.desc.plot.val) then stAccessDenied else stNoPlot }

/-- The prefix of an answer to a chain request (R390, R391). -/
def chainPrefix (s : State) (mid node tag : Nat) (poison : Bool) : ChainPrefix :=
  { srcNode := nodeOf node, cls := Fin.ofNat 32 mid, poison := poison, srcEpoch := sget 0 s.chain.seenEpochs node, tag := BitVec.ofNat 32 tag, lowTag := 0 }

/-- Tags of completed chain writes the owner holds (R398). -/
def dedupCap : Nat := 65536

/-- A write's completion leaves (R157). -/
def finishWrite (s : State) (w : WriteRec) : State :=
  let s := dropWrite s w.id
  match w.origin with
  | .host ld tag => writeDone s ld tag
  | .ring ld ring op => ringWritten s ld ring op w.id w.line (w.oldPoison || w.poison)
  | .chain mid node tag =>
    answerChain { s with chain.done := s.chain.done ++ [(node, BitVec.ofNat 32 tag)] } (chainPrefix s mid node tag false) .cmpl
  | .mailbox ld => toHost s ld (.mailbox ld .success)
  | .forwarded _ _ => s
  | .writeBack _ => s
  | .mirror => s

/-- The plot a denial names: 0xFFF for a plot that cannot be reached (R66). -/
def deniedPlot (s : State) (plot : Nat) : Nat := if plotOpen (plotRec s plot) then plot else 0xFFF

/-- Requests to a plot can be ordered: it is open, and no crypto-erase of it is running here (R42, R451). -/
def plotTakes (r : Plot) : Bool := plotOpen r && !r.erasing

/-- The end of a write that is denied or finds no plot: dropped with a normal completion (R65). -/
def refuseWrite (s : State) (w : WriteRec) : State :=
  let s := countDenial (dropWrite s w.id) w.mid (deniedPlot s w.plot) w.line
  match w.origin with
  | .host ld tag => writeDone s ld tag
  | .ring ld ring op => ringRefused s ld ring op w.id
  | .chain mid node tag => answerChain s (chainPrefix s mid node tag false) .refuse
  | .forwarded mid tag => sendFrame s 0x1A 0 0 (.fwdRefuse mid.val tag)
  | .mailbox ld => toHost s ld (.mailbox ld .invalidInput)
  | .writeBack _ => s
  | .mirror => s

/-- A read's data leave. -/
def answerRead (s : State) (r : ReadRec) (v : LineVal) : State :=
  let s := dropRdRec s r.id
  match r.origin with
  | .host ld tag => toHost s ld (.memData ld tag (if v.poison then 0 else v.data) v.poison)
  | .ring ld ring op => ringLine s ld ring op r.id r.line v
  | .chain mid node tag => answerChain s (chainPrefix s mid node tag v.poison) (.data (if v.poison then 0 else v.data))
  | .forwarded mid tag => sendFrame s 0x06 0 r.plot (.readData mid.val tag v.poison (if v.poison then 0 else v.data) false)
  | .mailbox _ => s
  | .writeBack _ => s
  | .mirror => s

/-- The end of a read that is denied or finds no plot: a zero line with poison (R65). -/
def refuseRead (s : State) (r : ReadRec) : State :=
  let s := countDenial s r.mid (deniedPlot s r.plot) r.line
  match r.origin with
  | .chain mid node tag => answerChain (dropRdRec s r.id) (chainPrefix s mid node tag false) .refuse
  | .ring ld ring op => ringRefused (dropRdRec s r.id) ld ring op r.id
  | .forwarded mid tag => sendFrame (dropRdRec s r.id) 0x06 0 r.plot (.readData mid.val tag true 0 true)
  | _ => answerRead s r poisonLine

/-! ### Forwarding to the home (R13, R31, R344) -/

/-- The master ID a forwarded request carries (R25, R389). -/
def forwardedMid (mid : Nat) : Nat := if mid < 0x100 then mid + 0x100 else mid

/-- The lowest tag of a master that no forwarded request of it holds. -/
def freeTag (used : List Nat) : Option Nat := (List.range 256).find? fun t => !used.contains t

/-- The back-pressure delay of a write of a plot has time left now: it runs from the write's acceptance (R179). -/
def delayLeft (s : State) (plot acceptedAt : Nat) : Bool := decide (s.devTime < acceptedAt + writeDelay s (plotRec s plot))

/-- Writes whose completion leaves this controller for a host, a ring or a chain node: a delay holds them (R178). A forwarded write is
delayed at its own port, and a snooped holder's write-back has no completion. -/
def delayable (o : Origin) : Bool :=
  match o with
  | .forwarded _ _ => false
  | .writeBack _ => false
  | .mirror => false
  | _ => true

/-- A write is delayed by the settings and the stage as it is ordered (R179, R185). -/
def delaysNow (s : State) (w : WriteRec) : Bool := delayable w.origin && delayLeft s w.plot w.acceptedAt

/-- Count a delayed write. -/
def countDelay (s : State) (delayed : Bool) : State := if delayed then incF s Reg.POU_BP_DELAY_CNT.delayed else s

/-- Forward a write to the plot's home, unless its tags are all in use or writes are stopped (R180, R344). -/
def forwardWrite (s : State) (w : WriteRec) : State :=
  if !linkOk s || writesStopped s then s
  else match freeTag ((s.pou.fwdWrites.filter fun f => f.mid = w.mid).map (·.tag)) with
    | none => s
    | some tag =>
      let delayed := delaysNow s w
      let f : FwdWrite := { id := w.id, tag := tag, origin := w.origin, mid := w.mid, plot := w.plot, line := w.line, data := w.data, be := w.be,
                            poison := w.poison, metaVal := w.metaVal, acceptedAt := w.acceptedAt, delayed := delayed }
      let s := countDelay (dropWrite { s with pou.fwdWrites := s.pou.fwdWrites ++ [f] } w.id) delayed
      sendFrame s 0x04 0 w.plot (.fwdWrite (forwardedMid w.mid) tag w.line w.data w.be w.poison w.metaVal)

/-- Tags of a master's reads under way on the twin link. -/
def readTags (s : State) (mid : Nat) : List Nat :=
  ((s.pou.fwdReads.filter fun f => f.mid = mid).map (·.tag)) ++ ((s.pou.reads.filter fun r => r.mid = mid).filterMap (·.remoteTag))

/-- Forward a read to the plot's home. -/
def forwardRead (s : State) (r : ReadRec) : State :=
  if !linkOk s then s
  else match freeTag (readTags s r.mid) with
    | none => s
    | some tag =>
      let f : FwdRead := { id := r.id, tag := tag, origin := r.origin, mid := r.mid, plot := r.plot, line := r.line, metaVal := r.metaVal }
      let s := dropRdRec { s with pou.fwdReads := s.pou.fwdReads ++ [f] } r.id
      sendFrame s 0x05 0 r.plot (.fwdRead (forwardedMid r.mid) tag r.line r.metaVal)

/-! ### The directory's part -/

/-- An earlier write to the same line has not yet been ordered, or an earlier read has not yet passed the directory (R214). -/
def lineHeld (s : State) (id line : Nat) : Bool :=
  s.pou.writes.any (fun w => w.line = line && w.stage = .waiting && decide (w.id < id)) ||
    s.pou.reads.any (fun r => r.line = line && r.dir ≠ 2 && decide (r.id < id))

/-- Take a write to the directory. -/
def dirWrite (s : State) (w : WriteRec) : State :=
  let q : DirReq := { write := true, metaVal := w.metaVal, requester := requesterOf w.origin w.mid }
  match w.dir with
  | 0 =>
    if lineHeld s w.id w.line then s
    else match dirStart s w.plot w.line q (.write w.id) with
      | (.done, s) => updWrite s w.id fun w => { w with dir := 2 }
      | (.snooping, s) => updWrite s w.id fun w => { w with dir := 1 }
      | (.blocked, s) => s
  | 1 =>
    match dirFinish s w.line q (.write w.id) with
    | (true, s) => updWrite s w.id fun w => { w with dir := 2 }
    | (false, s) => s
  | 2 => s

/-- Take a read to the directory; it takes its place in the order when it reaches it (R172, R214). -/
def dirRead (s : State) (r : ReadRec) : State :=
  let q : DirReq := { write := false, metaVal := r.metaVal, requester := requesterOf r.origin r.mid }
  match r.dir with
  | 0 =>
    if lineHeld s r.id r.line then s
    else
      let s := if r.ord = 0 then updRdRec { s with pou.nextOrd := s.pou.nextOrd + 1 } r.id fun r => { r with ord := s.pou.nextOrd } else s
      match dirStart s r.plot r.line q (.read r.id) with
      | (.done, s) => updRdRec s r.id fun r => { r with dir := 2 }
      | (.snooping, s) => updRdRec s r.id fun r => { r with dir := 1 }
      | (.blocked, s) => s
  | 1 =>
    match dirFinish s r.line q (.read r.id) with
    | (true, s) => updRdRec s r.id fun r => { r with dir := 2 }
    | (false, s) => s
  | 2 => if r.ord = 0 && !backWaiting s r.line then updRdRec { s with pou.nextOrd := s.pou.nextOrd + 1 } r.id fun r => { r with ord := s.pou.nextOrd } else s

/-! ### Ordering a write (R168, R171, R300, R410) -/

/-- A write waits with every entry of a table in use: each such wait is counted once. -/
def stall (s : State) (w : WriteRec) (kind : Fin 3) (f : Field) : State :=
  if w.stalled = kind then s else updWrite (incF s f) w.id fun w => { w with stalled := kind }

/-- Join or open a line's merge entry (R411). -/
def joinMerge (s : State) (w : WriteRec) : State :=
  if s.diu.merges.any fun m => m.line = w.line then
    { s with diu.merges := s.diu.merges.map fun m => if m.line = w.line then { m with ids := m.ids ++ [w.id] } else m }
  else { s with diu.merges := s.diu.merges ++ [{ line := w.line, plot := w.plot, ids := [w.id] }] }

/-- A request that missed the front cache has its clod's entry: the clod's heat rises, and a Topdressed clod's record is looked up
(R304, R308). -/
def reachEntry (s : State) (clod : Nat) : State :=
  let s := bumpHeat s clod
  let e := entryOf s clod
  if e.tier = 3 then overlayLookup s e.overlay else s

/-- After a restart a shallow plot's clod can stand in Bedrock. DESIGN CHOICE: it is lifted at its first request, which waits for that, so
that every read of a shallow plot is served from the front cache or Loam (R37). -/
def awaitsLift (s : State) (r : Plot) (clod : Nat) : Bool :=
  let e := entryOf s clod
  !r.deep && !e.crcBad && (e.tier = 2 || e.tier = 3)

/-- Order a write whose clod's entry is at hand: next sequence number of its plot, next place in the order (R168). -/
def orderNow (s : State) (w : WriteRec) : State :=
  let whole := w.be = BitVec.allOnes 64
  let clod := clodOf w.line
  match (if (entryOf s clod).crcBad then some s else prepareWrite s clod (plotRec s w.plot).generation) with
  | none => s
  | some s =>
    let seq := (plotRec s w.plot).seq + 1
    let ord := s.pou.nextOrd
    let delayed := delaysNow s w
    let s := markRewrite (updPlot { s with pou.nextOrd := ord + 1 } w.plot fun r => { r with seq := seq }) w.line
    let s := updWrite (countDelay s delayed) w.id fun w =>
      { w with seq := seq, ord := ord, stage := if whole then .unapplied else .merging, delayed := delayed, stalled := 0 }
    if whole then s else joinMerge s w

/-- Order a write, unless a table is full, its clod's entry is still being read, or its clod is being lifted. -/
def orderWrite (s : State) (w : WriteRec) : State :=
  let whole := w.be = BitVec.allOnes 64
  let haz := hazardLines s
  if !haz.contains w.line && 8192 ≤ haz.length then stall s w 1 Reg.POU_HAZ_STS.full_events
  else if !whole && 32 ≤ s.diu.merges.length && !(s.diu.merges.any fun m => m.line = w.line) then stall s w 2 Reg.DIU_MERGE_STS.waits
  else if mirrorsWrites s && !retainRoom s then s
  else
    let clod := clodOf w.line
    let (k, s) := lookEntry s clod w.looked
    let s := if w.looked = k && w.stalled = 0 then s else updWrite s w.id fun w => { w with looked := k, stalled := 0 }
    if k ≠ 2 then s
    else
      let s := if w.looked ≠ 2 && !atHand s w.line then reachEntry s clod else s
      if awaitsLift s (plotRec s w.plot) clod then (askLift s clod .read).2 else orderNow s w

/-! ### The merge buffer (R411, R412) -/

/-- A line with the enabled bytes taken from another. -/
def mergeBytes (old new : Line) (be : ByteMask) : Line :=
  let mask : Line := (List.range 64).foldl (fun (m : Line) i => if be.getLsbD i then m ||| (0xFF#512 <<< (8 * i)) else m) 0
  (old &&& ~~~mask) ||| (new &&& mask)

/-- The latest whole write of a line ordered before a place and not yet applied: what the line holds there (R411). -/
def pendingLine (s : State) (line ord : Nat) : Option LineVal :=
  let ws := s.pou.writes.filter fun w => w.line = line && w.stage = .unapplied && decide (w.ord < ord)
  (ws.foldl (fun (best : Option WriteRec) w =>
    match best with
    | some b => if b.ord < w.ord then some w else best
    | none => some w) none).map fun w => { data := w.data, poison := w.poison }

/-- Combine a merge entry's writes, in order, each with the line as the order stands at its own place: the old line, or what an earlier
write of the line leaves; each becomes a whole line (R411). Poison in it stays, whatever the byte enables (R412). -/
def combine : List Nat → LineVal → State → State
  | [], _, s => s
  | id :: t, old, s =>
    match findWrite s id with
    | none => combine t old s
    | some w =>
      let old := (pendingLine s w.line w.ord).getD old
      let p := old.poison || w.poison
      let v : LineVal := if p then poisonLine else { data := mergeBytes old.data w.data w.be, poison := false }
      combine t v (updWrite s id fun w =>
        { w with data := v.data, poison := p, oldPoison := old.poison, be := BitVec.allOnes 64, stage := .unapplied })

/-- Finish a line's merge entry with its old line. -/
def mergeWith (s : State) (m : Merge) (old : LineVal) : State :=
  combine m.ids old { s with diu.merges := s.diu.merges.filter fun x => x.line ≠ m.line }

/-- An earlier ordered write of a line has not been applied yet. -/
def earlierWrite (s : State) (line ord : Nat) : Bool :=
  s.pou.writes.any fun w => w.line = line && unappliedW w && decide (w.ord < ord)

/-- Change a line's merge entry. -/
def updMerge (s : State) (line : Nat) (f : Merge → Merge) : State :=
  { s with diu.merges := s.diu.merges.map fun x => if x.line = line then f x else x }

/-- The first byte of a line that a partial write leaves. -/
def firstKept (be : ByteMask) : Nat := ((List.range 64).find? fun i => !be.getLsbD i).getD 0

/-- The beat a merge entry names first: that of the first old byte it needs (R193). -/
def mergeBeat (s : State) (m : Merge) : Fin 4 :=
  match m.ids.findSome? (findWrite s) with
  | some w => Fin.ofNat 4 (firstKept w.be / 16)
  | none => 0

/-- The master a merge entry's old line is read for: its first write's (R228). -/
def mergeMid (s : State) (m : Merge) : Nat := ((m.ids.findSome? (findWrite s)).map (·.mid)).getD 0x300

/-- Start the fill of a merge entry's old line, or wait for a way or a buffer. -/
def fillMerge (s : State) (m : Merge) (val : LineVal) (lpa : Nat) : State :=
  let (counted, s) := countFull s m.line m.fullCounted
  let (ok, s) := startFill s { line := m.line, val := val, lpa := lpa, users := [.merge m.line], startBeat := mergeBeat s m } (mergeMid s m)
  updMerge s m.line fun x => { x with asked := ok, fullCounted := counted }

/-- Find a merge entry's old line: in the cache at once; from Loam or the base by asking for it (R411). The entry of its clod was looked up
as its write was ordered. -/
def startMerge (s : State) (m : Merge) : State :=
  let first := (m.ids.filterMap (findWrite s)).foldl (fun n w => min n w.ord) s.pou.nextOrd
  if earlierWrite s m.line first then s
  else if m.asked then s
  else
    match probe s m.line {} m.fullCounted with
    | (.hit v, s) => mergeWith s m v
    | (.fatal, s) => s
    | (.filling, s) => fillMerge s m zeroLine 0
    | (.miss, s) =>
      if (entryOf s (clodOf m.line)).crcBad then s
      else match placeOf s m.line with
        | .nowhere => mergeWith s m zeroLine
        | .loam lpa => fillMerge s m (loamAt s lpa) lpa
        | .base => updMerge (wantGrain s (clodOf m.line) (grainIn m.line) [.merge m.line] false false) m.line fun x => { x with asked := true }

/-! ### Applying and mirroring (R156, R29, R30, R339) -/

/-- A read ordered before a write has yet to find its data, for want of an earlier write: the write waits behind it. -/
def earlierRead (s : State) (line ord : Nat) : Bool :=
  s.pou.reads.any fun r => r.line = line && r.ord ≠ 0 && decide (r.ord < ord) && r.val.isNone && !r.fetching && r.dir = 2

/-- Apply an ordered whole write, if a way takes it; in solo its clod's change-map bit is set (R30); a forwarded
write's durable notice leaves (R31). -/
def applyWrite (s : State) (w : WriteRec) : State :=
  if earlierWrite s w.line w.ord || earlierRead s w.line w.ord then s
  else
    let (counted, s) := if atHand s w.line then (w.fullCounted, s) else countFull s w.line w.fullCounted
    let s := if counted = w.fullCounted then s else updWrite s w.id fun w => { w with fullCounted := counted }
    match applyLine s w.line w.mid { data := w.data, poison := w.poison } (if w.oldPoison then 2 else match w.origin with
      | .mailbox _ => 5
      | _ => 1) with
    | (false, s) => s
    | (true, s) =>
      let alone := decide (twinMode s = 4)
      let s := if alone then { s with twin.changeMap := sput false s.twin.changeMap (clodOf w.line) true } else s
      let s := updWrite s w.id fun w => { w with stage := .applied, mapped := w.mapped || alone }
      match w.origin with
      | .forwarded _ _ => sendFrame s 0x03 w.seq w.plot (.durableNotice w.plot w.seq)
      | _ => s

/-- The record of a write in its MIRROR frame (R339). -/
def recordOf (w : WriteRec) : MirrorRec :=
  let (fwd, tag) := match w.origin with
    | .forwarded _ t => (true, t)
    | _ => (false, 0)
  { line := Fin.ofNat _ w.line, poison := w.poison, fwd := fwd, mid := Fin.ofNat 4096 w.mid, fwdTag := Fin.ofNat 256 tag, data := w.data }

/-- The earliest ordered write that has not been sent to the partner. -/
def nextUnsent (s : State) : Option WriteRec :=
  (s.pou.writes.filter fun w => ordered w && w.frameCtr = 0 && !w.mapped).foldl (fun (best : Option WriteRec) w =>
    match best with
    | some b => if w.ord < b.ord then some w else best
    | none => some w) none

/-- Send the ordered writes to the partner in the POU's order, each once it is whole (R338, R339). -/
def sendMirrors : Nat → State → State
  | 0, s => s
  | n + 1, s =>
    if !mirrorsWrites s then s
    else match nextUnsent s with
      | none => s
      | some w =>
        if w.stage = .merging then s
        else
          let s := sendOrdered s (.mirror w.plot w.seq [recordOf w])
          sendMirrors n (updWrite s w.id fun w => { w with frameCtr := s.twin.txOrdered })

/-! ### Reads (R158, R305) -/

/-- The latest write this controller applied to a line from the mirror stream lies at or below the plot's durable
mark, as a LEASE carried it (R353). -/
def copyCurrent (s : State) (plot line : Nat) : Bool :=
  !(s.twin.applied.any fun a => a.1 = plot && a.2.2 = line && decide ((plotRec s plot).leaseMark < a.2.1))

/-- The partner answers reads from its own copy (R353). -/
def copyServing (s : State) : Bool :=
  flag s Reg.FLK_TWIN_STS.link_lost && (decide (twinMode s = 1) || decide (twinMode s = 2)) &&
    !flag s Reg.FLK_TWIN_STS.fence_in && !flag s Reg.FLK_TWIN_STS.fence_out

/-- A read's data have been found. -/
def foundRead (s : State) (id : Nat) (v : LineVal) : State := updRdRec s id fun r => { r with val := some v }

/-- The beat a read names first: a ring operation's first line starts at its first byte, any other at beat 0 (R193). -/
def readBeat (s : State) (r : ReadRec) : Fin 4 :=
  match r.origin with
  | .ring ld ring op =>
    match findOp s ld ring op with
    | some o => if r.line = opFirstLine s o then Fin.ofNat 4 (o.desc.offset.toNat % 64 / 16) else 0
    | none => 0
  | _ => 0

/-- Start the fill of a read's line, or wait for a way or a buffer. -/
def fillRead (s : State) (r : ReadRec) (val : LineVal) (lpa : Nat) : State :=
  let (counted, s) := countFull s r.line r.fullCounted
  let (ok, s) := startFill s { line := r.line, val := val, lpa := lpa, users := [.read r.id], startBeat := readBeat s r } r.mid
  updRdRec s r.id fun r => { r with fetching := ok, fullCounted := counted }

/-- Read a line of a clod whose entry is lost from the partner (R46). -/
def farRead (s : State) (r : ReadRec) : State :=
  if mirrored s && linkOk s then
    match freeTag (readTags s r.mid) with
    | none => s
    | some tag =>
      let s := updRdRec s r.id fun r => { r with fetching := true, remoteTag := some tag }
      sendFrame s 0x05 (plotRec s r.plot).seq r.plot (.fwdRead r.mid tag r.line .invalid)
  else s

/-- Read a line that the front cache does not hold from the tier its clod's entry names (R299, R305). -/
def tierRead (s : State) (r : ReadRec) : State :=
  let clod := clodOf r.line
  let e := entryOf s clod
  if e.crcBad then farRead s r
  else if awaitsLift s (plotRec s r.plot) clod then (askLift s clod .read).2
  else match placeOf s r.line with
    | .nowhere => foundRead s r.id zeroLine
    | .loam lpa => fillRead s r (loamAt s lpa) lpa
    | .base =>
      let s := updRdRec (wantGrain s clod (grainIn r.line) [.read r.id] false false) r.id fun r => { r with fetching := true }
      if max 1 (getF s Reg.TMG_LIFT_CFG.lift_heat) ≤ e.heat then (askLift s clod .read).2 else s

/-- Look for a read's data (R169, R305): the front cache, then, with its clod's entry at hand, the tier the entry names (R49). -/
def fetchRead (s : State) (r : ReadRec) : State :=
  if earlierWrite s r.line r.ord || backWaiting s r.line then s
  else
    let clod := clodOf r.line
    match probe s r.line {} (r.looked ≠ 0) with
    | (.hit v, s) => foundRead s r.id v
    | (.fatal, s) => s
    | (.filling, s) => fillRead s r zeroLine 0
    | (.miss, s) =>
      let (k, s) := lookEntry s clod r.looked
      let s := if r.looked = k then s else updRdRec s r.id fun r => { r with looked := k }
      if k ≠ 2 then s else tierRead (if r.looked = 2 then s else reachEntry s clod) { r with looked := k }

/-- A read may release its data: no earlier write of its line is short of durable (R158), and its own MAC has checked good (R88). -/
def readFree (s : State) (r : ReadRec) : Bool :=
  r.mac = 0 && !(s.pou.writes.any fun w => w.line = r.line && ordered w && !w.durable && decide (w.ord < r.ord))

/-- Move a read as far as it comes. -/
def advanceRead (s : State) (id : Nat) : State :=
  match findRdRec s id with
  | none => s
  | some r =>
    let p := plotRec s r.plot
    let copy := copyServing s && !isHome s p
    if macBlocks s r then s
    else if r.ord = 0 && !plotTakes p then refuseRead s r
    else if copy && !copyCurrent s r.plot r.line then s
    else if !copy && !isHome s p && r.ord = 0 then (if mirrored s then forwardRead s r else s)
    else if !copy && !canOrder s p then s
    else
      let s := if copy then dirRead (updRdRec s id fun r => { r with dir := 2 }) { r with dir := 2 } else dirRead s r
      match findRdRec s id with
      | none => s
      | some r =>
        if r.dir ≠ 2 || r.ord = 0 then s
        else
          let s := if r.val.isNone && !r.fetching then fetchRead s r else s
          match findRdRec s id with
          | none => s
          | some r =>
            match r.val with
            | some v => if readFree s r then answerRead s r v else s
            | none => s

/-- Move a write as far as it comes. -/
def advanceWrite (s : State) (id : Nat) : State :=
  let s := match findWrite s id with
    | none => s
    | some w =>
      if w.stage ≠ .waiting || w.mac ≠ 0 || w.uncredited then s
      else
        let p := plotRec s w.plot
        if !plotTakes p then refuseWrite s w
        else if !isHome s p then (if mirrored s then forwardWrite s w else s)
        else if !canOrder s p || !armed s || writesHeld s w.plot then s
        else
          let s := dirWrite s w
          match findWrite s id with
          | some w => if w.dir = 2 && (w.back || !backWaiting s w.line) then orderWrite s w else s
          | none => s
  let s := match findWrite s id with
    | some w => if w.stage = .merging then (match s.diu.merges.find? fun m => m.line = w.line with
        | some m => startMerge s m
        | none => s) else s
    | none => s
  let s := match findWrite s id with
    | some w => if w.stage = .unapplied then applyWrite s w else s
    | none => s
  let s := match findWrite s id with
    | some w =>
      if w.stage = .applied && !w.durable && (w.acked || w.mapped) then
        updPlot (updWrite s id fun w => { w with durable := true }) w.plot fun r => { r with markChanged := true }
      else s
    | none => s
  match findWrite s id with
  | some w => if w.durable && !w.delayed then finishWrite s w else s
  | none => s

/-- A forwarded write completes at the partner: applied from the mirror stream, and the home's notice received (R31).
Its host's copy is recorded as the completion leaves (R209). -/
def advanceFwd (s : State) (id : Nat) : State :=
  match s.pou.fwdWrites.find? fun f => f.id = id with
  | none => s
  | some f =>
    if f.seq.isSome && f.noticed && !f.delayed then
      let s := { s with pou.fwdWrites := s.pou.fwdWrites.filter fun x => x.id ≠ id }
      let s := if coherent (plotRec s f.plot) && f.metaVal ≠ .invalid then
          recordHolder s f.line { write := true, metaVal := f.metaVal, requester := requesterOf f.origin f.mid } else s
      finishWrite s { id := f.id, origin := f.origin, mid := f.mid, plot := f.plot, line := f.line, data := f.data, be := f.be, poison := f.poison,
                      metaVal := f.metaVal, acceptedAt := f.acceptedAt }
    else s

/-- Snoop requests of the home, and of chain owners, go on once the requests of this controller for the line that were
ordered ahead have left and been recorded (R209, R401). -/
def retrySnoops (s : State) : State :=
  let s := s.twin.snoopWaits.foldl (fun s w =>
    let (tag, line, inv, ahead) := w
    if (s.pou.fwdReads.any fun f => f.line = line && ahead.contains (forwardedMid f.mid, f.tag)) ||
        (s.pou.fwdWrites.any fun f => f.line = line && (f.seq.isSome || ahead.contains (forwardedMid f.mid, f.tag))) then s
    else match serveRecall s line inv (.twin tag) with
      | (true, s) => { s with twin.snoopWaits := s.twin.snoopWaits.filter fun x => x.1 ≠ tag }
      | (false, s) => s) s
  s.chain.snoopWaits.foldl (fun s w =>
    let (node, tag, line, inv, ahead) := w
    if s.chain.reqs.any fun r => ahead.contains r.tag then s
    else match serveRecall s line inv (.chain node tag) with
      | (true, s) => { s with chain.snoopWaits := s.chain.snoopWaits.filter fun x => !(x.1 = node && x.2.1 = tag) }
      | (false, s) => s) s

/-- BIConflictAcks leave once the host's own earlier request has been answered (R214). -/
def ackConflicts (s : State) : State :=
  let past (c : Nat × Nat × Nat) : Bool :=
    !(s.pou.writes.any fun w => w.id = c.2.2) && !(s.pou.reads.any fun r => r.id = c.2.2)
  let ready := s.fcd.conflicts.filter past
  ready.foldl (fun s c => toHost s (Fin.ofNat 256 c.1) (.biConflictAck (Fin.ofNat 256 c.1) c.2.1))
    { s with fcd.conflicts := s.fcd.conflicts.filter fun c => !past c }

/-! ### What waits for the front cache (R194, R199) -/

/-- A maintenance operation acts on a line that is not being filled (R198, R200); a zeroed line is written like any other. False: it waits
for a frame or a way. -/
def runMaintOp (s : State) (m : Maint) : Bool × State :=
  match m.op with
  | .flush => (true, flushLine s m.line m.mid)
  | .drop => (true, dropLine s m.line)
  | .zero =>
    match plotOfLine s m.line with
    | none => (true, s)
    | some p =>
      match (if (entryOf s (clodOf m.line)).crcBad then some s else prepareWrite s (clodOf m.line) (plotRec s p).generation) with
      | none => (false, s)
      | some s => applyLine s m.line m.mid zeroLine 0

/-- Every waiting maintenance operation whose line is not being filled acts, those of one line in their order (R199). -/
def runMaint (s : State) : State :=
  s.fcd.maint.foldl (fun s m =>
    let late := (s.fcd.fills.any fun f => f.line = m.line) || s.fcd.maint.any fun x => x.line = m.line
    if late then { s with fcd.maint := s.fcd.maint ++ [m] }
    else match runMaintOp s m with
      | (true, s) => s
      | (false, s) => { s with fcd.maint := s.fcd.maint ++ [m] }) { s with fcd.maint := [] }

/-- Lines from Bedrock that wait take a fill buffer and a way as soon as they can (R194). -/
def retryInstalls (s : State) : State :=
  s.fcd.installs.foldl (fun s x => installClean s x.1 x.2.1 x.2.2) { s with fcd.installs := [] }

/-- Time in stage 3 accumulates (R180), and an override ends below hard_pct (R182). -/
def checkStop (s : State) : State :=
  let s := if flag s Reg.POU_BP_STS.override && !reached (ownLevel s) (getF s Reg.POU_BP_CFG.hard_pct) then putFlag s Reg.POU_BP_STS.override false else s
  let stop := bpStage s = 3
  match s.pou.stopSince with
  | none => if stop then { s with pou.stopSince := some s.devTime } else s
  | some t =>
    let us := (s.devTime - t) / 1000
    incFiBy { s with pou.stopSince := if stop then some (t + us * 1000) else none } Reg.POU_BP_STOP_TIME.stop_us 0 us

/-- One pass over every request, writes first, then what the passes themselves let go on. -/
def pumpPass (s : State) : State :=
  let s := giveCredits (placeNexts (retryInstalls (runMaint s)))
  let s := (s.pou.writes.map (·.id)).foldl advanceWrite s
  let s := sendMirrors s.pou.writes.length s
  let s := (s.pou.reads.map (·.id)).foldl advanceRead s
  let s := (s.pou.fwdWrites.map (·.id)).foldl advanceFwd s
  ackConflicts (retrySnoops s)

/-- How far the requests have come: a pass that changes these figures is followed by another. -/
def pumpMark (s : State) : List Nat :=
  let stage (w : WriteRec) : Nat := w.dir.val + 3 * w.looked.val + (match w.stage with
    | .waiting => 0
    | .merging => 9
    | .unapplied => 18
    | .applied => 27) + (if w.durable then 9 else 0)
  let place (r : ReadRec) : Nat := r.dir.val + 3 * r.looked.val + (if r.fetching then 9 else 0) + (if r.ord = 0 then 0 else 18) + (if r.val.isSome then 36 else 0)
  [s.pou.fwdWrites.length, s.pou.fwdReads.length, s.fcd.fills.length, s.fcd.snoops.length, s.fcd.maint.length, s.fcd.installs.length,
   s.fcd.dirNext.length] ++ s.pou.writes.map stage ++ s.pou.reads.map place

/-- Passes until nothing moves, at most `fuel` of them. -/
def pumpLoop : Nat → State → State
  | 0, s => s
  | n + 1, s =>
    let t := pumpPass s
    if pumpMark t = pumpMark s then t else pumpLoop n t

/-- Move every request as far as the state lets it come. While the flush is not armed no write is ordered (R490); while it
runs nothing is (R492). -/
def pump (s : State) : State :=
  if flushing s then s else
  checkStop (densityLifts (pumpLoop (4 * (s.pou.writes.length + s.pou.reads.length) + s.fcd.maint.length + 2) s))

end Sys2Proof.Machine
end

