-- ==== Sys2Proof/Machine/RingOps.lean ====
section
/-! DEFINITION. Command rings as every block uses them (04): states, queues, completions, and the progress of the
operations under way. -/

namespace Sys2Proof.Machine

/-! ### Rings (R106 to R113) -/

/-- A ring's index in the tables held once per ring. -/
def ringIdx (ld : Ld) (ring : RingNo) : Nat := ld.val * 256 + ring.val

/-- A ring. -/
def ringAt (s : State) (ld : Ld) (ring : RingNo) : Ring := sget {} s.cre.rings (ringIdx ld ring)

/-- Change a ring. -/
def updRing (s : State) (ld : Ld) (ring : RingNo) (f : Ring → Ring) : State :=
  { s with cre.rings := supd {} s.cre.rings (ringIdx ld ring) f }

/-- Every ring of an LD. -/
def allRings : List RingNo := List.finRange 256

/-- Rings outside DISABLED on this controller (R106). -/
def ringsActive (s : State) : Nat := (s.cre.rings.filter fun e => e.2.state ≠ .disabled).length

/-- Entries of the SQ: a size register of 4 to 16. -/
def sqEntries (s : State) (ld : Ld) (ring : RingNo) : Nat := 2 ^ getFi s Reg.CRE_SQ_SIZE.log2_entries (ringIdx ld ring)

/-- Entries of the CQ. -/
def cqEntries (s : State) (ld : Ld) (ring : RingNo) : Nat := 2 ^ getFi s Reg.CRE_CQ_SIZE.log2_entries (ringIdx ld ring)

/-- SQ base address. -/
def sqBase (s : State) (ld : Ld) (ring : RingNo) : Nat :=
  getFi s Reg.CRE_SQ_BASE_LO.base_lo (ringIdx ld ring) + getFi s Reg.CRE_SQ_BASE_HI.base_hi (ringIdx ld ring) * 4294967296

/-- CQ base address. -/
def cqBase (s : State) (ld : Ld) (ring : RingNo) : Nat :=
  getFi s Reg.CRE_CQ_BASE_LO.base_lo (ringIdx ld ring) + getFi s Reg.CRE_CQ_BASE_HI.base_hi (ringIdx ld ring) * 4294967296

/-- Rings an LD may enable (R108, R155). -/
def ringsAllowed (s : State) (ld : Ld) : Nat := min 256 (getFi s Reg.CRE_LD_PRIV.rings_allowed ld.val)

/-- Written entries that the host has not released. -/
def cqUnreleased (s : State) (ld : Ld) (ring : RingNo) : Nat :=
  let r := ringAt s ld ring
  let n := cqEntries s ld ring
  (r.cqTail + n - r.cqHead) % n

/-- Codes of CRE_RING_STS.err_code (R153). -/
def errNoRing : Nat := 1
/-- BAD_SETUP. -/
def errBadSetup : Nat := 2
/-- BAD_DOORBELL. -/
def errBadDoorbell : Nat := 3
/-- CQ_LOST. -/
def errCqLost : Nat := 4
/-- SQ_FETCH_FAULT. -/
def errSqFault : Nat := 5

/-- Give a ring an error code. -/
def setRingErr (s : State) (ld : Ld) (ring : RingNo) (code : Nat) : State :=
  setFi s Reg.CRE_RING_STS.err_code (ringIdx ld ring) code

/-- An ACTIVE ring enters ERROR (R109). An event says so (DESIGN CHOICE: chapter 04 names none, and R551 counts none). -/
def ringError (s : State) (ld : Ld) (ring : RingNo) (code : Nat) : State :=
  if (ringAt s ld ring).state = .active then
    let s := setRingErr (updRing s ld ring fun r => { r with state := .error }) ld ring code
    raise s 1296 .ringError ld.val [ld.val, ring.val, code]
  else s

/-- A ring in RESET whose last fetched operation has ended, with no SQ read outstanding, becomes DISABLED (R109). -/
def ringResetDone (s : State) (ld : Ld) (ring : RingNo) : State :=
  let r := ringAt s ld ring
  if r.state = .reset && r.ops.isEmpty && r.sqReads.isEmpty then updRing s ld ring fun r => { r with state := .disabled } else s

/-! ### CRE's queues (R145 to R150) -/

/-- Items a bank holds: the descriptor fetch queue's is 16 KiB, for a header word and a descriptor of 64 bytes each (DESIGN CHOICE: the rules
give these items a header but no layout). -/
def fetchBank : Nat := 16384 / 68

/-- The completion staging queue's is 4 KiB, for a header word and an entry of 16 bytes each. -/
def stageBank : Nat := 4096 / 20

/-- The banks swap once the drain bank is read out and the fill bank holds something (R145). -/
def queueSwap (q : QueuePtrs) : QueuePtrs := if q.drain = 0 then { q with drain := q.fill, fill := 0 } else q

/-- Items that the fill bank still takes. -/
def queueRoom (bank : Nat) (q : QueuePtrs) : Nat := bank - q.fill

/-- Items are written, and visible as their last words commit (R151). -/
def queuePush (bank : Nat) (q : QueuePtrs) (n : Nat) : QueuePtrs :=
  queueSwap { q with wr := (q.wr + n) % (2 * bank), wrCopy := (q.wrCopy + n) % (2 * bank), fill := q.fill + n }

/-- Items are read, or flushed. -/
def queuePop (bank : Nat) (q : QueuePtrs) (n : Nat) : QueuePtrs :=
  queueSwap { q with rd := (q.rd + n) % (2 * bank), rdCopy := (q.rdCopy + n) % (2 * bank), drain := q.drain - n, fill := q.fill - (n - q.drain) }

/-- Put back every buffer an operation holds. -/
def putBuffers (s : State) (ld : Ld) (o : RingOp) : State :=
  o.buffers.foldl (fun s b => bufPut s b.2 { block := 1, mid := Fin.ofNat 4096 ld.val }) s

/-- Operations of every ring at a stage. -/
def opsAt (s : State) (st : OpStage) : List (Ld × RingNo × RingOp) :=
  s.cre.rings.flatMap fun e => (e.2.ops.filter fun o => o.stage = st).map fun o => (Fin.ofNat 256 (e.1 / 256), Fin.ofNat 256 e.1, o)

/-- Completions that found the staging queue's fill bank full take the room that has come (R145). -/
def stageWaiting (s : State) : State :=
  ((opsAt s .ended).filter fun x => !x.2.2.queued).foldl (fun s x =>
    if queueRoom stageBank s.cre.stageQ = 0 then s
    else updOp { s with cre.stageQ := queuePush stageBank s.cre.stageQ 1 } x.1 x.2.1 x.2.2.num fun o => { o with queued := true }) s

/-- The flush of a ring's share of both queues (R150): the descriptors that have not started leave the fetch queue, the completions the
staging queue, and their buffers go back. -/
def flushRing (s : State) (ld : Ld) (ring : RingNo) : State :=
  let ops := (ringAt s ld ring).ops
  let s := { s with
    cre.fetchQ := queuePop fetchBank s.cre.fetchQ (ops.filter fun o => o.stage = .fetched).length
    cre.stageQ := queuePop stageBank s.cre.stageQ (ops.filter (·.queued)).length }
  let s := (ops.filter fun o => o.stage = .ended).foldl (fun s o => putBuffers s ld o) s
  stageWaiting (updRing s ld ring fun r => { r with ops := r.ops.filter fun o => o.stage = .running })

/-- A ring goes into RESET: by a ring reset, which flushes its share of both queues (R113, R150), or as its link goes down or its LD is
reset, where every fetched operation runs to its end (R97, R109, R144) and a check under way ends. -/
def ringReset (flush : Bool) (s : State) (ld : Ld) (ring : RingNo) : State :=
  if (ringAt s ld ring).state = .disabled then
    if (ringAt s ld ring).enabling && !flush then updRing s ld ring fun r => { r with enabling := false } else s
  else
    let s := if flush then flushRing s ld ring else s
    ringResetDone (updRing (setRingErr s ld ring 0) ld ring fun r => { r with state := .reset, unsignalled := 0 }) ld ring

/-- Every ring of an LD goes into RESET (R144). -/
def resetRings (s : State) (ld : Ld) : State := allRings.foldl (fun s r => ringReset false s ld r) s

/-- The set-up registers of an LD's rings return to their reset values (R98, R144). -/
def clearRingSetup (s : State) (ld : Ld) : State :=
  let mine (k : Nat) : Bool :=
    let addr := k / 1048576
    let idx := k % 1048576
    if addr = 0x100001000 then idx = ld.val else decide (0x100001004 ≤ addr) && decide (addr < 0x100002000) && idx / 256 = ld.val
  { s with regs := sdrop s.regs mine }

/-! ### Ends of operations (R120, R129 to R134) -/

/-- An operation has ended: its completion stands in the staging queue, or waits for room there. -/
def endOp (s : State) (ld : Ld) (ring : RingNo) (num status result : Nat) : State :=
  match findOp s ld ring num with
  | none => s
  | some o =>
    if o.stage = .ended then s
    else
      stageWaiting (updOp s ld ring num fun o => { o with stage := .ended, status := status, result := result })

/-- An operation has ended with a status for which the spec states no result: the result is a free value. -/
def endOpFree (s : State) (ld : Ld) (ring : RingNo) (num status : Nat) : State :=
  let (lo, s) := takeFree s
  let (hi, s) := takeFree s
  endOp s ld ring num status (lo.toNat + hi.toNat * 4294967296)

/-- The result of an operation that met poison (R123). -/
def poisonResult (o : RingOp) : Nat := o.poisonFirst.getD 0 + min o.poisonCount 0xFFFF * 2 ^ 48

/-- Lines of a digest range, in order. -/
def rangeLines (o : RingOp) : List LineVal := (List.range (o.desc.length.toNat / 64)).map fun i => sget zeroLine o.got i

/-- Parameter word n of a descriptor. -/
def param (d : Desc) (n : Nat) : Word := d.params.getD n 0

/-- A result window slot that holds a SHA-256 (R137). -/
def resultSlot (cid : Nat) (digest : BitVec 256) : Line :=
  BitVec.ofNat 512 (cid + 32 * 65536 + 0x10000000) ||| (digest.zeroExtend 512 <<< 64)

/-- A digest over a range is ready (R127, R128). -/
def endDigest (s : State) (ld : Ld) (ring : RingNo) (o : RingOp) : State :=
  let bytes := (rangeLines o).flatMap fun v => lineBytes v.data
  if param o.desc 0 = 0 then endOp s ld ring o.num stSuccess (crc64 bytes).toNat
  else
    let s := updRing s ld ring fun r =>
      { r with results := sput 0 r.results ((param o.desc 1).toNat % 16) (resultSlot o.desc.cid.toNat (sha256 bytes)) }
    endOp s ld ring o.num stSuccess o.desc.length.toNat

/-- A data operation whose lines are all done ends with its status and result (R120 to R123, R128). -/
def endData (s : State) (ld : Ld) (ring : RingNo) (o : RingOp) : State :=
  let len := o.desc.length.toNat
  if o.status ≠ 0 then endOpFree s ld ring o.num o.status
  else if o.faulted then endOp s ld ring o.num stHostFault o.next
  else if o.desc.opcode = 0x18 then
    if o.poisonCount = 0 then endDigest s ld ring o else endOp s ld ring o.num stPoisoned (poisonResult o)
  else if o.poisonCount = 0 then endOp s ld ring o.num stSuccess len
  else if o.desc.opcode = 0x02 then endOp s ld ring o.num stPoisoned (poisonResult o)
  else endOp s ld ring o.num stPoisoned len

/-! ### Buffers (R121) -/

/-- Bytes of a buffer of the pool an operation stages through (R121). -/
def chunkBytes (o : RingOp) : Nat :=
  let n := o.desc.length.toNat
  if n ≤ 256 then 256 else if n ≤ 4096 then 4096 else 65536

/-- The pool an operation stages through. -/
def poolOf (o : RingOp) : Nat := if chunkBytes o = 256 then 0 else if chunkBytes o = 4096 then 1 else 2

/-- Buffers an operation uses at most. -/
def buffersWanted (o : RingOp) : Nat := min 4 ((o.desc.length.toNat + chunkBytes o - 1) / chunkBytes o)

/-- Take up to n buffers for an operation. -/
def takeBuffers : Nat → State → Ld → RingNo → RingOp → State
  | 0, s, _, _, _ => s
  | n + 1, s, ld, ring, o =>
    match bufGrant s (poolOf o) { block := 1, mid := Fin.ofNat 4096 ld.val } with
    | none => poolEmpty s (poolOf o)
    | some (h, s) => takeBuffers n (updOp s ld ring o.num fun o => { o with buffers := o.buffers ++ [(poolOf o, h)] }) ld ring o

/-- Operations that hold their first buffer and wait for a later one ask again (R121, R465). -/
def askBuffers (s : State) : State :=
  ((opsAt s .running).filter fun x => !x.2.2.buffers.isEmpty && decide (x.2.2.buffers.length < buffersWanted x.2.2)).foldl (fun s x =>
    if (poolAt s (poolOf x.2.2)).cache.isEmpty then s else takeBuffers (buffersWanted x.2.2 - x.2.2.buffers.length) s x.1 x.2.1 x.2.2) s

/-! ### Progress (R121, R122, R124, R125) -/

/-- Bytes of the range in the line at its next byte. -/
def nextPart (o : RingOp) : Nat := min (64 - (o.desc.offset.toNat + o.next) % 64) (o.desc.length.toNat - o.next)

/-- The line of the next byte of an operation's range. -/
def nextLine (s : State) (o : RingOp) : Nat :=
  (plotRec s o.desc.plot.val).base * 4194304 + (o.desc.offset.toNat + o.next) / 64

/-- A line made of some bytes from a byte position on. -/
def placeBytes (at_ : Nat) (bs : List (BitVec 8)) : Line :=
  bs.foldr (fun b (l : Line) => (l <<< 8) ||| b.zeroExtend 512) 0 <<< (8 * at_)

/-- Byte enables of n bytes from a byte position on. -/
def byteRun (at_ n : Nat) : ByteMask := (BitVec.ofNat 64 (2 ^ n - 1)) <<< at_

/-- Has a request of the POU not reached its place in the order yet? -/
def unorderedReq (s : State) (id : Nat) : Bool :=
  s.pou.writes.any (fun w => w.id = id && !ordered w) || s.pou.fwdWrites.any (fun f => f.id = id && f.seq.isNone) ||
    s.chain.reqs.any (fun r => r.id = id) || s.chain.waiting.any fun r => r.id = id

/-- Is a covered write still short of durable (R164)? -/
def notDurable (s : State) (id : Nat) : Bool :=
  s.pou.writes.any (fun w => w.id = id && !w.durable) || s.pou.fwdWrites.any (fun f => f.id = id && !(f.seq.isSome && f.noticed)) ||
    s.chain.reqs.any (fun r => r.id = id) || s.chain.waiting.any fun r => r.id = id

/-- Lines an operation holds in flight at most. -/
def opWindow (o : RingOp) : Nat := max 1 o.buffers.length * (chunkBytes o / 64)

/-- Ask host memory for the next chunks of a COPY_IN: one host read per buffer, at most four (R121). -/
def askHost : Nat → State → Ld → RingNo → Nat → State
  | 0, s, _, _, _ => s
  | n + 1, s, ld, ring, num =>
    match findOp s ld ring num with
    | none => s
    | some o =>
      let waiting := (o.bytes.length + chunkBytes o - 1) / chunkBytes o
      if o.faulted || o.desc.length.toNat ≤ o.asked || o.buffers.length ≤ o.hostReads.length + waiting then s
      else
        let k := min (chunkBytes o) (o.desc.length.toNat - o.asked)
        let s := toHost s ld (.hostRead ld ring (some num) ((o.desc.hostAddr.toNat + o.asked) % 2 ^ 64) k)
        askHost n (updOp s ld ring num fun o => { o with asked := o.asked + k, hostReads := o.hostReads ++ [k] }) ld ring num

/-- Add an issued line to an operation. -/
def issued (s : State) (ld : Ld) (ring : RingNo) (num id part : Nat) : State :=
  updOp s ld ring num fun o => { o with next := o.next + part, lines := o.lines ++ [id] }

/-- Issue the next line of a COPY_IN or ZERO_RANGE, once every earlier line has its place in the order (R122, R141) and
writes are not stopped (R180). -/
def issueWrite (s : State) (ld : Ld) (ring : RingNo) (o : RingOp) : State :=
  let part := nextPart o
  let zero := o.desc.opcode = 0x03
  if part = 0 || o.faulted || o.status ≠ 0 || writesStopped s || o.lines.any (unorderedReq s) || (!zero && decide (o.bytes.length < part)) then s
  else
    let got := if zero then [] else o.bytes.take part
    let at_ := (o.desc.offset.toNat + o.next) % 64
    let poison := got.any (·.2)
    let (id, s) := acceptWrite s (.ring ld ring o.num) ld.val o.desc.plot.val (nextLine s o) (placeBytes at_ (got.map (·.1)))
      (byteRun at_ part) poison .invalid
    updOp (issued s ld ring o.num id part) ld ring o.num fun o => { o with bytes := o.bytes.drop (if zero then 0 else part) }

/-- Issue the next line of a COPY_OUT or DIGEST_RANGE. -/
def issueRead (s : State) (ld : Ld) (ring : RingNo) (o : RingOp) : State :=
  let part := nextPart o
  if part = 0 || o.status ≠ 0 || opWindow o ≤ o.lines.length then s
  else
    let (id, s) := acceptRead s (.ring ld ring o.num) ld.val o.desc.plot.val (nextLine s o) .invalid
    issued s ld ring o.num id part

/-- A pinned clod that no longer keeps its PIN waiting: resident, or never written (R125). -/
def pinHolds (s : State) (clod : Nat) : Bool :=
  let t := (entryOf s clod).tier
  t = 0 || t = 1

/-- One step of a running operation. -/
def stepOp (s : State) (ld : Ld) (ring : RingNo) (num : Nat) : State :=
  match findOp s ld ring num with
  | none => s
  | some o =>
    if o.stage ≠ .running then s
    else if o.desc.opcode = 0x01 || o.desc.opcode = 0x03 then
      if (nextPart o = 0 || o.faulted || o.status ≠ 0) && o.lines.isEmpty then endData s ld ring o
      else
        let s := issueWrite s ld ring o
        if o.desc.opcode = 0x01 then askHost 4 s ld ring num else s
    else if o.desc.opcode = 0x02 || o.desc.opcode = 0x18 then
      if (nextPart o = 0 || o.status ≠ 0) && o.lines.isEmpty then endData s ld ring o else issueRead s ld ring o
    else if o.desc.opcode = 0x04 then
      let ring_ := (ringAt s ld ring).ops
      if (o.waits.any (notDurable s)) || o.waitsOps.any (fun n => ring_.any fun x => x.num = n && x.stage ≠ .ended) then s
      else endOp s ld ring num stSuccess 0
    else if o.desc.opcode = 0x0A then
      if o.pins.all (pinHolds s) then endOp s ld ring num stSuccess o.result else s
    else s

/-- Every running operation: LD, ring and number. -/
def runningOps (s : State) : List (Ld × RingNo × Nat) :=
  s.cre.rings.flatMap fun e =>
    (e.2.ops.filter fun o => o.stage = .running).map fun o => (Fin.ofNat 256 (e.1 / 256), Fin.ofNat 256 e.1, o.num)

/-- One round over the running operations. -/
def stepRings (s : State) : State := (runningOps s).foldl (fun s x => stepOp s x.1 x.2.1 x.2.2) s

/-- How far the running operations have come. -/
def ringMark (s : State) : Nat :=
  s.cre.rings.foldl (fun n e => e.2.ops.foldl (fun n o => n + o.next + o.asked + (if o.stage = .ended then 1 else 0)) n) 0

/-- Lines the running operations may still issue. -/
def ringFuel (s : State) : Nat :=
  s.cre.rings.foldl (fun n e => e.2.ops.foldl (fun n o => if o.stage = .running then n + o.desc.length.toNat / 64 + 2 else n) n) 0

/-- Requests and operations go on in turn until nothing moves. -/
def settleLoop : Nat → State → State
  | 0, s => pump s
  | n + 1, s =>
    let s := pump s
    let t := stepRings s
    if ringMark t = ringMark s && t.pou.nextId = s.pou.nextId then t else settleLoop n t

/-- Move requests and ring operations as far as the present state lets them come. -/
def drive (s : State) : State := settleLoop (ringFuel s + 1) s

/-! ### Completion entries (R130 to R134) -/

/-- Raise a ring's interrupt, which covers every entry written so far (R134). -/
def ringInterrupt (s : State) (ld : Ld) (ring : RingNo) : State :=
  sendMsix (updRing s ld ring fun r => { r with unsignalled := 0 }) ld (getFi s Reg.CRE_RING_IRQ.vector (ringIdx ld ring))

/-- Bytes 0 to 11 of a completion entry (R129). -/
def entryLow (result sqHead : Nat) (cid : BitVec 16) : BitVec 96 := BitVec.ofNat 96 (result % 2 ^ 64 + sqHead % 2 ^ 16 * 2 ^ 64 + cid.toNat * 2 ^ 80)

/-- Bytes 12 to 15 of a completion entry: status, ring, reserved zeros and phase (R129). -/
def entryHigh (status : Nat) (ring : RingNo) (phase : Bool) : Word :=
  BitVec.ofNat 32 (status % 256 + ring.val * 256 + if phase then 2 ^ 31 else 0)

/-- Write an ended operation's completion entry, as two posted writes, and move the CQ tail (R130, R131). -/
def writeEntry (s : State) (ld : Ld) (ring : RingNo) (o : RingOp) : State :=
  let r := ringAt s ld ring
  let n := cqEntries s ld ring
  let at_ := cqBase s ld ring + r.cqTail * 16
  let s := toHost s ld (.cqLow ld ring at_ (entryLow o.result r.sqHead o.desc.cid))
  let s := toHost s ld (.cqHigh ld ring (at_ + 12) (entryHigh o.status ring r.phase))
  let tail := (r.cqTail + 1) % n
  let s := updRing s ld ring fun r => { r with cqTail := tail, phase := if tail = 0 then !r.phase else r.phase, unsignalled := r.unsignalled + 1 }
  let count := getFi s Reg.CRE_RING_IRQ.coal_count (ringIdx ld ring)
  if count = 0 || decide (count ≤ r.unsignalled + 1) || o.desc.irqNow then ringInterrupt s ld ring else s

end Sys2Proof.Machine
end

