-- ==== Sys2Proof/Machine/HostOps.lean ====
section
/-! DEFINITION. Host links as every block uses them (03): a link going down, an LD's reset, training, and the extents
that follow plots and rights. -/

namespace Sys2Proof.Machine

/-- A port as a number below 16. -/
def portOf (n : Nat) : Port := Fin.ofNat 16 n

/-- Change a host link. -/
def updLink (s : State) (port : Nat) (f : HostLink → HostLink) : State :=
  { s with hfp.links := supd {} s.hfp.links port f }

/-- An LD's state. -/
def ldState (s : State) (ld : Ld) : LdState := sget {} s.hfp.lds ld.val

/-- Change an LD's state. -/
def updLd (s : State) (ld : Ld) (f : LdState → LdState) : State := { s with hfp.lds := supd {} s.hfp.lds ld.val f }

/-- The LDs of a port. -/
def ldsOf (port : Nat) : List Ld := allLds.filter fun ld => ld.val / 16 = port

/-- A field of a port's registers. -/
def portField (f : Field) (port : Nat) : Field := fieldAt f (port * 0x100)

/-! ### HDM decoders (R76, R83) -/

/-- The DPA a host physical address names through an LD's decoders, and whether the decoder is HDM-DB. Interleaving takes
every (ways)-th unit of the granularity (CXL 3.1, PRESUMED). -/
def decodeHpa (s : State) (ld : Ld) (hpa : Nat) : Option (Nat × Bool) :=
  (ldState s ld).decoders.findSome? fun e =>
    let d := e.2
    if d.enabled && decide (d.hpaBase ≤ hpa) && decide (hpa < d.hpaBase + d.size) then
      let off := hpa - d.hpaBase
      some (d.dpaBase + off / (d.granularity * d.ways) * d.granularity + off % d.granularity, d.backInval)
    else none

/-! ### Bonding and training (R73, R99 to R101) -/

/-- The lowest port of a port's bond, by the arrangement in force (R73). -/
def bondLowest (s : State) (port : Nat) : Nat :=
  let arr := s.hfp.bondActive.toNat / 4 ^ (port / 4) % 4
  let inGroup := port % 4
  let base := port / 4 * 4
  match arr with
  | 0 => port
  | 1 => base + inGroup / 2 * 2
  | 2 => base
  | _ => if inGroup < 2 then base else port

/-- A port that carries a link of its own. -/
def isLowest (s : State) (port : Nat) : Bool := bondLowest s port = port

/-- An LD exists: a port that is not the lowest of its bond carries none (R73), and a link carries LDs 1 to 15 only as a multi-logical
CXL device (R79, R95). -/
def ldPresent (s : State) (ld : Ld) : Bool :=
  isLowest s (ld.val / 16) && (decide (ld.val % 16 = 0) || flag s (portField Reg.HFP_PORT_STS.mld (ld.val / 16)))

/-- What a command of an LD does, where the LD exists. -/
def atLd (s : State) (ld : Ld) (t : State) : State := if ldPresent s ld then t else s

/-- An LD's link carries CXL for it: a link of its own, up in a CXL mode, and LD 0 or multi-logical operation (R73,
R79, R95). -/
def carriesMem (s : State) (ld : Ld) : Bool :=
  linkUp s (ld.val / 16) && decide (2 ≤ getF s (portField Reg.HFP_PORT_STS.mode (ld.val / 16))) && ldPresent s ld

/-- May a port's link train now? -/
def mayTrain (s : State) (port : Nat) : Bool :=
  isLowest s port && !(hostLink s port).perst && flag s (portField Reg.HFP_PORT_CTL.enable port) && !s.glb.hfpReset &&
    twinMode s ≠ 6 && twinMode s ≠ 7 && !flushing s && flag s Reg.GLB_CLK_STS.refclk_a_ok &&
    getF s Reg.GLB_CLK_STS.host_sd_lock / 2 ^ (port / 4) % 2 = 1

/-- A link that may train and does not yet begins. -/
def startTraining (s : State) (port : Nat) : State :=
  if mayTrain s port && !linkUp s port && !(hostLink s port).training then
    emit (updLink s port fun l => { l with training := true, ctl := regAt s (portField Reg.HFP_PORT_CTL.enable port).addr 0 }) (.linkTrain (portOf port))
  else s

/-- Every link that may train begins. -/
def startAllTraining (s : State) : State := (List.range 16).foldl startTraining s

/-- A link's lanes are held without termination. -/
def quietLink (s : State) (port : Nat) : State := emit (updLink s port fun l => { l with training := false }) (.linkQuiet (portOf port))

/-! ### The end of a link's requests (R97) -/

/-- Does a request come from a host of a set of LDs? -/
def fromLds (gone : Nat → Bool) (o : Origin) : Bool :=
  match o with
  | .host ld _ => gone ld.val
  | .mailbox ld => gone ld.val
  | _ => false

/-- An origin whose answer is discarded. -/
def orphan (gone : Nat → Bool) (mid : Nat) (o : Origin) : Origin := if fromLds gone o then .writeBack (Fin.ofNat 4096 mid) else o

/-- End the requests of some LDs: unordered writes and reads are discarded, ordered writes complete inside (R97). -/
def endRequests (s : State) (gone : Nat → Bool) : State :=
  { s with
    pou.writes := (s.pou.writes.filter fun w => ordered w || !fromLds gone w.origin).map fun w => { w with origin := orphan gone w.mid w.origin }
    pou.reads := s.pou.reads.filter fun r => !fromLds gone r.origin
    pou.fwdWrites := s.pou.fwdWrites.map fun f => { f with origin := orphan gone f.mid f.origin }
    pou.fwdReads := s.pou.fwdReads.map fun f => { f with origin := orphan gone f.mid f.origin }
    chain.reqs := s.chain.reqs.map fun r => { r with origin := orphan gone r.mid r.origin }
    chain.waiting := s.chain.waiting.filter fun r => !fromLds gone r.origin }

/-- Outstanding snoops to some local LDs count as answered: their hosts hold no copy (R86, R97). -/
def endSnoops (s : State) (gone : Nat → Bool) : State :=
  (s.fcd.snoops.filter fun x => x.target < 0x100 && gone x.target).foldl (fun s x => answerSnoop s x) s

/-- A port's status registers as they read with the link down. -/
def clearPortSts (s : State) (port : Nat) : State := setRegAt s (Reg.HFP_PORT_STS.link_up.addr + port * 0x100) 0 0

/-- The LD whose mailbox a command uses. -/
def mailboxLd (i : Instr) : Option Ld :=
  match i with
  | .getEventRecords ld _ | .clearEventRecords ld _ _ | .getEventInterruptPolicy ld | .setEventInterruptPolicy ld _ | .getSupportedLogs ld
  | .getLog ld | .getTimestamp ld | .setTimestamp ld _ | .identifyMemoryDevice ld | .getHealthInfo ld | .getAlertConfiguration ld
  | .setAlertConfiguration ld _ _ | .getPoisonList ld _ _ | .injectPoison ld _ | .clearPoison ld _ _ | .getDcConfiguration ld
  | .getDcExtentList ld | .addDcResponse ld _ _ _ | .releaseDc ld _ _ | .mailboxUnsupported ld _ => some ld
  | _ => none

/-- A host link goes down (R97, R144, R211, R442): its requests end, its LDs' rings are reset, its masters leave the
directory, its IDE keys are cleared. -/
def linkDown (s : State) (port : Nat) : State :=
  let gone (m : Nat) : Bool := m < 0x100 && m / 16 = port
  let s := updLink (clearPortSts s port) port fun l => { l with recovery := false, replays := 0, training := false, staged := [], active := [] }
  let s := { s with
    hfp.held := s.hfp.held.filter fun e => e.1 ≠ port
    mgc.waiting := s.mgc.waiting.filter fun i => (mailboxLd i).all fun ld => ld.val / 16 ≠ port }
  let s := incFiBy (setFlag s (portField Reg.HFP_PORT_ERR.link_down port)) (portField Reg.HFP_PORT_RECOV_CNT.downs port) 0 1
  let s := raise s (port * 32) .linkDown 0xFFF [port]
  let s := unknownLinkDown (purgeHolders (endSnoops (endRequests s gone) gone) gone) port
  (ldsOf port).foldl resetRings s

/-- A link that is up goes down, and trains again if it may. -/
def dropLink (s : State) (port : Nat) : State := if linkUp s port then startTraining (linkDown s port) port else s

/-- The LD whose host something held on a link is for. -/
def emitLd (e : Emit) : Option Ld :=
  match e with
  | .memData ld .. | .memDone ld _ | .biSnp ld .. | .biConflictAck ld _ | .mailbox ld _ | .cdat ld .. | .extentEvent ld .. | .hostRead ld ..
  | .hostWrite ld .. | .cqLow ld .. | .cqHigh ld .. | .msix ld .. => some ld
  | _ => none

/-- A reset of one LD (R98). -/
def ldReset (s : State) (ld : Ld) : State :=
  let gone (m : Nat) : Bool := m = ld.val
  let s := clearRingSetup (resetRings (endRequests s gone) ld) ld
  let mine (n : Nat) : Bool := n / 64 = ld.val
  { s with
    mgc.waiting := s.mgc.waiting.filter fun i => mailboxLd i ≠ some ld
    hfp.held := s.hfp.held.filter fun e => emitLd e.2 ≠ some ld
    hfp.lds := supd {} s.hfp.lds ld.val fun l => { memoryActive := l.memoryActive, extents := l.extents, heldExtents := l.heldExtents }
    evr.policy := sdrop s.evr.policy fun k => k / 8 = ld.val
    evr.msixAddr := sdrop s.evr.msixAddr mine
    evr.msixData := sdrop s.evr.msixData mine
    evr.msixMask := sdrop s.evr.msixMask mine
    evr.msixPending := sdrop s.evr.msixPending mine
    evr.msixFnMask := sdrop s.evr.msixFnMask fun k => k = ld.val }

/-- A fenced controller takes every host link down and holds its lanes quiet (R101). -/
def dropAllLinks (s : State) : State :=
  (List.range 16).foldl (fun s p => quietLink (if linkUp s p then linkDown s p else s) p) s

/-! ### Extents (R81, R82) -/

/-- The dynamic-capacity log of an LD. -/
def dcLog : Nat := 4

/-- An extent's key: it belongs to one generation of its plot (R81). -/
def extentKey (plot generation : Nat) : Nat := generation * 4096 + plot

/-- What an LD holds of an extent. -/
def extentOf (s : State) (ld : Ld) (key : Nat) : Option ExtentState := sget none (ldState s ld).extents key

/-- Set it. -/
def setExtent (s : State) (ld : Ld) (key : Nat) (x : Option ExtentState) : State :=
  updLd s ld fun l => { l with extents := sput none l.extents key x }

/-- A plot number as a plot ID. -/
def plotIdOf (n : Nat) : PlotId := Fin.ofNat 4096 n

/-- Shared-coherent and shared read-only plots are offered as shared extents (R81). -/
def sharedExtent (s : State) (plot : Nat) : Bool :=
  (plotRec s plot).mode = .sharedCoherent || (plotRec s plot).mode = .sharedReadOnly

/-- Send an offer or a release request to a host: an entry in its dynamic-capacity log. -/
def sendExtent (s : State) (ld : Ld) (key : Nat) (add : Bool) : State :=
  let s := setExtent s ld key (some (if add then .offered else .releaseAsked))
  let plot := plotIdOf (key % 4096)
  let shared := sharedExtent s plot.val
  deliverLog (toHost s ld (.extentEvent ld plot (key / 4096) add shared)) ld dcLog (.extent plot (key / 4096) add shared)

/-- Hold an offer or release request while the LD cannot take it; an offer and a later release cancel out. -/
def holdExtent (s : State) (ld : Ld) (key : Nat) (add : Bool) : State :=
  updLd s ld fun l =>
    if !add && l.heldExtents.contains (key, true) then { l with heldExtents := l.heldExtents.filter fun e => e ≠ (key, true) }
    else if l.heldExtents.contains (key, add) then l
    else { l with heldExtents := l.heldExtents ++ [(key, add)] }

/-- An offer or release request falls due. -/
def extentDue (s : State) (ld : Ld) (key : Nat) (add : Bool) : State :=
  if carriesMem s ld then sendExtent s ld key add else holdExtent s ld key add

/-- The key of a plot's present extent. -/
def extentNow (s : State) (plot : Nat) : Nat := extentKey plot (plotRec s plot).generation

/-- Offer a plot's extent to every LD with rights above 0 that holds none of it; one that rejected it is offered it again. -/
def offerExtents (s : State) (plot : Nat) : State :=
  let key := extentNow s plot
  allLds.foldl (fun s ld =>
    if 0 < aclRights s plot ld.val && (extentOf s ld key = none || extentOf s ld key = some .rejected) then extentDue s ld key true else s) s

/-- Ask back a plot's extent from every LD that accepted it and passes; a held offer is withdrawn. -/
def askBackExtents (s : State) (plot : Nat) (which : Ld → Bool) : State :=
  let key := extentNow s plot
  allLds.foldl (fun s ld =>
    if which ld && (extentOf s ld key = some .held || (ldState s ld).heldExtents.contains (key, true)) then extentDue s ld key false else s) s

/-- May an LD still be offered an extent: its plot is open under that generation and grants rights. -/
def extentGranted (s : State) (ld : Ld) (key : Nat) : Bool :=
  let r := plotRec s (key % 4096)
  plotOpen r && r.generation = key / 4096 && decide (0 < aclRights s (key % 4096) ld.val)

/-- A link is up again: what was held is sent, if the LD's rights still call for it. -/
def flushExtents (s : State) (ld : Ld) : State :=
  let held := (ldState s ld).heldExtents
  held.foldl (fun s e => if e.2 = extentGranted s ld e.1 then sendExtent s ld e.1 e.2 else s) (updLd s ld fun l => { l with heldExtents := [] })

end Sys2Proof.Machine
end

