-- ==== Sys2Proof/Machine/IngressOps.lean ====
section
/-! DEFINITION. The requests of a chain's ingress node (11): their frames, tags, resends and waits;
and the answers of its own hosts to snoops. -/

namespace Sys2Proof.Machine

/-- Chain requests in flight at most (R396). -/
def chainCap : Nat := 4096

/-- The node a request goes to, and the epoch it expects there. -/
def reqNode (r : ChainReq) : Fin 4096 × Word := if r.alt then (r.snap.altNode, r.snap.altEpoch) else (r.snap.priNode, r.snap.priEpoch)

/-- Oldest tag in flight. -/
def lowTag (s : State) : Word := (s.chain.reqs.head?.map (·.tag)).getD s.chain.nextTag

/-- The frame of a request. -/
def reqFrame (s : State) (r : ChainReq) : ChainFrame :=
  let (node, e) := reqNode r
  { dst := node, hops := maxHops s, epoch := e
    pfx := { srcNode := nodeOf s.chain.nodeId, cls := r.cls, poison := r.poison, srcEpoch := s.chain.nodeEpoch, tag := r.tag, lowTag := lowTag s }
    body := if r.write then .write r.dpa r.be r.data r.metaVal else .read r.dpa r.metaVal }

/-- Change a request in flight. -/
def updReq (s : State) (r : ChainReq) : State := { s with chain.reqs := s.chain.reqs.map fun x => if x.tag = r.tag then r else x }

/-- A request is over. -/
def dropReq (s : State) (tag : Word) : State := { s with chain.reqs := s.chain.reqs.filter fun x => x.tag ≠ tag }

/-- Find a request in flight. -/
def findReq (s : State) (tag : Word) : Option ChainReq := s.chain.reqs.find? fun x => x.tag = tag

/-- The local line of a request's window. -/
def reqLine (r : ChainReq) : Nat := r.dpa.toNat / 64 - r.snap.remoteBase * 4194304 + r.snap.localBase * 4194304

/-- A read's data leave for its host. -/
def giveData (s : State) (r : ChainReq) (v : LineVal) : State :=
  match r.origin with
  | .host ld tag => toHost s ld (.memData ld tag (if v.poison then 0 else v.data) v.poison)
  | _ => s

/-- A write's completion leaves for its host. -/
def giveDone (s : State) (r : ChainReq) : State :=
  match r.origin with
  | .host ld tag => writeDone s ld tag
  | _ => s

/-- The host keeps a copy of a window's line: its own controller records it (R401, R209). -/
def noteHolder (s : State) (r : ChainReq) : State :=
  if r.metaVal = .invalid then s
  else recordHolder s (reqLine r) { write := r.write, metaVal := r.metaVal, requester := requesterOf r.origin r.mid }

/-- A request's resends are exhausted (R399). -/
def exhaustReq (s : State) (r : ChainReq) : State :=
  let s := setFlag (dropReq s r.tag) Reg.FLK_CHAIN_ERR.exhausted
  let s := raise s 1528 .chainError r.mid [r.window, r.mid]
  if !r.write then giveData s r poisonLine
  else if !r.unsure then giveDone s r
  else match r.origin with
    | .host ld _ => dropLink s (ld.val / 16)
    | .writeBack m => if m.val < 0x100 then dropLink s (m.val / 16) else s
    | _ => s

/-- Resend a request, to the alternate node if asked and one is valid; a frame without a route counts as unreachable
(R392, R398). -/
def resendReq : Nat → State → ChainReq → Bool → State
  | 0, s, _, _ => s
  | n + 1, s, r, toAlt =>
    if 3 ≤ r.resends then exhaustReq s r
    else
      let r := { r with resends := r.resends + 1, alt := r.alt || (toAlt && r.snap.altValid) }
      let s := updReq (incF s Reg.FLK_CHAIN_ABORT.resends) r
      match sendChain s (reqFrame s r) with
      | (true, s) => s
      | (false, s) => resendReq n s r true

/-- A request that waited takes its window as it stands when it is issued, if that still covers its line (R405). -/
def freshen (s : State) (r : ChainReq) : ChainReq :=
  match sget none s.chain.windows r.window with
  | some w =>
    let line := reqLine r
    if w.localBase ≤ granuleOfLine line && granuleOfLine line < w.localBase + w.size then
      { r with snap := w, dpa := BitVec.ofNat 64 ((line - w.localBase * 4194304 + w.remoteBase * 4194304) * 64) }
    else r
  | none => r

/-- Put a request in flight under the next tag (R396). -/
def issueReq (s : State) (r : ChainReq) : State :=
  let r := { freshen s r with tag := s.chain.nextTag }
  let s := { s with chain.nextTag := s.chain.nextTag + 1, chain.reqs := s.chain.reqs ++ [r] }
  match sendChain s (reqFrame s r) with
  | (true, s) => s
  | (false, s) => resendReq 4 s r true

/-- Requests that waited take the places that have gone free, in their order; one whose MAC has yet to be checked is passed over (R88). -/
def issueWaiting : Nat → State → State
  | 0, s => s
  | n + 1, s =>
    match s.chain.waiting.find? fun r => r.mac = 0 with
    | none => s
    | some r =>
      if s.chain.reqs.length < chainCap then
        issueWaiting n (issueReq { s with chain.waiting := s.chain.waiting.filter fun x => x.id ≠ r.id } r)
      else s

/-- The end of a command that may have ended requests. -/
def chainEnd (s : State) : State := issueWaiting s.chain.waiting.length s

/-- A request to a window leaves, or waits for a place and for the check of its MAC; its number in the POU's count. -/
def startChain (s : State) (origin : Origin) (mid cls window : Nat) (w : Window) (write : Bool) (line : Nat) (be : ByteMask) (data : Line)
    (poison : Bool) (metaVal : MetaValue) (mac : Fin 3) : State :=
  let (id, s) := newId s
  let remote := line - w.localBase * 4194304 + w.remoteBase * 4194304
  let r : ChainReq := { id := id, tag := 0, origin := origin, mid := mid, cls := Fin.ofNat 32 cls, window := window, snap := w, write := write,
                        dpa := BitVec.ofNat 64 (remote * 64), be := be, data := if poison then 0 else data, poison := poison, metaVal := metaVal,
                        alt := false, resends := 0, unsure := false, mac := mac }
  if s.chain.reqs.length < chainCap && mac = 0 then issueReq s r else { s with chain.waiting := s.chain.waiting ++ [r] }

/-! ### Snoop answers (R85, R88, R213) -/

/-- The MAC of a request that arrives on a link with an active CXL.mem stream has yet to be checked (R88). -/
def arriving (s : State) (ld : Ld) : Fin 3 := if flag s (portField Reg.HFP_PORT_STS.ide_mem (ld.val / 16)) then 2 else 0

/-- The plot a host's write-back may go to, with its rights (R59, R65). -/
def backPlot (s : State) (mid line : Nat) : Option Nat :=
  match reach s line with
  | some p => if hasRights s p mid 2 && !((plotRec s p).mode = .sharedReadOnly && (plotRec s p).state = .active) then some p else none
  | none => none

/-- Take the modified data a host sends with its BIRsp: an ordinary write, placed before what caused the snoop; of a
window's line, a chain write (R387). -/
def takeBack (s : State) (ld : Ld) (line : Nat) (v : LineVal) : State :=
  match windowOf s (granuleOfLine line), classOf s ld.val with
  | some (i, w), some cls =>
    startChain s (.writeBack (Fin.ofNat 4096 ld.val)) ld.val cls i w true line (BitVec.allOnes 64) v.data v.poison .invalid 0
  | some _, none => countDenial s ld.val 0xFFF line
  | none, _ =>
  match backPlot s ld.val line with
  | some p =>
    let (id, s) := acceptHostWrite s (.writeBack (Fin.ofNat 4096 ld.val)) ld.val p line v.data (BitVec.allOnes 64) v.poison .invalid
    advanceWrite s id
  | none => countDenial s ld.val ((reach s line).getD 0xFFF) line

/-- A host's answer to a snoop counts: what it modified is written, or goes with the answer to a chain owner (R401). -/
def takeAnswer (s : State) (x : Snoop) (wb : Option LineVal) : State :=
  match wb, x.cause with
  | some v, .chain _ _ => answerSnoop s { x with back := some v }
  | some v, _ => answerSnoop (takeBack s (Fin.ofNat 256 x.target) x.line v) x
  | none, _ => answerSnoop s x

/-- Answers whose MACs have checked good count now (R88). -/
def answersGood (s : State) : State :=
  (s.fcd.snoops.filter fun x => x.mac = 0 && x.answer.isSome).foldl (fun s x => takeAnswer s x (x.answer.getD none)) s

end Sys2Proof.Machine
end

