-- ==== Sys2Proof/Machine/RepairOps.lean ====
section
/-! DEFINITION. Repairs that many commands share: corrections and hard marks of Loam lines (R413 to R418), the end of
grain reads and of the repair ladder (R278 to R289), clod fetches (R288) and cipher cores taken out (R448). -/

namespace Sys2Proof.Machine

/-! ### Cipher cores (R445 to R448) -/

/-- Clear one bit of a mask. -/
def clearBit (v bit : Nat) : Nat := if v / 2 ^ bit % 2 = 1 then v - 2 ^ bit else v

/-- Take an XTS core out of service (R448, R455). -/
def coreOut (s : State) (core : Nat) : State :=
  let s := setFlag s Reg.CKU_ERR.xts_core_out
  let s := setF s Reg.CKU_XTS_STS.in_service (clearBit (getF s Reg.CKU_XTS_STS.in_service) core)
  adviseReplace (raise s 1448 .cipherOut 0xFFF [0, core]) 8

/-- A check of an XTS core differs (R446): it is counted, and the core goes. -/
def xtsOut (s : State) (core : Nat) : State :=
  coreOut (incF (setFlag s Reg.CKU_ERR.xts_mismatch) Reg.CKU_CHECK_CNT.xts_mismatch) core

/-- A job is refused for its length (R450): its requester's master ID is kept, and an event names it. -/
def ckuRefuse (s : State) (mid : Nat) : State :=
  raise (incF (setF (setFlag s Reg.CKU_ERR.len_err) Reg.CKU_LEN_ERR.last_mid mid) Reg.CKU_LEN_ERR.count) 1448 .jobRefused mid [mid]


/-- Give a pair a role; its assignment epoch rises (R445). -/
def giveRole (s : State) (pair role : Nat) : State :=
  setFi (setFi s Reg.CKU_GCM_ROLE.role pair role) Reg.CKU_GCM_EPOCH.epoch pair (getFi s Reg.CKU_GCM_EPOCH.epoch pair + 1)


/-- Take a GCM pair out of service; a spare takes its role, if there is one (R448, R455). -/
def pairOut (s : State) (pair : Nat) : State :=
  let role := gcmRole s pair
  let s := setFlag s Reg.CKU_ERR.gcm_pair_out
  let s := setF s Reg.CKU_GCM_STS.in_service (clearBit (getF s Reg.CKU_GCM_STS.in_service) pair)
  let s := if role = 0 then s
    else match (List.range 24).find? fun p => gcmIn s p && gcmRole s p = 0 with
      | some p => giveRole s p role
      | none => setFlag s Reg.CKU_ERR.no_spare
  adviseReplace (raise s 1448 .cipherOut 0xFFF [1, pair]) 8

/-- The cores of a GCM pair differ (R447): it is counted, and the pair goes. -/
def gcmOut (s : State) (pair : Nat) : State :=
  pairOut (incF (setFlag s Reg.CKU_ERR.gcm_mismatch) Reg.CKU_CHECK_CNT.gcm_mismatch) pair

/-- A GCM job has ended: true if it gave a verdict or output; otherwise its pair is taken out, or the job was refused (R447, R448, R450). -/
def gcmEnds (s : State) (mid : Nat) (e : GcmEnd) : Bool × State :=
  match e with
  | .good => (true, s)
  | .differs pair => (false, gcmOut s pair.val)
  | .refused => (false, ckuRefuse s mid)

/-- The job of a frame (R448): where the first pair gives no verdict a second one checks the frame; without one there either the controller
stops (R204). DESIGN CHOICE: the requester that CKU_LEN_ERR names is FLK's 0x31A. -/
def frameJob (s : State) (c : GcmCheck) : Bool × State :=
  match gcmEnds s 0x31A c.first with
  | (true, s) => (true, s)
  | (false, s) =>
    match gcmEnds s 0x31A c.second with
    | (true, s) => (true, s)
    | (false, s) => (false, { s with fcd.fatal := some .elsewhere })

/-! ### Corrections and hard marks (R413 to R416, R250) -/

/-- The log's entry for an address. -/
def ceFind (s : State) (lpa : Nat) : Option CeEntry := (s.diu.ceLog.filterMap id).find? fun e => e.lpa = lpa

/-- Change the log's entry for an address. -/
def ceUpd (s : State) (lpa : Nat) (f : CeEntry → CeEntry) : State :=
  { s with diu.ceLog := s.diu.ceLog.map fun e => e.map fun e => if e.lpa = lpa then f e else e }

/-- Put an entry at the first place of the log that passes. -/
def cePut (e : CeEntry) (here : Option CeEntry → Bool) : List (Option CeEntry) → List (Option CeEntry)
  | [] => []
  | x :: t => if here x then some e :: t else x :: cePut e here t

/-- The address hit least recently among the entries that pass. -/
def ceOldest (log : List (Option CeEntry)) (ok : CeEntry → Bool) : Option Nat :=
  ((log.filterMap id).foldl (fun (best : Option CeEntry) e =>
    if !ok e then best
    else match best with
      | some b => if e.lastHit < b.lastHit then some e else best
      | none => some e) none).map (·.lpa)

/-- Log a correction at an address not in the log (R415): a free place, else one at count 1, else any, least recently hit first. -/
def ceEnter (s : State) (lpa device : Nat) : State :=
  let e : CeEntry := { lpa := lpa, device := device, count := 1, hard := false, writtenBack := false, lastHit := s.devTime }
  let log := s.diu.ceLog ++ List.replicate (64 - s.diu.ceLog.length) none
  if log.any Option.isNone then { s with diu.ceLog := cePut e Option.isNone log }
  else match ceOldest log fun x => x.count = 1 with
    | some old => { s with diu.ceLog := cePut e (fun x => x.any fun x => x.lpa = old) log }
    | none =>
      match ceOldest log fun _ => true with
      | some old =>
        let s := raise (setFlag s Reg.DIU_ERR.log_full) 1392 .logFull 0xFFF []
        { s with diu.ceLog := cePut e (fun x => x.any fun x => x.lpa = old) log }
      | none => s

/-- A device and its rank and subchannel, as a key. -/
def deviceKey (s : State) (lpa device : Nat) : Nat := (subchannelOf lpa * 64 + bankOf s lpa / 32) * 16 + device

/-- Soft post-package repair of a row is due, in each device DIU names (R250): it begins once LMC has two sand buffers for the row. -/
def startSppr (s : State) (lpa device : Nat) : State :=
  let bank := subchannelOf lpa * 512 + bankOf s lpa
  let same (x : Sppr) : Bool := x.bank = bank && x.row = rowOf s lpa && x.buffers.isEmpty
  if s.lmc.spprs.any same then
    { s with lmc.spprs := s.lmc.spprs.map fun x => if same x then { x with devices := (x.devices ++ [device]).eraseDups } else x }
  else
    { s with lmc.spprs := s.lmc.spprs ++ [{ channel := channelOf lpa, bank := bank, row := rowOf s lpa, devices := [device], frame := lpa / 1024 }] }

/-- Mark a location hard (R416): its row is repaired; eight hard rows degrade the device. -/
def markHard (s : State) (lpa device : Nat) : State :=
  let s := incF (setFlag (ceUpd s lpa fun e => { e with hard := true }) Reg.DIU_ERR.loam_hard) Reg.DIU_HARD_CNT.loam_hard
  let s := raise s (512 + channelOf lpa * 16 + 1) .loamHard 0xFFF [channelOf lpa, subOfLpa lpa, bankOf s lpa / 32, bankOf s lpa % 32, rowOf s lpa, device]
  let key := deviceKey s lpa device
  let rows := sget [] s.diu.hardRows key
  let s := if rows.contains (rowOf s lpa) then s else { s with diu.hardRows := sput [] s.diu.hardRows key (rows ++ [rowOf s lpa]) }
  let s := if 8 ≤ (sget [] s.diu.hardRows key).length && rows.length < 8 then
      adviseReplace (raise (setFlag s Reg.DIU_ERR.device_degraded) 1392 .deviceDegraded 0xFFF [key]) 1
    else s
  startSppr s lpa device

/-- Count and log a correction (R413, R415, R416). -/
def logCorrection (s : State) (lpa device : Nat) : State :=
  let ch := channelOf lpa
  let s := incFi s Reg.DIU_CE_DATA.corrected ch
  let s := { s with diu.ceSecond := supd 0 s.diu.ceSecond ch (· + 1) }
  match ceFind s lpa with
  | none => ceEnter s lpa device
  | some e =>
    let s := ceUpd s lpa fun e => { e with device := device, count := min 3 (e.count + 1), lastHit := s.devTime }
    if 2 ≤ e.count && e.writtenBack && !e.hard then markHard s lpa device else s

/-- Queue a corrected line for write-back by its channel group's scrub engine, if the queue has room (R413). -/
def queueScrub (s : State) (lpa : Nat) (v : LineVal) : State :=
  let eng := channelOf lpa / 4
  let q := sget [] s.diu.scrubQueue eng
  if q.length < 256 then { s with diu.scrubQueue := sput [] s.diu.scrubQueue eng (q ++ [{ lpa := lpa, val := v, stale := false }]) } else s

/-- A Loam line decodes corrected in a device. -/
def loamCorrected (s : State) (lpa device : Nat) (v : LineVal) : State := queueScrub (logCorrection s lpa device) lpa v

/-! ### Users of a line that was found (R194, R411, R278) -/

/-- Serves for the partner: a grain is ready (R288). -/
def serveGrain (s : State) (tag grain : Nat) (failed : Bool) : State :=
  { s with bfc.serves := s.bfc.serves.map fun x =>
      if x.1 = tag then (x.1, x.2.1, x.2.2.1.filter (· ≠ grain), x.2.2.2 || failed) else x }

/-- The partner's answer to a fetch it asked for: both halves of the clod, or a refusal, once every grain is in. -/
def finishServes (s : State) : State :=
  let done := s.bfc.serves.filter fun x => x.2.2.1.isEmpty
  let s := { s with bfc.serves := s.bfc.serves.filter fun x => !x.2.2.1.isEmpty }
  done.foldl (fun s x =>
    let (tag, clod, _, failed) := x
    let s := checkClod s clod
    if mirrored s && s.fcd.fatal.isSome then s
    else if failed then sendFrame s 0x0E 0 0 (.clodRefuse tag clod)
    else if isHome s (plotRec s ((plotOfClod s clod).getD 0)) then
      { s with twin.resend := s.twin.resend ++ [clod], twin.copies := s.twin.copies.filter (fun c => c.1 ≠ clod) ++ [(clod, [])] }
    else
      let im : ClodImage := (List.range 1024).filterMap fun i =>
        let v := currentLine s (clod * 1024 + i)
        if v = zeroLine then none else some (i, v)
      let half (h : Nat) : ClodImage := (im.filter fun e => e.1 / 512 = h)
      sendFrame (sendFrame s 0x0E 0 0 (.clodData tag clod 0 (half 0))) 0x0E 0 0 (.clodData tag clod 1 (half 1))) s


/-! ### Uncorrectable Loam lines (R418) -/

/-- The repair of a line in progress. -/
def repairOf (s : State) (line : Nat) : Option UeRepair := s.diu.repairs.find? fun r => r.line = line

/-- Give the waiting users of a Loam line its contents: the fill ends (R193). -/
def serveUsers (s : State) (users : List FillUser) (v : LineVal) (lineOf : Nat) : State :=
  users.foldl (fun s u =>
    match u with
    | .read id => updRdRec s id fun r => { r with val := some v }
    | .merge line =>
      match s.diu.merges.find? fun m => m.line = line with
      | some m => mergeWith s m v
      | none => s
    | .flush => s
    | .service tag => serveGrain s tag (grainIn lineOf) false
    | .copy _ => s
    | .repair _ => s) s

/-- A Loam fill ends with a line's contents: users go on, and the line stands in its way; then the maintenance operations that waited for it
act (R193, R199). -/
def endFill (s : State) (f : Fill) (v : LineVal) : State :=
  let s := { s with fcd.fills := s.fcd.fills.filter fun x => x.line ≠ f.line }
  runMaint (serveUsers (installFill s f.line v) f.users v f.line)

/-- The repair of a line has its contents: Loam is written again and everyone who waits goes on. A repaired line is logged as one correction
(R418). DESIGN CHOICE (log entry 49): with device 15, since no device is known; the write is 0x30F's. -/
def endRepair (s : State) (r : UeRepair) (v : LineVal) (repaired : Bool) : State :=
  let s := { s with diu.repairs := s.diu.repairs.filter fun x => x.line ≠ r.line }
  let s := lmcRequest (setLoam s r.lpa v) 0x30F true r.lpa
  let s := if repaired then logCorrection s r.lpa 15 else s
  match s.fcd.fills.find? fun f => f.line = r.line with
  | some f => endFill s f v
  | none => serveUsers s r.users v r.line

/-- The last step of a repair: the line is stored poisoned and entered in the poison list. -/
def poisonRepair (s : State) (r : UeRepair) : State :=
  let s := incF s Reg.DIU_UE_REPAIR.poisoned
  let s := if (poisonEntry s r.line).isSome then s else enterPoison s r.line 2 false
  endRepair s r poisonLine false

/-- Ask the partner for a clod: the home names its plot's last sequence number, the partner 0 (R288). -/
def fetchClod (s : State) (clod : Nat) : State :=
  if s.bfc.fetches.any fun f => f.2 = clod then s
  else
    let p := (plotOfClod s clod).getD 0
    let seq := if isHome s (plotRec s p) then (plotRec s p).seq else 0
    let tag := s.bfc.nextFetch
    sendFrame { s with bfc.fetches := s.bfc.fetches ++ [(tag, clod)], bfc.nextFetch := tag + 1 } 0x0D seq p (.clodFetch tag clod seq)

/-- May this controller ask the partner for a clod (R284, R418)? -/
def canFetch (s : State) : Bool := mirrored s

/-- Steps 2 to 4 of a repair. -/
def repairFar (s : State) (r : UeRepair) : State :=
  if canFetch s then
    fetchClod { s with diu.repairs := s.diu.repairs.map fun x => if x.line = r.line then { x with step := 2 } else x } (clodOf r.line)
  else poisonRepair s r

/-- Start the repair of an uncorrectable Loam line, or join the one in progress. -/
def startRepair (s : State) (line lpa : Nat) (users : List FillUser) : State :=
  let s := incFi s Reg.DIU_CE_DATA.uncorrectable (channelOf lpa)
  let s := raise (setFlag s Reg.DIU_ERR.loam_ue) (512 + channelOf lpa * 16 + 1) .loamUe 0xFFF [line * 64, lpa] (plotOfLine s line)
  match repairOf s line with
  | some _ => { s with diu.repairs := s.diu.repairs.map fun x => if x.line = line then { x with users := x.users ++ users } else x }
  | none =>
    let r : UeRepair := { line := line, lpa := lpa, step := 1, users := users }
    let s := { s with diu.repairs := s.diu.repairs ++ [r] }
    match cachedLine s line with
    | some v =>
      let s := incF s Reg.DIU_UE_REPAIR.base_ok
      if dirtyCached s line then
        serveUsers (logCorrection { s with diu.repairs := s.diu.repairs.filter fun x => x.line ≠ line } lpa 15) users v line
      else endRepair s r v true
    | none =>
      let e := entryOf s (clodOf line)
      if e.tier = 1 && !e.dirty && e.hasBase then wantGrain s (clodOf line) (grainIn line) [.repair line] false true
      else repairFar s r

/-! ### The end of a Loam read (R193, R408, R418, R448, R450) -/

/-- The Loam read of a fill returns, once its column command has been issued. A mismatch of an XTS core has the line decrypted once more, by
the next return of this fill; a second one makes it uncorrectable, as a refused job does at once. -/
def returnFill (s : State) (f : Fill) (decode : LoamDecode) (job : XtsEnd) : State :=
  let recheck (s : State) (b : Bool) : State :=
    { s with fcd.fills := s.fcd.fills.map fun x => if x.line = f.line then { x with rechecked := b } else x }
  let bad (s : State) : State := startRepair (recheck s false) f.line f.lpa f.users
  let back (s : State) : State :=
    match job, decode with
    | .differs core, _ => if f.rechecked then bad (xtsOut s core.val) else recheck (xtsOut s core.val) true
    | .refused, _ => bad (ckuRefuse s f.mid)
    | .good, .good => endFill s f f.val
    | .good, .corrected d => endFill (loamCorrected s f.lpa d.val f.val) f f.val
    | .good, .uncorrectable => bad s
  if f.rechecked then back s
  else match issuedReq s f.lpa f.req with
    | some r => back (lmcEnded s r)
    | none => s

/-! ### The end of grain reads (R278, R286) -/

/-- The sealed clod that a grain read reads from: at the read's own place, whatever the entry says now (R292). -/
def readSource (s : State) (r : GrainRead) : Option UnitSlot :=
  (s.bfc.base.find? fun e =>
    let grain := e.1 % 32
    let row := e.1 / 32 % 16384
    e.1 / 32 / 16384 = r.bed * 1048576 + r.stratum && e.2.clod = r.clod && grainPlace row grain r.grain = (r.row, r.pos)).map (·.2)

/-- A line as a grain read returns it. -/
def grainLine (s : State) (r : GrainRead) (line : Nat) : LineVal :=
  let v := match readSource s r with
    | some u => sget zeroLine u.image (lineIn line)
    | none => zeroLine
  match poisonEntry s line with
  | some p => if p.base then poisonLine else v
  | none => v

/-- Note in a clod's lift that a grain is in its frame's staging (R310). -/
def liftGot (s : State) (clod grain : Nat) : State :=
  { s with tmg.lifts := s.tmg.lifts.map fun l => if l.clod = clod then { l with got := l.got ||| (1#16 <<< grain) } else l }

/-- Every waiter of a grain read gets its line: `value` of a line number (R278, R285). -/
def grainUsers (s : State) (r : GrainRead) (value : State → Nat → LineVal) : State :=
  r.users.foldl (fun s u =>
    match u with
    | .read id =>
      match findRdRec s id with
      | some rd =>
        let v := value s rd.line
        installClean (updRdRec s id fun x => { x with val := some v }) rd.line rd.mid v
      | none => s
    | .merge line =>
      match s.diu.merges.find? fun m => m.line = line with
      | some m => mergeWith s m (value s line)
      | none => s
    | .flush => s
    | .service tag => serveGrain s tag r.grain false
    | .copy clod =>
      { s with twin.copies := s.twin.copies.map fun c => if c.1 = clod then (c.1, c.2.filter (· ≠ r.grain)) else c }
    | .repair line =>
      match repairOf s line with
      | some x => endRepair (incF s Reg.DIU_UE_REPAIR.base_ok) x (value s line) true
      | none => s) s

/-- The sources of a read's rebuild that are still outstanding serve nobody any more. -/
def releaseSources (s : State) (id : Nat) : State :=
  { s with bfc.reads := s.bfc.reads.map fun x =>
      match x.purpose with
      | .source p _ => if p = id then { x with purpose := .probe } else x
      | _ => x }

/-- A read that was overtaken while its die works on it goes on as nobody's; one that has no die time left ends. -/
def overtake (s : State) (r : GrainRead) : State :=
  let d := dieAt s r.die
  let is (op : DieOp) : Bool := op.kind = 0 && op.id = r.id
  if r.direct && (d.queue.any is || d.busy.any is) then updRead s r.id fun x => { x with purpose := .probe, users := [], lift := false, rebuild := none, ladder := none }
  else dropRead s r.id

/-- The ladder's event: grain, rung and waiters (R285). -/
def ladderEvent (s : State) (r : GrainRead) (rung : Nat) : State :=
  raise s (channelSource (r.die / 16) + 1) .ladder 0xFFF [r.clod, r.grain, rung, r.users.length] (plotOfClod s r.clod)

/-- A wanted grain is in hand: its waiters and its lift go on, and its record ends. -/
def grainDone (s : State) (r : GrainRead) (value : State → Nat → LineVal) : State :=
  let s := overtake (releaseSources s r.id) r
  let s := grainUsers s r value
  finishServes (if r.lift then liftGot s r.clod r.grain else s)

/-- A rung answered while the fetch of a clod was outstanding and nothing else waits for it: the fetch is abandoned (R284). -/
def dropFetch (s : State) (clod : Nat) : State :=
  if (s.bfc.reads.any fun r => r.clod = clod && r.ladder.any (·.fetching)) || (s.diu.repairs.any fun r => clodOf r.line = clod && r.step = 2) ||
      (entryOf s clod).crcBad then s
  else { s with bfc.fetches := s.bfc.fetches.filter fun f => f.2 ≠ clod }

/-- A wanted grain is in hand from its own die or its row; a rung that supplied it counts (R283), and a repaired clod is
queued for relocation (R289). -/
def grainGood (s : State) (r : GrainRead) (rung : Nat) : State :=
  let s := if r.ladder.isSome then
      ladderEvent (queueSettle (incF s (if rung = 1 then Reg.BFC_LADDER_CNT.retry_ok else Reg.BFC_LADDER_CNT.recon_ok)) r.clod 0 .relocation) r rung
    else if rung = 2 && r.hedged then incF s Reg.BFC_HEDGE.hedge_won
    else s
  dropFetch (grainDone s r fun s line => grainLine s r line) r.clod

/-- Rung 4 (R286): the grain's lines are poisoned, where nothing newer stands over them. -/
def grainPoison (s : State) (r : GrainRead) : State :=
  let s := setFlag (incF s Reg.BFC_LADDER_CNT.poisoned) Reg.BFC_ERR.ladder_poison
  let s := setFlag (updEntry s r.clod fun e => { e with marked := true }) Reg.TMG_MIG_ERR.repair_poison
  let s := (List.range 64).foldl (fun s i =>
    let line := r.clod * 1024 + r.grain * 64 + i
    if placeOf s line = .base && (poisonEntry s line).isNone && !dirtyCached s line then enterPoison s line 3 true else s) s
  grainDone (ladderEvent s r 4) r fun _ _ => poisonLine

/-- Users that stop before rung 3: the partner's fetches and the repair of a Loam line (R288, R418). -/
def stopsEarly (u : FillUser) : Bool :=
  match u with
  | .service _ => true
  | .repair _ => true
  | _ => false

/-- Rungs 1 and 2 have failed for the users that stop there. -/
def failEarly (s : State) (r : GrainRead) : State :=
  let s := (r.users.filter stopsEarly).foldl (fun s u =>
    match u with
    | .service tag => serveGrain s tag r.grain true
    | .repair line =>
      match repairOf s line with
      | some x => repairFar s x
      | none => s
    | _ => s) s
  finishServes (updRead s r.id fun x => { x with users := x.users.filter fun u => !stopsEarly u })

/-- Start rung 3 of a read's ladder, or rung 4 where it cannot run (R284). -/
def startRung3 (s : State) (id : Nat) : State :=
  match findRead s id with
  | none => s
  | some r =>
    match r.ladder with
    | none => s
    | some l =>
      if l.fetching || (r.users.all stopsEarly && !r.lift) then s
      else if canFetch s then fetchClod (updRead s id fun x => { x with ladder := some { l with fetching := true } }) r.clod
      else grainPoison s r

/-- Attempts of rung 1: each read-retry level set of the die, up to 7, then one soft decision (R283). -/
def rung1Tries (s : State) : Nat := min 7 s.bfc.retrySets + 1

/-- Rungs 1 and 2 of a read have both ended without success. -/
def rungsFailed (s : State) (r : GrainRead) : Bool :=
  match r.ladder with
  | some l => decide (rung1Tries s ≤ l.tries) && l.rung2Failed
  | none => false

/-- Act on the failure of both rungs. -/
def checkRungs (s : State) (id : Nat) : State :=
  match findRead s id with
  | none => s
  | some r =>
    if !rungsFailed s r then s
    else
      let s := startRung3 (failEarly s r) id
      match findRead s id with
      | some r => if r.users.isEmpty && !r.lift && !(r.ladder.any (·.fetching)) then overtake (releaseSources s id) r else s
      | none => s

/-- The rebuild of a read has no more sources to hope for. A read that went straight to reconstruction has now failed:
its ladder starts, with rung 1 where its die can still be read (R281, R283). -/
def checkRebuild (s : State) (id : Nat) : State :=
  match findRead s id with
  | none => s
  | some r =>
    match r.rebuild, r.ladder with
    | some b, some l =>
      if b.good + b.left.length < 20 then checkRungs (updRead s id fun x => { x with ladder := some { l with rung2Failed := true } }) id else s
    | some b, none =>
      if !r.direct && b.good + b.left.length < 20 then
        let rung1 := dieLastSource s r.die
        let s := updRead s id fun x => { x with ladder := some { tries := if rung1 then 0 else 8, rung2Failed := true } }
        checkRungs (if rung1 then dieQueue s r.die { rank := 2, kind := 0, id := id, startedAt := s.devTime } else s) id
      else s
    | none, _ => s

/-- A read fails for the first time: rungs 1 and 2 start together; after a failed tag rung 1 does not run (R283, R287). -/
def startLadder (s : State) (id : Nat) (o : GrainOutcome) : State :=
  match findRead s id with
  | none => s
  | some r =>
    let tagFailed := decide (o = .tagFail)
    let s := updRead s id fun x => { x with ladder := some { tries := if tagFailed then 8 else 0, otherwise := o ≠ .ldpcFail } }
    let s := if tagFailed then s else dieQueue s r.die { rank := 2, kind := 0, id := id, startedAt := s.devTime }
    checkRebuild (startRebuild s id) id

/-- Three reads of a die from different block pairs failed LDPC while their rows rebuilt good: the die has failed (R282). -/
def noteRebuilt (s : State) (r : GrainRead) : State :=
  match r.ladder with
  | none => s
  | some l =>
    if l.otherwise then s
    else
    let fails := (dieAt s r.die).fails
    let fails := if fails.contains r.stratum then fails else fails ++ [r.stratum]
    let s := updDie s r.die fun d => { d with fails := fails }
    if 3 ≤ fails.length then failDie s r.die else s

/-- A source of a rebuild has ended (R280, R283). `rebuiltOk`: the tag of the grain rebuilt from the 20th good one holds. -/
def sourceEnd (s : State) (parent id : Nat) (good rebuiltOk : Bool) : State :=
  match findRead s parent with
  | none => s
  | some r =>
    match r.rebuild with
    | none => s
    | some b =>
      let b : Rebuild := { left := b.left.filter (· ≠ id), good := b.good + (if good then 1 else 0) }
      let s := updRead s parent fun x => { x with rebuild := some b }
      if good && b.good = 20 then
        if rebuiltOk then grainGood (noteRebuilt s r) { r with rebuild := some b } 2
        else
          let s := incF (setFlag s Reg.CKU_ERR.tag_fail) Reg.CKU_TAG_FAIL.grain
          checkRungs (updRead s parent fun x => { x with
            tagFails := x.tagFails + 1
            ladder := x.ladder.map fun l => { l with rung2Failed := true } }) parent
      else checkRebuild s parent

/-- Write a fetched clod into a fresh frame, once one is free (R286). -/
def placeFetched (s : State) (clod : Nat) (image : ClodImage) : State :=
  match takeFrame s with
  | some (f, s) =>
    let s := { s with tmg.settles := s.tmg.settles.map fun x => if x.clod = clod then { x with dropped := true } else x }
    commitFetched (resourceCheck s) clod f image
  | none => { s with tmg.fetched := s.tmg.fetched.filter (fun x => x.1 ≠ clod) ++ [(clod, image)] }

/-- Fetched clods that waited for a frame take it, in the order they came. -/
def retryFetched (s : State) : State :=
  s.tmg.fetched.foldl (fun s x =>
    if freeFrames s = 0 then s else placeFetched { s with tmg.fetched := s.tmg.fetched.filter fun y => y.1 ≠ x.1 } x.1 x.2) s

/-- Reads that went straight to reconstruction and have no more sources to hope for enter their ladder (R260, R281). -/
def failRebuilds (s : State) : State :=
  (s.bfc.reads.filter fun r => r.purpose = .wanted && !r.direct && r.ladder.isNone).foldl (fun s r => checkRebuild s r.id) s

/-- Change of a fetched clod: what every repair that waited for it takes from it (R286, R326, R418, R46). -/
def takeFetched (s : State) (clod : Nat) (image : ClodImage) : State :=
  let s := { s with bfc.fetches := s.bfc.fetches.filter fun f => f.2 ≠ clod }
  let waiting := s.bfc.reads.filter fun r => r.clod = clod && r.purpose = .wanted && r.ladder.any (·.fetching)
  let value (_ : State) (line : Nat) : LineVal := let v := sget zeroLine image (lineIn line); if v.poison then poisonLine else v
  let s := waiting.foldl (fun s r =>
    grainDone (ladderEvent (incF s Reg.BFC_LADDER_CNT.twin_ok) r 3) r value) s
  let ues := s.diu.repairs.filter fun r => clodOf r.line = clod && r.step = 2
  let s := ues.foldl (fun s r =>
    let v := value s r.line
    let s := incF s Reg.DIU_UE_REPAIR.twin_ok
    endRepair (if v.poison && (poisonEntry s r.line).isNone then enterPoison s r.line 1 false else s) r v true) s
  if waiting.isEmpty && !(entryOf s clod).crcBad then s
  else if s.tmg.lifts.any fun l => l.clod = clod then
    { s with tmg.lifts := s.tmg.lifts.map fun l => if l.clod = clod then { l with image := some image, got := BitVec.allOnes 16 } else l }
  else placeFetched s clod image

/-- A fetch has failed (R284, R288, R418): ladders reach rung 4, repairs step 4. -/
def fetchFailed (s : State) (clod : Nat) : State :=
  let s := { s with bfc.fetches := s.bfc.fetches.filter fun f => f.2 ≠ clod }
  let waiting := s.bfc.reads.filter fun r => r.clod = clod && r.purpose = .wanted && r.ladder.any (·.fetching)
  let s := waiting.foldl (fun s r => grainPoison s r) s
  (s.diu.repairs.filter fun r => clodOf r.line = clod && r.step = 2).foldl poisonRepair s

/-! ### Lost translation entries and overlay records (R46, R303) -/

/-- Rewrite a lost entry in solo: a fresh frame, poison wherever the cache holds nothing. None: no frame is free. -/
def poisonLost (s : State) (clod : Nat) : Option State :=
  match takeFrame s with
  | none => none
  | some (f, s) =>
    let e := entryOf s clod
    let s := setFlag (fillFrame (resourceCheck s) f fun _ => poisonLine) Reg.TMG_MIG_ERR.repair_poison
    let s := setEntry s clod { tier := 1, dirty := true, hasBase := false, marked := true, frame := f, pins := e.pins, heat := e.heat }
    let s := (List.range 1024).foldl (fun s i =>
      let line := clod * 1024 + i
      match cachedLine s line with
      | some v => setLoam s (lpaOf f i) v
      | none => if (poisonEntry s line).isSome then s else enterPoison s line 2 false) s
    some (queueSettle (issueVictims (chargeClod s clod) clod) clod 0 .repair)

/-- Rebuild a lost entry: by a fetch from the partner, or in solo by poison. -/
def rebuildEntry (s : State) (clod : Nat) : State :=
  if !(entryOf s clod).crcBad then s
  else if canFetch s then fetchClod s clod
  else (poisonLost s clod).getD s

/-- An entry is found lost: it is used no more, and one event is raised. -/
def loseEntry (s : State) (clod : Nat) : State :=
  if (entryOf s clod).crcBad then s
  else
    let s := updEntry s clod fun e => { e with crcBad := true, lock := none }
    let s := raise s 1408 .translationLost 0xFFF [clod] (plotOfClod s clod)
    rebuildEntry s clod

end Sys2Proof.Machine
end

