-- ==== Sys2Proof/Machine/PlotOps.lean ====
section
/-! DEFINITION. Admission, release, seal and crypto-erase of plots (02, 13), as the engine of R52, the ring operations
and the twin's ADMIN frames share them. -/

namespace Sys2Proof.Machine

/-! ### Change records -/

/-- A plot's identity and table as an ADMIN frame carries them (R70, R373). -/
def adminPlot (s : State) (p : Nat) : AdminPlot :=
  { plot := plotIdOf p, record := plotRec s p, acl := ((List.range 64).map fun e => (e, aclWord s p e)).filter fun e => e.2 ≠ 0 }

/-- Send an ADMIN frame; one that meets a lost link waits for it. -/
def sendAdmin (s : State) (op : AdminOp) : State :=
  if linkOk s then sendFrame s 0x13 0 0 (.admin op) else { s with twin.adminHeld := s.twin.adminHeld ++ [op] }

/-- Tell the twin that a step of a plot has ended here. -/
def tellTwin (s : State) (op : AdminOp) : State := if mirrored s then sendAdmin s op else s

/-- A plot's state or table has changed: the journal records it (R559); in solo its bit of the change vector is set
(R371), and a returning controller receives it. -/
def plotChanged (s : State) (p : Nat) (after : JournalThen) : State :=
  let s := packJournal s (plotChange s p) after
  if twinMode s = 4 then { s with twin.plotChange := sput false s.twin.plotChange p true }
  else if twinMode s = 5 then sendAdmin s (.replay (adminPlot s p))
  else s

/-- Running ring operations of an opcode on a plot. -/
def plotOps (s : State) (opcode : BitVec 8) (p : Nat) : List (Ld × RingNo × Nat) :=
  (runningOps s).filter fun x =>
    match findOp s x.1 x.2.1 x.2.2 with
    | some o => o.desc.opcode = opcode && o.desc.plot.val = p
    | none => false

/-- The plot has changed, and the operations that waited for it end with success once the journal holds the change. -/
def endPlotOps (s : State) (opcode : BitVec 8) (p : Nat) : State :=
  match plotOps s opcode p with
  | [] => plotChanged s p .nothing
  | ops => ops.foldl (fun s x => plotChanged s p (.endOp x.1 x.2.1 x.2.2 stSuccess 0)) s

/-! ### Admission (R43, R51 to R55) -/

/-- The admission engine runs here: on side A, or on the controller that serves alone (R52, R357). -/
def engineHere (s : State) : Bool := solo s || !sideB s

/-- The next generation of a plot ID (R43). -/
def nextGeneration (g : Nat) : Nat := if g = 0xFFFF then 1 else g + 1

/-- The runs of granules that windows withhold from admission (R386). -/
def windowRuns (s : State) : List (Nat × Nat) := s.chain.windows.filterMap fun e => e.2.map fun w => (w.localBase, w.size)

/-- Is a run of granules free? -/
def runFree (s : State) (base size : Nat) : Bool :=
  decide (base + size ≤ s.plots.maxCapacity) && !(s.plots.granules.any fun r => decide (base < r.base + r.size) && decide (r.base < base + size)) &&
    !((windowRuns s).any fun r => decide (base < r.1 + r.2) && decide (r.1 < base + size))

/-- The lowest free run of a size: it starts at 0 or just above a plot or window (R51). -/
def lowestRun (s : State) (size : Nat) : Option Nat :=
  (sortAsc (0 :: (s.plots.granules.map fun r => r.base + r.size) ++ (windowRuns s).map fun r => r.1 + r.2)).find? fun b => runFree s b size

/-- The lowest FREE plot ID. -/
def freePlotId (s : State) : Option Nat := (List.range 4096).find? fun p => (plotRec s p).state = .free

/-- A request's size in granules. -/
def admGranules (a : Admission) : Nat := a.sizeBytes / 268435456

/-- A request's floor: a shallow plot takes its size (R51). -/
def admFloor (a : Admission) : Nat := if a.deep then a.floor else admGranules a

/-- The granule an admission would take. -/
def admBase (s : State) (a : Admission) : Option Nat :=
  match a.base with
  | some b => if runFree s b (admGranules a) then some b else none
  | none => lowestRun s (admGranules a)

/-- The figures the sums of R53 are held to: available Loam in granules, the effective budget in bytes, the admission capacity in granules. -/
structure AdmFigures where
  loam : Nat
  budget : Nat
  capacity : Nat
  deriving DecidableEq, Repr

/-- This controller's figures. -/
def ownFigures (s : State) : AdmFigures := { loam := loamAvail s, budget := budgetBytes s, capacity := admissionCapacity s }

/-- The lesser of two controllers' figures (R53). -/
def AdmFigures.least (a b : AdmFigures) : AdmFigures :=
  { loam := min a.loam b.loam, budget := min a.budget b.budget, capacity := min a.capacity b.capacity }

/-- The checks of R53 and R54 in their order, by these figures: the first that fails, or success with the plot ID and first granule. -/
def admCheck (s : State) (f : AdmFigures) (a : Admission) : Nat × Nat × Nat :=
  let size := admGranules a
  let live := admitted s
  if a.badField || (a.deep && decide (size < a.floor)) || decide (4096 < a.allow) || decide (2 < a.mode) then (stBadField, 0, 0)
  else if a.sizeBytes = 0 || a.sizeBytes % 268435456 ≠ 0 || decide (f.capacity < size) then (stBadSize, 0, 0)
  else match freePlotId s with
    | none => (stNoPlotId, 0, 0)
    | some p =>
      match admBase s a with
      | none => (stNoDpaRange, 0, 0)
      | some b =>
        if f.loam < sumOver (·.floor) live + admFloor a then (stNoLoamFloor, 0, 0)
        else if f.budget < (sumOver (·.allow) live + a.allow) * 268435456 then (stNoDirtyAllowance, 0, 0)
        else if f.capacity < sumOver (·.size) live + size then (stNoBedrock, 0, 0)
        else if a.mode = 1 && a.deep then (stModeConflict, 0, 0)
        else (stSuccess, p, b)

/-- A plot mode by its code. -/
def modeOf (n : Nat) : PlotMode := if n = 0 then .private_ else if n = 1 then .sharedCoherent else .sharedReadOnly

/-- An access-table entry that names one master with admin rights (R51, R60). -/
def ownerEntry (mid : Nat) : Word := BitVec.ofNat 32 (mid + 0xFFF * 4096 + 3 * 16777216 + 2147483648)

/-- The entries admission writes: the owner's, and its pair in the other controller's range (R51). -/
def ownerAcl (owner : Nat) : List (Nat × Word) :=
  (0, ownerEntry owner) :: (if owner < 0x200 then [(1, ownerEntry (owner ^^^ 0x100))] else [])

/-- The plot an accepted request makes. -/
def admittedPlot (s : State) (a : Admission) (p base : Nat) : AdminPlot :=
  { plot := plotIdOf p
    record :=
      { state := .admitting, mode := modeOf a.mode, deep := a.deep, prefHome := a.prefB, curHome := if solo s then sideB s else a.prefB,
        generation := nextGeneration (plotRec s p).generation, base := base, size := admGranules a, floor := admFloor a,
        allow := a.allow, ownerMid := a.owner.val }
    acl := ownerAcl a.owner.val }

/-- Store a plot's whole access table. -/
def setAcl (s : State) (p : Nat) (acl : List (Nat × Word)) : State :=
  (List.range 64).foldl (fun s e => setRegAt s 0x3000204 (p * 64 + e) (((acl.find? fun x => x.1 = e).map (·.2)).getD 0)) s

/-- Insert a run of granules in ascending order. -/
def insertRun (r : GranuleRun) : List GranuleRun → List GranuleRun
  | [] => [r]
  | x :: t => if r.base < x.base then r :: x :: t else x :: insertRun r t

/-- Enter ADMITTING (R39): the record, its granules, its table and its key slot (R435); zeroing begins. -/
def enterAdmitting (s : State) (a : AdminPlot) : State :=
  let p := a.plot.val
  let r := { a.record with state := .admitting, doneHere := false, doneTwin := false }
  let s := setAcl (setPlot s p r) p a.acl
  let s := { s with plots.granules := insertRun { base := r.base, size := r.size, plot := p } s.plots.granules }
  plotChanged (deriveXts s p) p .nothing

/-- The result word of an admission (R126). -/
def admResult (s : State) (p : Nat) : Nat := p + (plotRec s p).generation * 65536 + (plotRec s p).base * 4294967296

/-- Answer a refused admission. -/
def admRefuse (s : State) (o : AdmOrigin) (status : Nat) : State :=
  match o with
  | .ring ld ring op => endOpFree s ld ring op status
  | .fabricManager => emit s (.fmDcAdd status 0)
  | .twin tag => sendAdmin s (.admitResult tag status 0)

/-- The admission is done: the plot has changed and its request is answered. -/
def admAccept (s : State) (o : AdmOrigin) (p : Nat) : State :=
  match o with
  | .ring ld ring op => plotChanged s p (.endOp ld ring op stSuccess (BitVec.ofNat 64 (admResult s p)))
  | .fabricManager => emit (plotChanged s p .nothing) (.fmDcAdd stSuccess (plotIdOf p))
  | .twin tag => sendAdmin (plotChanged s p .nothing) (.admitResult tag stSuccess (admResult s p))

/-- The tag of the request of side B that an admission answers. -/
def originTag (o : AdmOrigin) : Option Nat :=
  match o with
  | .twin tag => some tag
  | _ => none

/-- The engine checks an admission by these figures (R53, R55): refused, proposed to the partner, or begun alone. -/
def checkAdmission (s : State) (o : AdmOrigin) (a : Admission) (f : AdmFigures) : State :=
  match admCheck s f a with
  | (status, p, b) =>
    if status ≠ stSuccess then admRefuse { s with plots.admActive := none, plots.admPlot := none } o status
    else
      let made := admittedPlot s a p b
      let s := { s with plots.admActive := some (.admitPlot o a), plots.admPlot := some made }
      if solo s then enterAdmitting s made else sendAdmin s (.admitPlot made (originTag o))

/-- The engine takes an admission: alone it checks by its own figures, otherwise it asks for the partner's first (R53, R55). -/
def takeAdmission (s : State) (o : AdmOrigin) (a : Admission) : State :=
  if solo s then checkAdmission s o a (ownFigures s)
  else sendAdmin { s with plots.admActive := some (.admitPlot o a), plots.admPlot := none } .figuresReq

/-- Hand a job to the engine: queue it here, or send it to side A (R52). -/
def submitJob (s : State) (o : AdmOrigin) (a : Admission) : State :=
  if engineHere s then { s with plots.admQueue := s.plots.admQueue ++ [.admitPlot o a] }
  else
    let tag := s.plots.admTag
    sendAdmin { s with plots.admSent := s.plots.admSent ++ [(tag, .admitPlot o a)], plots.admTag := tag + 1 } (.admitRequest tag a)

/-! ### Requests of a plot in flight (R42, R64) -/

/-- Requests this controller holds for a plot: writes, reads, forwarded ones. -/
def plotRequests (s : State) (p : Nat) : List Nat :=
  ((s.pou.writes.filter fun w => w.plot = p).map (·.id)) ++ ((s.pou.reads.filter fun r => r.plot = p).map (·.id)) ++
    ((s.pou.fwdWrites.filter fun w => w.plot = p).map (·.id)) ++ ((s.pou.fwdReads.filter fun r => r.plot = p).map (·.id))

/-- A number for a ring operation among the requests a drain waits for. -/
def opKey (ld ring num : Nat) : Nat := 2 ^ 64 + num * 65536 + ld * 256 + ring

/-- Opcodes that name no plot: the two that move none and the admission, whose plot is yet to be made (R120). -/
def namesNoPlot (opcode : BitVec 8) : Bool := opcode = 0x00 || opcode = 0x04 || opcode = 0x10

/-- Operations of rings on a plot under way: each was checked against its table as it started (R143). -/
def plotDataOps (s : State) (p : Nat) : List Nat :=
  ((runningOps s).filter fun x =>
    match findOp s x.1 x.2.1 x.2.2 with
    | some o => o.desc.plot.val = p && !namesNoPlot o.desc.opcode
    | none => false).map fun x => opKey x.1.val x.2.1.val x.2.2

/-- Everything a drain of a plot waits for (R64). -/
def plotInFlight (s : State) (p : Nat) : List Nat := plotRequests s p ++ plotDataOps s p

/-- Nothing ordered of a plot is still short of its end here. -/
def plotQuiet (s : State) (p : Nat) : Bool := (plotRequests s p).isEmpty

/-! ### Release (R42, R52, R201, R325) -/

/-- Keys of a plot's grains leave the cache (R434, R435). -/
def dropGrainKeys (s : State) (p : Nat) : State := { s with cku.gcmCache := s.cku.gcmCache.filter fun k => k.1 ≠ p }

/-- Entries of a plot's lines leave the poison list (R426). -/
def dropPlotPoison (s : State) (r : Plot) : State := { s with diu.poison := s.diu.poison.filter fun e => !plotHasLine r e.1 }

/-- Enter RELEASING at the order point (R42): the tag walk begins, migrations end, hosts are asked for the extent. -/
def enterReleasing (s : State) (p : Nat) : State :=
  let r := plotRec s p
  if !plotOpen r then s
  else
    let s := setPlot s p { r with state := .releasing, sealing := false, tagWalk := true, cleanup := true, doneHere := false, doneTwin := false }
    let s := dropMigrations s (plotHasClod r)
    let s := { s with twin.changeMap := s.twin.changeMap.filter fun e => !plotHasClod r e.1 }
    let s := askBackExtents s p fun _ => true
    let s := if engineHere s then { s with plots.admQueue := s.plots.admQueue ++ [.cleanup (plotIdOf p)] } else s
    plotChanged s p .nothing

/-- The plot's range, ID and reservations return to the free pools; its keys are retired (R42, R435). -/
def freePlot (s : State) (p : Nat) : State :=
  let r := plotRec s p
  let s := setAcl s p []
  let s := dropGrainKeys s p
  let s := { s with
    plots.granules := s.plots.granules.filter fun x => x.plot ≠ p
    plots.aclDrain := sput [] s.plots.aclDrain p []
    twin.applied := s.twin.applied.filter fun a => a.1 ≠ p
    cku.xtsSlots := sput false s.cku.xtsSlots p false
    plots.admActive := if s.plots.admActive = some (.cleanup (plotIdOf p)) then none else s.plots.admActive }
  endPlotOps (setPlot s p { generation := r.generation }) 0x11 p

/-! ### Seal (R41) -/

/-- A seal is ordered after a sequence number of the plot: writes from here on are denied. -/
def orderSeal (s : State) (p seq : Nat) : State :=
  updPlot s p fun r => { r with sealing := true, sealSeq := seq, doneHere := false, doneTwin := false }

/-- The plot holds no dirty grain here, no write of it is short of its end, no ring operation is still writing to it, and at the
partner every write the home ordered before the seal has been applied. -/
def sealReady (s : State) (p : Nat) : Bool :=
  plotDirty s (plotRec s p) = 0 && !(s.pou.writes.any fun w => w.plot = p) && !(s.pou.fwdWrites.any fun w => w.plot = p) &&
    (plotOps s 0x01 p).isEmpty && (plotOps s 0x03 p).isEmpty &&
    (isHome s (plotRec s p) || decide ((plotRec s p).sealSeq ≤ (plotRec s p).mirrored))

/-- A sealing plot that has become dirty again here is no longer done here (R41). -/
def reopenSeal (s : State) (p : Nat) : State :=
  let r := plotRec s p
  if r.state = .loading && r.sealing && r.doneHere && !sealReady s p then
    tellTwin (updPlot s p fun r => { r with doneHere := false }) (.unsealed (plotIdOf p))
  else s

/-- The seal is done: ACTIVE, and the allowance returns to the budget. -/
def finishSeal (s : State) (p : Nat) : State :=
  endPlotOps (updPlot s p fun r => { r with state := .active, allow := 0, sealing := false, doneHere := false, doneTwin := false }) 0x12 p

/-! ### Crypto-erase (R451 to R453) -/

/-- The order point of an erase: the count rises, and requests are denied until the erase holds here. -/
def orderErase (s : State) (p : Nat) : State :=
  let r := plotRec s p
  let s := setPlot s p { r with eraseCount := r.eraseCount + 1, erasing := true, tagWalk := true, eraseWait := true, eraseTwin := false }
  plotChanged (dropMigrations s (plotHasClod r)) p .nothing

/-- Every step has ended: entries Unwritten, charges and poison gone, keys of the new generation. -/
def eraseHolds (s : State) (p : Nat) : State :=
  let r := plotRec s p
  let s := dropGrainKeys (dropPlotPoison (clearEntries s r) r) p
  let s := { s with pou.dirty := s.pou.dirty.filter fun e => !plotHasClod r (e.1 / 16) }
  updPlot (deriveXts s p) p fun r => { r with erasing := false }

/-! ### The step both controllers must end -/

/-- A step that both controllers end is complete: here, and at the twin or with nobody there. -/
def bothDone (s : State) (r : Plot) : Bool := r.doneHere && (r.doneTwin || solo s)

/-- The origin of the admission in progress of a plot. -/
def admOriginOf (s : State) (p : Nat) : Option AdmOrigin :=
  match s.plots.admActive, s.plots.admPlot with
  | some (.admitPlot o _), some a => if a.plot.val = p then some o else none
  | _, _ => none

/-- A plot leaves ADMITTING (R40): its hosts are offered the extent, and its request is answered. -/
def leaveAdmitting (s : State) (p : Nat) : State :=
  let s := updPlot s p fun r =>
    { r with state := if r.mode = .sharedReadOnly then .loading else .active, doneHere := false, doneTwin := false }
  let s := offerExtents s p
  match admOriginOf s p with
  | some o => { admAccept s o p with plots.admActive := none, plots.admPlot := none }
  | none => plotChanged s p .nothing

/-- Complete whatever step of a plot has ended on both controllers. -/
def plotStep (s : State) (p : Nat) : State :=
  let r := plotRec s p
  let s :=
    if !bothDone s r then s
    else match r.state with
      | .admitting => leaveAdmitting s p
      | .releasing => freePlot s p
      | .loading => if r.sealing && sealReady s p then finishSeal s p else s
      | _ => s
  let r := plotRec s p
  if r.eraseWait && !r.erasing && (r.eraseTwin || solo s) then
    endPlotOps (updPlot s p fun r => { r with eraseWait := false, eraseTwin := false }) 0x13 p
  else s

/-- A request of this side whose plot has entered ADMITTING here already goes on as the engine's job, or is answered (R55). -/
def resumeGiven (s : State) (j : AdmJob) (p : Nat) : State :=
  match j with
  | .admitPlot o _ =>
    if (plotRec s p).state = .admitting then { s with plots.admActive := some j, plots.admPlot := some (adminPlot s p) } else admAccept s o p
  | .cleanup _ => s

/-- At a takeover, what waited for the twin completes alone (R55, R357, R453), and the engine's jobs are here (R52). -/
def admissionsSolo (s : State) : State :=
  let s := match s.plots.admActive, s.plots.admPlot with
    | some (.admitPlot o a), none => checkAdmission s o a (ownFigures s)
    | _, some a => if (plotRec s a.plot.val).state = PlotState.free then enterAdmitting s { a with record := { a.record with curHome := sideB s } } else s
    | _, none => s
  let given := s.plots.admSent.filterMap fun x => (s.plots.admGiven.find? fun g => g.1 = x.1).map fun g => (x.2, g.2)
  let fresh := s.plots.admSent.filter fun x => !(s.plots.admGiven.any fun g => g.1 = x.1)
  let s := { s with plots.admQueue := s.plots.admQueue ++ fresh.map (·.2), plots.admSent := [], plots.admGiven := [] }
  let s := given.foldl (fun s x => resumeGiven s x.1 x.2) s
  let waiting := (admitted s).filter fun e => e.2.state = .releasing && !e.2.doneHere
  let s := waiting.foldl (fun s e =>
    if s.plots.admQueue.contains (.cleanup (plotIdOf e.1)) || s.plots.admActive = some (.cleanup (plotIdOf e.1)) then s
    else { s with plots.admQueue := s.plots.admQueue ++ [.cleanup (plotIdOf e.1)] }) s
  ((admitted s).map (·.1)).foldl plotStep s

end Sys2Proof.Machine
end

