-- ==== Sys2Proof/Machine/TwinOps.lean ====
section
/-! DEFINITION. The pair's roles and the ordered stream as every command shares them (10): epochs, fencing, takeover,
applying what the twin sends, digests, resynchronisation and takeback. `settleAll` ends every command of the data path. -/

namespace Sys2Proof.Machine

/-! ### Modes and epochs (R380, R382) -/

/-- Serving with the twin. -/
def mMirrored : Nat := 1
/-- The lease has lapsed. -/
def mLapsed : Nat := 2
/-- A fence handshake is open. -/
def mHandshake : Nat := 3
/-- Serving alone. -/
def mSolo : Nat := 4
/-- Serving alone and resynchronising the twin. -/
def mSource : Nat := 5
/-- Being resynchronised. -/
def mTarget : Nat := 6
/-- Fenced. -/
def mFenced : Nat := 7

/-- Enter a mode. -/
def setMode (s : State) (m : Nat) : State :=
  if twinMode s = m then s else raise (setF s Reg.FLK_TWIN_STS.mode m) 1520 .twinMode 0xFFF [m, (epoch s).toNat]

/-- The twin's last known epoch. -/
def twinEpoch (s : State) : Word := regAt s 0x900000C 0

/-- Set the role epoch. -/
def setEpoch (s : State) (e : Word) : State := setRegAt s 0x9000008 0 e

/-- Note the twin's epoch. -/
def setTwinEpoch (s : State) (e : Word) : State := setRegAt s 0x900000C 0 e

/-- Epoch a is higher than epoch b (R380). -/
def epochHigher (a b : Word) : Bool := decide (1 ≤ (a - b).toNat) && decide ((a - b).toNat ≤ 2 ^ 31 - 1)

/-- The value after an epoch: 0xFFFF_FFFF is followed by 1. -/
def epochSucc (e : Word) : Word := if e = 0xFFFFFFFF then 1 else e + 1

/-- A new epoch: the greater of both sides', plus 1. -/
def newEpoch (s : State) : Word := epochSucc (if epochHigher (twinEpoch s) (epoch s) then twinEpoch s else epoch s)

/-- TW_ALIVE_IN as read: 0 absent, 1 toggling, 2 fenced (R347). -/
def aliveIn (s : State) : Nat := getF s Reg.FLK_TWIN_STS.alive_in

/-- The own demand is asserted. -/
def fenceOut (s : State) : Bool := flag s Reg.FLK_TWIN_STS.fence_out

/-- The twin's demand is asserted. -/
def fenceIn (s : State) : Bool := flag s Reg.FLK_TWIN_STS.fence_in

/-- Assert the own demand. -/
def assertFence (s : State) : State :=
  if fenceOut s then s else { putFlag s Reg.FLK_TWIN_STS.fence_out true with twin.fenceOutAt := some s.devTime }

/-- Drop it. -/
def dropFence (s : State) : State := { putFlag s Reg.FLK_TWIN_STS.fence_out false with twin.fenceOutAt := none }

/-- The own lease ends. -/
def endLease (s : State) : State := { putFlag s Reg.FLK_TWIN_STS.lease_valid false with twin.lease := none }

/-- The stable period before a takeback starts anew, with takeback_s as it stands (R377, R383). -/
def restartStable (s : State) : State :=
  { s with twin.stableAt := s.devTime, twin.stableS := max 1 (getF s Reg.FLK_TWIN_CFG.takeback_s) }

/-- Fence priority (R330). -/
def priority (s : State) : Bool := flag s Reg.FLK_TWIN_CFG.priority

/-! ### Device time in the pair (R21) -/

/-- The pair's device times are aligned no longer; a controller that serves alone is its own reference. -/
def unpairTime (s : State) (alone : Bool) : State :=
  let s := { s with twin.timePaired := false, twin.slew := 0 }
  let s := putFlag (setF s Reg.GLB_TIME_ALIGN.offset_ns 0) Reg.GLB_TIME_ALIGN.aligned false
  if alone then putFlag s Reg.GLB_TIME_ALIGN.reference true else s

/-! ### The rejoin list and fencing oneself (R204, R359) -/

/-- Clods of the dirty lines in the front cache and victim buffers. -/
def dirtyClods (s : State) : List Nat :=
  (((s.fcd.ways.filter fun e => e.2.state = 2).map fun e => clodOf e.2.line) ++ s.fcd.victims.map fun v => clodOf v.line).eraseDups

/-- Clods that hold dirty grains on this controller. -/
def chargedClods (s : State) : List Nat := (s.pou.dirty.map fun e => e.1 / 16).eraseDups

/-- Writes ordered as home that the partner has not acknowledged. -/
def unacked (s : State) : List WriteRec := s.pou.writes.filter fun w => ordered w && !w.acked && !w.mapped

/-- Clods of the unacknowledged writes. -/
def unackedClods (s : State) : List Nat := ((unacked s).map fun w => clodOf w.line).eraseDups

/-- A lost write of a ring's operation leaves that operation without its line. -/
def loseWrite (s : State) (w : WriteRec) : State :=
  match w.origin with
  | .ring ld ring op => ringRefused (dropWrite s w.id) ld ring op w.id
  | _ => dropWrite s w.id

/-- A controller-fatal error discards the dirty front-cache data (R204). -/
def discardDirty (s : State) : State :=
  { s with fcd.ways := s.fcd.ways.filterMap fun e =>
             if e.2.state = 2 then (if e.2.parCount = 0 then none else some (e.1, { parCount := e.2.parCount })) else some e,
           fcd.victims := [] }

/-- What depends on the twin ends: disputes, samples, movements of roles. -/
def forgetPair (s : State) : State :=
  let s := if s.twin.takeback.isSome then setFlag s Reg.FLK_TWIN_ERR.takeback_abort else s
  { s with
    twin.disputes := [], twin.samples := [], twin.sampleWaits := [], twin.takeback := none, twin.staleResends := [],
    twin.reorder := [], twin.copies := [], twin.halfClods := [], twin.retained := [], twin.txDigests := [], twin.txLines := [],
    twin.rxLines := [], twin.txCrc := [], twin.rxCrc := [], twin.fetchWaits := [], twin.copyReads := [], twin.snoopWaits := [], twin.notices := [],
    twin.resend := [], bfc.serves := [], twin.leaseSent := [], twin.adminHeld := [] }

/-- Fence this controller (R359): `extra` are clods for the rejoin list beyond those of unacknowledged writes. -/
def fenceSelf (s : State) (extra : List Nat) : State :=
  if twinMode s = mFenced then s
  else
    let rejoin := (s.twin.rejoin ++ extra ++ unackedClods s).eraseDups
    let s := { s with twin.rejoin := rejoin, twin.rejoinIntact := true, twin.lastEpoch := epoch s }
    let s := (unacked s).foldl loseWrite s
    let s := forgetPair (setMode s mFenced)
    let s := dropAllLinks { s with pou.fwdWrites := [], pou.fwdReads := [] }
    let s := dropFence (endLease { unpairTime s false with twin.aliveOut := 2 })
    sendFrame s 0x16 0 0 .fenceNotice

/-! ### Takeover (R356, R357) -/

/-- Set a clod's change-map bit (R371). -/
def markChanged (s : State) (clod : Nat) : State := { s with twin.changeMap := sput false s.twin.changeMap clod true }

/-- A write that was forwarded to the fenced home and not applied here is ordered afresh from the data still held. -/
def reorderFwd (s : State) (f : FwdWrite) : State :=
  let w : WriteRec := { id := f.id, origin := f.origin, mid := f.mid, plot := f.plot, line := f.line, data := f.data, be := f.be, poison := f.poison,
                        metaVal := f.metaVal, acceptedAt := f.acceptedAt, dir := if coherent (plotRec s f.plot) then 0 else 2 }
  holdWrite s w

/-- A forwarded read is served here. -/
def reorderRead (s : State) (f : FwdRead) : State :=
  let r : ReadRec := { id := f.id, origin := f.origin, mid := f.mid, plot := f.plot, line := f.line, metaVal := f.metaVal,
                       dir := if coherent (plotRec s f.plot) then 0 else 2 }
  { s with pou.reads := s.pou.reads ++ [r] }

/-- Every request that waited on the fenced twin goes on here (R357). -/
def adoptRequests (s : State) : State :=
  let applied_ := s.pou.fwdWrites.filter fun f => f.seq.isSome
  let fresh := s.pou.fwdWrites.filter fun f => f.seq.isNone
  let reads := s.pou.fwdReads
  let s := { s with pou.fwdWrites := applied_.map fun f => { f with noticed := true }, pou.fwdReads := [] }
  let s := reads.foldl reorderRead (fresh.foldl reorderFwd s)
  { s with pou.reads := s.pou.reads.map fun r => if r.remoteTag.isSome then { r with remoteTag := none, fetching := false } else r }

/-- Snoops asked of the twin count as answered, and pointers to its LDs are dropped (R210, R211). -/
def dropPartnerHolders (s : State) : State :=
  let s := (s.fcd.snoops.filter fun x => x.target = partnerTarget).foldl (fun s x => answerSnoop s x) s
  purgeHolders s fun m => decide (0x100 ≤ m) && decide (m < 0x200)

/-- Every clod whose lost entry waited for the partner is rewritten alone (R46). -/
def soloRepairs (s : State) : State :=
  let s := (s.bfc.fetches.map (·.2)).foldl fetchFailed s
  ((s.plots.entries.filter fun e => e.2.crcBad).map (·.1)).foldl rebuildEntry s

/-- Take over (R356): a new epoch, solo home of every plot, sequences continued, change-map bits set. -/
def takeover (s : State) : State :=
  if solo s || twinMode s = mFenced then s
  else
    let old := epoch s
    let s := assertFence s
    let s := setEpoch { s with twin.takeoverEpoch := old } (newEpoch s)
    let mine := sideB s
    let s := s.twin.applied.foldl (fun s a =>
      if (plotRec s a.1).curHome ≠ mine && decide ((plotRec s a.1).leaseMark < a.2.1) then markChanged s (clodOf a.2.2) else s) s
    let s := (unacked s).foldl (fun s w => updWrite (markChanged s (clodOf w.line)) w.id fun w => { w with mapped := true }) s
    let s := s.plots.plots.foldl (fun s e =>
      updPlot s e.1 fun r => if r.state = .free then r
        else { r with seq := if r.curHome = mine then r.seq else max r.seq r.mirrored, curHome := mine }) s
    let s := endLease (setMode (forgetPair { s with twin.applied := [] }) mSolo)
    let s := { unpairTime s true with pou.partnerLevel := 0, pou.partnerStop := false }
    let s := raise s 1520 .homeChange 0xFFF [(epoch s).toNat]
    admissionsSolo (soloRepairs (adoptRequests (dropPartnerHolders s)))

/-- The handshake completes when TW_ALIVE_IN does not toggle while the own demand is asserted (R352). -/
def checkHandshake (s : State) : State := if twinMode s = mHandshake && fenceOut s && aliveIn s ≠ 1 then takeover s else s

/-- Demand a fence (R350): the line, and the frame while the link is up. -/
def demandFence (s : State) : State :=
  if fenceOut s then checkHandshake s
  else checkHandshake (sendFrame (setMode (assertFence (restartStable s)) mHandshake) 0x15 0 0 .fenceDemand)

/-- Ten microseconds, the window of R349 and R351. -/
def within10us (s : State) (t : Nat) : Bool := decide (s.devTime ≤ t + 10000)

/-- Judge the twin's demand with the link lost (R349, R351): the later of two demands more than 10 µs apart gives way; in
a tie, and against a first demand, the side without priority does. -/
def judgeDemand (s : State) : State :=
  match s.twin.fenceOutAt with
  | some t => if within10us s t && !priority s then fenceSelf s [] else s
  | none => if priority s && serving s then demandFence s else fenceSelf s []

/-- The twin link is lost (R333, R353, R376). -/
def linkLost (s : State) : State :=
  if flag s Reg.FLK_TWIN_STS.link_lost then s
  else
    let s := raise (setFlag (putFlag (restartStable s) Reg.FLK_TWIN_STS.link_lost true) Reg.FLK_TWIN_ERR.link_lost) 1521 .linkLost 0xFFF []
    if twinMode s = mTarget then setMode (unpairTime { s with twin.resync := none, twin.halfClods := [] } false) mFenced
    else if twinMode s = mSource then
      let s := (unacked s).foldl (fun s w => updWrite (markChanged s (clodOf w.line)) w.id fun w => { w with mapped := true }) s
      setMode (unpairTime (forgetPair { s with twin.resync := none }) true) mSolo
    else if !mirrored s then s
    else if fenceIn s then judgeDemand { s with twin.fenceInAt := some s.devTime }
    else if aliveIn s = 2 then takeover s
    else s

/-- Send the snoop requests whose answers may have been lost again (R210). -/
def resendSnoops (s : State) : State :=
  (s.fcd.snoops.filter fun x => x.target = partnerTarget).foldl (fun s x => sendFrame s 0x0B 0 0 (.snoopReq x.id x.line x.inv (aheadFwd s x.line))) s

/-- The current ROLE_CHANGE of a takeback, sent or sent again (R378, R379). -/
def sendRoleChange (s : State) : State :=
  match s.twin.takeback with
  | some t =>
    match t.sent with
    | some e => sendFrame s 0x14 0 0 (.roleChange e t.group (t.plots.map fun p => (p, (plotRec s p).seq)))
    | none => s
  | none => s

/-- Administrative frames that waited for the link leave, in order. -/
def sendHeldAdmin (s : State) : State :=
  s.twin.adminHeld.foldl sendAdmin { s with twin.adminHeld := [] }

/-- The link is up again (R342, R379): what may have been lost is sent again. -/
def linkBack (s : State) : State :=
  if !flag s Reg.FLK_TWIN_STS.link_lost then s
  else
    let s := sendHeldAdmin (putFlag s Reg.FLK_TWIN_STS.link_lost false)
    if mirrored s then sendRoleChange (resendSnoops (resendFrom s (s.twin.ackedCtr + 1))) else s

/-! ### Received frames (R333, R334, R336, R381, R439) -/

/-- The port field of a twin port's registers. -/
def twinPortField (f : Field) (port : Nat) : Field := fieldAt f (port * 0x100)

/-- The twin link has its secret (R439). -/
def twinKeyed (s : State) : Bool := decide (sget [] s.cku.secrets 0 ≠ [])

/-- Discard a frame: its port counts it (R336). -/
def discardFrame (s : State) (f : FrameIn) : State :=
  let s := incFiBy s (twinPortField Reg.FLK_TP_CORR_CNT.corrected f.port.val) 0 1
  if f.tagOk then s else incF (setFlag s Reg.CKU_ERR.tag_fail) Reg.CKU_TAG_FAIL.frame

/-- The first checks of a frame, which arrives only on a port that is up: its GCM job ends (R448); a failed tag or header discards it (R336), as an unkeyed link discards everything but
HELLO (R439); a good one shows the link alive (R333) and brings the sender's level and stop bit (R177, R178). -/
def frameIn (s : State) (f : FrameIn) (hello : Bool) : Bool × State :=
  if getF s Reg.FLK_TWIN_STS.ports_up / 2 ^ f.port.val % 2 = 0 then (false, s)
  else match (if twinKeyed s then frameJob s { tagOk := f.tagOk, first := f.first, second := f.second } else (true, s)) with
  | (false, s) => (false, s)
  | (true, s) =>
  if f.tagOk && f.headerOk && (hello || twinKeyed s) then
    let s := linkBack s
    (true, { s with pou.partnerLevel := f.level.val, pou.partnerStop := f.stop })
  else (false, discardFrame s f)

/-- A frame under another epoch is answered with STALE_EPOCH and has no other effect (R381). -/
def frameTaken (s : State) (f : FrameIn) (ftype : Nat) : Bool × State :=
  match frameIn s f false with
  | (false, s) => (false, s)
  | (true, s) =>
    let s := setTwinEpoch s f.epoch
    if f.epoch = epoch s then (true, s)
    else (false, sendFrame (incF s Reg.FLK_STALE_CNT.rejected) 0x17 0 0 (.staleEpoch (epoch s) f.ctr ftype))

/-! ### The ordered stream, received (R338 to R343) -/

/-- Match a mirrored record to the write this controller forwarded (R31, R344). -/
def matchFwd (s : State) (plot seq : Nat) (r : MirrorRec) : State :=
  let mid := if 0x100 ≤ r.mid.val ∧ r.mid.val < 0x200 then r.mid.val - 0x100 else r.mid.val
  if !r.fwd then s
  else
    let noticed := s.twin.notices.contains (plot, seq) || decide (seq ≤ (plotRec s plot).leaseMark)
    { s with
      pou.fwdWrites := s.pou.fwdWrites.map fun f =>
        if f.mid = mid && f.tag = r.fwdTag.val && f.seq.isNone then { f with seq := some seq, noticed := f.noticed || noticed } else f
      twin.notices := s.twin.notices.erase (plot, seq) }

/-- Apply one mirrored record (R340), once. False: it waits for a frame, an overlay, a way or the lift of its clod. DESIGN CHOICE: its
lookup of the clod's entry is counted as it is applied, and it does not wait for the entry's read. -/
def applyRecord (s : State) (plot seq : Nat) (r : MirrorRec) : Bool × State :=
  let line := r.line.val
  let clod := clodOf line
  if seq ≤ (plotRec s plot).mirrored then (true, s)
  else if awaitsLift s (plotRec s plot) clod then (false, (askLift s clod .read).2)
  else match (if (entryOf s clod).crcBad then some s else prepareWrite s clod (plotRec s plot).generation) with
  | none => (false, s)
  | some s =>
    match applyLine (markRewrite s line) line r.mid.val { data := r.data, poison := r.poison } 1 with
    | (false, s) => (false, s)
    | (true, s) =>
      let s := updPlot (mapLookup s clod).2 plot fun p => { p with mirrored := max p.mirrored seq }
      (true, matchFwd { s with twin.applied := (s.twin.applied.filter fun a => a.2.2 ≠ line) ++ [(plot, seq, line)] } plot seq r)

/-- Apply a frame's records in sequence. -/
def applyRecords (s : State) (plot : Nat) : Nat → List MirrorRec → Bool × State
  | _, [] => (true, s)
  | seq, r :: t =>
    match applyRecord s plot seq r with
    | (true, s) => applyRecords s plot (seq + 1) t
    | (false, s) => (false, s)

/-- Install a resynchronised clod in a fresh frame (R374): Resident and dirty; older cached lines give way. -/
def installClod (s : State) (clod : Nat) (image : ClodImage) : Option State :=
  match takeFrame s with
  | none => none
  | some (f, s) =>
    let e := entryOf s clod
    let s := (List.range 1024).foldl (fun s i => dropLine s (clod * 1024 + i)) s
    let s := fillFrame (resourceCheck s) f fun i => let v := sget zeroLine image i; if v.poison then poisonLine else v
    let s := dropOverlay (if e.crcBad then s else loseBase s e) clod e
    let s := if e.tier = 1 && !e.crcBad then drainFrame s clod e.frame else s
    let s := setEntry s clod { tier := 1, dirty := true, frame := f, pins := e.pins, heat := e.heat }
    let s := { s with
      diu.poison := s.diu.poison.filter fun x => clodOf x.1 ≠ clod || (sget zeroLine image (lineIn x.1)).poison
      tmg.settles := s.tmg.settles.map fun x => if x.clod = clod then { x with dropped := true } else x }
    some (queueSettle (chargeClod (imagePoison (markBase s clod fun _ => false) clod image) clod) clod 2 .repair)

/-- Take half a clod of the stream; with both halves in hand it is installed, or answers a fetch (R288, R374). -/
def applyHalf (s : State) (clod half : Nat) (lines : ClodImage) : Bool × State :=
  match s.twin.halfClods.find? fun h => h.1 = clod && h.2.1 ≠ half with
  | none => (true, { s with twin.halfClods := (s.twin.halfClods.filter fun h => h.1 ≠ clod) ++ [(clod, half, lines)] })
  | some (_, _, other) =>
    let image : ClodImage := if half = 0 then lines ++ other else other ++ lines
    let done (s : State) : State := { s with twin.halfClods := s.twin.halfClods.filter fun h => h.1 ≠ clod }
    if s.bfc.fetches.any fun f => f.2 = clod then (true, takeFetched (done s) clod image)
    else match installClod s clod image with
      | some s => (true, done s)
      | none => (false, s)

/-- All 64 group digests of a table. -/
def digestList (crcs : Sparse DWord) : List DWord := (List.range 64).map fun g => sget 0 crcs g

/-- A group's digests differ: its writes stop until both sides have checked (R366). -/
def startDispute (s : State) (group period : Nat) (mine : Bool) (lines : List Nat) : State :=
  if s.twin.disputes.any fun d => d.group = group && d.mine = mine then s
  else
    let s := incF (setFlag (restartStable s) Reg.FLK_TWIN_ERR.digest_mismatch) Reg.FLK_DIGEST_CNT.mismatches
    let s := setF (setF (setF s Reg.FLK_DIGEST_LAST.group group) Reg.FLK_DIGEST_LAST.outcome 0) Reg.FLK_DIGEST_LAST.period period
    let s := raise s twinSource .digestMismatch 0xFFF [group, period]
    { s with twin.disputes := s.twin.disputes ++
        [{ group := group, period := period, mine := mine, ownPassed := none, twinPassed := none, lines := lines }] }

/-- Groups whose values differ. -/
def differing (a b : List DWord) : List Nat := (List.range 64).filter fun g => a.getD g 0 ≠ b.getD g 0

/-- Lines of a group written in a period. -/
def periodLines (ls : List (Nat × Nat × Nat)) (period group : Nat) : List Nat :=
  ((ls.filter fun l => l.1 = period && groupOf l.2.1 = group).map fun l => l.2.2).eraseDups

/-- Apply a DIGEST marker (R365): compare, reply, start the next period. -/
def applyMarker (s : State) (period : Nat) (digests : List DWord) : State :=
  let own := digestList s.twin.rxCrc
  let bad := differing own digests
  let s := bad.foldl (fun s g => startDispute s g period false (periodLines s.twin.rxLines s.twin.rxPeriod g)) s
  let s := { s with twin.rxCrc := [], twin.rxPeriod := period + 1, twin.rxLines := [] }
  sendFrame s 9 0 0 (.digestReply period own)

/-- Count an applied body in its group's digest. -/
def digestBody (s : State) (b : OrderedBody) : State :=
  let s := { s with twin.rxLines := s.twin.rxLines ++ linesOf s s.twin.rxPeriod b }
  match digestPart s b with
  | some (g, bs) => { s with twin.rxCrc := supd 0 s.twin.rxCrc g fun d => crcExtend d bs }
  | none => s

/-- Apply an ordered body. False: it has not been applied whole yet. -/
def applyBody (s : State) (b : OrderedBody) : Bool × State :=
  match (match b with
    | .mirror plot seq rs => applyRecords s plot seq rs
    | .resyncClod clod half lines => applyHalf s clod half lines
    | .digestMarker period digests => (true, applyMarker s period digests)) with
  | (true, s) => (true, digestBody s b)
  | (false, s) => (false, s)

/-- Apply the frames in hand in counter order as far as they go (R338). -/
def applyReady : Nat → State → State
  | 0, s => s
  | n + 1, s =>
    match s.twin.reorder.find? fun r => r.1 = s.twin.rxExpected with
    | none => s
    | some (ctr, b) =>
      match applyBody s b with
      | (false, s) => s
      | (true, s) =>
        applyReady n { s with
          twin.reorder := s.twin.reorder.filter fun r => r.1 ≠ ctr, twin.rxExpected := ctr + 1, twin.ackOwed := true }

/-- Payload bytes in the reorder buffer. -/
def reorderBytes : List (Nat × OrderedBody) → Nat
  | [] => 0
  | r :: t => payloadBytes r.2 + reorderBytes t

/-- An ordered frame arrives: a duplicate is discarded, one past a gap waits in the 4 MiB reorder buffer (R342). -/
def orderedIn (s : State) (ctr : Nat) (b : OrderedBody) : State :=
  if ctr < s.twin.rxExpected then { s with twin.ackOwed := true }
  else if s.twin.reorder.any fun r => r.1 = ctr then s
  else if s.twin.rxExpected < ctr && 4194304 < reorderBytes s.twin.reorder + payloadBytes b then s
  else
    let s := { s with twin.reorder := s.twin.reorder ++ [(ctr, b)] }
    applyReady (s.twin.reorder.length) s

/-- A frame_ctr is missing: later frames are in hand and the next one is not (R342). -/
def gapOpen (s : State) : Bool :=
  (s.twin.reorder.any fun r => s.twin.rxExpected < r.1) && !(s.twin.reorder.any fun r => r.1 = s.twin.rxExpected)

/-! ### Digest outcomes (R366, R367) -/

/-- Clods of a list of lines. -/
def clodsOfLines (ls : List Nat) : List Nat := (ls.map clodOf).eraseDups

/-- "Passes, passes" three times within 24 h advises replacement on both controllers (R367). -/
def countNeither (s : State) : State :=
  let times := (s.twin.neitherTimes.filter fun t => s.devTime < t + 86400000000000) ++ [s.devTime]
  let s := setF { s with twin.neitherTimes := times } Reg.FLK_DIGEST_CNT.neither_24h times.length
  if 3 ≤ times.length then adviseReplace s 6 else s

/-- A period of the own stream needs no more comparing in a group: its retained frames may go (R341). -/
def comparedGroup (s : State) (group period : Nat) : State :=
  { s with twin.retained := s.twin.retained.map fun r =>
      if r.period = period && (match digestPart s r.body with
        | some (g, _) => g = group
        | none => true) then { r with compared := true } else r }

/-- Both checks of a dispute are in: act on the outcome table of R366. -/
def endDispute (s : State) (d : Dispute) (own twin_ : Bool) : State :=
  let s := { s with twin.disputes := s.twin.disputes.filter fun x => !(x.group = d.group && x.mine = d.mine) }
  let s := if d.mine then freeRetained (comparedGroup s d.group d.period) else s
  let s := setF (setF s Reg.FLK_DIGEST_LAST.group d.group) Reg.FLK_DIGEST_LAST.outcome (if !own then 1 else if !twin_ then 2 else 3)
  let s := if own then s else adviseReplace (setFlag s Reg.FLK_TWIN_ERR.self_check_fail) 7
  let s :=
    if !own && !twin_ && d.mine then raiseFull (adviseReplace s 7) twinSource 3 .digestMismatch 0xFFF [d.group, d.period] .nobody
    else s
  if own && twin_ then
    let s := countNeither s
    if d.mine then { s with twin.resend := (s.twin.resend ++ clodsOfLines d.lines).eraseDups } else s
  else if !own && (!d.mine || twin_) then fenceSelf s []
  else s

/-- End every dispute whose two results are known. -/
def checkDisputes (s : State) : State :=
  s.twin.disputes.foldl (fun s d =>
    match d.ownPassed, d.twinPassed with
    | some a, some b => endDispute s d a b
    | _, _ => s) s

/-! ### Sending clods (R374, R375) -/

/-- No write of a clod has been sent to the twin without being applied here: its contents stand at this place in the order. -/
def clodStable (s : State) (clod : Nat) : Bool :=
  !(s.pou.writes.any fun w => clodOf w.line = clod && unappliedW w && w.frameCtr ≠ 0)

/-- The nonzero or poisoned lines of half a clod, as it stands. -/
def halfImage (s : State) (clod half : Nat) : ClodImage :=
  (List.range 512).filterMap fun i =>
    let v := currentLine s (clod * 1024 + half * 512 + i)
    if v = zeroLine then none else some (half * 512 + i, if v.poison then poisonLine else v)

/-- A front-cache error has been found that stops the controller: nothing it read leaves it (R202, R204). -/
def stopping (s : State) : Bool := mirrored s && s.fcd.fatal.isSome

/-- A clod to be sent lies in Bedrock in part: its grains are read first, with their repair ladder (R283, R374). True once they are in. -/
def copyRead (s : State) (clod : Nat) : Bool :=
  match s.twin.copies.find? fun c => c.1 = clod with
  | some c => c.2.isEmpty
  | none => (entryOf s clod).tier.val < 2

/-- Read the grains of a clod to be sent (R278). -/
def askCopy (s : State) (clod : Nat) : State :=
  if s.twin.copies.any fun c => c.1 = clod then s
  else (List.range 16).foldl (fun s g => wantGrain s clod g [.copy clod] false false) { s with twin.copies := s.twin.copies ++ [(clod, List.range 16)] }

/-- Send a clod as two RESYNC_CLOD frames in the ordered stream; its cached lines are checked as they are read (R202). -/
def sendClod (s : State) (clod : Nat) : State :=
  let s := checkClod { s with twin.copies := s.twin.copies.filter fun c => c.1 ≠ clod } clod
  if stopping s then s
  else
    let s := engineClod s 0x31A clod
    sendOrdered (sendOrdered s (.resyncClod clod 0 (halfImage s clod 0))) (.resyncClod clod 1 (halfImage s clod 1))

/-- Send the clods owed outside a resynchronisation, each once its contents stand. -/
def sendResends (s : State) : State :=
  if !mirrored s then s
  else s.twin.resend.foldl (fun s c =>
    if !clodStable s c then s
    else if copyRead s c then { sendClod s c with twin.resend := s.twin.resend.erase c }
    else askCopy s c) s

/-! ### Fetches and samples of the twin (R288, R368) -/

/-- Serve a clod fetch from this controller's own copy: Loam answers at once, Bedrock by its 16 grains at rank 2. -/
def serveFetch (s : State) (tag clod : Nat) : State :=
  let e := entryOf s clod
  if e.crcBad then sendFrame s 0x0E 0 0 (.clodRefuse tag clod)
  else
    let grains := if e.tier = 2 || e.tier = 3 then List.range 16 else []
    let s := { s with bfc.serves := s.bfc.serves ++ [(tag, clod, grains, false)] }
    finishServes (grains.foldl (fun s g => wantGrain s clod g [.service tag] false true) s)

/-- Fetches that waited for a sequence to be applied (R288). -/
def serveReady (s : State) : State :=
  s.twin.fetchWaits.foldl (fun s w =>
    let p := (plotOfClod s w.2.1).getD 0
    if w.2.2 ≤ (plotRec s p).mirrored then
      serveFetch { s with twin.fetchWaits := s.twin.fetchWaits.filter fun x => x.1 ≠ w.1 } w.1 w.2.1
    else s) s

/-- Reads of clods whose entry is lost at their home, served here once their sequence is applied (R46). -/
def copyReadsReady (s : State) : State :=
  s.twin.copyReads.foldl (fun s w =>
    let (mid, tag, line, seq) := w
    let p := (plotOfLine s line).getD 0
    if seq ≤ (plotRec s p).mirrored then
      let s := checkLine { s with twin.copyReads := s.twin.copyReads.erase w } line
      let v := currentLine s line
      if stopping s then s else sendFrame s 0x06 0 p (.readData mid tag v.poison (if v.poison then 0 else v.data) false)
    else s) s

/-- What a sample's CRC covers: the line and its poison bit (R368, R425). DESIGN CHOICE (log entry 49): the bit as a byte after the line. -/
def sampleCrc (v : LineVal) : DWord := crc64 (lineBytes v.data ++ natBytes 1 v.poison.toNat)

/-- The CRC of a line for a sample, which the sampler reads as 0x31B. -/
def lineCrc (s : State) (line : Nat) : DWord := sampleCrc (currentLine s line)

/-- The sampler's read of a line that Loam holds, as LMC counts it (R25, R255). -/
def sampleRead (s : State) (line : Nat) : State :=
  match (cachedLine s line), placeOf s line with
  | none, .loam lpa => engineRow s 0x31B false lpa 1
  | _, _ => s

/-- A later write of a line than a sequence number has been applied from the stream. -/
def appliedLater (s : State) (plot line seq : Nat) : Bool :=
  s.twin.applied.any fun a => a.1 = plot && a.2.2 = line && decide (seq < a.2.1)

/-- Samples that waited for a sequence to be applied (R368): discarded when a later write of the line has been applied. -/
def sampleReady (s : State) : State :=
  s.twin.sampleWaits.foldl (fun s w =>
    let (tag, line, plot, seq) := w
    if seq ≤ (plotRec s plot).mirrored then
      let s := checkLine (sampleRead { s with twin.sampleWaits := s.twin.sampleWaits.filter fun x => x.1 ≠ tag } line) line
      if stopping s then s else sendFrame s 0x11 0 0 (.sampleRsp tag (if appliedLater s plot line seq then none else some (lineCrc s line)))
    else s) s

/-! ### The ends of resynchronisation and takeback (R373, R378) -/

/-- The survivor's side of a completed resynchronisation: the demand drops, and both serve (R373 step 5, R380). -/
def checkResync (s : State) : State :=
  match s.twin.resync with
  | some r =>
    if twinMode s = mSource && r.left.isEmpty && r.sent.isEmpty then
      let s := setEpoch (dropFence { s with twin.resync := none, twin.mustFull := false }) (newEpoch s)
      setMode (endLease (restartStable { s with twin.twinLeaseAt := s.devTime, twin.plotChange := [], twin.leaseRxAt := s.devTime })) mMirrored
    else s
  | none => s

/-- Every ordered write of the moving plots is durable: ROLE_CHANGE is sent (R378 step 3). -/
def checkTakeback (s : State) : State :=
  match s.twin.takeback with
  | some t =>
    if t.plots.isEmpty || t.sent.isSome || !mirrored s then s
    else if s.pou.writes.any fun w => t.plots.contains w.plot && ordered w && !w.durable then s
    else sendRoleChange { s with twin.takeback := some { t with sent := some (newEpoch s) } }
  | none => s

/-! ### What every data-path command ends with -/

/-- A fatal front-cache error stops the controller (R203, R204). -/
def checkFatal (s : State) : State :=
  match s.fcd.fatal with
  | none => s
  | some known =>
    let s := raise { s with fcd.fatal := none } 1344 .fatalFrontCache 0xFFF [match known with | .line c => c | _ => 0]
    if solo s then adviseReplace (dropAllLinks s) 12
    else
      let clods := match known with
        | .line c => (c :: dirtyClods s).eraseDups
        | .tags => chargedClods s
        | .elsewhere => dirtyClods s
      discardDirty (fenceSelf s clods)

/-- Sealing plots that have become dirty again are not done here (R41). -/
def reopenSeals (s : State) : State :=
  (((admitted s).filter fun e => e.2.sealing && e.2.doneHere).map (·.1)).foldl reopenSeal s

/-- An engine has work in hand (R369). -/
def engineBusy (s : State) (e : Nat) : Bool :=
  decide (0 < liftsOn s e) || decide (0 < settlesOn s e) ||
    (decide (0x310 ≤ e ∧ e < 0x314) && sget [] s.diu.scrubQueue (e - 0x310) ≠ []) || (e = 0x31D && !s.fcd.snoops.isEmpty)

/-- Work that arrives during a self-test slice abandons it (R369). -/
def abandonSlices (s : State) : State := { s with twin.slices := s.twin.slices.filter fun e => !engineBusy s e }

/-- What the twin's stream and requests wait for goes on. -/
def driveTwin (s : State) : State :=
  let s := reopenSeals (applyReady s.twin.reorder.length (abandonSlices s))
  checkTakeback (checkResync (sendResends (sampleReady (copyReadsReady (serveReady (checkDisputes s))))))

/-- Everything that can move, moves; then a fatal error, if one was met, stops the controller. -/
def settleAll (s : State) : State :=
  if flushing s then s else checkFatal (drive (driveTwin (drive (driveTwin (chainEnd (answersGood (macsGood (retryLifts (retryFetched (failRebuilds s))))))))))

/-! ### Sand buffers of the hardware engines (R278, R287, R317, R341, R449, R465 to R468) -/

/-- The master a grain is read for (R228, R450, R466): its first reader's, else the engine's. -/
def grainMid (s : State) (r : GrainRead) : Nat :=
  let reader := r.users.findSome? fun u =>
    match u with
    | .read id => (findRdRec s id).map (·.mid)
    | _ => none
  reader.getD (if r.lift then 0x300 else 0x314 + r.bed)

/-- An owner's name. -/
def ownerOf (block : Fin 16) (mid : Nat) : Owner := { block := block, mid := Fin.ofNat 4096 mid }

/-- What stages data now, and under which name (R466): grain reads, the grains in hand of lifts, settles until their end, and FLK's
retained frames. -/
def stagers (s : State) : List (BufUse × Owner) :=
  ((s.bfc.reads.filter fun r => r.purpose = .wanted).map fun r => (.grain r.id r.tagFails r.clod r.grain, ownerOf 2 (grainMid s r))) ++
    (s.tmg.lifts.flatMap fun l => if l.image.isSome then [] else
      ((List.range 16).filter fun g => l.got.getLsbD g).map fun g => (.lift l.clod g, ownerOf 3 l.engine)) ++
    (s.tmg.settles.flatMap fun x => (List.range 16).map fun g => (.settle x.clod x.slot g, ownerOf 3 x.engine)) ++
    (List.range (frameBuffers (retainedBytes s.twin.retained))).map fun n => (.frames n, ownerOf 4 0x31A)

/-- The sand buffer held for a use. -/
def useOf (s : State) (u : BufUse) : Option (BufUse × Owner × Nat) := s.bpm.uses.find? fun x => x.1 = u

/-- BFC shares a grain's buffer with the lift that waits for the grain, and puts its own name (R467, R468). -/
def handOver (s : State) (w : BufUse × Owner) : State :=
  match w.1 with
  | .lift clod grain =>
    let mine (x : BufUse × Owner × Nat) : Bool := match x.1 with
      | .grain _ _ c g => c = clod && g = grain
      | _ => false
    match useOf s w.1, s.bpm.uses.find? mine with
    | none, some (u, o, h) =>
      let s := bufPut (bufShare s h o w.2) h o
      { s with bpm.uses := (s.bpm.uses.filter fun x => x.1 ≠ u) ++ [(w.1, w.2, h)] }
    | _, _ => s
  | _ => s

/-- A buffer whose use is over goes back; after a tag failure CKU has set its untrusted flag, which ends with it (R449, R468). -/
def endUse (s : State) (x : BufUse × Owner × Nat) : State :=
  let failed : Bool := match x.1 with
    | .grain id n _ _ => s.bfc.reads.any fun r => r.id = id && n < r.tagFails
    | _ => false
  let pool := handlePool x.2.2
  let i := handleIndex x.2.2
  let s := if failed then setBuf s pool i { bufAt s pool i with untrusted := true } else s
  let s := bufPut s x.2.2 x.2.1
  { s with bpm.uses := s.bpm.uses.filter fun y => y.1 ≠ x.1 }

/-- An engine asks for a sand buffer it does not hold yet; one that receives POOL_EMPTY holds its request and asks again (R465). -/
def askUse (s : State) (w : BufUse × Owner) : State :=
  if (useOf s w.1).isSome then s
  else match bufGrant s 1 w.2 with
    | some (h, s) => { s with bpm.uses := s.bpm.uses ++ [(w.1, w.2, h)] }
    | none => poolEmpty s 1

/-- The engines' buffers follow what they stage. BPM accepts no request while a flush runs (R471). -/
def stageBuffers (s : State) : State :=
  if flushing s then s
  else
    let want := stagers s
    let s := want.foldl handOver s
    let s := (s.bpm.uses.filter fun x => !want.any fun w => w.1 = x.1).foldl endUse s
    want.foldl askUse s

/-- The end of a data-path command: what it did, and everything that follows from it at once; its engines' buffers follow. -/
def settles (s t : State) : Host.Outcome State Fault Refusal := completes s (stageBuffers { settleAll t with bpm := s.bpm })

/-- The same for a command that may take or free other buffers: operations that wait for one ask again, and the pools are as that leaves
them. -/
def settlesBuffers (s t : State) : Host.Outcome State Fault Refusal :=
  let t := if flushing t then t else askBuffers t
  completes s (stageBuffers { settleAll t with bpm := t.bpm })

/-- The same for the command that steps device time (R21). -/
def settlesTimed (s t : State) : Host.Outcome State Fault Refusal :=
  .next { stageBuffers { settleAll t with bpm := s.bpm } with pending := s.pending }

/-- What a step does while no command waits: a tick passes, and requests whose MACs have checked good in it go on (R88). -/
def idles (s : State) : Host.Outcome State Fault Refusal := if macWaits s then settlesTimed s (idleTick s) else .next (idleTick s)

end Sys2Proof.Machine
end

