-- ==== Sys2Proof/Machine/LifeOps.lean ====
section
/-! DEFINITION. The start of a controller as several commands share it (18): stages, halts, the roles of the pair at
start (R570 to R573), resynchronisation's start on both sides (R372, R373), and the moment it serves. -/

namespace Sys2Proof.Machine

/-! ### Stages (R556, R557, R578) -/

/-- Codes of GLB_START_STS.stage. -/
def stBoot : Nat := 0
/-- Loam training. -/
def stTraining : Nat := 1
/-- Translation recovery. -/
def stRecovery : Nat := 2
/-- Restore. -/
def stRestore : Nat := 3
/-- Restore settle. -/
def stSettle : Nat := 4
/-- Kiln erase. -/
def stErase : Nat := 5
/-- Waiting for the twin. -/
def stTwin : Nat := 6
/-- Returning. -/
def stReturn : Nat := 7
/-- SERVING. -/
def stServing : Nat := 8
/-- Halted. -/
def stHalted : Nat := 15

/-- GLB_START_STS.stage. -/
def stage (s : State) : Nat := getF s Reg.GLB_START_STS.stage

/-- Enter a stage. -/
def setStage (s : State) (n : Nat) : State := setF s Reg.GLB_START_STS.stage n

/-- Start-up stops under a condition, with a fatal event (R557). -/
def haltStart (s : State) (code : Nat) : State :=
  raise (setF (setStage s stHalted) Reg.GLB_START_STS.halt code) 1280 .startHalt 0xFFF [code]

/-- Steps 12 and 13 are done and this side serves: Memory_Active rises on every LD (R84, R556 step 15). -/
def checkServing (s : State) : State :=
  if stage s = stServing || stage s = stHalted || !s.glb.roleDecided || !armed s || !serving s || (twinMode s = mMirrored && s.twin.resync.isSome) then s
  else
    let ms := (s.devTime - s.glb.runningAt) / 1000000
    let s := setF (setStage s stServing) Reg.GLB_START_TIME.restore_ms (min ms 0xFFFFFFFF)
    allLds.foldl (fun s ld => updLd s ld fun l => { l with memoryActive := true }) s

/-- HFP's reset is released: the bond arrangement takes effect and links train (R73, R100, R556 step 14). -/
def releaseHfp (s : State) : State :=
  if !s.glb.hfpReset then s
  else
    startAllTraining { s with glb.hfpReset := false, hfp.bondActive := (regAt s Reg.HFP_BOND.grp0.addr 0).extractLsb' 0 8 }

/-- The role is decided and this side will serve. -/
def roleServes (s : State) : State := releaseHfp { s with glb.roleDecided := true, twin.aliveOut := 1 }

/-! ### HELLO (R372, R570) -/

/-- This controller's HELLO. -/
def ownHello (s : State) : Hello :=
  { sideB := sideB s, priority := s.twin.optPriority, maxCapacity := s.plots.maxCapacity, lastEpoch := s.twin.lastEpoch, rejoin := s.twin.rejoin,
    rejoinIntact := s.twin.rejoinIntact, mode := Fin.ofNat 8 (twinMode s), serving := serving s, image := Fin.ofNat 4 (getF s Reg.GLB_START_STS.image),
    lostFrom := s.glb.lostFrom, record := s.glb.record, restored := armed s, deviceTime := s.devTime }

/-- Send it: never before the image class and the recorded state are known (R570). -/
def sendHello (s : State) : State :=
  if stage s = stBoot || stage s = stTraining || stage s = stRecovery then s else sendFrame s 0x18 0 0 (.hello (ownHello s))

/-! ### Lost ranges (R565) -/

/-- Poison every line of a written clod with source 6. -/
def poisonClod (s : State) (clod : Nat) : State :=
  (List.range 1024).foldl (fun s i =>
    let line := clod * 1024 + i
    match placeOf s line with
    | .nowhere => s
    | .loam lpa => enterPoison (setLoam s lpa poisonLine) line 6 false
    | .base => enterPoison s line 6 true) (updEntry s clod fun e => { e with marked := true })

/-- Clods that have been written, in clod order. -/
def writtenClods (s : State) : List Nat := (s.plots.entries.filter fun e => e.2.tier ≠ 0).map (·.1)

/-- The lost range has no other source: its written clods are poisoned, once the image has been applied. -/
def poisonRange (s : State) : State :=
  match s.glb.lostFrom with
  | some c =>
    if s.glb.restored then
      ((writtenClods s).filter fun x => decide (c ≤ x)).foldl poisonClod { s with glb.lostFrom := none }
    else s
  | none => s

/-- A data grain of the image that failed has no other source: the lines the image held are poisoned (R563). -/
def poisonGrain (s : State) (g : Nat × Nat) : State :=
  (List.range 64).foldl (fun s i =>
    let line := g.1 * 1024 + g.2 * 64 + i
    match placeOf s line with
    | .loam lpa => enterPoison (setLoam s lpa poisonLine) line 6 false
    | _ => s) (updEntry s g.1 fun e => { e with marked := true })

/-- In solo, nobody can supply the lost range or the failed grains. -/
def checkLost (s : State) : State :=
  if solo s && s.glb.restored then
    s.glb.unplaced.foldl loseEntry (s.glb.lostGrains.foldl poisonGrain (poisonRange { s with glb.lostGrains := [], glb.unplaced := [] }))
  else s

/-- Failed grains come from the twin: their clods are fetched from it like clods whose entry is lost (R46, R563). -/
def fetchLost (s : State) : State :=
  ((s.glb.lostGrains.map (·.1) ++ s.glb.unplaced).eraseDups).foldl loseEntry { s with glb.lostGrains := [], glb.unplaced := [], twin.rejoin := [] }

/-! ### Solo and pair start (R572, R573) -/

/-- Start alone, as the survivor: home of every plot, the twin's fence demanded (R363). -/
def startSolo (s : State) : State :=
  let mine := sideB s
  let s := setEpoch { s with twin.takeoverEpoch := epoch s } (newEpoch s)
  let s := s.plots.plots.foldl (fun s e => updPlot s e.1 fun r => if r.state = .free then r else { r with curHome := mine }) s
  let s := setF (setMode (assertFence (unpairTime s true)) mSolo) Reg.GLB_START_STS.pair 2
  checkServing (sendHello (checkLost (roleServes s)))

/-- The frames of a joined pair are counted afresh from its pairing, which sets new keys (R439). -/
def freshStreams (s : State) : State :=
  { s with
    twin.txOrdered := 0, twin.rxExpected := 1, twin.ackedCtr := 0, twin.ackOwed := false, twin.retained := [], twin.reorder := [], twin.copies := [],
    twin.txCrc := [], twin.rxCrc := [], twin.txPeriod := 0, twin.rxPeriod := 0, twin.txLines := [], twin.rxLines := [], twin.txDigests := [],
    twin.applied := [], twin.halfClods := [], twin.adminHeld := [], twin.leaseRxAt := s.devTime, twin.twinLeaseAt := s.devTime }

/-- Both sides of a pair restart are ready: homes return to preferred homes, and each sends the clods of its change map. -/
def tryPairRestart (s : State) : State :=
  let ready := match s.glb.twinStart with
    | some t => t.restored
    | none => false
  if getF s Reg.GLB_START_STS.pair = 1 && twinMode s = 0 && armed s && ready then
    let s := s.plots.plots.foldl (fun s e => updPlot s e.1 fun r => { r with curHome := r.prefHome }) s
    let s := fetchLost (endLease (setMode (freshStreams { s with twin.aliveOut := 1 }) mMirrored))
    let left := s.twin.changeMap.map (·.1)
    checkServing { s with twin.resync := if left.isEmpty then none else some { full := false, left := left, sent := [] } }
  else s

/-- What a recorded mode says of the data: 0 no record, 1 mirrored, 2 alone, 3 not current (R572, R573). A warm reset's record
adds 8 to the mode before it (R576). -/
def recordClass (r : Option StopRecord) : Nat :=
  match r with
  | none => 0
  | some r => if r.mode % 8 = 1 ∨ r.mode % 8 = 2 ∨ r.mode % 8 = 3 then 1 else if r.mode % 8 = 4 ∨ r.mode % 8 = 5 then 2 else 3

/-- Outcomes of the case table of R572, as this side sees them. -/
inductive PairOutcome where
  | restart | serveAlone | returning | bothLostServe | bothLostReturn | unknown
  deriving DecidableEq, Repr

/-- The case table of R572. -/
def pairCase (s : State) (t : TwinStart) : PairOutcome :=
  match recordClass s.glb.record, recordClass t.record with
  | 1, 1 =>
    match s.glb.lostFrom, t.lostFrom with
    | none, none => .restart
    | none, some _ => .serveAlone
    | some _, none => .returning
    | some a, some b => if b < a || (a = b && priority s) then .bothLostServe else .bothLostReturn
  | 2, 2 => .unknown
  | 2, _ => .serveAlone
  | _, 2 => .returning
  | 1, _ => .serveAlone
  | _, 1 => .returning
  | 3, 0 => .serveAlone
  | 0, 3 => .returning
  | _, _ => .unknown

/-- This controller waits to be resynchronised by the one that serves (R361, R558). -/
def becomeReturning (s : State) : State :=
  let s := setF (setMode (dropAllLinks { unpairTime s false with twin.aliveOut := 2 }) mFenced) Reg.GLB_START_STS.pair 3
  sendHello (if stage s = stTwin then setStage s stReturn else s)

/-- The epoch after a pair restart: the higher of the two recorded ones, plus 1 (R380, R572). -/
def restartEpoch (s : State) (t : TwinStart) : Word :=
  let a := (s.glb.record.map (·.epoch)).getD 0
  let b := (t.record.map (·.epoch)).getD 0
  epochSucc (if epochHigher b a then b else a)

/-- Decide the roles of a pair in which neither side serves (R572). -/
def decidePair (s : State) (t : TwinStart) : State :=
  if s.glb.roleDecided then tryPairRestart s
  else match pairCase s t with
    | .restart => tryPairRestart (roleServesPair (setEpoch { setF s Reg.GLB_START_STS.pair 1 with twin.lastEpoch := restartEpoch s t } (restartEpoch s t)))
    | .serveAlone => startSolo s
    | .returning => becomeReturning s
    | .bothLostServe => startSolo s
    | .bothLostReturn => becomeReturning (poisonRange s)
    | .unknown => haltStart s 7
where
  /-- links train while the pair's copies still run -/
  roleServesPair (s : State) : State := releaseHfp { s with glb.roleDecided := true }

/-! ### Resynchronisation's start (R372, R373) -/

/-- Clods a returning controller needs. -/
def resyncClods (s : State) (full : Bool) (rejoin : List Nat) : List Nat :=
  if full then writtenClods s else sortAsc ((s.twin.changeMap.map (·.1)) ++ rejoin).eraseDups

/-- Plots replayed to it, as one ADMIN frame each. -/
def replayPlots (s : State) (full : Bool) : List Nat := if full then s.plots.plots.map (·.1) else s.twin.plotChange.map (·.1)

/-- The survivor takes a returning controller back (R372, R373 steps 1 to 3). -/
def startResync (s : State) (h : Hello) : State :=
  let full := s.twin.mustFull || !(h.lastEpoch = s.twin.takeoverEpoch && h.rejoinIntact && h.image.val ≠ 2 && h.lastEpoch ≠ 0)
  let left := resyncClods s full h.rejoin
  let s := left.foldl markChanged s
  let s := sendHello (setMode (freshStreams s) mSource)
  let s := (replayPlots s full).foldl (fun s p => sendAdmin s (.replay (adminPlot s p))) s
  { s with twin.resync := some { full := full, left := left, sent := [] }, twin.plotChange := [] }

/-- The returning controller adopts the survivor's epoch and receives (R372). -/
def enterTarget (s : State) (e : Word) : State :=
  let mine := sideB s
  let s := s.plots.plots.foldl (fun s x => updPlot s x.1 fun r => { r with curHome := !mine }) s
  let s := setF (setEpoch (freshStreams s) e) Reg.GLB_START_STS.pair 3
  setMode (dropAllLinks { s with twin.aliveOut := 2, twin.changeMap := [], twin.plotChange := [], glb.lostGrains := [], glb.unplaced := [] }) mTarget

/-- The survivor has dropped its demand: the returning controller serves as partner of every plot (R373 step 5). -/
def endTarget (s : State) : State :=
  let s := setEpoch { s with twin.rejoin := [], twin.rejoinIntact := true, twin.leaseRxAt := s.devTime, twin.twinLeaseAt := s.devTime } (newEpoch s)
  checkServing (startAllTraining (roleServes (endLease (setMode s mMirrored))))

end Sys2Proof.Machine
end

