-- ==== Sys2Proof/Machine/Bedrock.lean ====
section
/-! DEFINITION. Bedrock's commands (08): the sequencers, the ends of reads, programs and erases, slow and failed dies,
lost channels, the ladder's timers, the retention scan and the end of training. -/

namespace Sys2Proof.Machine

/-- A register of channel c. -/
def chField (f : Field) (ch : Nat) : Field := fieldAt f (ch * 0x100)

/-- Channel c of its bed: position in the bed. -/
def bedOf (ch : Nat) : Nat := ch / 24

/-- The bed of a die number. -/
def bedOfDie (d : Nat) : Nat := d / 384

/-! ### Sequencers (R259, R276, R277) -/

/-- The rank of an operation as its die stands: programs to a quarantined or failed die rank below erases. -/
def rankNow (x : Die) (op : DieOp) : Nat := if op.kind = 1 ∧ op.rank = 4 ∧ x.state ≠ 0 then 7 else op.rank

/-- The operation a die takes next among those that pass: lowest rank, then first queued. -/
def nextOp (x : Die) (ok : DieOp → Bool) : Option DieOp :=
  (x.queue.filter ok).foldl (fun (best : Option DieOp) op =>
    match best with
    | some b => if rankNow x op < rankNow x b then some op else best
    | none => some op) none

/-- Put an operation to work on a die. -/
def issueOp (s : State) (d : Nat) (op : DieOp) : State :=
  updDie s d fun x => { x with queue := x.queue.erase op, busy := some { op with startedAt := s.devTime } }

/-- May a busy operation be suspended now (R277)? -/
def suspendable (s : State) (op : DieOp) : Bool :=
  let cfg (f : Field) : Nat := fieldOf op.cfg f.lo f.width
  let most := if op.kind = 1 then cfg Reg.BFC_SUSPEND_CFG.prog_max else cfg Reg.BFC_SUSPEND_CFG.erase_max
  op.kind ≠ 0 && decide (op.suspends < most) &&
    (op.suspends = 0 || decide (op.startedAt + cfg Reg.BFC_SUSPEND_CFG.suspend_min_us * 1000 ≤ s.devTime))

/-- A read that may suspend an operation: rank 2 or 3. -/
def pressing (op : DieOp) : Bool := op.kind = 0 && (op.rank = 2 || op.rank = 3)

/-- An operation's data have their buffers: a wanted grain its sand buffer (R278), a program all those of its settles (R317, R465). -/
def opStaged (s : State) (op : DieOp) : Bool :=
  if op.kind = 0 then
    match findRead s op.id with
    | some r => r.purpose ≠ .wanted || (useOf s (.grain r.id r.tagFails r.clod r.grain)).isSome
    | none => true
  else if op.kind = 1 then
    (s.tmg.settles.filter fun x => x.unit = op.id).all fun x => (List.range 16).all fun g => (useOf s (.settle x.clod x.slot g)).isSome
  else true

/-- One decision of a die's sequencer: take the next operation, suspend for a read, or resume (R276, R277). -/
def doBfcSequencerIssue (die : Fin 1536) (s : State) : State :=
  let d := die.val
  let x := dieAt s d
  let c := bchan s (d / 16)
  if c.lost || s.devTime < c.zqUntil then s
  else
    match x.busy, x.held with
    | some op, none =>
      match nextOp x fun o => pressing o && opStaged s o with
      | some r => if suspendable s op then issueOp (updDie s d fun x => { x with held := some { op with suspends := op.suspends + 1 } }) d r else s
      | none => s
    | some _, some _ => s
    | none, some op =>
      match nextOp x fun o => o.kind = 0 && opStaged s o with
      | some r => issueOp s d r
      | none => updDie s d fun x => { x with busy := some { op with startedAt := s.devTime }, held := none }
    | none, none =>
      match nextOp x (opStaged s) with
      | some op => issueOp s d op
      | none => s

/-- A channel's ZQ calibration, while it serves, holds it for 5 µs; no two channels of a bed calibrate at once (R259). -/
def doNandZqRecal (channel : Fin 96) (s : State) : State :=
  let busy := (List.range 24).any fun i => decide (s.devTime < (bchan s (bedOf channel.val * 24 + i)).zqUntil)
  if (bchan s channel.val).lost || busy || getF s (chField Reg.BFC_CH_STS.state channel.val) ≠ 1 then s else updChan s channel.val fun c => { c with zqUntil := s.devTime + 5000 }

/-! ### Reads whose die will not answer (R260, R281, R282) -/

/-- A read is given up at its die: its grain comes from the row; a source counts as bad; a probe ends. -/
def giveUpRead (s : State) (r : GrainRead) : State :=
  let s := dieDone s r.die 0 r.id
  match r.purpose with
  | .probe => dropRead s r.id
  | .source p _ => sourceEnd (dropRead s r.id) p r.id false false
  | .wanted =>
    let s := updRead s r.id fun x => { x with direct := false, ladder := x.ladder.map fun l => { l with tries := 8 } }
    match r.ladder with
    | some _ => checkRungs s r.id
    | none => checkRebuild (startRebuild s r.id) r.id

/-- Every read that waits at a die is given up. -/
def giveUpReads (s : State) (d : Nat) : State :=
  let x := dieAt s d
  let ids := ((x.queue ++ x.busy.toList ++ x.held.toList).filter fun op => op.kind = 0).map (·.id)
  ids.foldl (fun s id =>
    match findRead s id with
    | some r => giveUpRead s r
    | none => s) s

/-! ### Program units (R263, R293, R315, R559, R542) -/

/-- A place for a unit to be programmed again: the first unit of a new stratum, in its own bed or, when that has lost a
channel, in the next one. -/
def newPlace (s : State) (u : ProgUnit) : Option (Nat × State) :=
  let use : StratumUse := if u.purpose = 2 then .metadata else .data
  let beds := if bedLost s u.bed then ((List.range 4).map fun i => (u.bed + 1 + i) % 4).filter fun b => bedTakes s b else [u.bed]
  match beds with
  | [] => none
  | b :: _ =>
    match takeErased use b 64 s with
    | some (k, s) => some (newUnit (updStratum (openStratum s b k u.slc) b k fun x => { x with purpose := u.purpose }) b k u.slc u.purpose)
    | none => none

/-- A settle gives up without commit and its clod is queued again. -/
def requeueSettle (s : State) (x : Settle) : State :=
  let s := unlockClod { s with tmg.settles := s.tmg.settles.filter fun y => y.clod ≠ x.clod } x.clod
  if x.dropped then s else queueSettle s x.clod 0 x.reason

/-- A unit leaves its stratum and is programmed again elsewhere from its staging buffers (R293); where no stratum can
be had, its settles are queued again. -/
def moveUnit (s : State) (u : ProgUnit) : State :=
  let s := (unitDies s u).foldl (fun s d => dieDone s d 1 u.id) s
  let s := { s with bfc.units := s.bfc.units.filter fun x => x.id ≠ u.id }
  match newPlace s u with
  | some (id, s) =>
    let s := updUnit s id fun x => { x with slots := u.slots, segments := u.segments }
    let s := { s with
      tmg.settles := s.tmg.settles.map fun x => if x.unit = u.id then { x with unit := id } else x
      glb.journalUnits := s.glb.journalUnits.map fun j => if j.1 = u.id then (id, j.2) else j }
    if u.started then startUnit s id else s
  | none => (s.tmg.settles.filter fun x => x.unit = u.id).foldl requeueSettle s

/-- A program fails, on a channel or in its encryption (R293, R448): the unit and the others of its stratum move, the stratum is closed
early at its last sealed row and relocated, and its block pair on the channel is retired after the erase. -/
def programFail (s : State) (u : ProgUnit) (where_ : Option Nat) : State :=
  let s := updStratum s u.bed u.stratum fun x => { x with relocate := true }
  let s := match where_ with
    | none => s
    | some ch =>
      updStratum (setFlag s (chField Reg.BFC_CH_ERR.prog_fail ch)) u.bed u.stratum fun x =>
        { x with badChannels := if x.badChannels.contains ch then x.badChannels else x.badChannels ++ [ch] }
  let moved := s.bfc.units.filter fun x => x.bed = u.bed && x.stratum = u.stratum
  queueRelocations (sealStratum (moved.foldl moveUnit s) u.bed u.stratum)

/-- What a sealed journal record lets complete (R559). -/
def journalSealed (s : State) (r : JournalRec) : State :=
  match r.after, r.change with
  | .nothing, _ => s
  | .endOp ld ring op status result, _ => endOp s ld ring op status result.toNat
  | .commit clod, .settled _ loc =>
    match s.tmg.settles.find? fun x => x.clod = clod && x.sealed_ with
    | some x => if x.dropped then s else settleCommit s x loc
    | none => s
  | .commit _, _ => s

/-- A settle's record has been acted on: if it ended without commit its stratum may hold no live clod (R325). -/
def staleAfter (s : State) (r : JournalRec) : State :=
  match r.change with
  | .settled _ loc => checkStale s loc.bed loc.stratum
  | _ => s

/-- Seal the journal records a unit carries. -/
def sealJournal (s : State) (unit : Nat) : State :=
  let recs := (s.glb.journalUnits.filter fun j => j.1 = unit).flatMap (·.2)
  let s := { s with
    glb.journal := s.glb.journal ++ recs
    glb.journalUnits := s.glb.journalUnits.filter fun j => j.1 ≠ unit }
  recs.foldl staleAfter (recs.foldl journalSealed s)

/-- Seal the history segments a unit carries: their records are settled, and the oldest segments in Bedrock become dead
(R537, R542). -/
def sealSegments (s : State) (segments : List Nat) : State :=
  let done := s.evr.handed.filter fun h => segments.contains h.1
  let seqs := done.flatMap fun h => h.2.flatMap fun b => b.records.map (·.seq)
  let s := { s with
    evr.handed := s.evr.handed.filter fun h => !segments.contains h.1
    evr.history := (s.evr.history ++ done).drop (s.evr.history.length + done.length - 65536 * (s.plots.recordMib / 1024))
    evr.ring := s.evr.ring.map fun r => if seqs.contains r.seq then { r with settled := true } else r }
  if done.isEmpty then s else lossMarker s

/-- A settle's rows are sealed: its journal record is packed (R559); a settle that was stopped ends (R325). -/
def settleSealed (s : State) (u : ProgUnit) (i : Nat) (slot : UnitSlot) : State :=
  match s.tmg.settles.find? fun x => x.clod = slot.clod && x.unit = u.id && x.slot = i with
  | none => s
  | some x =>
    if x.dropped then { s with tmg.settles := s.tmg.settles.filter fun y => !(y.clod = x.clod && y.unit = x.unit && y.slot = x.slot) }
    else
      let s := { s with tmg.settles := s.tmg.settles.map fun y => if y.clod = x.clod && y.unit = u.id && y.slot = i then { y with sealed_ := true } else y }
      packJournal s (.settled slot.clod (slotLoc u i)) (.commit slot.clod)

/-- Count settled data, whole MiB in TMG_SETTLED_MIB. -/
def countSettled (s : State) (kib : Nat) : State :=
  let n := s.tmg.settledKib + kib
  incFiBy { s with tmg.settledKib := n % 1024 } Reg.TMG_SETTLED_MIB.settled_mib 0 (n / 1024)

/-- A unit's rows are sealed on all 24 channels (R263). -/
def unitSealed (s : State) (u : ProgUnit) : State :=
  let s := (unitDies s u).foldl (fun s d => incFiBy (dieDone s d 1 u.id) (chField Reg.BFC_CH_PRG_GRAINS.programs (d / 16)) 0 (unitRows u.slc)) s
  let s := { s with bfc.units := s.bfc.units.filter fun x => x.id ≠ u.id }
  let s := updStratum s u.bed u.stratum fun x =>
    { x with sealedRows := (u.number + 1) * unitRows u.slc, sealTime := if x.sealedRows = 0 then mediaTime s else x.sealTime }
  let slots := (List.range u.slots.length).zip u.slots
  let s := slots.foldl (fun s e =>
    let l := slotLoc u e.1
    { s with bfc.base := sput { clod := 0, generation := 0, image := [] } s.bfc.base (baseKey l.bed l.stratum l.row l.grain) e.2 }) s
  let s := if u.purpose ≠ 2 && !u.slc then chargeWear s (u.slots.length * clodBytes) else s
  let s := slots.foldl (fun s e => settleSealed s u e.1 e.2) (countSettled s (u.slots.length * 64))
  let s := sealSegments (sealJournal s u.id) u.segments
  let full := unitsOf s u.slc ≤ u.number + 1
  tillAll (if full then sealStratum s u.bed u.stratum else s)

/-- The engine a unit is programmed for, as CKU_LEN_ERR names it (R25, R450). DESIGN CHOICE: the first of its kind. -/
def unitMid (u : ProgUnit) : Nat := if u.purpose = 0 then 0x308 else if u.purpose = 1 then 0x314 + u.bed else 0x318

/-- A program unit ends on all 24 channels, or fails on one (R263, R293). A GCM job that ends otherwise than good has the unit encrypted
again, once; a second one, or a refused one, is a failed program (R448, R450). -/
def doProgramUnitDone (unit : Nat) (failed : Option (Fin 24)) (job : GcmEnd) (s : State) : State :=
  match findUnit s unit with
  | none => s
  | some u =>
    if !u.started then s
    else
      match gcmEnds (gcmSubmit s u.job) (unitMid u) job with
      | (false, s) =>
        if u.again || job = .refused then programFail s u none else updUnit s unit fun x => { x with again := true, job := gcmAssign s }
      | (true, s) =>
        match failed with
        | none => unitSealed s u
        | some c => programFail s u (some (u.bed * 24 + c.val))

/-! ### Lost channels (R260) -/

/-- Every live clod of a bed is queued for relocation. -/
def relocateBed (s : State) (bed : Nat) : State :=
  ((s.plots.entries.filter fun e => e.2.hasBase && e.2.bed.val = bed).map (·.1)).foldl (fun s c => queueSettle s c 0 .relocation) s

/-- A channel is marked lost: its state and flag, its event, and advice to replace. -/
def markLost (s : State) (ch : Nat) : State :=
  let s := updChan s ch fun c => { c with lost := true }
  let s := setF (setFlag s Reg.BFC_ERR.channel_lost) (chField Reg.BFC_CH_STS.state ch) 2
  adviseReplace (raise s (channelSource ch) .channelLost 0xFFF [ch]) 5

/-- A channel is lost: its reads go to reconstruction, its bed's units move to other beds and so do its clods. -/
def loseChannel (s : State) (ch : Nat) : State :=
  if (bchan s ch).lost then s
  else
    let bed := bedOf ch
    let s := ((List.range 16).map fun i => ch * 16 + i).foldl giveUpReads (markLost s ch)
    relocateBed ((s.bfc.units.filter fun u => u.bed = bed).foldl moveUnit s) bed

/-- A sequencer stops answering. -/
def doChannelLost (channel : Fin 96) (s : State) : State := loseChannel s channel.val

/-! ### The end of a grain read (R278 to R290) -/

/-- Bits above which a grain's clod is relocated, in a value of BFC_REFRESH_CFG (R290, R297). -/
def refreshBits (cfg : Word) : Nat := min 120 (fieldOf cfg 0 8)

/-- BFC_REFRESH_CFG as it stands. -/
def refreshNow (s : State) : Word := regAt s Reg.BFC_REFRESH_CFG.refresh_bits.addr 0

/-- Block-pair reads at which a stratum is relocated (R290). -/
def readLimit (s : State) (slc : Bool) : Nat :=
  if slc then getF s Reg.BFC_REFRESH_CFG.rd_slc_10k * 10000 else getF s Reg.BFC_REFRESH_CFG.rd_tlc_k * 1000

/-- Grain reads of a stratum on dies of an index count; at the limit the stratum is put up for relocation (R290). -/
def countRead (s : State) (bed k : Nat) (slc : Bool) (die n : Nat) : State :=
  let s := updStratum s bed k fun x => { x with readCounts := supd 0 x.readCounts die (· + n) }
  let x := stratumAt s bed k
  if x.state = .sealed && !x.relocate && readLimit s slc ≤ sget 0 x.readCounts die then
    queueRelocations (updStratum s bed k fun x => { x with relocate := true })
  else s

/-- Corrections of a grain that decoded good (R269, R298). -/
def countBits (s : State) (cfg : Word) (ch bits : Nat) : State :=
  let f := chField Reg.BFC_CH_CORR.max_bits ch
  let s := setF s f (max (getF s f) bits)
  if refreshBits cfg < bits then incF s (chField Reg.BFC_CH_CORR.over_thresh ch) else s

/-- The clod whose base holds a position of a row, if one does. -/
def clodAtRow (s : State) (bed k row pos : Nat) : Option Nat :=
  (s.plots.entries.find? fun e =>
    let first := e.2.row * 20 + e.2.grain
    e.2.hasBase && e.2.bed.val = bed && e.2.stratum = k && decide (pos < 20 ∧ first ≤ row * 20 + pos ∧ row * 20 + pos < first + 16)).map (·.1)

/-- What every read a die completes leaves behind: its counters, its sample, its stratum's count, and the relocation of a clod whose grain
corrected too many bits (R290). -/
def readEnds (s : State) (r : GrainRead) (outcome : GrainOutcome) (bits quarterUs : Nat) : State :=
  let ch := r.die / 16
  let again := r.ladder.isSome || (match r.purpose with
    | .source _ reread => reread
    | _ => false)
  let s := incF (dieDone s r.die 0 r.id) (chField Reg.BFC_CH_RD_GRAINS.reads ch)
  let s := countRead (sampleMedian s r.die r.slc quarterUs) r.bed r.stratum r.slc (r.die % 16) 1
  if outcome = .ldpcFail then (if again then s else incF s (chField Reg.BFC_CH_CORR.uncorr ch))
  else
    let s := countBits s r.refreshCfg ch bits
    match (if refreshBits r.refreshCfg < bits then clodAtRow s r.bed r.stratum r.row r.pos else none) with
    | some c => queueSettle s c 0 .relocation
    | none => s

/-- A GCM tag failed on a grain (R287, R449). -/
def grainTagFail (s : State) : State := incF (setFlag s Reg.CKU_ERR.tag_fail) Reg.CKU_TAG_FAIL.grain

/-- The first read of a wanted grain, or a rung 1 reread, has ended otherwise than good: rung 1 tries the die's level sets, then the soft
decision (R283). -/
def wantedFails (s : State) (r : GrainRead) (o : GrainOutcome) : State :=
  let s := if o = .tagFail then updRead (grainTagFail s) r.id fun x => { x with tagFails := x.tagFails + 1 } else s
  match r.ladder with
  | none => startLadder s r.id o
  | some l =>
    let s := updRead s r.id fun x => { x with ladder := some { l with tries := l.tries + 1 } }
    if l.tries + 1 < rung1Tries s then dieQueue s r.die { rank := 2, kind := 0, id := r.id, startedAt := s.devTime } else checkRungs s r.id

/-- A wanted grain came good from its own die. -/
def wantedGood (s : State) (r : GrainRead) : State :=
  grainGood (if r.ladder.isNone then updDie s r.die fun d => { d with fails := [] } else s) r 1

/-- A source of a rebuild came back: one that fails is reread once with shifted levels (R283). -/
def sourceReturns (s : State) (r : GrainRead) (parent : Nat) (reread good rebuiltOk : Bool) : State :=
  if !good && !reread then
    dieQueue (updRead s r.id fun x => { x with purpose := .source parent true }) r.die { rank := 2, kind := 0, id := r.id, startedAt := s.devTime }
  else sourceEnd (dropRead s r.id) parent r.id good rebuiltOk


/-- A grain read ends at its die. Its GCM job goes under the assignment it took (R16). A pair whose cores differ is replaced and the grain
decrypted once more, without a further die read: its verdict is the next command for this read (R448); a job refused is a tag failure
(R450). -/
def doGrainReadComplete (id : Nat) (outcome : GrainOutcome) (bits : Fin 256) (quarterUs : Fin 65536) (rebuiltOk : Bool) (s : State) : State :=
  match findRead s id with
  | none => s
  | some r =>
    if !((dieAt s r.die).busy.any fun op => op.kind = 0 && op.id = id) then s
    else
      match outcome, r.purpose with
      | .ldpcFail, .wanted => wantedFails (readEnds s r .ldpcFail bits.val quarterUs.val) r .ldpcFail
      | .headerBad, .wanted => wantedFails (readEnds s r .headerBad bits.val quarterUs.val) r .headerBad
      | o, .wanted =>
        let (verdict, s) := gcmEnds (gcmSubmit s r.job) (grainMid s r) (match o with
          | .noVerdict job => job
          | _ => .good)
        if !verdict && !r.rechecked && o ≠ .noVerdict .refused then updRead s id fun x => { x with rechecked := true, job := gcmAssign s }
        else if verdict && o ≠ .tagFail then wantedGood (readEnds s r .good bits.val quarterUs.val) r
        else wantedFails (readEnds s r .tagFail bits.val quarterUs.val) r .tagFail
      | o, .source parent reread =>
        sourceReturns (readEnds s r o bits.val quarterUs.val) r parent reread (o ≠ .ldpcFail && o ≠ .headerBad) rebuiltOk
      | o, .probe => dropRead (readEnds s r o bits.val quarterUs.val) id

/-- A read has waited hedge_x4 ÷ 4 times its die's median, in units of 0.25 µs, by the setting it was accepted under (R280, R297). -/
def hedgeDue (s : State) (r : GrainRead) : Bool :=
  decide (max 5 (fieldOf r.hedgeCfg 0 6) * dieMedian s r.die r.slc * 125 ≤ (s.devTime - r.acceptedAt) * 2)

/-- Four µs times ladder_4us have passed since a read was accepted, by the setting it was accepted under (R284, R297). -/
def ladderDue (s : State) (r : GrainRead) : Bool := decide (max 1 (min 100 (fieldOf r.hedgeCfg 24 8)) * 4000 ≤ s.devTime - r.acceptedAt)

/-- A read has waited its hedge's time: the other grains of its row are read, once (R280). -/
def doHedgeTimer (id : Nat) (s : State) : State :=
  match findRead s id with
  | none => s
  | some r =>
    if r.purpose ≠ .wanted || !r.direct || r.hedged || r.ladder.isSome || !hedgeDue s r then s
    else startRebuild (incF (updRead s id fun x => { x with hedged := true }) Reg.BFC_HEDGE.hedges) id

/-- Repairs of Loam lines that have waited 400 µs for a grain go on with their next step (R418 step 1). -/
def stepRepairs (s : State) (r : GrainRead) : State :=
  if s.devTime < r.acceptedAt + 400000 then s
  else
    let waits (u : FillUser) : Bool := match u with
      | .repair _ => true
      | _ => false
    let s := updRead s r.id fun x => { x with users := x.users.filter fun u => !waits u }
    (r.users.filter waits).foldl (fun s u =>
      match u with
      | .repair line =>
        match repairOf s line with
        | some x => repairFar s x
        | none => s
      | _ => s) s

/-- The ladder's time is up: rung 3, or rung 4 where it cannot run (R284); a repair of a Loam line goes on elsewhere (R418). -/
def doLadderTimer (id : Nat) (s : State) : State :=
  match findRead s id with
  | none => s
  | some r =>
    if r.purpose ≠ .wanted then s
    else
      let s := stepRepairs s r
      if ladderDue s r then startRung3 s id else s

/-- A fetch was not answered in 2 ms (R284, R288, R418). -/
def doClodFetchTimeout (tag : Nat) (s : State) : State :=
  match s.bfc.fetches.find? fun f => f.1 = tag with
  | some f => fetchFailed s f.2
  | none => s

/-! ### Slow and failed dies (R279 to R282) -/

/-- Every bed's median in each mode (R279). -/
def doBedMedianRecompute (s : State) : State :=
  [0, 1, 2, 3].foldl (fun s bed =>
    [false, true].foldl (fun s slc => { s with bfc.bedMedian := sput 0 s.bfc.bedMedian (bed * 2 + if slc then 1 else 0) (medianOfBed s bed slc) }) s) s

/-- A bed's median as last computed. -/
def bedMedianOf (s : State) (bed : Nat) (slc : Bool) : Nat := sget 0 s.bfc.bedMedian (bed * 2 + if slc then 1 else 0)

/-- quar_x4 as it acts (R297). -/
def quarX4 (s : State) : Nat := max 8 (getF s Reg.BFC_HEDGE_CFG.quar_x4)

/-- unquar_x4 as it acts. -/
def unquarX4 (s : State) : Nat :=
  let u := getF s Reg.BFC_HEDGE_CFG.unquar_x4
  if u < quarX4 s then u else quarX4 s - 2

/-- A die's median for a mode stands above quar_x4 ÷ 4 times its bed's. -/
def tooSlow (s : State) (d : Nat) (slc : Bool) : Bool := decide (quarX4 s * bedMedianOf s (bedOfDie d) slc < dieMedian s d slc * 4)

/-- A die's median stands below unquar_x4 ÷ 4 times its bed's. -/
def fastAgain (s : State) (d : Nat) (slc : Bool) : Bool := decide (dieMedian s d slc * 4 < unquarX4 s * bedMedianOf s (bedOfDie d) slc)

/-- A die that has been too slow for 100 ms is quarantined, if its bed has room (R281). -/
def doQuarantineEntry (die : Fin 1536) (s : State) : State :=
  let d := die.val
  if (dieAt s d).state ≠ 0 || !(tooSlow s d false || tooSlow s d true) then s
  else if 4 ≤ badDies s (bedOfDie d) then raise s (channelSource (d / 16)) .slowDie 0xFFF [d / 16, d % 16]
  else
    let s := updDie s d fun x => { x with state := 1 }
    let s := raise (setFlag s Reg.BFC_ERR.quarantine) (channelSource (d / 16)) .quarantine 0xFFF [d / 16, d % 16]
    checkBadDies s (bedOfDie d)

/-- A quarantined die that has been fast for 10 s serves again (R281). -/
def doQuarantineExit (die : Fin 1536) (s : State) : State :=
  let d := die.val
  if (dieAt s d).state = 1 && fastAgain s d false && fastAgain s d true then updDie s d fun x => { x with state := 0 } else s

/-- A SEALED stratum of a die, for a probe to read. DESIGN CHOICE (log entry 49): the first, and its row 0; the rules name none. -/
def probeStratum (s : State) (d : Nat) : Nat :=
  match (usedStrata s).find? fun e => e.1 = bedOfDie d && e.2.2.state = .sealed && dieIndex s (d / 16) e.2.1 = d % 16 with
  | some e => e.2.1
  | none => d % 16

/-- A quarantined die receives one probe read (R281). -/
def doProbeReadTimer (die : Fin 1536) (s : State) : State :=
  let d := die.val
  if (dieAt s d).state ≠ 1 then s
  else
    let k := probeStratum s d
    pushRead s { id := 0, purpose := .probe, clod := 0, grain := 0, bed := bedOfDie d, stratum := k, row := 0, pos := d / 16 % 24, die := d,
                 slc := (stratumAt s (bedOfDie d) k).slc } 5

/-- An erase fails on a channel: the block pair is retired and replaced, and the stratum is erased again (R293). -/
def eraseFail (s : State) (bed k ch : Nat) : State :=
  let s := setFlag s (chField Reg.BFC_CH_ERR.erase_fail ch)
  let s := if stratumUse s k = .kiln then setFlag s Reg.BFC_ERR.kiln_not_ready else s
  let old := ch * 16 + dieIndex s ch k
  let s := replacePair (dieDone s old 2 (stratumKey bed k)) bed k ch
  if (stratumAt s bed k).state = .retired then
    (List.range 24).foldl (fun s c => dieDone s ((bed * 24 + c) * 16 + dieIndex s (bed * 24 + c) k) 2 (stratumKey bed k)) s
  else dieQueue s (ch * 16 + dieIndex s ch k) { rank := 6, kind := 2, id := stratumKey bed k, startedAt := s.devTime }

/-- A die stays busy too long: it has failed, and so has what it was doing (R282). -/
def doDieBusyTimeout (die : Fin 1536) (s : State) : State :=
  let d := die.val
  let x := dieAt s d
  match x.busy with
  | none => s
  | some op =>
    let stuck := (x.held.toList ++ [op])
    let s := setFlag s (chField Reg.BFC_CH_ERR.die_timeout (d / 16))
    let s := giveUpReads (failDie (updDie s d fun x => { x with busy := none, held := none }) d) d
    let s := stuck.foldl (fun s op =>
      if op.kind = 0 then
        match findRead s op.id with
        | some r => giveUpRead s r
        | none => s
      else if op.kind = 1 then
        match findUnit s op.id with
        | some u => programFail s u (some (d / 16))
        | none => s
      else eraseFail s (op.id / 1048576) (op.id % 1048576) (d / 16)) s
    queueRelocations s

/-! ### Erases (R292, R293, R295) -/

/-- A STALE stratum with no read outstanding is erased, on all 24 channels. -/
def doStaleStratumErase (bed : Fin 4) (stratum : Fin (2 ^ 20)) (s : State) : State :=
  let x := stratumAt s bed.val stratum.val
  if x.state ≠ .stale || x.reading ≠ 0 || x.erasing then s
  else
    let s := updStratum s bed.val stratum.val fun x => { x with erasing := true }
    (List.range 24).foldl (fun s c =>
      let ch := bed.val * 24 + c
      dieQueue s (ch * 16 + dieIndex s ch stratum.val) { rank := 6, kind := 2, id := stratumKey bed.val stratum.val, startedAt := s.devTime }) s

/-- Count an erase: the stratum's 16-bit count, and the own count of each replacement pair (R268, R295). -/
def countErase (s : State) (bed k : Nat) : State :=
  let s := updStratum s bed k fun x => { x with eraseCount := min (x.eraseCount + 1) 65535 }
  (List.range 24).foldl (fun s c =>
    updChan s (bed * 24 + c) fun x => { x with remap := x.remap.map fun r => if r.1 = k then (r.1, r.2.1, r.2.2 + 1) else r }) s

/-- A stratum holds nothing any more. -/
def forgetStratum (s : State) (bed k : Nat) : State :=
  { s with bfc.base := sdrop s.bfc.base fun key => key / 32 / 16384 = bed * 1048576 + k }

/-- An erase ends: the stratum is ERASED, and the block pairs that failed a program are retired now (R293). -/
def doEraseDone (bed : Fin 4) (stratum : Fin (2 ^ 20)) (failed : Option (Fin 24)) (s : State) : State :=
  let b := bed.val
  let k := stratum.val
  let x := stratumAt s b k
  if !x.erasing then s
  else
    match failed with
    | some c => eraseFail s b k (b * 24 + c.val)
    | none =>
      let s := (List.range 24).foldl (fun s c => dieDone s ((b * 24 + c) * 16 + dieIndex s (b * 24 + c) k) 2 (stratumKey b k)) s
      let s := forgetStratum (countErase s b k) b k
      let s := updStratum s b k fun x =>
        { state := .erased, eraseCount := x.eraseCount, gen := x.gen, reading := x.reading }
      recountBedrock (x.badChannels.foldl (fun s ch => if (stratumAt s b k).state = .retired then s else replacePair s b k ch) s)

/-! ### Retention (R290) -/

/-- The grains of a scanned row count as reads, with their corrections. -/
def rowScanned (s : State) (bed k row : Nat) (bits : List (Fin 256)) : State :=
  ((List.range bits.length).zip bits).foldl (fun s e =>
    let ch := channelAt bed row e.1
    let s := countBits (incF s (chField Reg.BFC_CH_RD_GRAINS.reads ch)) (refreshNow s) ch e.2.val
    countRead s bed k (stratumAt s bed k).slc (dieIndex s ch k) 1) s

/-- One row of a SEALED stratum has been read, with the bits each of its grains corrected: a grain over refresh_bits, or
the age of the stratum's first row, puts the stratum up for relocation. -/
def doRetentionScan (bed : Fin 4) (stratum : Fin (2 ^ 20)) (row : Fin 16384) (bits : List (Fin 256)) (s : State) : State :=
  let b := bed.val
  let k := stratum.val
  if (stratumAt s b k).state ≠ .sealed then s
  else
    let s := rowScanned s b k row.val bits
    let x := stratumAt s b k
    let old := decide (max 1 (getF s Reg.BFC_RETAIN_CFG.retain_days) * 86400000000000 ≤ mediaTime s - x.sealTime)
    if old || bits.any fun n => decide (refreshBits (refreshNow s) < n.val) then queueRelocations (updStratum s b k fun x => { x with relocate := true }) else s

/-! ### The end of training (R257 to R260, R271 to R273) -/

/-- A parameter page that R257 or R258 does not allow. A block pair of a TLC stratum holds one grain of 4 KiB in each of its rows (R271). -/
def badPage (p : DiePage) : Bool :=
  !([4, 8, 12, 16].contains p.dies.val) || !p.tlc || !p.oneShot || decide (p.dataBytes.val ≠ 16384) || decide (p.spareBytes.val < 1888) ||
    decide (64 * 1024 * 1024 < p.rowsTlc.val * 4096) || decide (40 < p.trTlc.val) || decide (8 < p.trSlc.val) || decide (200 < p.progSlcUs.val) ||
    !(p.suspendUs.any fun t => t.val ≤ 15) || p.retrySets.isNone || decide (p.cyclesTlc.val < 3000) || decide (p.cyclesSlc.val < 30000)

/-- The least kiln strata of a bed whose four beds hold 1 TiB + 512 MiB (R272). -/
def kilnNeeded (rowsSlc : Nat) : Nat := if rowsSlc = 0 then 0 else (1049088 * 1024 + 4 * rowsSlc * 80 - 1) / (4 * rowsSlc * 80)

/-- Take the population over: BFC_POP, the strata's rows, and the layout as it acts. -/
def takePage (s : State) (p : DiePage) : State :=
  let s := setF (setF s Reg.BFC_POP.dies_per_ch p.dies.val) Reg.BFC_POP.block_pairs p.blockPairs.val
  let s := putFlag (putFlag s Reg.BFC_POP.planes4 p.planes4) Reg.BFC_POP.die_2tb p.die2tb
  let s := { s with
    bfc.rowsTlc := p.rowsTlc.val, bfc.trTlc := p.trTlc.val, bfc.trSlc := p.trSlc.val, bfc.retrySets := (p.retrySets.map (·.val)).getD 0 }
  setF s Reg.BFC_LAYOUT.kiln_per_bed (max (getF s Reg.BFC_LAYOUT.kiln_per_bed) (kilnNeeded (p.rowsTlc.val / 3)))

/-- One channel's training result: its speed, a fallback, or lost (R259, R260). -/
def channelTrained (s : State) (ch : Nat) (result : Option (Fin 5)) : State :=
  match result with
  | none => loseChannel (setFlag s (chField Reg.BFC_CH_ERR.train_fail ch)) ch
  | some speed =>
    let s := setF (setF s (chField Reg.BFC_CH_STS.state ch) 1) (chField Reg.BFC_CH_STS.speed ch) speed.val
    if speed.val < min 4 (getF s Reg.BFC_IF_CFG.speed) then
      raise (setFlag (setFlag s (chField Reg.BFC_CH_ERR.train_fail ch)) (chField Reg.BFC_CH_ERR.fallback ch)) (channelSource ch) .channelFallback 0xFFF [ch, speed.val]
    else s

/-- Steps 6 and 7 of the start have both ended: translation recovery follows (R556); after a warm reset Loam holds the
table, and step 12 is next (R576). -/
def trainingStep (s : State) : State :=
  if s.glb.loamReady && s.glb.bedrockReady && (stage s = stBoot || stage s = stTraining) then
    if getF s Reg.GLB_START_STS.kind = 1 then
      sendHello (setStage { s with glb.restored := true } (if getF s Reg.GLB_START_STS.pair = 3 then stReturn else stTwin))
    else setStage s stRecovery
  else s

/-- Bedrock has been identified and trained (R556 step 7). The factory marks count at the first start only (R293). -/
def doBedrockTrainingDone (channels : List (Option (Fin 5))) (page : DiePage) (populationOk : Bool) (factoryBad : List (Fin 96 × Fin (2 ^ 20)))
    (s : State) : State :=
  if s.glb.bedrockReady || stage s = stHalted then s
  else if !populationOk || badPage page then haltStart (setFlag s Reg.BFC_POP.pop_err) 5
  else
    let s := takePage { s with glb.bedrockReady := true } page
    let s := ((List.range channels.length).zip channels).foldl (fun s e => channelTrained s e.1 e.2) s
    let s := if s.bfc.marksRead then s else factoryBad.foldl (fun s e => replacePair s (bedOf e.1.val) e.2.val e.1.val) s
    trainingStep ((List.range 4).foldl checkBadDies (recountBedrock { s with bfc.marksRead := true }))

/-! ### The commands -/

/-- NAND_ZQ_RECAL -/
def execNandZqRecal (channel : Fin 96) (s : State) : Host.Outcome State Fault Refusal := settles s (doNandZqRecal channel s)

/-- CHANNEL_LOST -/
def execChannelLost (channel : Fin 96) (s : State) : Host.Outcome State Fault Refusal := settles s (doChannelLost channel s)

/-- BFC_SEQUENCER_ISSUE -/
def execBfcSequencerIssue (die : Fin 1536) (s : State) : Host.Outcome State Fault Refusal := settles s (doBfcSequencerIssue die s)

/-- GRAIN_READ_COMPLETE -/
def execGrainReadComplete (id : Nat) (outcome : GrainOutcome) (bits : Fin 256) (quarterUs : Fin 65536) (rebuiltOk : Bool) (s : State) :
    Host.Outcome State Fault Refusal := settles s (doGrainReadComplete id outcome bits quarterUs rebuiltOk s)

/-- HEDGE_TIMER -/
def execHedgeTimer (id : Nat) (s : State) : Host.Outcome State Fault Refusal := settles s (doHedgeTimer id s)

/-- BED_MEDIAN_RECOMPUTE -/
def execBedMedianRecompute (s : State) : Host.Outcome State Fault Refusal := settles s (doBedMedianRecompute s)

/-- QUARANTINE_ENTRY -/
def execQuarantineEntry (die : Fin 1536) (s : State) : Host.Outcome State Fault Refusal := settles s (doQuarantineEntry die s)

/-- QUARANTINE_EXIT -/
def execQuarantineExit (die : Fin 1536) (s : State) : Host.Outcome State Fault Refusal := settles s (doQuarantineExit die s)

/-- PROBE_READ_TIMER -/
def execProbeReadTimer (die : Fin 1536) (s : State) : Host.Outcome State Fault Refusal := settles s (doProbeReadTimer die s)

/-- DIE_BUSY_TIMEOUT -/
def execDieBusyTimeout (die : Fin 1536) (s : State) : Host.Outcome State Fault Refusal := settles s (doDieBusyTimeout die s)

/-- LADDER_TIMER -/
def execLadderTimer (id : Nat) (s : State) : Host.Outcome State Fault Refusal := settles s (doLadderTimer id s)

/-- CLOD_FETCH_TIMEOUT -/
def execClodFetchTimeout (tag : Nat) (s : State) : Host.Outcome State Fault Refusal := settles s (doClodFetchTimeout tag s)

/-- PROGRAM_UNIT_DONE -/
def execProgramUnitDone (unit : Nat) (failed : Option (Fin 24)) (job : GcmEnd) (s : State) : Host.Outcome State Fault Refusal :=
  settles s (doProgramUnitDone unit failed job s)

/-- STALE_STRATUM_ERASE -/
def execStaleStratumErase (bed : Fin 4) (stratum : Fin (2 ^ 20)) (s : State) : Host.Outcome State Fault Refusal :=
  settles s (doStaleStratumErase bed stratum s)

/-- ERASE_DONE -/
def execEraseDone (bed : Fin 4) (stratum : Fin (2 ^ 20)) (failed : Option (Fin 24)) (s : State) : Host.Outcome State Fault Refusal :=
  settles s (doEraseDone bed stratum failed s)

/-- RETENTION_SCAN -/
def execRetentionScan (bed : Fin 4) (stratum : Fin (2 ^ 20)) (row : Fin 16384) (bits : List (Fin 256)) (s : State) :
    Host.Outcome State Fault Refusal := settles s (doRetentionScan bed stratum row bits s)

/-- BEDROCK_TRAINING_DONE -/
def execBedrockTrainingDone (channels : List (Option (Fin 5))) (page : DiePage) (populationOk : Bool) (factoryBad : List (Fin 96 × Fin (2 ^ 20)))
    (s : State) : Host.Outcome State Fault Refusal := settles s (doBedrockTrainingDone channels page populationOk factoryBad s)

end Sys2Proof.Machine
end

