-- ==== Sys2Proof/Machine/Buffers.lean ====
section
/-! DEFINITION. The buffer-pool commands (14). -/

namespace Sys2Proof.Machine

/-- Answer POOL_EMPTY to some requesters (R465). -/
def answerEmpty (s : State) (pool : Nat) (owners : List Owner) : State :=
  owners.foldl (fun s o => emit (poolEmpty s pool) (.bufEmpty o)) s

/-- Grant one of the requesters that ask a pool in the same cycle (R465): while the cache is empty each other one
receives POOL_EMPTY, else it asks again in the next cycle. -/
def grantOne (s : State) (pool : Nat) (owners : List Owner) : State :=
  match nextOwner (poolAt s pool).lastGrant owners with
  | none => s
  | some o =>
    match bufGrant s pool o with
    | none => answerEmpty s pool owners
    | some (h, s) =>
      let s := emit s (.bufGrant o h)
      if (poolAt s pool).cache.isEmpty then answerEmpty s pool (owners.erase o) else s

/-- BUFFER_GET (R459, R465). BPM accepts no request while a flush runs (R471). -/
def doBufferGet (bytes : Nat) (owners : List Owner) (s : State) : State :=
  if s.phs.flushStart.isSome then s
  else match poolFor bytes with
    | none => owners.foldl (fun s o => emit s (.bufBadSize o)) s
    | some pool => grantOne s pool owners

/-- Note a record that cannot be read (R469). -/
def noteRecord (s : State) (h : Nat) (bad : Bool) : State :=
  if bad && !badHandle s h then quarantineBuf s (handlePool h) (handleIndex h) else s

/-- BUFFER_SHARE (R467, R469). -/
def doBufferShare (handle : Word) (owner adds : Owner) (recordBad : Bool) (s : State) : State :=
  if s.phs.flushStart.isSome then s else bufShare (noteRecord s handle.toNat recordBad) handle.toNat owner adds

/-- BUFFER_PUT (R468, R469). -/
def doBufferPut (handle : Word) (owner : Owner) (recordBad : Bool) (s : State) : State :=
  if s.phs.flushStart.isSome then s else bufPut (noteRecord s handle.toNat recordBad) handle.toNat owner

/-- Read a buffer line for its owner (R470): one that decodes uncorrectable sets its poison bit. -/
def readBufLine (s : State) (pool index line : Nat) (owner : Owner) (uncorrectable : Bool) : State :=
  let r := bufAt s pool index
  let s := if uncorrectable then raise (setBuf s pool index { r with poison := sput false r.poison line true }) 1440 .bufferUe 0xFFF [pool, index, line] else s
  let s := if r.untrusted then setFlag s Reg.BPM_ERR.untrusted_read else s
  let v := bufLine s pool index line
  emit s (.bufData owner { v with data := if v.poison then 0 else v.data })

/-- A line with some bytes replaced. -/
def spliceBytes (old new : Line) (be : ByteMask) : Line :=
  let mask : Line := (List.range 64).foldl (fun (m : Line) i => if be.getLsbD i then m ||| (0xFF#512 <<< (8 * i)) else m) 0
  (old &&& ~~~mask) ||| (new &&& mask)

/-- Write a buffer line (R470): poison sets its bit, a whole line without poison clears it; data whose tag failed make
the buffer untrusted (R449). -/
def writeBufLine (s : State) (pool index line : Nat) (be : ByteMask) (data : Line) (poison untrusted : Bool) : State :=
  let r := bufAt s pool index
  let map := if poison then sput false r.poison line true
    else if be = BitVec.allOnes 64 then sput false r.poison line false else r.poison
  let s := setBuf s pool index { r with poison := map, untrusted := r.untrusted || untrusted }
  let key := bufLineKey pool index line
  { s with bpm.lines := sput 0 s.bpm.lines key (spliceBytes (sget 0 s.bpm.lines key) data be) }

/-- BUFFER_LINE_ACCESS (R470): only a listed owner, under the handle's tag, reaches a held buffer. -/
def doBufferLineAccess (handle : Word) (owner : Owner) (line : Fin 1024) (access : BufAccess) (s : State) : State :=
  let h := handle.toNat
  let pool := handlePool h
  let i := handleIndex h
  if s.phs.flushStart.isSome then s
  else if badHandle s h || (freeReason (bufAt s pool i) (handleTag h) owner).isSome then rejectBuf s h owner 3
  else if poolLines pool ≤ line.val then s
  else match access with
    | .read bad => readBufLine s pool i line.val owner bad
    | .write be data poison untrusted => writeBufLine s pool i line.val be data poison untrusted

/-- A free ring's pointers disagree: the pool is discarded and its records are scanned (R464). -/
def poolMismatch (s : State) (pool : Nat) : State :=
  let s := updPool s pool fun p => { p with cache := [], ring := [], rebuilding := true }
  raise (setFlag s Reg.BPM_ERR.ptr_mismatch) 1440 .poolRebuild 0xFFF [pool]

/-- POOL_REFILL (R463): below 256 handles the cache takes up to 512 from the ring; above 896 it gives its 512 oldest back. -/
def doPoolRefill (pool : Fin 3) (mismatch : Bool) (s : State) : State :=
  let p := poolAt s pool.val
  if s.phs.flushStart.isSome || p.rebuilding then s
  else if mismatch then poolMismatch s pool.val
  else if p.cache.length < 256 then
    let (got, rest) := takeRuns 512 p.ring
    updPool s pool.val fun p => { p with cache := got.reverse ++ p.cache, ring := rest }
  else if 896 < p.cache.length then
    let keep := p.cache.length - 512
    updPool s pool.val fun p => { p with cache := p.cache.take keep, ring := p.ring ++ ((p.cache.drop keep).reverse.map fun i => (i, 1)) }
  else s

/-- POOL_REBUILD_DONE (R464): the free, unquarantined buffers make the new ring; the PUTs that waited are done. -/
def doPoolRebuildDone (pool : Fin 3) (s : State) : State :=
  let p := poolAt s pool.val
  if !p.rebuilding then s
  else
    let runs := (takenIndices s pool.val).foldl (fun runs i => cutRun i runs) (if p.usable = 0 then [] else [(0, p.usable)])
    let s := updPool s pool.val fun p => { p with ring := runs, rebuilding := false, waitingPuts := [] }
    p.waitingPuts.foldl (fun s w => bufPut s (handleOf pool.val w.1 w.2.1) w.2.2) s

/-- A requester asks for a buffer (R459, R465). -/
def execBufferGet (bytes : Nat) (owners : List Owner) (s : State) : Host.Outcome State Fault Refusal :=
  completes s (doBufferGet bytes owners s)

/-- An owner shares a buffer (R467). -/
def execBufferShare (handle : Word) (owner adds : Owner) (recordBad : Bool) (s : State) : Host.Outcome State Fault Refusal :=
  completes s (doBufferShare handle owner adds recordBad s)

/-- An owner gives a buffer back (R468). -/
def execBufferPut (handle : Word) (owner : Owner) (recordBad : Bool) (s : State) : Host.Outcome State Fault Refusal :=
  settlesBuffers s (doBufferPut handle owner recordBad s)

/-- A line of a buffer is read or written (R470). -/
def execBufferLineAccess (handle : Word) (owner : Owner) (line : Fin 1024) (access : BufAccess) (s : State) : Host.Outcome State Fault Refusal :=
  completes s (doBufferLineAccess handle owner line access s)

/-- The refill engine moves handles (R463, R464). -/
def execPoolRefill (pool : Fin 3) (mismatch : Bool) (s : State) : Host.Outcome State Fault Refusal :=
  settlesBuffers s (doPoolRefill pool mismatch s)

/-- A pool's rebuild ends (R464). -/
def execPoolRebuildDone (pool : Fin 3) (s : State) : Host.Outcome State Fault Refusal :=
  settlesBuffers s (doPoolRebuildDone pool s)

end Sys2Proof.Machine
end

