-- ==== Sys2Proof/Machine/RegOps.lean ====
section
/-! DEFINITION. Register writes as every command that is one shares them (R5 to R9, R14, R581 to R585). -/

namespace Sys2Proof.Machine

/-! ### What a write does to a register's bits (R8, R9, R585) -/

/-- A field's bits after a write: `value` is what software writes, `hwSet` the w1c bits hardware sets in the same cycle. -/
def writtenField (f : FieldDesc) (old value hwSet : Word) : Nat :=
  let o := BitVec.ofNat 32 (fieldOf old f.lo f.width)
  let v := BitVec.ofNat 32 (fieldOf value f.lo f.width)
  let h := BitVec.ofNat 32 (fieldOf hwSet f.lo f.width)
  match f.access with
  | .rw => v.toNat
  | .ro => o.toNat
  | .w1c => ((o &&& ~~~v) ||| h).toNat
  | .w1s => (o ||| v).toNat
  | .wo => 0
  | .rc => o.toNat

/-- A register's bits after a write; bits no field names stay 0 (R7). -/
def writtenWord (fs : List FieldDesc) (old value hwSet : Word) : Word :=
  fs.foldl (fun w f => withField w f.lo f.width (writtenField f old value hwSet)) 0

/-- Bits of w1c fields that software clears as hardware sets them (R9). -/
def lostClears (fs : List FieldDesc) (value hwSet : Word) : Bool :=
  fs.any fun f => f.access = .w1c &&
    decide ((BitVec.ofNat 32 (fieldOf value f.lo f.width) &&& BitVec.ofNat 32 (fieldOf hwSet f.lo f.width)) ≠ 0)

/-- The lost-clear counter of a block (R9), by the block's base address; the one w1c field of an LD space is CRE's (R153). -/
def lostClearField (addr : Nat) : Field :=
  match addr / 16777216 with
  | 0 => Reg.GLB_LOST_CLEAR.lost_clears
  | 1 => Reg.HFP_LOST_CLEAR.lost_clears
  | 2 => Reg.CRE_LOST_CLEAR.lost_clears
  | 3 => Reg.POU_LOST_CLEAR.lost_clears
  | 4 => Reg.FCD_LOST_CLEAR.lost_clears
  | 5 => Reg.LMC_LOST_CLEAR.lost_clears
  | 6 => Reg.DIU_LOST_CLEAR.lost_clears
  | 7 => Reg.BFC_LOST_CLEAR.lost_clears
  | 8 => Reg.TMG_LOST_CLEAR.lost_clears
  | 9 => Reg.FLK_LOST_CLEAR.lost_clears
  | 10 => Reg.BPM_LOST_CLEAR.lost_clears
  | 11 => Reg.CKU_LOST_CLEAR.lost_clears
  | 12 => Reg.PHS_LOST_CLEAR.lost_clears
  | 13 => Reg.EVR_LOST_CLEAR.lost_clears
  | 14 => Reg.MGC_LOST_CLEAR.lost_clears
  | _ => Reg.CRE_LOST_CLEAR.lost_clears

/-- Write a register: every rw, w1c and w1s field at once (R585); a reserved register takes nothing (R7). DESIGN CHOICE: R9 does not say
how far the lost-clear counter rises; one write counts one, however many of its bits were set by hardware meanwhile and whatever they held. -/
def writeBits (s : State) (addr idx : Nat) (value hwSet : Word) : State :=
  match regRow addr with
  | none => s
  | some d =>
    let s := setRegAt s addr idx (writtenWord d.fields (regAt s addr idx) value hwSet)
    if lostClears d.fields value hwSet then incF s (lostClearField addr) else s

/-! ### Who may write (R14, R23) -/

/-- A write from a master that may not make it: nothing changes and an event names the master (R14); a reserved
master ID is named as such (R23). -/
def denySetup (s : State) (who : Accessor) (addr : Nat) : State :=
  match who with
  | .mid m => raise s (blockSource addr) (if reservedMid m.val then .reservedMaster else .setupDenied) m.val [addr]
  | .jtag => raise s (blockSource addr) .setupDenied 0xFFF [addr]

/-- A management write: denied, or what it does. -/
def setupWrite (s : State) (who : Accessor) (addr : Nat) (act : State) : State :=
  if isManager s who then act else denySetup s who addr

/-! ### LO and HI halves (R6, R581, R582) -/

/-- A LO half is written: it waits for HI. -/
def pendLo (s : State) (addr idx : Nat) (value : Word) : State :=
  { s with pairPend := sput none s.pairPend (regKey addr idx) (some value) }

/-- The pending LO half of a pair. -/
def pendingLo (s : State) (addr idx : Nat) : Option Word := sget none s.pairPend (regKey addr idx)

/-- It waits no longer. -/
def dropLo (s : State) (addr idx : Nat) : State := { s with pairPend := sput none s.pairPend (regKey addr idx) none }

/-- A field of the value written. -/
def wr (value : Word) (f : Field) : Nat := fieldOf value f.lo f.width

/-- The value of a rw selector register of an accessor (R581). -/
def selOf (s : State) (who : Accessor) (f : Field) : Nat := getFi s f (accessorIdx who)

end Sys2Proof.Machine
end

