-- ==== Sys2Proof/Machine/Chain.lean ====
section
/-! DEFINITION. Chaining (11): the requests of an ingress node and their resends, the owner's side, frames in transit,
snoops between nodes, ports, windows and the node's identity. -/

namespace Sys2Proof.Machine

/-! ### Frames (R384, R391, R392, R439) -/

/-- A field of a chain port's registers (R405). -/
def chainPortField (f : Field) (port : Nat) : Field := fieldAt f (port * 0x100)

/-- A chain port has its session secret (R439). -/
def chainKeyed (s : State) (port : Nat) : Bool := decide (sget [] s.cku.secrets (2 + 2 * port) ≠ [])

/-- A frame discarded under R336: its port counts it. -/
def discardChain (s : State) (port : Nat) (good : Bool) : State :=
  let s := incFiBy s (chainPortField Reg.FLK_CP_CORR_CNT.corrected port) 0 1
  if good then s else incF (setFlag s Reg.CKU_ERR.tag_fail) Reg.CKU_TAG_FAIL.frame

/-- A frame of a snoop: its prefix names the owner, so no ingress node hears of its loss in transit. -/
def isSnoopFrame (f : ChainFrame) : Bool :=
  match f.body with
  | .snoopReq _ _ _ => true
  | .snoopRsp _ => true
  | .hello _ _ => true
  | _ => false

/-- CH_ABORT, CH_UNREACH or CH_STALE for a request of this node: a request ended by the last two goes to its alternate node, and the outcome of an
aborted one is unknown (R398, R399). -/
def retryReq (s : State) (tag : Word) (toAlt : Bool) : State :=
  match findReq s tag with
  | some r => resendReq 4 s (if toAlt then r else { r with unsure := true }) toAlt
  | none => s

/-- Tell the ingress node what became of its frame in transit (R392, R395); this node may be the one, where a ring brought its frame back. -/
def tellIngress (s : State) (f : ChainFrame) (body : ChainBody) : State :=
  if isSnoopFrame f then s
  else if f.pfx.srcNode.val = s.chain.nodeId && f.pfx.srcEpoch = s.chain.nodeEpoch then retryReq s f.pfx.tag (decide (body = .unreach))
  else answerChain s f.pfx body

/-- Bytes of a frame in a forwarding queue: the header of 32 and the payload (R390; the encoding of the requests ordered ahead of a snoop
is the model's). -/
def frameBytes (f : ChainFrame) : Nat :=
  32 + match f.body with
    | .read _ _ | .stale _ _ => 24
    | .write _ _ _ _ => 96
    | .data _ | .snoopRsp (some _) => 80
    | .snoopReq _ _ ahead => 32 + 4 * ahead.length
    | .hello _ _ => 8
    | _ => 16

/-- The item a frame leaves in an egress port's forwarding queue: its header stands as `itemOpen` while the frame arrives, which is within one
command, and holds type and length at the end (R152, R394). DESIGN CHOICE: a frame that checked has type 0x1; the rules name none. -/
def noteItem (s : State) (port : Nat) (good : Bool) (f : ChainFrame) : State :=
  { s with chain.items := sput (itemHeader itemOpen 0) s.chain.items port (itemHeader (if good then 1 else itemFailed) (frameBytes f)) }

/-- Forward a frame for another node (R392 to R395); `good` says whether its inbound tag checked. -/
def forwardFrame (s : State) (good : Bool) (f : ChainFrame) : State :=
  if f.hops.val = 0 then tellIngress (incF s Reg.FLK_CHAIN_DROP.hop_expired) f .unreach
  else match routePort s f.dst.val with
    | none => tellIngress (incF s Reg.FLK_CHAIN_DROP.no_route) f .unreach
    | some q =>
      let g := { f with hops := Fin.ofNat 64 (f.hops.val - 1) }
      let s := noteItem s q good g
      if good then chainOut (incF s Reg.FLK_CHAIN_FWD_CNT.forwarded) q g
      else tellIngress (incF (emit { s with chain.sent := supd 0 s.chain.sent q (· + 1) } (.chainFailTag (Fin.ofNat 8 q) g)) Reg.FLK_CHAIN_ABORT.aborts) f .abort

/-- A frame that may open a request or a snoop here is answered when it names another epoch. -/
def answersStale (f : ChainFrame) : Bool :=
  match f.body with
  | .read _ _ => true
  | .write _ _ _ _ => true
  | _ => false

/-- What an arriving frame passes before it acts: the port in use, its GCM job (R448) and tag, its destination, its epoch. -/
def chainIn (s : State) (port : Fin 8) (check : GcmCheck) (f : ChainFrame) (act : State → State) : State :=
  if !chainOn s || flushing s || !chainPortUp s port.val then s
  else if !chainKeyed s port.val then discardChain s port.val check.tagOk
  else match frameJob s check with
  | (false, s) => s
  | (true, s) =>
  if f.dst.val ≠ s.chain.nodeId then
    forwardFrame (if check.tagOk then s else incF (setFlag s Reg.CKU_ERR.tag_fail) Reg.CKU_TAG_FAIL.frame) check.tagOk f
  else if !check.tagOk then discardChain s port.val false
  else if f.epoch ≠ s.chain.nodeEpoch then
    if answersStale f then
      answerChain (setFlag s Reg.FLK_CHAIN_ERR.stale) f.pfx (.stale (nodeOf s.chain.nodeId) s.chain.nodeEpoch)
    else s
  else act s

/-! ### Answers to requests (R397 to R399) -/

/-- CH_DATA: the read's data leave, poison as CXL poison. -/
def doChData (port : Fin 8) (check : GcmCheck) (f : ChainFrame) (s : State) : State :=
  chainEnd (chainIn s port check f fun s =>
    match f.body, findReq s f.pfx.tag with
    | .data line, some r =>
      if r.write then s
      else giveData (noteHolder (dropReq s r.tag) r) r (if f.pfx.poison then poisonLine else { data := line, poison := false })
    | _, _ => s)

/-- CH_CMPL: the write's completion leaves. -/
def doChCmpl (port : Fin 8) (check : GcmCheck) (f : ChainFrame) (s : State) : State :=
  chainEnd (chainIn s port check f fun s =>
    match f.body, findReq s f.pfx.tag with
    | .cmpl, some r => if r.write then giveDone (noteHolder (dropReq s r.tag) r) r else s
    | _, _ => s)

/-- CH_REFUSE: the request ends under R65. -/
def doChRefuse (port : Fin 8) (check : GcmCheck) (f : ChainFrame) (s : State) : State :=
  chainEnd (chainIn s port check f fun s =>
    match f.body, findReq s f.pfx.tag with
    | .refuse, some r => let s := dropReq s r.tag; if r.write then giveDone s r else giveData s r poisonLine
    | _, _ => s)

/-- CH_ABORT: the request is sent again to the node last tried; its outcome there is unknown (R398, R399). -/
def doChAbort (port : Fin 8) (check : GcmCheck) (f : ChainFrame) (s : State) : State :=
  chainEnd (chainIn s port check f fun s =>
    match f.body with
    | .abort => retryReq s f.pfx.tag false
    | _ => s)

/-- CH_UNREACH: the request is sent again to the alternate node. -/
def doChUnreach (port : Fin 8) (check : GcmCheck) (f : ChainFrame) (s : State) : State :=
  chainEnd (chainIn s port check f fun s =>
    match f.body with
    | .unreach => retryReq s f.pfx.tag true
    | _ => s)

/-- CH_STALE: as CH_UNREACH; the flag says that one was received. -/
def doChStale (port : Fin 8) (check : GcmCheck) (f : ChainFrame) (s : State) : State :=
  chainEnd (chainIn s port check f fun s =>
    match f.body with
    | .stale _ _ => retryReq (setFlag s Reg.FLK_CHAIN_ERR.stale) f.pfx.tag true
    | _ => s)

/-- No answer within resp_ms: as CH_ABORT. -/
def doChainResponseTimeout (tag : Word) (s : State) : State := chainEnd (retryReq s tag false)

/-! ### The owner (R389, R391, R397, R398, R402) -/

/-- A chain request's master ID at its owner (R389). -/
def chainMid (port : Nat) (cls : Nat) : Nat := 0x200 + port * 32 + cls

/-- The line a chain request names: bits [47:0] of its DPA (R385). -/
def chainLine (dpa : DWord) : Nat := dpa.toNat % 281474976710656 / 64

/-- Note the epoch a source node's requests carry, which frames to it then expect (R391). -/
def noteEpoch (s : State) (p : ChainPrefix) : State := { s with chain.seenEpochs := sput 0 s.chain.seenEpochs p.srcNode.val p.srcEpoch }

/-- The class binding names the source node (R389). -/
def classBound (s : State) (p : ChainPrefix) : Bool := decide (classNode s p.cls.val = some p.srcNode.val)

/-- Refuse a chain request, and count it (R66, R389). -/
def refuseChain (s : State) (mid line : Nat) (p : ChainPrefix) : State :=
  answerChain (countDenial s mid ((reach s line).getD 0xFFF) line) p .refuse

/-- The plot a request with these rights may reach after the class and access checks (R59, R389). -/
def chainAllows (s : State) (mid line need : Nat) : Option Nat :=
  match reach s line with
  | some p => if hasRights s p mid need then some p else none
  | none => none

/-- CH_READ at its owner, for a tag table brought up to date. A controller that does not serve answers CH_UNREACH (R402). -/
def takeChainRead (s : State) (port : Fin 8) (f : ChainFrame) : State :=
    match f.body with
    | .read dpa metaVal =>
      let mid := chainMid port.val f.pfx.cls.val
      let line := chainLine dpa
      if !serving s then answerChain s f.pfx .unreach
      else if !classBound s f.pfx then refuseChain (setFlag s Reg.FLK_CHAIN_ERR.class_refused) mid line f.pfx
      else match chainAllows s mid line 1 with
        | some p => (acceptRead s (.chain (Fin.ofNat 4096 mid) f.pfx.srcNode.val f.pfx.tag.toNat) mid p line metaVal).2
        | none => refuseChain s mid line f.pfx
    | _ => s

/-- Tags below a node's low_tag are forgotten (R398). -/
def forgetTags (s : State) (p : ChainPrefix) : State :=
  { s with chain.done := s.chain.done.filter fun e => !(e.1 = p.srcNode.val && decide (2147483648 ≤ (e.2 - p.lowTag).toNat)) }

/-- Is an origin a chain write of this node and tag? -/
def isChainOrigin (node : Nat) (tag : Word) (o : Origin) : Bool :=
  match o with
  | .chain _ n t => n = node && BitVec.ofNat 32 t = tag
  | _ => false

/-- Is it any chain request's? -/
def fromChain (o : Origin) : Bool :=
  match o with
  | .chain _ _ _ => true
  | _ => false

/-- A chain write is under way here under this tag. -/
def chainUnderWay (s : State) (p : ChainPrefix) : Bool :=
  s.pou.writes.any (fun w => isChainOrigin p.srcNode.val p.tag w.origin) || s.pou.fwdWrites.any fun w => isChainOrigin p.srcNode.val p.tag w.origin

/-- Entries of the table that completed writes hold and that writes under way will take. -/
def dedupUsed (s : State) : Nat :=
  s.chain.done.length + (s.pou.writes.filter fun w => fromChain w.origin).length + (s.pou.fwdWrites.filter fun w => fromChain w.origin).length

/-- A chain write at its owner (R389, R397, R398): one that has completed is answered again, one under way goes on; while
the table is full a new one waits. -/
def takeChainWrite (s : State) (port : Fin 8) (f : ChainFrame) : State :=
  match f.body with
  | .write dpa be data metaVal =>
    let mid := chainMid port.val f.pfx.cls.val
    let line := chainLine dpa
    if !serving s then answerChain s f.pfx .unreach
    else if !classBound s f.pfx then refuseChain (setFlag s Reg.FLK_CHAIN_ERR.class_refused) mid line f.pfx
    else if s.chain.done.contains (f.pfx.srcNode.val, f.pfx.tag) then answerChain s f.pfx .cmpl
    else if chainUnderWay s f.pfx then s
    else match chainAllows s mid line 2 with
      | some p =>
        let r := plotRec s p
        if !takesWrites r then refuseChain s mid line f.pfx
        else if dedupCap ≤ dedupUsed s then
          { setFlag s Reg.FLK_CHAIN_ERR.dedup_full with
            chain.dedupWaits := (s.chain.dedupWaits.filter fun x => !(x.2.pfx.srcNode = f.pfx.srcNode && x.2.pfx.tag = f.pfx.tag)) ++ [(port, f)] }
        else
          (acceptHostWrite s (.chain (Fin.ofNat 4096 mid) f.pfx.srcNode.val f.pfx.tag.toNat) mid p line data be f.pfx.poison metaVal).2
      | none => refuseChain s mid line f.pfx
  | _ => s

/-- Writes that waited for the table try again. -/
def retryDedup (s : State) : State :=
  s.chain.dedupWaits.foldl (fun s w => takeChainWrite s w.1 w.2) { s with chain.dedupWaits := [] }

/-- A request's prefix is read: its epoch is noted, and the tags below its low_tag make room for writes that wait (R391, R398). -/
def readPrefix (s : State) (p : ChainPrefix) : State := retryDedup (forgetTags (noteEpoch s p) p)

/-- CH_READ at its owner. -/
def doChRead (port : Fin 8) (check : GcmCheck) (f : ChainFrame) (s : State) : State :=
  chainIn s port check f fun s => takeChainRead (readPrefix s f.pfx) port f

/-- CH_WRITE at its owner. -/
def doChWrite (port : Fin 8) (check : GcmCheck) (f : ChainFrame) (s : State) : State :=
  chainIn s port check f fun s => takeChainWrite (readPrefix s f.pfx) port f

/-! ### Snoops (R401) -/

/-- The local line of a remote one, by the window that names a node. -/
def windowLine (s : State) (node : Fin 4096) (remote : Nat) : Option Nat :=
  s.chain.windows.findSome? fun e =>
    match e.2 with
    | some w =>
      let g := granuleOfLine remote
      if (w.priNode = node || (w.altValid && w.altNode = node)) && decide (w.remoteBase ≤ g) && decide (g < w.remoteBase + w.size) then
        some (remote - w.remoteBase * 4194304 + w.localBase * 4194304)
      else none
    | none => none

/-- CH_SNOOP_REQ: snoop the hosts this node's directory names for the window's line; with no window over it, none holds it. -/
def doChSnoopReq (port : Fin 8) (check : GcmCheck) (f : ChainFrame) (s : State) : State :=
  chainIn s port check f fun s =>
    match f.body with
    | .snoopReq dpa inv ahead =>
      let s := noteEpoch s f.pfx
      let node := f.pfx.srcNode.val
      let tag := f.pfx.tag.toNat
      if (s.chain.snoopWaits.any fun w => w.1 = node && w.2.1 = tag) || !(snoopsFor s (.chain node tag)).isEmpty then s
      else match windowLine s f.pfx.srcNode (chainLine dpa) with
        | some line => { s with chain.snoopWaits := s.chain.snoopWaits ++ [(node, tag, line, inv, ahead)] }
        | none => answerSnoop s { id := 0, target := 0x300, line := chainLine dpa, inv := inv, cause := .chain node tag, sentAt := s.devTime }
    | _ => s

/-- A master's rights let it write a plot back (R59, R65). -/
def chainBackPlot (s : State) (mid line : Nat) : Option Nat :=
  match chainAllows s mid line 2 with
  | some p => if (plotRec s p).mode = .sharedReadOnly && (plotRec s p).state = .active then none else some p
  | none => none

/-- CH_SNOOP_RSP: a modified line is ordered under R213, then the snoop is answered. -/
def doChSnoopRsp (port : Fin 8) (check : GcmCheck) (f : ChainFrame) (s : State) : State :=
  chainIn s port check f fun s =>
    match f.body, s.fcd.snoops.find? fun x => x.id = f.pfx.tag.toNat && decide (0x200 ≤ x.target) with
    | .snoopRsp modified, some x =>
      let s := match modified with
        | none => s
        | some line =>
          match chainBackPlot s x.target x.line with
          | some p =>
            let (id, s) := acceptHostWrite s (.writeBack (Fin.ofNat 4096 x.target)) x.target p x.line line (BitVec.allOnes 64) f.pfx.poison .invalid
            advanceWrite s id
          | none => countDenial s x.target ((reach s x.line).getD 0xFFF) x.line
      answerSnoop s x
    | _, _ => s

/-- A holder's pointer leaves a line's entry, whatever the snoop was. -/
def dropPointer (s : State) (line mid : Nat) : State :=
  match findDir s line with
  | some w =>
    let e := dirAt s (dirSetKey line) w
    if e.coarse then s else setDir s (dirSetKey line) w { e with ptrs := e.ptrs.filter fun m => m ≠ mid }
  | none => s

/-- A chain snoop's time is over: it counts as answered invalid (R401). -/
def doChainSnoopTimeout (id : Nat) (s : State) : State :=
  match s.fcd.snoops.find? fun x => x.id = id && decide (0x200 ≤ x.target) && decide (x.target < 0x300) with
  | none => s
  | some x =>
    let s := raise (setFlag s Reg.FLK_CHAIN_ERR.snoop_late) 1528 .biTimeout x.target [x.target, (plotOfLine s x.line).getD 0xFFF, x.line * 64]
    answerSnoop (dropPointer s x.line x.target) x

/-! ### Neighbours and ports (R390, R392, R395, R402) -/

/-- CH_HELLO: the neighbour's identity; never rejected for its epoch or for want of a key (R391, R439). -/
def doChHello (port : Fin 8) (check : GcmCheck) (f : ChainFrame) (s : State) : State :=
  if !chainOn s then s
  else match (if chainKeyed s port.val then frameJob s check else (true, s)) with
  | (false, s) => s
  | (true, s) =>
    if !check.tagOk then discardChain s port.val false
    else match f.body with
    | .hello node e => { s with chain.neighbours := sput (0, 0) s.chain.neighbours port.val (node.val, e) }
    | _ => s

/-- Send CH_HELLO on every chain port that is up. -/
def doChHelloTimer (s : State) : State :=
  if !chainOn s then s
  else
    let me := nodeOf s.chain.nodeId
    let pfx : ChainPrefix := { srcNode := me, cls := 0, poison := false, srcEpoch := s.chain.nodeEpoch, tag := 0, lowTag := 0 }
    ((List.range 8).filter (chainPortUp s)).foldl (fun s p =>
      let n := sget (0, 0) s.chain.neighbours p
      chainOut s p { dst := nodeOf n.1, hops := maxHops s, epoch := n.2, pfx := pfx, body := .hello me s.chain.nodeEpoch }) s

/-- A frame in transit; one for this node is the other frame commands' matter. -/
def doChainForward (port : Fin 8) (check : GcmCheck) (f : ChainFrame) (s : State) : State := chainIn s port check f fun s => s

/-- A chain port goes down; the frame whose forwarding it cuts short, if any, ends as R395 states. -/
def doChainPortDown (port : Fin 8) (cut : Option ChainFrame) (s : State) : State :=
  let up := getF s Reg.FLK_CHAIN_STS.ports_up
  if up / 2 ^ port.val % 2 = 0 then s
  else
    let s := setF s Reg.FLK_CHAIN_STS.ports_up (clearBit up port.val)
    let s := setF (setF s (chainPortField Reg.FLK_CP_STS.up port.val) 0) (chainPortField Reg.FLK_CP_STS.lanes port.val) 0
    let s := incFiBy s (chainPortField Reg.FLK_CP_RETRY_CNT.downs port.val) 0 1
    match cut with
    | some f => if chainOn s && f.dst.val ≠ s.chain.nodeId then forwardFrame s false f else s
    | none => s

/-- A chain port has trained. -/
def doChainPortUp (port : Fin 8) (s : State) : State :=
  let up := getF s Reg.FLK_CHAIN_STS.ports_up
  if flushing s || up / 2 ^ port.val % 2 = 1 then s
  else
    let s := setF s Reg.FLK_CHAIN_STS.ports_up (up + 2 ^ port.val)
    setF (setF s (chainPortField Reg.FLK_CP_STS.up port.val) 1) (chainPortField Reg.FLK_CP_STS.lanes port.val) 4

/-! ### Windows and identity (R384, R386, R404) -/

/-- The window a commit of FLK_WIN_DATA3 makes, from the words written before. -/
def windowAt (s : State) (i : Nat) (value : Word) : Option Window :=
  if wr value Reg.FLK_WIN_DATA3.valid = 0 then none
  else some {
    localBase := getFi s Reg.FLK_WIN_DATA0.local_base i, size := getFi s Reg.FLK_WIN_DATA1.size i
    remoteBase := getFi s Reg.FLK_WIN_DATA2.remote_base i
    priNode := nodeOf (wr value Reg.FLK_WIN_DATA3.pri_node), altNode := nodeOf (wr value Reg.FLK_WIN_DATA3.alt_node)
    altValid := wr value Reg.FLK_WIN_DATA3.alt_valid = 1
    priEpoch := regAt s Reg.FLK_WIN_DATA4.pri_epoch.addr i, altEpoch := regAt s Reg.FLK_WIN_DATA5.alt_epoch.addr i }

/-- Do two runs of granules overlap? -/
def runsMeet (a n b m : Nat) : Bool := decide (a < b + m) && decide (b < a + n) && decide (n ≠ 0) && decide (m ≠ 0)

/-- A window overlaps an admitted plot or another valid window (R386). -/
def windowOverlaps (s : State) (i : Nat) (w : Window) : Bool :=
  (s.plots.granules.any fun r => runsMeet w.localBase w.size r.base r.size) ||
    s.chain.windows.any fun e => e.1 ≠ i && (match e.2 with
      | some x => runsMeet w.localBase w.size x.localBase x.size
      | none => false)

/-- FLK_WIN_DATA3 is written: the selected window takes effect, or is refused and stays. -/
def doWindowCommit (who : Accessor) (value : Word) (s : State) : State :=
  setupWrite s who Reg.FLK_WIN_DATA3.valid.addr
    (let i := selOf s who Reg.FLK_WIN_SEL.window
     match windowAt s i value with
     | none => { writeBits s Reg.FLK_WIN_DATA3.valid.addr i value 0 with chain.windows := sput none s.chain.windows i none }
     | some w =>
       if windowOverlaps s i w then setFlag s Reg.FLK_CHAIN_ERR.win_overlap
       else { writeBits s Reg.FLK_WIN_DATA3.valid.addr i value 0 with chain.windows := sput none s.chain.windows i (some w) })

/-- FLK_CHAIN_CFG is written: the node ID takes effect with the epoch last written. -/
def doChainCfgWrite (who : Accessor) (value : Word) (s : State) : State :=
  setupWrite s who Reg.FLK_CHAIN_CFG.node_id.addr
    (let s := writeBits s Reg.FLK_CHAIN_CFG.node_id.addr 0 value 0
     { s with chain.nodeId := getF s Reg.FLK_CHAIN_CFG.node_id, chain.nodeEpoch := regAt s Reg.FLK_CHAIN_EPOCH.epoch.addr 0 })

/-! ### The commands -/

/-- A CH_READ frame (R397). -/
def execChRead (port : Fin 8) (check : GcmCheck) (f : ChainFrame) (s : State) : Host.Outcome State Fault Refusal := settles s (doChRead port check f s)
/-- A CH_WRITE frame (R397, R398). -/
def execChWrite (port : Fin 8) (check : GcmCheck) (f : ChainFrame) (s : State) : Host.Outcome State Fault Refusal := settles s (doChWrite port check f s)
/-- A CH_DATA frame (R397). -/
def execChData (port : Fin 8) (check : GcmCheck) (f : ChainFrame) (s : State) : Host.Outcome State Fault Refusal := settles s (doChData port check f s)
/-- A CH_CMPL frame (R397). -/
def execChCmpl (port : Fin 8) (check : GcmCheck) (f : ChainFrame) (s : State) : Host.Outcome State Fault Refusal := settles s (doChCmpl port check f s)
/-- A CH_REFUSE frame (R390). -/
def execChRefuse (port : Fin 8) (check : GcmCheck) (f : ChainFrame) (s : State) : Host.Outcome State Fault Refusal := settles s (doChRefuse port check f s)
/-- A CH_SNOOP_REQ frame (R401). -/
def execChSnoopReq (port : Fin 8) (check : GcmCheck) (f : ChainFrame) (s : State) : Host.Outcome State Fault Refusal :=
  settles s (doChSnoopReq port check f s)
/-- A CH_SNOOP_RSP frame (R401). -/
def execChSnoopRsp (port : Fin 8) (check : GcmCheck) (f : ChainFrame) (s : State) : Host.Outcome State Fault Refusal :=
  settles s (doChSnoopRsp port check f s)
/-- A CH_ABORT frame (R398). -/
def execChAbort (port : Fin 8) (check : GcmCheck) (f : ChainFrame) (s : State) : Host.Outcome State Fault Refusal := settles s (doChAbort port check f s)
/-- A CH_UNREACH frame (R398). -/
def execChUnreach (port : Fin 8) (check : GcmCheck) (f : ChainFrame) (s : State) : Host.Outcome State Fault Refusal :=
  settles s (doChUnreach port check f s)
/-- A CH_STALE frame (R398). -/
def execChStale (port : Fin 8) (check : GcmCheck) (f : ChainFrame) (s : State) : Host.Outcome State Fault Refusal := settles s (doChStale port check f s)
/-- A CH_HELLO frame (R390). -/
def execChHello (port : Fin 8) (check : GcmCheck) (f : ChainFrame) (s : State) : Host.Outcome State Fault Refusal := settles s (doChHello port check f s)
/-- Every 1 ms (R390). -/
def execChHelloTimer (s : State) : Host.Outcome State Fault Refusal := finishes s (doChHelloTimer s)
/-- A frame in transit (R392 to R395). -/
def execChainForward (port : Fin 8) (check : GcmCheck) (f : ChainFrame) (s : State) : Host.Outcome State Fault Refusal :=
  settles s (doChainForward port check f s)
/-- A request's answer is overdue (R398). -/
def execChainResponseTimeout (tag : Word) (s : State) : Host.Outcome State Fault Refusal := settles s (doChainResponseTimeout tag s)
/-- A chain snoop's answer is overdue (R401). -/
def execChainSnoopTimeout (id : Nat) (s : State) : Host.Outcome State Fault Refusal := settles s (doChainSnoopTimeout id s)
/-- A write of FLK_WIN_DATA3 (R386, R404). -/
def execWindowCommit (who : Accessor) (value : Word) (s : State) : Host.Outcome State Fault Refusal := finishes s (doWindowCommit who value s)
/-- A write of FLK_CHAIN_CFG (R404). -/
def execChainCfgWrite (who : Accessor) (value : Word) (s : State) : Host.Outcome State Fault Refusal := finishes s (doChainCfgWrite who value s)
/-- A chain port goes down (R402). -/
def execChainPortDown (port : Fin 8) (cut : Option ChainFrame) (s : State) : Host.Outcome State Fault Refusal :=
  finishes s (doChainPortDown port cut s)
/-- A chain port is up (R392). -/
def execChainPortUp (port : Fin 8) (s : State) : Host.Outcome State Fault Refusal := finishes s (doChainPortUp port s)

end Sys2Proof.Machine
end

