-- ==== Sys2Proof/Machine/PouCommands.lean ====
section
/-! DEFINITION. Meanings of the CXL.mem and GPF commands and of the POU's and the budget's settings (03, 05). -/

namespace Sys2Proof.Machine

/-! ### What a CXL.mem request passes at its port (R59, R65, R83, R84, R90, R94, R387, R388) -/

/-- Where a request goes. -/
inductive Gate where
  /-- no CXL.mem link carries it -/
  | ignored
  /-- viral: discarded, not counted -/
  | viral
  /-- denied or without a plot: the plot and line counted under R66, and whether a decoder's mode is the reason -/
  | denied (plot line : Nat) (mode : Bool)
  | window (i : Nat) (w : Window) (cls line : Nat) (hdmDb : Bool)
  | plot (p line : Nat) (hdmDb : Bool)
  deriving DecidableEq, Repr

/-- The checks of a request that its decoder turned into a DPA. -/
def plotGate (s : State) (ld : Ld) (line : Nat) (hdmDb write : Bool) : Gate :=
  match windowOf s (granuleOfLine line) with
  | some (i, w) =>
    match classOf s ld.val with
    | some c => .window i w c line hdmDb
    | none => .denied 0xFFF line false
  | none =>
    match reach s line with
    | none => .denied 0xFFF line false
    | some p =>
      let r := plotRec s p
      if !hasRights s p ld.val (if write then 2 else 1) then .denied p line (coherent r && !hdmDb)
      else if coherent r && !hdmDb then .denied p line true
      else if write && !takesWrites r then .denied p line false
      else .plot p line hdmDb

/-- The checks of a request, in order. Where IDE is required, a CXL.mem request needs the CXL.cachemem stream (DESIGN CHOICE: R90 says only
"an active IDE stream"). -/
def gate (s : State) (ld : Ld) (hpa : DWord) (write : Bool) : Gate :=
  let port := ld.val / 16
  if !carriesMem s ld then .ignored
  else if flag s (portField Reg.HFP_PORT_STS.viral port) then .viral
  else
    let at_ := decodeHpa s ld hpa.toNat
    let line := (at_.map fun x => x.1 / 64).getD 0
    if flag s (portField Reg.HFP_PORT_CTL.ide_required port) && !flag s (portField Reg.HFP_PORT_STS.ide_mem port) then
      .denied ((at_.bind fun x => reach s (x.1 / 64)).getD 0xFFF) line false
    else if !(ldState s ld).memoryActive then .denied 0xFFF line false
    else match at_ with
      | none => .denied 0xFFF 0 false
      | some (dpa, db) => plotGate s ld (dpa / 64) db write

/-- Count a denial, and flag a decoder of the wrong mode (R66, R83). -/
def denyHost (s : State) (ld : Ld) (plot line : Nat) (mode : Bool) : State :=
  countDenial (if mode then setFlag s (portField Reg.HFP_PORT_ERR.decoder_mode (ld.val / 16)) else s) ld.val plot line

/-- The parity errors an access finds standing: of the line's way, and of its directory set, which the set's next lookup meets (R202, R203,
R219). -/
def meetFaults (s : State) (line : Nat) (seen : ArrayFaults) : State :=
  let s := markFaults s line seen
  if seen.dirBad && !s.fcd.dirBad.contains (dirSetKey line) then { s with fcd.dirBad := s.fcd.dirBad ++ [dirSetKey line] } else s

/-! ### CXL.mem (R157, R169) -/

/-- A CXL.mem read. -/
def doCxlMemRead (ld : Ld) (tag : Tag) (hpa : DWord) (metaVal : MetaValue) (seen : ArrayFaults) (s : State) : State :=
  match gate s ld hpa false with
  | .ignored => s
  | .viral => toHost s ld (.memData ld tag.val 0 true)
  | .denied plot line mode => toHost (denyHost s ld plot line mode) ld (.memData ld tag.val 0 true)
  | .window i w cls line db =>
    startChain s (.host ld tag.val) ld.val cls i w false line 0 0 false (if db then metaVal else .invalid) (arriving s ld)
  | .plot p line _ =>
    let (id, s) := acceptRead (meetFaults s line seen) (.host ld tag.val) ld.val p line metaVal
    updRdRec s id fun r => { r with mac := arriving s ld }

/-- A CXL.mem write. -/
def doCxlMemWrite (ld : Ld) (tag : Tag) (hpa : DWord) (be : ByteMask) (data : Line) (poison : Bool) (metaVal : MetaValue)
    (seen : ArrayFaults) (s : State) : State :=
  match gate s ld hpa true with
  | .ignored => s
  | .viral => writeDone s ld tag.val
  | .denied plot line mode => writeDone (denyHost s ld plot line mode) ld tag.val
  | .window i w cls line db =>
    startChain s (.host ld tag.val) ld.val cls i w true line be data poison (if db then metaVal else .invalid) (arriving s ld)
  | .plot p line _ =>
    let uncredited := !creditLeft s (ld.val / 16)
    let (id, s) := acceptHostWrite (meetFaults s line seen) (.host ld tag.val) ld.val p line data be poison metaVal
    updWrite s id fun w => { w with uncredited := uncredited, mac := arriving s ld }

/-- A write's back-pressure delay is over (R179). -/
def doCompletionDelayExpiry (forwarded : Bool) (id : Nat) (s : State) : State :=
  if forwarded then { s with pou.fwdWrites := s.pou.fwdWrites.map fun f => if f.id = id then { f with delayed := false } else f }
  else updWrite s id fun w => { w with delayed := false }

/-- A merge entry's old line arrives (R411, R412): with the fill it waits for, or from the base. -/
def doMergeOldLineReturn (line : LineNo) (s : State) : State :=
  match s.diu.merges.find? fun m => m.line = line.val with
  | none => s
  | some m =>
    if !m.asked then s
    else match s.fcd.fills.find? fun f => f.line = line.val with
      | some f => returnFill s f .good .good
      | none => if (grainReadOf s (clodOf line.val) (grainIn line.val)).isSome then s else mergeWith s m (currentLine s line.val)

/-! ### GPF (R165 to R167, R400) -/

/-- Phase 1 is answered at once. -/
def doGpfPhase1 (port : Port) (s : State) : State := toPort s port.val (.gpfResponse port 1)

/-- A write that arrived on this controller's links, or an issued line of a ring operation of it. -/
def ownWrite (o : Origin) : Bool :=
  match o with
  | .host _ _ => true
  | .ring _ _ _ => true
  | .writeBack mid => decide (mid.val < 0x100)
  | _ => false

/-- The writes a Phase 2 marks: received or issued before it, those forwarded to the twin, and chain writes. -/
def gpfWrites (s : State) : List Nat :=
  ((s.pou.writes.filter fun w => ownWrite w.origin && !w.durable).map (·.id)) ++ ((s.pou.fwdWrites.filter fun f => ownWrite f.origin).map (·.id)) ++
    (((s.chain.reqs ++ s.chain.waiting).filter (·.write)).map (·.id))

/-- Phase 2 begins. -/
def doGpfPhase2 (port : Port) (s : State) : State :=
  if linkUp s port.val then
    putFlag { s with pou.gpfs := s.pou.gpfs ++ [{ port := port, start := s.devTime, marked := gpfWrites s }] } Reg.POU_GPF_STS.ph2_busy true
  else s

/-- Answer one Phase 2 whose marked writes are durable. -/
def answerGpf (s : State) (g : Gpf) : State :=
  let us := (s.devTime - g.start) / 1000
  let s := setF s Reg.POU_GPF_STS.last_ph2_us (min us 0xFFFF)
  let s := if s.hfp.gpfPhase2Us * 1000 < s.devTime - g.start then setFlag s Reg.POU_GPF_STS.ph2_late else s
  toPort s g.port.val (.gpfResponse g.port 2)

/-- Every Phase 2 whose marked writes are durable is answered. -/
def doGpfPhase2Response (s : State) : State :=
  let past (g : Gpf) : Bool := !(g.marked.any (notDurable s))
  let left := s.pou.gpfs.filter fun g => !past g
  let s := (s.pou.gpfs.filter past).foldl answerGpf { s with pou.gpfs := left }
  putFlag s Reg.POU_GPF_STS.ph2_busy (!left.isEmpty)

/-! ### Settings (R177, R182, R185, R186) -/

/-- POU_BP_CFG is written. -/
def doBpCfgWrite (who : Accessor) (value : Word) (s : State) : State :=
  setupWrite s who Reg.POU_BP_CFG.soft_pct.addr
    (let soft := wr value Reg.POU_BP_CFG.soft_pct
     let hard := wr value Reg.POU_BP_CFG.hard_pct
     if soft < hard ∧ hard ≤ 99 then
       setF (setF (setF s Reg.POU_BP_CFG.soft_pct soft) Reg.POU_BP_CFG.hard_pct hard) Reg.POU_BP_CFG.max_delay_us
         (min 1000 (wr value Reg.POU_BP_CFG.max_delay_us))
     else setFlag s Reg.POU_BP_STS.cfg_err)

/-- The configured budget in MiB (R186). -/
def cfgBudgetMib (s : State) : Nat := min 4096 (max 1 (getF s Reg.TMG_BUDGET_CFG.cfg_granules)) * 256

/-- Apply the lesser of the configured and the published budget (R177): a fall below the allowances scales them, with one
event (R58); a fall of the published figure below the dirty bytes held starts the override (R182). -/
def applyBudget (s : State) (energy : Bool) : State :=
  let before := budgetBytes s
  let s := setF s Reg.TMG_BUDGET_EFF.eff_mib (min (cfgBudgetMib s) (getF s Reg.PHS_BUDGET_PUB.pub_mib))
  let after := budgetBytes s
  let need := allowSum s * 268435456
  let s := if after < need ∧ need ≤ before then raise s 1408 .allowancesScaled 0xFFF [after / 1048576, allowSum s] else s
  if energy && decide (after < before) && decide (after < dirtyBytes s) then
    raise (putFlag s Reg.POU_BP_STS.override true) 1408 .budgetFell 0xFFF [after / 1048576, dirtyGrains s]
  else s

/-- TMG_BUDGET_CFG is written. -/
def doBudgetCfgWrite (who : Accessor) (value : Word) (s : State) : State :=
  setupWrite s who Reg.TMG_BUDGET_CFG.cfg_granules.addr (applyBudget (writeBits s Reg.TMG_BUDGET_CFG.cfg_granules.addr 0 value 0) false)

/-- TMG applies the figure PHS published. -/
def doEffectiveBudgetUpdate (s : State) : State := applyBudget { s with tmg.budgetSet := true } true

/-! ### The commands -/

/-- A CXL.mem read (R169). -/
def execCxlMemRead (ld : Ld) (tag : Tag) (hpa : DWord) (metaVal : MetaValue) (seen : ArrayFaults) (s : State) : Host.Outcome State Fault Refusal :=
  settles s (doCxlMemRead ld tag hpa metaVal seen s)
/-- A CXL.mem write (R157). -/
def execCxlMemWrite (ld : Ld) (tag : Tag) (hpa : DWord) (be : ByteMask) (data : Line) (poison : Bool) (metaVal : MetaValue) (seen : ArrayFaults)
    (s : State) : Host.Outcome State Fault Refusal :=
  settles s (doCxlMemWrite ld tag hpa be data poison metaVal seen s)
/-- A completion's delay is over (R179). -/
def execCompletionDelayExpiry (forwarded : Bool) (id : Nat) (s : State) : Host.Outcome State Fault Refusal :=
  settles s (doCompletionDelayExpiry forwarded id s)
/-- A merge's old line (R411). -/
def execMergeOldLineReturn (line : LineNo) (s : State) : Host.Outcome State Fault Refusal := settles s (doMergeOldLineReturn line s)
/-- GPF Phase 1 (R165). -/
def execGpfPhase1 (port : Port) (s : State) : Host.Outcome State Fault Refusal := finishes s (doGpfPhase1 port s)
/-- GPF Phase 2 (R166). -/
def execGpfPhase2 (port : Port) (s : State) : Host.Outcome State Fault Refusal := finishes s (doGpfPhase2 port s)
/-- The Phase 2 response (R166). -/
def execGpfPhase2Response (s : State) : Host.Outcome State Fault Refusal := finishes s (doGpfPhase2Response s)
/-- A write of POU_BP_CFG (R185). -/
def execBpCfgWrite (who : Accessor) (value : Word) (s : State) : Host.Outcome State Fault Refusal := settles s (doBpCfgWrite who value s)
/-- A write of TMG_BUDGET_CFG (R186). -/
def execBudgetCfgWrite (who : Accessor) (value : Word) (s : State) : Host.Outcome State Fault Refusal := settles s (doBudgetCfgWrite who value s)
/-- A published budget takes effect (R177). -/
def execEffectiveBudgetUpdate (s : State) : Host.Outcome State Fault Refusal := settles s (doEffectiveBudgetUpdate s)

end Sys2Proof.Machine
end

