-- ==== Sys2Proof/Machine/HostPort.lean ====
section
/-! DEFINITION. Meanings of the host ports' commands (03): links and their errors, LD resets, IDE keys, viral, CDAT and
the primary mailbox of each LD (R77). -/

namespace Sys2Proof.Machine

/-! ### Fundamental reset and training (R71 to R75, R95, R99, R100) -/

/-- HFP_PERST_N asserts. Only the input of a bond's lowest port acts (R73). -/
def doPerstAssert (port : Port) (s : State) : State :=
  let p := port.val
  let s := updLink s p fun l => { l with perst := true }
  if !isLowest s p then s
  else updLink (if linkUp s p then linkDown s p else s) p fun l => { l with training := false }

/-- HFP_PERST_N is released. -/
def doPerstRelease (port : Port) (s : State) : State :=
  startTraining (updLink s port.val fun l => { l with perst := false }) port.val

/-- The width code of a port's bond: ×4, ×8 or ×16 (R73). -/
def bondWidth (s : State) (port : Nat) : Nat :=
  match s.hfp.bondActive.toNat / 4 ^ (port / 4) % 4 with
  | 0 => 3
  | 1 => 4
  | 2 => 5
  | _ => if port % 4 = 0 then 4 else 3

/-- Is what a link trained to within the modes of R71 and the limits its training began with (R71, R72, R95)? -/
def trainedOk (s : State) (port : Nat) (t : LinkTrained) : Bool :=
  let ctl := (hostLink s port).ctl
  let speed := t.speed.val
  let plain := t.mode = 1
  let inTable := if plain then true else if t.mode = 2 then decide (2 ≤ speed) && decide (speed ≤ 4) else decide (2 ≤ speed)
  let allowed := if plain then fieldOf ctl 2 1 = 1 else fieldOf ctl 1 1 = 1
  t.mode ≠ 0 && inTable && allowed && decide (speed ≤ fieldOf ctl 3 3) && t.width ≠ 0 && decide (t.width.val ≤ bondWidth s port) &&
    (!t.latOpt || (t.mode = 3 && flag s (portField Reg.HFP_PORT_CTL.lat_opt_allow port))) && (!t.mld || !plain)

/-- A link's training ends: its status, the loss of width, and what was held for its LDs (R74, R82, R550). -/
def doLinkUp (port : Port) (trained : LinkTrained) (s : State) : State :=
  let p := port.val
  let l := hostLink s p
  if !l.training || l.perst || linkUp s p || !trainedOk s p trained then s
  else
    let s := updLink s p fun l => { l with training := false, recovery := false, replays := 0 }
    let f (x : Field) := portField x p
    let s := setFlag (setF (setF (setF s (f Reg.HFP_PORT_STS.speed) trained.speed.val) (f Reg.HFP_PORT_STS.width) trained.width.val)
      (f Reg.HFP_PORT_STS.mode) trained.mode.val) (f Reg.HFP_PORT_STS.link_up)
    let s := putFlag (putFlag s (f Reg.HFP_PORT_STS.lat_opt) trained.latOpt) (f Reg.HFP_PORT_STS.mld) trained.mld
    let s :=
      if trained.width.val < bondWidth s p then
        raise (setFlag s (f Reg.HFP_PORT_ERR.width_loss)) (p * 32) .widthLoss 0xFFF [p, trained.width.val]
      else s
    (ldsOf p).foldl (fun s ld => flushMsix (if carriesMem s ld then flushExtents s ld else s) ld (List.range 64)) s

/-! ### Link errors (R96) -/

/-- A received flit fails its CRC and is replayed; `again`: it is the flit whose replay was under way. The fourth failed
replay of a flit starts recovery. Flits that FEC corrected since the last such failure count with it: the table has no command of their
own (DESIGN CHOICE). A recovery counts once, as it starts (DESIGN CHOICE: R96 names the counter beside its start and its end). -/
def doFlitCrcFail (port : Port) (again : Bool) (fecCorrected : Word) (s : State) : State :=
  let p := port.val
  let l := hostLink s p
  if !linkUp s p || l.recovery then s
  else
    let s := incFiBy s (portField Reg.HFP_PORT_CORR_CNT.corrected p) 0 (fecCorrected.toNat + 1)
    let n := if again then l.replays + 1 else 0
    if n < 4 then updLink s p fun l => { l with replays := n }
    else
      let s := updLink s p fun l => { l with replays := 0, recovery := true }
      incF (setFlag s (portField Reg.HFP_PORT_ERR.recovery p)) (portField Reg.HFP_PORT_RECOV_CNT.recoveries p)

/-- A held snoop leaves only now: its time runs from here (R85). -/
def snoopSent (s : State) (e : Emit) : State :=
  match e with
  | .biSnp ld line inv => { s with
      fcd.snoops := s.fcd.snoops.map fun x => if x.target = ld.val && x.line = line && x.inv = inv then { x with sentAt := s.devTime } else x }
  | _ => s

/-- Recovery completes: what was held for the link's hosts is sent, in order. -/
def doLinkRecoveryDone (port : Port) (s : State) : State :=
  let p := port.val
  if !(hostLink s p).recovery then s
  else
    let held := (s.hfp.held.filter fun e => e.1 = p).map (·.2)
    let s := held.foldl snoopSent { s with hfp.held := s.hfp.held.filter fun e => e.1 ≠ p }
    emitAll (updLink s p fun l => { l with recovery := false, replays := 0 }) held

/-- A link goes down: by a failed recovery, a surprise, or a hot reset. -/
def doLinkDown (port : Port) (s : State) : State := dropLink s port.val

/-- A function level reset of an LD, or the fabric manager's reset of it. -/
def doLdReset (ld : Ld) (s : State) : State := if isLowest s (ld.val / 16) then ldReset s ld else s

/-! ### What waits for firmware (R523) -/

/-- A request that firmware answers waits until boot_ok. -/
def whenBooted (s : State) (i : Instr) (t : State) : State :=
  if s.mgc.booted then t else { s with mgc.waiting := s.mgc.waiting ++ [i] }

/-! ### IDE (R87, R89, R442) -/

/-- Both directions of a stream have active keys. -/
def streamKeyed (l : HostLink) (stream : Nat) : Bool := (slook l.active (stream * 2)).isSome && (slook l.active (stream * 2 + 1)).isSome

/-- HFP_PORT_STS follows the active keys: stream 0 is CXL.cachemem's, stream 1 CXL.io's. -/
def ideStatus (s : State) (port : Nat) : State :=
  let l := hostLink s port
  putFlag (putFlag s (portField Reg.HFP_PORT_STS.ide_mem port) (linkUp s port && streamKeyed l 0))
    (portField Reg.HFP_PORT_STS.ide_io port) (linkUp s port && streamKeyed l 1)

/-- An unset key slot. -/
def noKey : KeySet := { key := [], iv := [] }

/-- Load one key slot of a link, in its staged or its active set. -/
def loadIdeKey (s : State) (port slot : Nat) (staged : Bool) (k : KeySet) : State :=
  ideStatus (updLink s port fun l =>
    if staged then { l with staged := sput noKey l.staged slot k } else { l with active := sput noKey l.active slot k }) port

/-- CXL_IDE_KM is taken on a link that is up in a CXL mode, over an established secured session of the port's DOE mailbox (R87). -/
def ideKmOpen (s : State) (port : Nat) : Bool :=
  linkUp s port && isLowest s port && decide (2 ≤ getF s (portField Reg.HFP_PORT_STS.mode port)) &&
    s.mgc.sessions.any fun x => x.established && x.doe = some port

/-- KEY_PROG (R442): the lockstep pair loads the keys into a staged slot. -/
def doIdeKeyProg (port : Port) (slot : Fin 4) (key iv : List Word) (s : State) : State :=
  if ideKmOpen s port.val then loadIdeKey s port.val slot.val true { key := key, iv := iv } else s

/-- KEY_SET_GO (R87, R442): at a flit boundary the staged set becomes the active one. It says whether the set runs in skid or in
containment mode (R88; PRESUMED that the host's choice comes with it). -/
def doIdeKeySetGo (port : Port) (skid : Bool) (s : State) : State :=
  let p := port.val
  if !ideKmOpen s p || (hostLink s p).staged.isEmpty then s
  else ideStatus (updLink s p fun l => { l with active := l.staged.foldl (fun a e => sput noKey a e.1 e.2) l.active, staged := [], skid := skid }) p

/-- A MAC check fails on a stream, or its keys do not match (R89). -/
def doIdeMacFail (port : Port) (s : State) : State :=
  let p := port.val
  if flag s (portField Reg.HFP_PORT_STS.ide_mem p) || flag s (portField Reg.HFP_PORT_STS.ide_io p) then
    dropLink (setFlag s (portField Reg.HFP_PORT_ERR.ide_fail p)) p
  else s

/-- A viral indication from a host (R94). -/
def doViralReceived (ld : Ld) (s : State) : State :=
  let p := ld.val / 16
  if linkUp s p then setFlag (setFlag s (portField Reg.HFP_PORT_ERR.viral_rx p)) (portField Reg.HFP_PORT_STS.viral p) else s

/-! ### CDAT (R71, R78) -/

/-- The payload of a ×4 port in MB/s, by speed and flit mode (R71). -/
def payloadX4 (mode speed : Nat) : Nat :=
  match mode, speed with
  | 2, 2 => 3200
  | 2, 3 => 6400
  | 2, 4 => 12800
  | 3, 2 => 3590
  | 3, 3 => 7180
  | 3, 4 => 14370
  | 3, 5 => 28750
  | _, _ => 0

/-- A link's payload: in proportion to its width (R74), 3 % less with the latency-optimised flit (R72). -/
def linkPayload (s : State) (port : Nat) : Nat :=
  let full := payloadX4 (getF s (portField Reg.HFP_PORT_STS.mode port)) (getF s (portField Reg.HFP_PORT_STS.speed port))
    * 2 ^ (getF s (portField Reg.HFP_PORT_STS.width port) - 1) / 4
  if flag s (portField Reg.HFP_PORT_STS.lat_opt port) then full * 97 / 100 else full

/-- CDAT of an LD. -/
def doCdatRead (ld : Ld) (s : State) : State :=
  if carriesMem s ld then toHost s ld (.cdat ld 240 520 (linkPayload s (ld.val / 16))) else s

/-! ### The mailbox (R77) -/

/-- Answer a mailbox command; an LD without a CXL link has no mailbox (R590). -/
def reply (s : State) (ld : Ld) (r : MailboxReply) : State := toHost s ld (.mailbox ld r)

/-- What a mailbox command does, where there is a mailbox. -/
def atMailbox (s : State) (ld : Ld) (t : State) : State := if carriesMem s ld then t else s

/-- A log of an LD. -/
def hostLog (s : State) (ld : Ld) (log : Nat) : List HostLogEntry := sget [] s.evr.logs (ld.val * 8 + log)

/-- Event logs: information, warning, failure, fatal, dynamic capacity (R76). -/
def logCount : Nat := 5

/-- Get Event Records: the log's records, oldest first; the 16 KiB payload holds all 64 (R548, R590). -/
def doGetEventRecords (ld : Ld) (log : Fin 8) (s : State) : State :=
  atMailbox s ld (if log.val < logCount then
    reply s ld (.eventRecords log.val (hostLog s ld log.val) (sget 0 s.evr.overflow (ld.val * 8 + log.val)) false)
    else reply s ld .invalidInput)

/-- Clear Event Records: the `count` oldest; a log that is no longer full ends its overflow (CXL 3.1, PRESUMED). -/
def doClearEventRecords (ld : Ld) (log : Fin 8) (count : Fin 256) (s : State) : State :=
  let have_ := hostLog s ld log.val
  let k := ld.val * 8 + log.val
  atMailbox s ld (if log.val < logCount ∧ count.val ≤ have_.length then
    let left := have_.drop count.val
    let s := { s with evr.logs := sput [] s.evr.logs k left }
    let s := if left.length < logCapacity then { s with evr.overflow := sput 0 s.evr.overflow k 0 } else s
    reply s ld .success
    else reply s ld .invalidInput)

/-- Get Event Interrupt Policy: each log's vector, none for No Interrupts. -/
def doGetEventInterruptPolicy (ld : Ld) (s : State) : State :=
  atMailbox s ld (reply s ld (.eventPolicy ((List.range logCount).map fun log => sget none s.evr.policy (ld.val * 8 + log))))

/-- Set Event Interrupt Policy: per log a mode, 0 No Interrupts or 1 MSI/MSI-X, and a vector; any other mode refuses the
whole command (R549). -/
def doSetEventInterruptPolicy (ld : Ld) (modes : List (Fin 4 × Fin 16)) (s : State) : State :=
  atMailbox s ld (if modes.all fun m => decide (m.1.val ≤ 1) then
    reply (((List.range modes.length).zip modes).foldl (fun s e =>
      { s with evr.policy := sput none s.evr.policy (ld.val * 8 + e.1) (if e.2.1 = 1 then some e.2.2.val else none) }) s) ld .success
    else reply s ld .invalidInput)

/-- Get Supported Logs. -/
def doGetSupportedLogs (ld : Ld) (s : State) : State := atMailbox s ld (reply s ld .supportedLogs)

/-- Get Log: the command effects log. -/
def doGetLog (ld : Ld) (s : State) : State := atMailbox s ld (reply s ld .commandEffects)

/-- Get Timestamp: what was set, and the time since; 0 while none is set (CXL 3.1, PRESUMED). -/
def doGetTimestamp (ld : Ld) (s : State) : State :=
  atMailbox s ld (reply s ld (.timestamp (match (ldState s ld).timestamp with
    | some (t, at_) => (t + (s.devTime - at_)) % 2 ^ 64
    | none => 0)))

/-- Set Timestamp. -/
def doSetTimestamp (ld : Ld) (time : DWord) (s : State) : State :=
  atMailbox s ld (reply (updLd s ld fun l => { l with timestamp := some (time.toNat, s.devTime) }) ld .success)

/-- Identify Memory Device: no static capacity, max_capacity of dynamic capacity. -/
def doIdentifyMemoryDevice (ld : Ld) (s : State) : State := atMailbox s ld (reply s ld (.identify 0 (s.plots.maxCapacity * 268435456)))

/-- Life Used in per cent (R552): the higher of Bedrock's mean erase count in its most worn bed against 3,000 and the
code store's highest count against 100,000. -/
def lifeUsed (s : State) : Nat :=
  let pe := [0, 1, 2, 3].foldl (fun n b => max n (wearAvg s b)) 0
  max (pe * 100 / 3000) (getF s Reg.MGC_CS_WEAR.max_cycles * 100 / 100000)

/-- Life Used against the LD's alert thresholds: 0 below both, 1 warning, 2 critical. -/
def lifeStatus (s : State) (ld : Ld) : Nat :=
  let at_ (t : Option Nat) : Bool := t.any fun n => decide (n ≤ lifeUsed s)
  if at_ (ldState s ld).alertCrit then 2 else if at_ (ldState s ld).alertWarn then 1 else 0

/-- Get Health Info: Maintenance Needed while a replace-advised reason is set, Life Used, and the dirty shutdown count. -/
def doGetHealthInfo (ld : Ld) (s : State) : State :=
  atMailbox s ld (reply s ld (.health (getF s Reg.EVR_HEALTH.reasons ≠ 0) (lifeUsed s) (lifeStatus s ld) s.hfp.dirtyShutdowns))

/-- Get Alert Configuration. -/
def doGetAlertConfiguration (ld : Ld) (s : State) : State :=
  atMailbox s ld (reply s ld (.alertConfiguration (ldState s ld).alertWarn (ldState s ld).alertCrit))

/-- Set Alert Configuration. -/
def doSetAlertConfiguration (ld : Ld) (warn crit : Option (Fin 101)) (s : State) : State :=
  atMailbox s ld (reply (updLd s ld fun l => { l with alertWarn := warn.map (·.val), alertCrit := crit.map (·.val) }) ld .success)

/-- The source of a media error record (R428): 1 external, 2 internal, 3 injected. -/
def recordSource (source : Fin 8) : Fin 8 := if source = 1 then 1 else if source = 5 then 3 else 2

/-- The poison list's entries that an LD can read, in DPA order: line and source. -/
def readablePoison (s : State) (ld : Ld) : List (Nat × Fin 8) :=
  (s.diu.poison.filter fun e => (poisonEntry s e.1).isSome && (match plotOfLine s e.1 with
    | some p => hasRights s p ld.val 1
    | none => false)).map fun e => (e.1, e.2.source)

/-- Get Poison List of a range of DPA: at most 256 records (R428). `length` counts units of 64 bytes (CXL 3.1, PRESUMED). -/
def doGetPoisonList (ld : Ld) (start length : DWord) (s : State) : State :=
  let first := start.toNat / 64
  let all := (readablePoison s ld).filter fun e => decide (first ≤ e.1) && decide (e.1 < first + length.toNat)
  atMailbox s ld (reply s ld (.poisonList ((all.take 256).map fun e => (e.1 * 64, recordSource e.2)) (decide (256 < all.length))
    (poisonOverflow s)))

/-- Inject Poison and Clear Poison are ordered as writes of the LD (R428). -/
def mailboxWrite (s : State) (ld : Ld) (dpa : DWord) (v : LineVal) : State :=
  let line := dpa.toNat / 64
  match reach s line with
  | none => reply s ld .invalidInput
  | some p =>
    if hasRights s p ld.val 3 && takesWrites (plotRec s p) then
      (acceptWrite s (.mailbox ld) ld.val p line v.data (BitVec.allOnes 64) v.poison .invalid).2
    else reply s ld .invalidInput

/-- Inject Poison. -/
def doInjectPoison (ld : Ld) (dpa : DWord) (s : State) : State := atMailbox s ld (mailboxWrite s ld dpa poisonLine)

/-- Clear Poison. -/
def doClearPoison (ld : Ld) (dpa : DWord) (data : Line) (s : State) : State :=
  atMailbox s ld (mailboxWrite s ld dpa { data := data, poison := false })

/-- Get DC Configuration: one region, the pair's whole DPA space (R81). -/
def doGetDcConfiguration (ld : Ld) (s : State) : State :=
  atMailbox s ld (reply s ld (.dcConfiguration 0 (s.plots.maxCapacity * 268435456) 268435456))

/-- The extents an LD has accepted and not released, with their tags: plot, generation, base and size in bytes, shared or not (R81). -/
def heldExtents (s : State) (ld : Ld) : List (Nat × Nat × Nat × Nat × Bool) :=
  ((ldState s ld).extents.filter fun e => e.2 = some .held || e.2 = some .releaseAsked).map fun e =>
    let r := plotRec s (e.1 % 4096)
    (e.1 % 4096, e.1 / 4096, r.base * 268435456, r.size * 268435456, sharedExtent s (e.1 % 4096))

/-- Get DC Extent List. -/
def doGetDcExtentList (ld : Ld) (s : State) : State := atMailbox s ld (reply s ld (.extents (heldExtents s ld)))

/-- Add DC Response: an offered extent is accepted or rejected (R82); one that the LD's rights no longer call for is asked
back at once. -/
def doAddDcResponse (ld : Ld) (plot : PlotId) (generation : Fin 65536) (accept : Bool) (s : State) : State :=
  let key := extentKey plot.val generation.val
  atMailbox s ld (if extentOf s ld key = some .offered then
    let s := reply (setExtent s ld key (some (if accept then .held else .rejected))) ld .success
    if accept && !extentGranted s ld key then extentDue s ld key false else s
    else reply s ld .invalidInput)

/-- Release DC. -/
def doReleaseDc (ld : Ld) (plot : PlotId) (generation : Fin 65536) (s : State) : State :=
  let key := extentKey plot.val generation.val
  let x := extentOf s ld key
  atMailbox s ld (if x = some .held ∨ x = some .releaseAsked then reply (setExtent s ld key none) ld .success else reply s ld .invalidInput)

/-- Any other command (R77, R93). -/
def doMailboxUnsupported (ld : Ld) (s : State) : State := atMailbox s ld (reply s ld .unsupported)

/-! ### The commands -/

/-- PERST_ASSERT -/
def execPerstAssert (port : Port) (s : State) : Host.Outcome State Fault Refusal := settles s (doPerstAssert port s)
/-- PERST_RELEASE -/
def execPerstRelease (port : Port) (s : State) : Host.Outcome State Fault Refusal := finishes s (doPerstRelease port s)
/-- LINK_UP -/
def execLinkUp (port : Port) (trained : LinkTrained) (s : State) : Host.Outcome State Fault Refusal := settles s (doLinkUp port trained s)
/-- FLIT_CRC_FAIL -/
def execFlitCrcFail (port : Port) (again : Bool) (fecCorrected : Word) (s : State) : Host.Outcome State Fault Refusal :=
  finishes s (doFlitCrcFail port again fecCorrected s)
/-- LINK_RECOVERY_DONE -/
def execLinkRecoveryDone (port : Port) (s : State) : Host.Outcome State Fault Refusal := finishes s (doLinkRecoveryDone port s)
/-- LINK_DOWN -/
def execLinkDown (port : Port) (s : State) : Host.Outcome State Fault Refusal := settles s (doLinkDown port s)
/-- LD_RESET: both kinds of reset do the same (R98). -/
def execLdReset (ld : Ld) (_byFm : Bool) (s : State) : Host.Outcome State Fault Refusal := settles s (doLdReset ld s)
/-- IDE_KEY_PROG -/
def execIdeKeyProg (port : Port) (slot : Fin 4) (key iv : List Word) (s : State) : Host.Outcome State Fault Refusal :=
  finishes s (whenBooted s (.ideKeyProg port slot key iv) (doIdeKeyProg port slot key iv s))
/-- IDE_KEY_SET_GO -/
def execIdeKeySetGo (port : Port) (skid : Bool) (s : State) : Host.Outcome State Fault Refusal :=
  finishes s (whenBooted s (.ideKeySetGo port skid) (doIdeKeySetGo port skid s))
/-- IDE_MAC_FAIL -/
def execIdeMacFail (port : Port) (s : State) : Host.Outcome State Fault Refusal := settles s (doIdeMacFail port s)
/-- VIRAL_RECEIVED -/
def execViralReceived (ld : Ld) (s : State) : Host.Outcome State Fault Refusal := finishes s (doViralReceived ld s)
/-- CDAT_READ -/
def execCdatRead (ld : Ld) (s : State) : Host.Outcome State Fault Refusal := finishes s (whenBooted s (.cdatRead ld) (doCdatRead ld s))
/-- GET_EVENT_RECORDS -/
def execGetEventRecords (ld : Ld) (log : Fin 8) (s : State) : Host.Outcome State Fault Refusal :=
  finishes s (whenBooted s (.getEventRecords ld log) (doGetEventRecords ld log s))
/-- CLEAR_EVENT_RECORDS -/
def execClearEventRecords (ld : Ld) (log : Fin 8) (count : Fin 256) (s : State) : Host.Outcome State Fault Refusal :=
  finishes s (whenBooted s (.clearEventRecords ld log count) (doClearEventRecords ld log count s))
/-- GET_EVENT_INTERRUPT_POLICY -/
def execGetEventInterruptPolicy (ld : Ld) (s : State) : Host.Outcome State Fault Refusal :=
  finishes s (whenBooted s (.getEventInterruptPolicy ld) (doGetEventInterruptPolicy ld s))
/-- SET_EVENT_INTERRUPT_POLICY -/
def execSetEventInterruptPolicy (ld : Ld) (modes : List (Fin 4 × Fin 16)) (s : State) : Host.Outcome State Fault Refusal :=
  finishes s (whenBooted s (.setEventInterruptPolicy ld modes) (doSetEventInterruptPolicy ld modes s))
/-- GET_SUPPORTED_LOGS -/
def execGetSupportedLogs (ld : Ld) (s : State) : Host.Outcome State Fault Refusal :=
  finishes s (whenBooted s (.getSupportedLogs ld) (doGetSupportedLogs ld s))
/-- GET_LOG -/
def execGetLog (ld : Ld) (s : State) : Host.Outcome State Fault Refusal := finishes s (whenBooted s (.getLog ld) (doGetLog ld s))
/-- GET_TIMESTAMP -/
def execGetTimestamp (ld : Ld) (s : State) : Host.Outcome State Fault Refusal :=
  finishes s (whenBooted s (.getTimestamp ld) (doGetTimestamp ld s))
/-- SET_TIMESTAMP -/
def execSetTimestamp (ld : Ld) (time : DWord) (s : State) : Host.Outcome State Fault Refusal :=
  finishes s (whenBooted s (.setTimestamp ld time) (doSetTimestamp ld time s))
/-- IDENTIFY_MEMORY_DEVICE -/
def execIdentifyMemoryDevice (ld : Ld) (s : State) : Host.Outcome State Fault Refusal :=
  finishes s (whenBooted s (.identifyMemoryDevice ld) (doIdentifyMemoryDevice ld s))
/-- GET_HEALTH_INFO -/
def execGetHealthInfo (ld : Ld) (s : State) : Host.Outcome State Fault Refusal :=
  finishes s (whenBooted s (.getHealthInfo ld) (doGetHealthInfo ld s))
/-- GET_ALERT_CONFIGURATION -/
def execGetAlertConfiguration (ld : Ld) (s : State) : Host.Outcome State Fault Refusal :=
  finishes s (whenBooted s (.getAlertConfiguration ld) (doGetAlertConfiguration ld s))
/-- SET_ALERT_CONFIGURATION -/
def execSetAlertConfiguration (ld : Ld) (warn crit : Option (Fin 101)) (s : State) : Host.Outcome State Fault Refusal :=
  finishes s (whenBooted s (.setAlertConfiguration ld warn crit) (doSetAlertConfiguration ld warn crit s))
/-- GET_POISON_LIST -/
def execGetPoisonList (ld : Ld) (start length : DWord) (s : State) : Host.Outcome State Fault Refusal :=
  finishes s (whenBooted s (.getPoisonList ld start length) (doGetPoisonList ld start length s))
/-- INJECT_POISON -/
def execInjectPoison (ld : Ld) (dpa : DWord) (s : State) : Host.Outcome State Fault Refusal :=
  settles s (whenBooted s (.injectPoison ld dpa) (doInjectPoison ld dpa s))
/-- CLEAR_POISON -/
def execClearPoison (ld : Ld) (dpa : DWord) (data : Line) (s : State) : Host.Outcome State Fault Refusal :=
  settles s (whenBooted s (.clearPoison ld dpa data) (doClearPoison ld dpa data s))
/-- GET_DC_CONFIGURATION -/
def execGetDcConfiguration (ld : Ld) (s : State) : Host.Outcome State Fault Refusal :=
  finishes s (whenBooted s (.getDcConfiguration ld) (doGetDcConfiguration ld s))
/-- GET_DC_EXTENT_LIST -/
def execGetDcExtentList (ld : Ld) (s : State) : Host.Outcome State Fault Refusal :=
  finishes s (whenBooted s (.getDcExtentList ld) (doGetDcExtentList ld s))
/-- ADD_DC_RESPONSE -/
def execAddDcResponse (ld : Ld) (plot : PlotId) (generation : Fin 65536) (accept : Bool) (s : State) : Host.Outcome State Fault Refusal :=
  finishes s (whenBooted s (.addDcResponse ld plot generation accept) (doAddDcResponse ld plot generation accept s))
/-- RELEASE_DC -/
def execReleaseDc (ld : Ld) (plot : PlotId) (generation : Fin 65536) (s : State) : Host.Outcome State Fault Refusal :=
  finishes s (whenBooted s (.releaseDc ld plot generation) (doReleaseDc ld plot generation s))
/-- MAILBOX_UNSUPPORTED -/
def execMailboxUnsupported (ld : Ld) (opcode : Fin 65536) (s : State) : Host.Outcome State Fault Refusal :=
  finishes s (whenBooted s (.mailboxUnsupported ld opcode) (doMailboxUnsupported ld s))

end Sys2Proof.Machine
end

