-- ==== Sys2Proof/Machine/Loam.lean ====
section
/-! DEFINITION. Meanings of Loam's commands (07): the subchannel schedulers, row disturbance, refresh and temperature,
training, speed changes, self-refresh and post-package repair. -/

namespace Sys2Proof.Machine

/-! ### The scheduler (R229 to R232) -/

/-- A read's urgency (R229): elapsed time against its target, in the four levels. -/
def levelOf (s : State) (r : LmcReq) : Nat :=
  let e := s.devTime - r.arrival
  if r.write then 0 else if e * 2 < r.target then 0 else if e * 4 < r.target * 3 then 1 else if e < r.target then 2 else 3

/-- The first request of a list that passes: the oldest. -/
def oldest (q : List LmcReq) (ok : LmcReq → Bool) : Option LmcReq := q.find? ok

/-- An open row has served hit_cap column commands while another row's request waits at level 1 or above (R230 rule 6). -/
def hitCapped (s : State) (sub : Nat) (q : List LmcReq) (r : LmcReq) : Bool :=
  let bank := bankOf s r.lpa
  decide (max 1 (fieldOf r.page 16 5) ≤ (loamBank s (sub * 512 + bank)).streak) &&
    q.any fun x => bankOf s x.lpa = bank && rowOf s x.lpa ≠ rowOf s r.lpa && decide (1 ≤ levelOf s x)

/-- Requests that may issue now: within the 64 entries of their queue, not at a bank held by sPPR, not held back by a
throttle, and at a bank in in-order mode only the oldest. -/
def eligible (s : State) (sub : Nat) (q : List LmcReq) : List LmcReq :=
  let queued := (q.filter fun r => !r.write).take 64 ++ (q.filter fun r => r.write).take 64
  q.filter fun r =>
    let key := sub * 512 + bankOf s r.lpa
    queued.contains r && !(s.lmc.spprs.any fun x => x.bank = key && !x.buffers.isEmpty) && !heldBack s sub r &&
      (!(loamBank s key).inOrder || (q.find? fun x => bankOf s x.lpa = bankOf s r.lpa).map (·.id) = some r.id)

/-- The write queue drains: from above hi_wm until it has fallen to lo_wm (R230 rule 4). -/
def drainsNow (s : State) (sub : Nat) (q : List LmcReq) : Bool :=
  let n := (q.filter (·.write)).length
  let wq := (q.getLast?.map (·.wq)).getD (regAt s Reg.LMC_WQ_CFG.hi_wm.addr 0)
  let hi := fieldOf wq 0 6
  let lo := if fieldOf wq 8 6 < hi then fieldOf wq 8 6 else hi - 1
  decide (hi < n) || (sget false s.lmc.draining sub && decide (lo < n))

/-- The request the rules of R230 pick, kiln flush requests and due commands apart. -/
def pickRequest (s : State) (sub : Nat) (draining : Bool) (all q : List LmcReq) : Option LmcReq :=
  let lvl (n : Nat) (r : LmcReq) : Bool := !r.write && levelOf s r = n
  let calm (r : LmcReq) : Bool := !(all.any fun x => !x.write && decide (1 ≤ levelOf s x) && bankOf s x.lpa = bankOf s r.lpa)
  (oldest q (lvl 3)).or <| (if draining then oldest q (·.write) else none).or <| (oldest q (lvl 2)).or <|
    (oldest q fun r => hitsRow s sub r && !hitCapped s sub all r).or <| oldest q fun r => !r.write || calm r

/-- Writes whose bursts have been driven stay until they are reported written: 64 at most of those no victim entry waits for, whose reports
nothing depends on (R195, R227). -/
def trimIssued (s : State) (q : List LmcReq) : List LmcReq :=
  let sent := q.filter fun r => r.write && r.issued && !(s.fcd.victims.any fun v => v.write = some r.id)
  let gone := (sent.take (sent.length - 64)).map (·.id)
  q.filter fun r => !gone.contains r.id

/-- Issue a request's column command, with its activation where its row is not open; an activation that would bring RAA to
RAAIMT is preceded by RFMsb and waits (R231, R233). -/
def issueRequest (s : State) (sub : Nat) (r : LmcReq) : State :=
  let ch := sub / 2
  let key := sub * 512 + bankOf s r.lpa
  if !hitsRow s sub r && rfmNeeded s key then issueRfm s key
  else
    let s := serveRow s key (rowOf s r.lpa) r.mid 1 r.page r.rd
    let s := if r.write then incF s (lmcField Reg.LMC_CH_WR_LINES.writes ch) else incF s (lmcField Reg.LMC_CH_RD_LINES.reads ch)
    let q := sget [] s.lmc.queues sub
    checkInOrder { s with lmc.queues := sput [] s.lmc.queues sub (trimIssued s (q.map fun x => if x.id = r.id then { x with issued := true } else x)) } key

/-- A bank of a subchannel whose refresh is due. -/
def dueBank (s : State) (sub : Nat) : Option Nat := (s.lmc.banks.find? fun e => e.1 / 512 = sub && e.2.refreshDue).map (·.1)

/-- Same-bank refresh: RAA falls by the devices' decrement and the row closes (R231, R233, R239). -/
def issueRefresh (s : State) (key : Nat) : State :=
  updBank s key fun b => { b with refreshDue := false, raa := b.raa - s.lmc.raaDec, openRow := none, streak := 0 }

/-! ### Training steps and retraining (R242, R243) -/

/-- The speeds a population supports (R221). -/
def speedsOf (s : State) : List Nat :=
  if getF s Reg.LMC_POP.dimm_type = 2 then [5, 6] else if flag s Reg.LMC_POP.dpc2 then [0, 1, 2] else [0, 1, 2, 3, 4]

/-- The next lower speed of the configuration (R247). -/
def lowerSpeed (s : State) (speed : Nat) : Option Nat := if (speedsOf s).contains (speed - 1) && 0 < speed then some (speed - 1) else none

/-- No channel runs a periodic step (R242). -/
def noStep (s : State) : Bool := !((List.range 16).any fun c => (loamChan s c).step ≠ 0)

/-- May a channel's step or segment start: it serves, and no speed change stands in the way, but for a channel that refines
after its own (R246). -/
def mayTrainNow (s : State) (ch : Nat) : Bool :=
  loamState s ch = 1 && match s.lmc.change with
    | some x => x.refining.contains ch
    | none => true

/-- Start a periodic step: the channel is held. -/
def beginStep (s : State) (ch : Nat) (n : Fin 4) : State := closeRows (setLoamState (updLoamChan s ch fun c => { c with step := n }) ch 2) ch

/-- A retraining starts, or repeats command/address training as well (R243). -/
def askRetrain (s : State) (ch : Nat) (ca : Bool) : State := updLoamChan s ch fun c => { c with retrain := true, retrainCa := c.retrainCa || ca }

/-- Start the next segment of a retraining, once traffic has been served for 500 µs (R243). -/
def nextSegment (s : State) (ch : Nat) : State :=
  let c := loamChan s ch
  if c.retrain && !c.segment && mayTrainNow s ch && c.segmentAt ≤ s.devTime then
    closeRows (setLoamState (updLoamChan s ch fun c => { c with segment := true }) ch 2) ch
  else s

/-- The oscillator was read: drift above drift_ps, as it held for the interval, starts a retraining (R243, R255). -/
def oscRead (s : State) (ch drift : Nat) : State := if (loamChan s ch).driftDue < drift then askRetrain s ch false else s

/-- Start a periodic step that is due, ZQ calibration first (R242, R249); else a segment of a retraining. -/
def startDue (s : State) (ch : Nat) : State :=
  let c := loamChan s ch
  if !mayTrainNow s ch then s
  else if !noStep s then nextSegment s ch
  else if c.zqDue then beginStep (updLoamChan s ch fun c => { c with zqDue := false }) ch 1
  else match c.oscDue with
    | some d => oscRead (beginStep (updLoamChan s ch fun c => { c with oscDue := none }) ch 2) ch d
    | none => if c.centerDue then beginStep (updLoamChan s ch fun c => { c with centerDue := false }) ch 3 else nextSegment s ch

/-- Every channel starts what it may. -/
def startAllDue (s : State) : State := (List.range 16).foldl startDue s

/-! ### Speed changes (R244 to R247) -/

/-- A training step, initial, periodic or a segment, is in progress on a channel (R246). -/
def inStep (s : State) (ch : Nat) : Bool := loamState s ch = 2 || loamState s ch = 0

/-- A channel that runs at the target is no longer below it (R254). -/
def clearFallbacks (s : State) (target : Nat) : State :=
  (List.range 16).foldl (fun s c => if loamSpeed s c = target && loamState s c ≠ 0 then setFallback s c false else s) s

/-- The channel in turn begins its change: commands complete, banks precharge (row 1). -/
def beginChange (s : State) : State :=
  match s.lmc.change with
  | some x => closeRows (setLoamState { s with lmc.change := some { x with step := 1 } } x.channel 4) x.channel
  | none => s

/-- The change moves to the next channel in order that does not run at the target, or ends once no channel refines. -/
def nextChange (s : State) : State :=
  match s.lmc.change with
  | none => s
  | some x =>
    let s := clearFallbacks s x.target
    match (List.range 16).find? fun c => !x.done.contains c && (loamSpeed s c ≠ x.target || loamState s c = 0) && loamState s c ≠ 5 with
    | some c =>
      let s := { s with lmc.change := some { x with channel := c, trial := x.target, step := 0, fell := false, since := s.devTime } }
      if inStep s c then s else beginChange s
    | none =>
      if x.refining.isEmpty then startAllDue (putFlag { s with lmc.change := none } Reg.LMC_SPEED_STS.busy false)
      else { s with lmc.change := some { x with channel := 16, step := 0 } }

/-- A change is asked for: a new one, or another target for the one in progress (R245). -/
def startChange (s : State) (target : Nat) : State :=
  match s.lmc.change with
  | some x =>
    let s := { s with lmc.change := some { x with target := target, done := [], fell := false } }
    if x.channel = 16 then nextChange s else s
  | none =>
    nextChange (putFlag { s with lmc.change := some { target := target, channel := 16, trial := target, step := 0, since := s.devTime, fell := false, done := [], refining := [] } }
      Reg.LMC_SPEED_STS.busy true)

/-- Firmware writes LMC_SPEED_CTL (R245). -/
def doSpeedChange (who : Accessor) (value : Word) (s : State) : State :=
  setupWrite s who Reg.LMC_SPEED_CTL.target.addr
    (let t := wr value Reg.LMC_SPEED_CTL.target
     if (speedsOf s).contains t then
       let s := setF s Reg.LMC_SPEED_CTL.target t
       if wr value Reg.LMC_SPEED_CTL.change = 1 then startChange s t else s
     else setFlag s Reg.LMC_SPEED_STS.refused)

/-- The channel in turn serves again at its new speed (row 6); without a kept result set it refines in segments (row 7). -/
def finishChannel (s : State) (x : SpeedChange) : State :=
  let ch := x.channel
  let kept := (loamChan s ch).kept
  let again := (loamChan s ch).again
  let s := setFallback (setLoamSpeed (setLoamState s ch (if again then 0 else 1)) ch x.trial) ch (x.trial ≠ x.target && x.fell)
  let s := updLoamChan s ch fun c =>
    { c with kept := (x.trial :: c.kept.erase x.trial).take 2, retrain := c.retrain || (!again && !kept.contains x.trial), tempAtCenter := c.temps
             again := false }
  let refining := if again || kept.contains x.trial || x.refining.contains ch then x.refining else x.refining ++ [ch]
  let done := if x.trial = x.target || x.fell then x.done ++ [ch] else x.done
  let s := { s with lmc.change := some { x with refining := refining, done := done, channel := 16, step := 0 } }
  nextChange (startDue s ch)

/-- The channel in turn cannot train at its speed: the next lower one, or none (R240, R247). -/
def changeFails (s : State) (x : SpeedChange) : State :=
  let ch := x.channel
  match lowerSpeed s x.trial with
  | some v =>
    let s := raise (setFlag s (lmcField Reg.LMC_CH_ERR.fallback ch)) (loamSource ch) .trainFail 0xFFF [ch, v]
    { s with lmc.change := some { x with trial := v, step := 3, fell := true } }
  | none =>
    let s := adviseReplace (setFlag (setLoamState s ch 5) (lmcField Reg.LMC_CH_ERR.train_fail ch)) 5
    nextChange { s with lmc.change := some { x with done := x.done ++ [ch], channel := 16, step := 0 }, fcd.fatal := some .elsewhere }

/-- A row of R245's table ends on the channel in turn. -/
def doSpeedChangeStepDone (failed : Bool) (s : State) : State :=
  match s.lmc.change with
  | none => s
  | some x =>
    if x.step = 0 || x.channel = 16 then s
    else if failed && 3 ≤ x.step then changeFails s x
    else if x.step < 5 then { s with lmc.change := some { x with step := x.step + 1 } }
    else finishChannel s x

/-- A step or segment of a channel has ended: a change that waited for it begins, a self-refresh entry takes place, or what
else is due starts (R246, R248). -/
def channelFree (s : State) (ch : Nat) : State :=
  let s := setLoamState s ch 1
  match s.lmc.change with
  | some x => if x.channel = ch && x.step = 0 then beginChange s else startAllDue s
  | none =>
    if (loamChan s ch).srWanted && quiet s ch then
      startAllDue (closeRows (setLoamState (updLoamChan s ch fun c => { c with srWanted := false }) ch 3) ch)
    else startAllDue (updLoamChan s ch fun c => { c with srWanted := false })

/-- A training step cannot end within 1.5 ms of a change request: its data are discarded and it runs again later (R246). -/
def doTrainingStepAbort (channel : Fin 16) (s : State) : State :=
  let ch := channel.val
  let c := loamChan s ch
  match s.lmc.change with
  | none => s
  | some x =>
    if x.channel ≠ ch || x.step ≠ 0 || !inStep s ch then s
    else
      let initial := loamState s ch = 0
      let s := updLoamChan s ch fun c =>
        { c with step := 0, segment := false, zqDue := c.zqDue || c.step = 1, oscDue := if c.step = 2 then some 0 else c.oscDue, centerDue := c.centerDue || c.step = 3
                 again := initial }
      beginChange (if initial || c.step ≠ 0 || c.segment then incF s Reg.LMC_SPEED_STS.aborted_steps else s)

/-- A periodic step ends (R242). -/
def doTrainingStepDone (channel : Fin 16) (s : State) : State :=
  let ch := channel.val
  let c := loamChan s ch
  if c.step = 0 then s
  else
    channelFree (updLoamChan s ch fun c =>
      { c with step := 0, tempAtCenter := if c.step = 3 then c.temps else c.tempAtCenter }) ch

/-- A retraining segment ends; `last`: the retraining is complete (R243, R245 row 7, R588). -/
def doRetrainSegmentEnd (channel : Fin 16) (last : Bool) (s : State) : State :=
  let ch := channel.val
  let c := loamChan s ch
  if !c.segment || (c.heldByPll && !last) then s
  else
    let s := updLoamChan s ch fun c =>
      { c with segment := false, segmentAt := s.devTime + 500000, retrain := !last, retrainCa := c.retrainCa && !last, heldByPll := false,
               tempAtCenter := if last then c.temps else c.tempAtCenter }
    let s := if c.heldByPll then setF s Reg.GLB_CLK_STS.ddr_lock (let v := getF s Reg.GLB_CLK_STS.ddr_lock
        if v / 2 ^ ch % 2 = 1 then v else v + 2 ^ ch) else s
    let s := if last then { s with lmc.change := s.lmc.change.map fun x => { x with refining := x.refining.erase ch } } else s
    let s := channelFree s ch
    match s.lmc.change with
    | some x => if x.channel = 16 then nextChange s else s
    | none => s

/-! ### The commands of the schedulers -/

/-- Begin the post-package repairs of a subchannel that wait, each once LMC holds two sand buffers for its row (R250, R465). -/
def startSpprs (s : State) (sub : Nat) : State :=
  (s.lmc.spprs.filter fun x => x.buffers.isEmpty && x.bank / 512 = sub).foldl (fun s x =>
    let owner : Owner := { block := 5, mid := Fin.ofNat 4096 (0x310 + x.channel / 4) }
    match bufGrant s 1 owner with
    | none => s
    | some (a, s1) =>
      match bufGrant s1 1 owner with
      | none => s
      | some (b, s2) =>
        updBank { s2 with lmc.spprs := s2.lmc.spprs.map fun y => if y.bank = x.bank && y.row = x.row then { y with buffers := [a, b] } else y } x.bank
          fun k => { k with openRow := none, streak := 0 }) s

/-- One decision of a subchannel's scheduler (R230): a training step that is due starts only when no kiln flush request waits. -/
def doLmcCommandIssue (sub : Fin 32) (s : State) : State :=
  let ch := sub.val / 2
  let s := countMisses s sub.val
  let s := if (waitingReqs s sub.val).any fun r => r.mid = 0x31C then s else startDue s ch
  if loamState s ch ≠ 1 then s
  else
    let s := startSpprs s sub.val
    let all := waitingReqs s sub.val
    let q := eligible s sub.val all
    let drain := drainsNow s sub.val all
    let s := { s with lmc.draining := sput false s.lmc.draining sub.val drain }
    match oldest q fun r => r.mid = 0x31C with
    | some r => issueRequest s sub.val r
    | none =>
      match dueBank s sub.val with
      | some k => issueRefresh s k
      | none =>
        match pickRequest s sub.val drain all q with
        | some r => issueRequest s sub.val r
        | none => s

/-- An activation window of 3.9 µs ends (R234, R236). -/
def doActWindowEnd (s : State) : State :=
  let asked (t : Throttle) : Nat :=
    t.used + ((waitingReqs s (t.bank / 512)).filter fun r => r.mid = t.mid && bankOf s r.lpa = t.bank % 512 && !hitsRow s (t.bank / 512) r).length
  let limit (t : Throttle) : Nat := max 1 (fieldOf t.rd 0 8)
  let aged := s.lmc.throttles.map fun t => { t with quiet := if !t.fresh && decide (asked t * 2 < limit t) then t.quiet + 1 else 0, used := 0, fresh := false }
  let left := aged.filter fun t => t.quiet < max 1 (fieldOf t.rd 16 4)
  let s := (s.lmc.banks.map (·.1)).foldl (fun s k => updBank s k fun b => { b with acts := 0, top := [], limited := false }) s
  setF { s with lmc.throttles := left } Reg.LMC_THROTTLE_STS.active left.length

/-- An ALERT_N back-off: the RFM commands the device requires, where the DIMMs advertise per-row activation counting (R233). -/
def doAlertBackoff (sub : Fin 32) (bank : Fin 512) (rfms : Fin 16) (s : State) : State :=
  if flag s Reg.LMC_RD_CFG.prac_en && s.lmc.prac then (List.range rfms.val).foldl (fun s _ => issueRfm s (sub.val * 512 + bank.val)) s else s

/-- A write-CRC alert: the write is sent again from its buffer (R227). -/
def doWriteCrcAlert (sub : Fin 32) (id : Nat) (s : State) : State :=
  let q := sget [] s.lmc.queues sub.val
  if flag s Reg.LMC_CFG.wcrc_en && q.any fun r => r.id = id && r.write && r.issued then
    setFlag { s with lmc.queues := sput [] s.lmc.queues sub.val (q.map fun r => if r.id = id then { r with issued := false } else r) }
      (lmcField Reg.LMC_CH_ERR.wcrc (sub.val / 2))
  else s

/-- A bank's refresh interval elapses; in self-refresh the DRAM refreshes itself (R239, R249). -/
def doRefreshDue (sub : Fin 32) (bank : Fin 512) (s : State) : State :=
  if loamState s (sub.val / 2) = 3 then s else updBank s (sub.val * 512 + bank.val) fun b => { b with refreshDue := true }

/-- A temperature has moved by 10 °C. -/
def movedTen (a b : Nat) : Bool := decide (a + 10 ≤ b) || decide (b + 10 ≤ a)

/-- The hottest device of each DIMM of a channel, as the 16 ms poll reads them (R239, R243); a channel with one DIMM has no second. -/
def doThermalPoll (channel : Fin 16) (dimm0 dimm1 : Fin 256) (s : State) : State :=
  let ch := channel.val
  let f := lmcField Reg.LMC_CH_STS.temp_max_c ch
  let before := getF s f
  let now := (dimm0.val, if flag s Reg.LMC_POP.dpc2 then dimm1.val else 0)
  let t := max now.1 now.2
  let s := updLoamChan (setF s f t) ch fun c => { c with refresh2x := decide (85 < t), temps := now }
  let s := if s.lmc.critC < t ∧ before ≤ s.lmc.critC then raise s (loamSource ch) .overtemp 0xFFF [ch, t] else s
  let s := if s.lmc.critC < t then setFlag s (lmcField Reg.LMC_CH_ERR.overtemp ch) else s
  let at_ := (loamChan s ch).tempAtCenter
  if movedTen at_.1 now.1 || movedTen at_.2 now.2 then startDue (askRetrain s ch false) ch else s

/-- An open row has had no request for idle_close (R231). -/
def doRowIdleClose (sub : Fin 32) (bank : Fin 512) (s : State) : State :=
  if (waitingReqs s sub.val).any fun r => bankOf s r.lpa = bank.val then s
  else updBank s (sub.val * 512 + bank.val) fun b => { b with openRow := none, streak := 0 }

/-- The ZQ interval elapses (R242). -/
def doZqCalDue (channel : Fin 16) (s : State) : State := startDue (updLoamChan s channel.val fun c => { c with zqDue := true }) channel.val

/-- The oscillator interval elapses; `drift` in ps since the last centering (R242, R243). The interval that begins takes drift_ps as it stands
(R255). -/
def doOscReadDue (channel : Fin 16) (drift : Fin 256) (s : State) : State :=
  startDue (updLoamChan s channel.val fun c =>
    { c with oscDue := some drift.val, driftDue := c.driftNext, driftNext := getF s Reg.LMC_TRAIN_CFG.drift_ps }) channel.val

/-- The centering interval elapses (R242). -/
def doCenteringCheckDue (channel : Fin 16) (s : State) : State :=
  startDue (updLoamChan s channel.val fun c => { c with centerDue := true }) channel.val

/-- The RCD reports a parity error and the affected commands, by their requests' numbers, are issued again; the third within 1 ms retrains
(R243). -/
def doCaParityError (channel : Fin 16) (affected : List Nat) (s : State) : State :=
  let ch := channel.val
  let reissue (q : List LmcReq) : List LmcReq := q.map fun r => if affected.contains r.id then { r with issued := false } else r
  let s := { s with lmc.queues := supd [] (supd [] s.lmc.queues (ch * 2) reissue) (ch * 2 + 1) reissue }
  let s := setFlag s (lmcField Reg.LMC_CH_ERR.ca_par ch)
  let times := s.devTime :: (loamChan s ch).caErrors.filter fun t => s.devTime < t + 1000000
  if 3 ≤ times.length then startDue (askRetrain (updLoamChan s ch fun c => { c with caErrors := [] }) ch true) ch
  else updLoamChan s ch fun c => { c with caErrors := times }

/-- A channel has had no request for idle_us (R248). -/
def doSelfRefreshIdle (channel : Fin 16) (s : State) : State :=
  let ch := channel.val
  if getF s Reg.LMC_SR_CFG.idle_us = 0 || !quiet s ch then s
  else if loamState s ch = 1 then closeRows (setLoamState s ch 3) ch
  else if loamState s ch = 2 then updLoamChan s ch fun c => { c with srWanted := true }
  else s

/-! ### Initial training (R222, R240, R241, R247, R251) -/

/-- A population that R221 and R222 allow. -/
def loamPopOk (p : LoamPopulation) : Bool :=
  p.ec8 && [16, 24, 32].contains p.densityGb.val && [64, 96, 128, 192, 256].contains p.dimmGib.val &&
    decide (p.chanGib.val = p.dimmGib.val * if p.dpc2 then 2 else 1) && (!p.dpc2 || p.ranks.val % 2 = 0) &&
  decide (p.dimmType.val ≤ 2) && decide (1 ≤ p.ranks.val) && decide (p.ranks.val ≤ 4) && decide (p.stack.val ≤ 2) &&
    (p.dimmType ≠ 2 || (!p.x8 && !p.dpc2)) && (!p.dpc2 || decide (p.stack.val ≤ 1)) && (p.dimmType = 1 || p.stack = 0)

/-- What the SPD and the mode registers say. -/
def takePopulation (s : State) (p : LoamPopulation) : State :=
  let s := putFlag (putFlag (setF s Reg.LMC_POP.dimm_type p.dimmType.val) Reg.LMC_POP.dpc2 p.dpc2) Reg.LMC_POP.x8 p.x8
  let s := setF (setF (setF s Reg.LMC_POP.phys_ranks p.ranks.val) Reg.LMC_POP.stack p.stack.val) Reg.LMC_POP.chan_gib p.chanGib.val
  { s with lmc.raaimt := p.raaimt.val, lmc.raammt := p.raammt.val, lmc.raaDec := p.raaDec.val, lmc.rfmNs := p.rfmNs.val, lmc.prac := p.prac
           lmc.critC := p.critC.val, plots.loamMib := 16 * p.chanGib.val * 1024 }

/-- One channel's initial training: its speed, or none at which it trains. -/
def loamTrained (s : State) (ch : Nat) (result : Option (Fin 8)) : State :=
  match result with
  | none => adviseReplace (setFlag (setLoamState s ch 5) (lmcField Reg.LMC_CH_ERR.train_fail ch)) 5
  | some v =>
    let s := setLoamSpeed (setLoamState s ch 1) ch v.val
    let s := updLoamChan s ch fun c =>
      { c with kept := (v.val :: c.kept.erase v.val).take 2, tempAtCenter := c.temps, driftNext := getF s Reg.LMC_TRAIN_CFG.drift_ps, again := false }
    let below := decide (v.val < getF s Reg.LMC_SPEED_CTL.target)
    let s := setFallback s ch below
    if below then
      raise (setFlag (setFlag s (lmcField Reg.LMC_CH_ERR.train_fail ch)) (lmcField Reg.LMC_CH_ERR.fallback ch)) (loamSource ch) .trainFail 0xFFF [ch, v.val]
    else s

/-- Hard repairs of a cold start: a row of the repair list that is not among the unrepaired ones leaves it (R251). -/
def hardRepairs (s : State) (unrepaired : List Nat) : State :=
  { s with lmc.repairs := (((List.range s.lmc.repairs.length).zip s.lmc.repairs).filter fun e => unrepaired.contains e.1).map (·.2) }

/-- A speed change that waited for initial training goes on (R246). -/
def waitingChange (s : State) : State :=
  match s.lmc.change with
  | some x => if x.step = 0 && decide (x.channel < 16) then nextChange s else s
  | none => s

/-- Loam has been trained (R556 step 6): BPM's pools are laid out (step 9), and a cold start finds Loam empty. -/
def doLoamTrainingDone (results : List (Option (Fin 8))) (population : LoamPopulation) (populationOk : Bool) (unrepaired : List Nat) (s : State) : State :=
  if s.glb.loamReady || stage s = stHalted then s
  else if !populationOk || !loamPopOk population then haltStart (setFlag s Reg.LMC_POP.pop_err) 4
  else
    let s := takePopulation s population
    let s := if s.lmc.held then { s with lmc.held := false } else hardRepairs { s with lmc.lines := [], lmc.retired := [] } unrepaired
    let s := waitingChange (((List.range results.length).zip results).foldl (fun s e => loamTrained s e.1 e.2) s)
    if results.any (·.isNone) then haltStart (fenceSelf s []) 4
    else
      let s := fillPools { s with glb.loamReady := true }
      trainingStep { s with plots.poolsMib := regionMib s }

/-! ### Post-package repair (R250 to R252) -/

/-- Frames whose lines share rows with a frame: 4, or 2 with ×8 devices (R226). -/
def rowFrames (s : State) (frame : Nat) : List Nat :=
  let n := if flag s Reg.LMC_POP.x8 then 2 else 4
  (List.range n).map (frame / n * n + ·)

/-- Move a clod out of a frame that is retired: to a fresh one, its lines copied with their poison, by movement engine 0x30F (DESIGN CHOICE:
R252 does not name the engine). -/
def moveClod (s : State) (clod : Nat) : State :=
  let e := entryOf s clod
  let copy (s : State) (dst : Nat) : State :=
    (List.range 1024).foldl (fun s i => setLoam s (lpaOf dst i) (loamAt s (lpaOf e.frame i))) (engineFrame (engineClod s 0x30F clod) 0x30F true dst 0 32)
  if e.tier = 3 then
    let o := overlayOf s e.overlay
    match takeOverlay s clod o.generation with
    | some (i, s) => updEntry (setOverlay (copy s (overlayFrame s i)) i o) clod fun e => { e with overlay := i, frame := overlayFrame s i }
    | none => s
  else
    match takeFrame s with
    | some (f, s) => updEntry (copy s f) clod fun e => { e with frame := f }
    | none => s

/-- A row has no repair resource left: the clods that share it move, and their frames are retired (R252). -/
def retireRow (s : State) (frame : Nat) : State :=
  let frames := rowFrames s frame
  let s := { s with
    lmc.retired := (s.lmc.retired ++ frames).eraseDups
    tmg.freedFrames := s.tmg.freedFrames.filter fun f => !frames.contains f
    tmg.freedOverlays := s.tmg.freedOverlays.filter fun i => !frames.contains (overlayFrame s i) }
  let mine := (s.plots.entries.filter fun e => (e.2.tier = 1 || e.2.tier = 3) && frames.contains e.2.frame).map (·.1)
  let s := s.tmg.lifts.foldl (fun s l =>
    if frames.contains l.frame then
      match takeFrame s with
      | some (f, s) => { s with tmg.lifts := s.tmg.lifts.map fun x => if x.clod = l.clod then { x with frame := f } else x }
      | none => s
    else s) s
  resourceCheck (mine.foldl moveClod s)

/-- A row's sPPR ends: its staged lines are written back, so that they stand as they did, and writes that waited follow them; the row enters the
repair list for each device, and the buffers go back. Without a repair resource the row is given up (R250, R252, R416). -/
def doSpprDone (channel : Fin 16) (ok : Bool) (s : State) : State :=
  match s.lmc.spprs.find? fun x => x.channel = channel.val && !x.buffers.isEmpty with
  | none => s
  | some x =>
    let s := { s with lmc.spprs := s.lmc.spprs.erase x }
    let s := x.buffers.foldl (fun s b => bufPut s b { block := 5, mid := Fin.ofNat 4096 (0x310 + x.channel / 4) }) s
    let s := { s with diu.ceLog := s.diu.ceLog.map fun e => e.filter fun e =>
        !(e.hard && subchannelOf e.lpa * 512 + bankOf s e.lpa = x.bank && rowOf s e.lpa = x.row) }
    if ok then
      incF { s with lmc.repairs := s.lmc.repairs ++ (x.devices.map fun d => (x.bank, x.row, d)).filter fun r => !s.lmc.repairs.contains r }
        Reg.LMC_PPR_STS.sppr_done
    else
      let s := adviseReplace (setFlag s (lmcField Reg.LMC_CH_ERR.ppr_exhausted channel.val)) 0
      retireRow s (x.frame)

/-! ### The commands -/

/-- LMC_COMMAND_ISSUE -/
def execLmcCommandIssue (sub : Fin 32) (s : State) : Host.Outcome State Fault Refusal := completes s (doLmcCommandIssue sub s)
/-- ACT_WINDOW_END -/
def execActWindowEnd (s : State) : Host.Outcome State Fault Refusal := finishes s (doActWindowEnd s)
/-- ALERT_BACKOFF -/
def execAlertBackoff (sub : Fin 32) (bank : Fin 512) (rfms : Fin 16) (s : State) : Host.Outcome State Fault Refusal :=
  finishes s (doAlertBackoff sub bank rfms s)
/-- WRITE_CRC_ALERT -/
def execWriteCrcAlert (sub : Fin 32) (id : Nat) (s : State) : Host.Outcome State Fault Refusal := finishes s (doWriteCrcAlert sub id s)
/-- REFRESH_DUE -/
def execRefreshDue (sub : Fin 32) (bank : Fin 512) (s : State) : Host.Outcome State Fault Refusal := finishes s (doRefreshDue sub bank s)
/-- THERMAL_POLL -/
def execThermalPoll (channel : Fin 16) (dimm0 dimm1 : Fin 256) (s : State) : Host.Outcome State Fault Refusal :=
  finishes s (doThermalPoll channel dimm0 dimm1 s)
/-- ROW_IDLE_CLOSE -/
def execRowIdleClose (sub : Fin 32) (bank : Fin 512) (s : State) : Host.Outcome State Fault Refusal := finishes s (doRowIdleClose sub bank s)
/-- ZQ_CAL_DUE -/
def execZqCalDue (channel : Fin 16) (s : State) : Host.Outcome State Fault Refusal := finishes s (doZqCalDue channel s)
/-- OSC_READ_DUE -/
def execOscReadDue (channel : Fin 16) (drift : Fin 256) (s : State) : Host.Outcome State Fault Refusal := finishes s (doOscReadDue channel drift s)
/-- CENTERING_CHECK_DUE -/
def execCenteringCheckDue (channel : Fin 16) (s : State) : Host.Outcome State Fault Refusal := finishes s (doCenteringCheckDue channel s)
/-- RETRAIN_SEGMENT_END -/
def execRetrainSegmentEnd (channel : Fin 16) (last : Bool) (s : State) : Host.Outcome State Fault Refusal :=
  finishes s (doRetrainSegmentEnd channel last s)
/-- CA_PARITY_ERROR -/
def execCaParityError (channel : Fin 16) (affected : List Nat) (s : State) : Host.Outcome State Fault Refusal :=
  finishes s (doCaParityError channel affected s)
/-- SPEED_CHANGE -/
def execSpeedChange (who : Accessor) (value : Word) (s : State) : Host.Outcome State Fault Refusal := finishes s (doSpeedChange who value s)
/-- SPEED_CHANGE_STEP_DONE -/
def execSpeedChangeStepDone (failed : Bool) (s : State) : Host.Outcome State Fault Refusal := settles s (doSpeedChangeStepDone failed s)
/-- TRAINING_STEP_ABORT -/
def execTrainingStepAbort (channel : Fin 16) (s : State) : Host.Outcome State Fault Refusal := finishes s (doTrainingStepAbort channel s)
/-- TRAINING_STEP_DONE -/
def execTrainingStepDone (channel : Fin 16) (s : State) : Host.Outcome State Fault Refusal := finishes s (doTrainingStepDone channel s)
/-- SELF_REFRESH_IDLE -/
def execSelfRefreshIdle (channel : Fin 16) (s : State) : Host.Outcome State Fault Refusal := finishes s (doSelfRefreshIdle channel s)
/-- LOAM_TRAINING_DONE -/
def execLoamTrainingDone (results : List (Option (Fin 8))) (population : LoamPopulation) (populationOk : Bool) (unrepaired : List Nat) (s : State) :
    Host.Outcome State Fault Refusal := settlesBuffers s (doLoamTrainingDone results population populationOk unrepaired s)
/-- SPPR_DONE -/
def execSpprDone (channel : Fin 16) (ok : Bool) (s : State) : Host.Outcome State Fault Refusal := settlesBuffers s (doSpprDone channel ok s)

end Sys2Proof.Machine
end

