-- ==== Sys2Proof/Machine/Integrity.lean ====
section
/-! DEFINITION. Meanings of DIU's own commands (12): scrub write-backs, patrol scrub, and the correctable-error log. -/

namespace Sys2Proof.Machine

/-! ### Scrub (R413, R414, R417) -/

/-- Issue the oldest write-back of an engine: dropped if a newer write of the address reached the scheduler after the read,
or has changed what stands there. -/
def doCeScrubWriteback (engine : Fin 4) (s : State) : State :=
  match sget [] s.diu.scrubQueue engine.val with
  | [] => s
  | w :: rest =>
    if flushing s then s
    else
      let s := { s with diu.scrubQueue := sput [] s.diu.scrubQueue engine.val rest }
      if w.stale || loamAt s w.lpa ≠ w.val then incF s Reg.DIU_SCRUB_STS.dropped
      else lmcRequest (ceUpd s w.lpa fun e => { e with writtenBack := true }) (0x310 + engine.val) true w.lpa

/-- Lines installed in Loam. -/
def loamLines (s : State) : Nat := s.plots.loamMib * 16384

/-- The first line of a channel at or above a line address: every 128 lines hold lines of every channel (R225). -/
def nextOfChannel (ch lpa : Nat) : Option Nat := ((List.range 128).map (lpa + ·)).find? fun x => channelOf x = ch

/-- A channel is held by training, a speed change or sPPR (R417). -/
def scrubHeld (s : State) (ch : Nat) : Bool :=
  (loamState s ch ≠ 1 && loamState s ch ≠ 3) || s.lmc.spprs.any fun x => x.channel = ch && !x.buffers.isEmpty

/-- The lines an engine may read next, one for each of its channels that is not held and has lines left: line and channel. -/
def scrubTargets (s : State) (engine : Nat) : List (Nat × Nat) :=
  ((List.range 4).map (engine * 4 + ·)).filterMap fun ch =>
    if scrubHeld s ch then none
    else match nextOfChannel ch (sget 0 s.diu.scrubNext ch) with
      | some lpa => if lpa < loamLines s then some (lpa, ch) else none
      | none => none

/-- An engine has no line left on any of its channels. -/
def passEnded (s : State) (engine : Nat) : Bool :=
  ((List.range 4).map (engine * 4 + ·)).all fun ch =>
    match nextOfChannel ch (sget 0 s.diu.scrubNext ch) with
    | some lpa => decide (loamLines s ≤ lpa)
    | none => true

/-- A pass that has ended is counted, and the next one begins. -/
def checkPass (s : State) (engine : Nat) : State :=
  if passEnded s engine && decide (0 < loamLines s) then
    incF { s with diu.scrubNext := sdrop s.diu.scrubNext fun ch => ch / 4 = engine } Reg.DIU_SCRUB_STS.passes
  else s

/-- The clod a Loam frame holds, or an overlay frame's record names, and the line of it. -/
def lineOfLpa (s : State) (lpa : Nat) : Option Nat :=
  let frame := lpa / 1024
  match s.plots.entries.find? fun e => e.2.tier = 1 && e.2.frame = frame with
  | some e => some (e.1 * 1024 + lpa % 1024)
  | none =>
    match s.tmg.overlays.find? fun o => overlayFrame s o.1 = frame with
    | some o => if o.2.valid.getLsbD (lpa % 1024) then some (o.2.clod * 1024 + lpa % 1024) else none
    | none => none

/-- A line of the translation table is lost: so is every entry it holds, four of 16 bytes (R44, R46, R419). -/
def tableLost (s : State) (lpa : Nat) : State :=
  ((List.range 4).map fun i => (lpa - tableLpa s) * 4 + i).foldl (fun s c => if (plotOfClod s c).isSome then loseEntry s c else s) s

/-- A line of an overlay record is lost, and with it the record, of 256 bytes (R303, R419). -/
def recordLost (s : State) (lpa : Nat) : State :=
  let i := (lpa - regionFrame s * 1024) / 4
  match slook s.tmg.overlays i with
  | some o => loseEntry (setFlag (setOverlay s i { o with crcBad := true }) Reg.TMG_MIG_ERR.overlay_crc) o.clod
  | none => s

/-- Patrol scrub finds a line uncorrectable: repaired where it holds a clod's line; lost entries and records are rebuilt; what a pool or the
record region held is lost, and its block reports it (R418, R419). -/
def scrubUe (s : State) (lpa : Nat) : State :=
  match lineOfLpa s lpa with
  | some line => startRepair s line lpa []
  | none =>
    let s := incFi s Reg.DIU_CE_DATA.uncorrectable (channelOf lpa)
    let s := raise (setFlag s Reg.DIU_ERR.loam_ue) (loamSource (channelOf lpa) + 1) .loamUe 0xFFF [lpa]
    if lpa < regionFrame s * 1024 then s
    else if lpa < overlayFrame s 0 * 1024 then recordLost s lpa
    else if tableLpa s ≤ lpa && lpa < changeLpa s then tableLost s lpa
    else if poolLpa s ≤ lpa && lpa < recordLpa s then raise s 1440 .bufferUe 0xFFF [lpa]
    else if recordLpa s ≤ lpa && lpa < recordLpa s + s.plots.recordMib * 16384 then raise s 1496 .bufferUe 0xFFF [lpa]
    else s

/-- A scrub engine reads its next line in LPA order; a poisoned line is passed over. -/
def doPatrolScrubRead (engine : Fin 4) (decode : LoamDecode) (s : State) : State :=
  if !flag s Reg.DIU_SCRUB_CFG.enable || flushing s then s
  else
    let s := checkPass s engine.val
    let best := (scrubTargets s engine.val).foldl (fun (b : Option (Nat × Nat)) t =>
      match b with
      | some b => if t.1 < b.1 then some t else some b
      | none => some t) none
    match best with
    | none => s
    | some (lpa, ch) =>
      let s := checkPass { s with diu.scrubNext := sput 0 s.diu.scrubNext ch (lpa + 1) } engine.val
      let s := engineRow s (0x310 + engine.val) false lpa 1
      match decode with
      | .good => s
      | .corrected d => loamCorrected s lpa d.val (loamAt s lpa)
      | .uncorrectable => scrubUe s lpa

/-! ### The correctable-error log (R415, R416) -/

/-- An entry not hit for 24 h is freed. -/
def doCeLogExpiry (entry : Fin 64) (s : State) : State :=
  match s.diu.ceLog[entry.val]? with
  | some (some e) => if e.lastHit + 86400000000000 ≤ s.devTime then { s with diu.ceLog := s.diu.ceLog.set entry.val none } else s
  | _ => s

/-- A second ends: each channel whose corrections exceed the threshold raises one event, and one with more than 64 is
retrained (R243, R416). -/
def doCeSecondTimer (s : State) : State :=
  let thresh := max 1 (getF s Reg.DIU_CFG.ce_event_thresh)
  let s' := s.diu.ceSecond.foldl (fun s e =>
    let s := if thresh < e.2 then raise s (loamSource e.1 + 1) .ceThreshold 0xFFF [e.1, e.2] else s
    if 64 < e.2 then nextSegment (askRetrain s e.1 false) e.1 else s) s
  { s' with diu.ceSecond := [] }

/-! ### The commands -/

/-- CE_SCRUB_WRITEBACK -/
def execCeScrubWriteback (engine : Fin 4) (s : State) : Host.Outcome State Fault Refusal := finishes s (doCeScrubWriteback engine s)
/-- PATROL_SCRUB_READ -/
def execPatrolScrubRead (engine : Fin 4) (decode : LoamDecode) (s : State) : Host.Outcome State Fault Refusal :=
  settles s (doPatrolScrubRead engine decode s)
/-- CE_LOG_EXPIRY -/
def execCeLogExpiry (entry : Fin 64) (s : State) : Host.Outcome State Fault Refusal := finishes s (doCeLogExpiry entry s)
/-- CE_SECOND_TIMER -/
def execCeSecondTimer (s : State) : Host.Outcome State Fault Refusal := finishes s (doCeSecondTimer s)

end Sys2Proof.Machine
end

