-- ==== Sys2Proof/Machine/Cipher.lean ====
section
/-! DEFINITION. Meanings of CKU's commands (13): the key window, GCM roles, and key updates of links. -/

namespace Sys2Proof.Machine

/-! ### The key window (R443, R456) -/

/-- Only the lockstep pair writes the key window; JTAG never does (R443). -/
def isLockstep (who : Accessor) : Bool :=
  match who with
  | .mid m => m.val = 0x340 || m.val = 0x341
  | .jtag => false

/-- A write of the key window that is rejected. -/
def denyKeyWrite (s : State) (who : Accessor) : State :=
  raise (setFlag s Reg.CKU_ERR.key_write_denied) 1448 .setupDenied (accessorMid who) [Reg.CKU_KEYWIN_CTL.slot.addr]

/-- The words DATA0 to DATA7. -/
def windowSecret (s : State) : Secret := (List.range 8).map fun i => sget 0 s.cku.window i

/-- Where a secret of a kind's slot is held: the twin's at 0 and 1, chain port p's at 2 + 2p and 3 + 2p; none: nothing selected. -/
def secretSlot (kind slot : Nat) : Option Nat :=
  if kind = 0 ∧ slot < 2 then some slot else if kind = 1 ∧ slot < 16 then some (slot + 2) else none

/-- Give an IDE slot of the window a key: link × 8 + stream × 4 + direction × 2 + set. Set 0 is the active one, 1 the staged
one (DESIGN CHOICE). -/
def setIdeSlot (s : State) (slot : Nat) (k : KeySet) : State :=
  if slot < 128 then loadIdeKey s (slot / 8) (slot / 4 % 2 * 2 + slot / 2 % 2) (slot % 2 = 1) k else s

/-- Put a key into a slot; an empty one clears it. Of a session secret the two direction keys are derived (R439). -/
def setKeySlot (s : State) (kind slot : Nat) (k : KeySet) : State :=
  if kind = 2 then setIdeSlot s slot k
  else match secretSlot kind slot with
    | some i =>
      let s := { s with cku.secrets := sput [] s.cku.secrets i k.key }
      if k.key = [] then s else incFiBy s Reg.CKU_KEY_CACHE.kdf_runs 0 2
    | none => s

/-- A write to CKU_KEYWIN_CTL: load, which also zeroes the window's data, then clear. -/
def writeKeyWindow (s : State) (who : Accessor) (value : Word) : State :=
  if !isLockstep who then denyKeyWrite s who
  else
    let slot := wr value Reg.CKU_KEYWIN_CTL.slot
    let kind := wr value Reg.CKU_KEYWIN_CTL.kind
    let s :=
      if wr value Reg.CKU_KEYWIN_CTL.load = 1 then
        let k : KeySet := { key := windowSecret s, iv := (List.range 3).map fun i => sget 0 s.cku.window (8 + i) }
        { setKeySlot s kind slot k with cku.window := [] }
      else s
    if wr value Reg.CKU_KEYWIN_CTL.clear = 1 then setKeySlot s kind slot noKey else s

/-- KEYWIN_LOAD: a write of the window's control register that loads. -/
def doKeywinLoad (who : Accessor) (value : Word) (s : State) : State := writeKeyWindow s who value

/-- KEYWIN_CLEAR: one that clears. -/
def doKeywinClear (who : Accessor) (value : Word) (s : State) : State := writeKeyWindow s who value

/-! ### GCM roles (R445, R457) -/

/-- A write to CKU_GCM_ROLE for the selected pair: none beyond 23, and no effect on a pair out of service. -/
def doGcmRoleWrite (who : Accessor) (value : Word) (s : State) : State :=
  let pair := selOf s who Reg.CKU_GCM_SEL.pair
  setupWrite s who Reg.CKU_GCM_ROLE.role.addr
    (if pair < 24 && gcmIn s pair then giveRole s pair (wr value Reg.CKU_GCM_ROLE.role) else s)

/-! ### Key updates (R441) -/

/-- The slot of a link's current secret: link 0 is the twin link, link 1 + p chain port p. -/
def linkSlot (link : Nat) : Nat := link * 2

/-- A link's current secret. -/
def linkSecret (s : State) (link : Nat) : Secret := sget [] s.cku.secrets (linkSlot link)

/-- The new keys apply from the counters named; the old ones stay until they retire. -/
def startRekey (s : State) (link fromOrdered fromOther : Nat) : State :=
  let s := { s with
    cku.old := sput [] s.cku.old link (linkSecret s link)
    cku.rekeys := sput none s.cku.rekeys link (some { fromOrdered := fromOrdered, fromOther := fromOther }) }
  raise (incF s Reg.CKU_LINK_KEY_STS.rekeys) 1448 .keyEvent 0xFFF [link]

/-- The counters of the next frames of a link's two streams; a chain port has unordered frames only (R335). -/
def nextCounters (s : State) (link : Nat) : Nat × Nat :=
  if link = 0 then (s.twin.txOrdered + 1, s.twin.txOther + 1) else (1, sget 0 s.chain.sent (link - 1) + 1)

/-- A link reaches 2^40 frames or 24 h: the lockstep pair sends KEY_UPDATE. -/
def doLinkRekeyTimer (link : Fin 9) (s : State) : State :=
  if linkSecret s link.val = [] || (sget none s.cku.rekeys link.val).isSome then s
  else
    let (o, u) := nextCounters s link.val
    emit (startRekey s link.val o u) (.keyUpdate link.val o u)

/-- 100 ms after the first frame under the new keys: the old ones are discarded, the next secret is the current one. -/
def doOldKeyRetire (link : Fin 9) (s : State) : State :=
  match sget none s.cku.rekeys link.val with
  | none => s
  | some _ =>
    let next := sget [] s.cku.secrets (linkSlot link.val + 1)
    let s := { s with cku.old := sput [] s.cku.old link.val [], cku.rekeys := sput none s.cku.rekeys link.val none }
    if next = [] then s
    else { s with cku.secrets := sput [] (sput [] s.cku.secrets (linkSlot link.val) next) (linkSlot link.val + 1) [] }

/-! ### The commands -/

/-- KEYWIN_LOAD -/
def execKeywinLoad (who : Accessor) (value : Word) (s : State) : Host.Outcome State Fault Refusal := finishes s (doKeywinLoad who value s)
/-- KEYWIN_CLEAR -/
def execKeywinClear (who : Accessor) (value : Word) (s : State) : Host.Outcome State Fault Refusal := finishes s (doKeywinClear who value s)
/-- GCM_ROLE_WRITE -/
def execGcmRoleWrite (who : Accessor) (value : Word) (s : State) : Host.Outcome State Fault Refusal := finishes s (doGcmRoleWrite who value s)
/-- LINK_REKEY_TIMER -/
def execLinkRekeyTimer (link : Fin 9) (s : State) : Host.Outcome State Fault Refusal := finishes s (doLinkRekeyTimer link s)
/-- OLD_KEY_RETIRE -/
def execOldKeyRetire (link : Fin 9) (s : State) : Host.Outcome State Fault Refusal := finishes s (doOldKeyRetire link s)

end Sys2Proof.Machine
end

