-- ==== Sys2Proof/Machine/BootOps.lean ====
section
/-! DEFINITION. What power and management share: snapshots (R486), the boot ROM's work (R455, R515, R518, R524), the
management reset (R523), cold boot (R556), and what a reset of the die keeps (R555). -/

namespace Sys2Proof.Machine

/-! ### PHS's state and snapshots (R475, R486) -/

/-- Codes of PHS_STATE.state. -/
def phsOff : Nat := 0
/-- POWERING_UP. -/
def phsUp : Nat := 1
/-- RUNNING. -/
def phsRunning : Nat := 2
/-- FLUSHING. -/
def phsFlushing : Nat := 3
/-- POWERING_DOWN. -/
def phsDown : Nat := 4
/-- OFF_HOLD. -/
def phsHold : Nat := 5

/-- PHS_STATE.state. -/
def phsState (s : State) : Nat := getF s Reg.PHS_STATE.state

/-- Enter a state of PHS. -/
def setPhs (s : State) (n : Nat) : State := setF s Reg.PHS_STATE.state n

/-- Note what changed PHS's state: a channel, and a kind of PHS_STATE.last_kind. -/
def notePhs (s : State) (channel : Option Nat) (kind : Nat) : State :=
  let s := match channel with
    | some c => setF s Reg.PHS_STATE.last_cause c
    | none => s
  setF s Reg.PHS_STATE.last_kind kind

/-- Put a snapshot into slots 1 to 7: the oldest is overwritten once all are in use. -/
def pushSnapshot (s : State) (x : Snapshot) : State :=
  match s.phs.snapFirst with
  | none => { s with phs.snapFirst := some x }
  | some _ =>
    if s.phs.snapRest.length < 7 then { s with phs.snapRest := s.phs.snapRest ++ [x] }
    else { s with phs.snapRest := s.phs.snapRest.set s.phs.snapNext x, phs.snapNext := (s.phs.snapNext + 1) % 7 }

/-- Take a snapshot. -/
def takeSnapshot (s : State) (cause kind : Nat) : State :=
  pushSnapshot s {
    time := s.devTime, cause := cause, kind := kind, state := phsState s
    values := (List.range 24).map fun c =>
      (BitVec.ofNat 16 (getFi s Reg.PHS_MON_VAL.value c), flagI s Reg.PHS_MON_VAL.warn c, flagI s Reg.PHS_MON_VAL.fault c) }

/-! ### The option area (R514, R515) -/

/-- A copy of the option area is valid. -/
def optionValid (o : OptionArea) : Bool :=
  o.magicOk && o.crcOk && o.format = 1 && o.seq ≠ 0 && o.seq ≠ 0xFFFFFFFF && decide (1 ≤ o.maxCapacity) && decide (o.maxCapacity ≤ 1048576)

/-- A copy of the option area as the code store holds it. -/
def optionAt (s : State) (copy : Nat) : OptionArea := sget {} s.mgc.options copy

/-- A copy the boot ROM can use: valid, and no word of it reads uncorrectable (R503). -/
def optionUsable (s : State) (b : BootReport) (copy : Nat) : Bool := optionValid (optionAt s copy) && !b.badSlots.getLsbD (2 + copy)

/-- The copy in use: the higher seq, copy 0 when equal. -/
def chooseOption (s : State) (b : BootReport) : Option Nat :=
  match optionUsable s b 0, optionUsable s b 1 with
  | true, true => some (if (optionAt s 0).seq < (optionAt s 1).seq then 1 else 0)
  | true, false => some 0
  | false, true => some 1
  | false, false => none

/-- Load a word of the option area into a register, every field of it. -/
def loadReg (s : State) (addr idx : Nat) (v : Word) : State :=
  match regRow addr with
  | some d => setRegAt s addr idx (d.fields.foldl (fun w f => withField w f.lo f.width (fieldOf v f.lo f.width)) 0)
  | none => s

/-- A channel's four words; PHS_MON_CTL.digital stays as R484 gives it, and the filters count afresh (R498). -/
def loadChannel (s : State) (ch : Nat) (w : Word × Word × Word × Word) : State :=
  let s := writeBits s Reg.PHS_MON_CTL.enable.addr ch w.1 0
  let s := writeBits s Reg.PHS_MON_SCALE.gain_q10.addr ch w.2.1 0
  let s := writeBits s Reg.PHS_MON_WARN.warn_lo.addr ch w.2.2.1 0
  let s := writeBits s Reg.PHS_MON_FAULT.fault_lo.addr ch w.2.2.2 0
  { s with phs.senses := sput {} s.phs.senses ch {} }

/-- PHS's part of the option area. No reset but the removal of VDD_AON and no load but that of a power-up changes it (R474). -/
def loadPhs (s : State) (o : OptionArea) : State :=
  let s := ((List.range 24).zip o.channels).foldl (fun s e => loadChannel s e.1 e.2) s
  loadReg (loadReg s Reg.PHS_HOLDUP_CFG.eff_pct.addr 0 o.holdupCfg) Reg.PHS_HOLDUP_CFG2.flush_w.addr 0 o.holdupCfg2

/-- The two fields a management reset loads again. -/
def loadMgmt (s : State) (o : OptionArea) : State :=
  loadReg (loadReg s Reg.MGC_WDT_CFG.timeout_ms.addr 0 o.wdtCfg) Reg.MGC_SB_CFG.i3c_static.addr 0 o.sbCfg

/-- The fields of the data path. Counts outside their range act as R302 and R458 clamp them. -/
def loadData (s : State) (o : OptionArea) : State :=
  let s := putFlag (putFlag s Reg.FLK_TWIN_CFG.side o.sideB) Reg.FLK_TWIN_CFG.priority o.priority
  let s := { s with
    plots.maxCapacity := o.maxCapacity, plots.recordMib := o.recordGib * 1024, twin.optPriority := o.priority, hfp.memActiveTo := o.memActiveTo }
  let s := setF (setF s Reg.TMG_BUDGET_CFG.cfg_granules o.budget) Reg.TMG_TD_CFG.topdress_gib (max 16 (min 128 o.topdressGib))
  let s := loadReg s Reg.HFP_BOND.grp0.addr 0 (BitVec.ofNat 32 o.bond)
  let s := setF s Reg.LMC_SPEED_CTL.target o.speed
  let s := loadReg s Reg.BFC_IF_CFG.if_type.addr 0 (BitVec.ofNat 32 o.ifCfg)
  let s := { s with bfc.toggle := flag s Reg.BFC_IF_CFG.if_type }
  let s := loadReg s Reg.BFC_LAYOUT.strata_per_die.addr 0 (BitVec.ofNat 32 o.layout)
  let s := loadReg s Reg.BFC_LAYOUT2.meta_per_bed.addr 0 (BitVec.ofNat 32 o.layout2)
  let pool (s : State) (p units step : Nat) : State := setFi s Reg.BPM_POOL_CFG.count_units p (poolCount p units / step)
  pool (pool (pool s 0 o.silt 65536) 1 o.sand 65536) 2 o.gravel 4096

/-! ### Images (R517, R518) -/

/-- An image the boot ROM can run: valid, and no word of it reads uncorrectable. -/
def imageUsable (s : State) (b : BootReport) (bank : Nat) : Bool := (sget {} s.mgc.images bank).valid && !b.badSlots.getLsbD bank

/-- The boot count of a bank. -/
def bootCount (bank : Nat) : Field := if bank = 0 then Reg.MGC_BOOT_STS.count_a else Reg.MGC_BOOT_STS.count_b

/-- The bank to boot, and whether it is a fallback. -/
def chooseImage (s : State) (b : BootReport) : Option (Nat × Bool) :=
  match imageUsable s b 0, imageUsable s b 1 with
  | false, false => none
  | true, false => some (0, false)
  | false, true => some (1, false)
  | true, true =>
    let first := if (sget {} s.mgc.images 0).seq < (sget {} s.mgc.images 1).seq then 1 else 0
    if 3 ≤ getF s (bootCount first) then some (1 - first, true) else some (first, false)

/-- The boot ROM picks an image and starts the cores on it; with none it serves the sideband from ROM. -/
def bootImage (s : State) (b : BootReport) : State × Bool :=
  let bit (x : Bool) (n : Nat) : Nat := if x then n else 0
  let valid := bit (imageUsable s b 0) 1 + bit (imageUsable s b 1) 2 + bit (optionUsable s b 0) 4 + bit (optionUsable s b 1) 8
  let s := setF s Reg.MGC_BOOT_STS.valid valid
  match chooseImage s b with
  | none => (raise (setF s Reg.MGC_CORE_STS.running 0) 1504 .startHalt 0xFFF [3], false)
  | some (bank, fell) =>
    let s := incF (setF s Reg.MGC_BOOT_STS.bank bank) (bootCount bank)
    let s := if fell then raise (setFlag s Reg.MGC_BOOT_STS.fallback) 1504 .bootFallback 0xFFF [bank] else s
    let s := setF (setF s Reg.MGC_BOOT_SEQ.seq (sget {} s.mgc.images bank).seq) Reg.MGC_CORE_STS.running 0x3F
    (s, true)

/-- The option-area copy in use, noted in MGC_BOOT_STS. -/
def noteOption (s : State) (copy : Option Nat) : State :=
  match copy with
  | some c => setF (putFlag s Reg.MGC_BOOT_STS.no_option false) Reg.MGC_BOOT_STS.opt_copy c
  | none => setFlag s Reg.MGC_BOOT_STS.no_option

/-- The watchdog's timeout as it acts (R530). -/
def wdtTimeout (s : State) : Nat := max 100 (min 60000 (getF s Reg.MGC_WDT_CFG.timeout_ms))

/-- The watchdog starts a period with the timeout then set (R521, R531). -/
def restartWdt (s : State) : State :=
  putFlag { s with mgc.wdtAt := s.devTime, mgc.wdtMs := wdtTimeout s, mgc.wdtOn := flag s Reg.MGC_WDT_CFG.enable } Reg.MGC_WDT_STS.warned false

/-! ### The management reset (R512, R523, R555, R586) -/

/-- The sector an operation in progress is on. -/
def opSector (o : CsOp) : Nat :=
  let addr := fieldOf o.desc.w1 0 26
  let at_ := min o.done (fieldOf o.desc.w3 0 14 - 1)
  if fieldOf o.desc.w0 0 4 = 1 then addr / 4096 + at_ else (addr + 4 * at_) / 4096

/-- An operation is aborted: its sector is undefined (R512). -/
def abortOp (s : State) (o : Option CsOp) : State :=
  match o with
  | some o => { s with mgc.undefinedSectors := sput false s.mgc.undefinedSectors (opSector o) true }
  | none => s

/-- MGC's registers return to their reset values, but for the boot status, the reset counts and the wear (R586). -/
def resetMgcRegs (s : State) : State :=
  let keep (addr : Nat) : Bool :=
    addr = Reg.MGC_BOOT_STS.bank.addr || addr = Reg.MGC_RST_CAUSE.cause.addr || addr = Reg.MGC_CS_WEAR.max_cycles.addr ||
      addr = Reg.MGC_FUSE_STS.debug_closed.addr || addr = Reg.MGC_MCTP_STS.eid.addr
  { s with regs := sdrop s.regs fun k => k / 1048576 / 16777216 = 14 && !keep (k / 1048576) }

/-- What a management reset resets: the cores, the private SRAM, their code-store work, and the protocols' state. -/
def resetMgmt (s : State) : State :=
  let s := abortOp (abortOp s s.mgc.op) s.mgc.suspendedOp
  let s := resetMgcRegs s
  let s := { s with mgc := { s.mgc with
    sram := sdrop s.mgc.sram fun a => 0x111000000 ≤ a * 4 && a * 4 < 0x111200000
    queues := [], op := none, suspendedOp := none, lastNormal := 0, lastUrgent := 0, booted := false
    sessions := [], negotiated := false, reassembly := [], update := none } }
  setF (setF s Reg.MGC_SPDM_STS.sessions 0) Reg.MGC_MCTP_STS.msgs 0

/-- The boot ROM after a management reset: the images, and the two fields of the option area; the data path keeps its values. -/
def mgmtBoot (s : State) (b : BootReport) : State :=
  let copy := chooseOption s b
  let s := noteOption s copy
  let s := match copy with
    | some c => loadMgmt s (optionAt s c)
    | none => s
  restartWdt (bootImage s b).1

/-- A management reset under a cause of MGC_RST_CAUSE. While a kiln flush runs the boot ROM waits at its first step (R522). -/
def mgmtReset (s : State) (cause : Nat) (b : BootReport) : State :=
  let s := raise s 1504 .mgmtReset 0xFFF [cause]
  let s := setF (resetMgmt s) Reg.MGC_RST_CAUSE.cause cause
  if flushing s then s else mgmtBoot s b

/-! ### The die's boot (R455, R524, R556) -/

/-- CKU's known-answer tests: cores and pairs that fail leave service; a failed KDF or CMAC test, or a blank root key, stops the
start (R455, R557). -/
def selfTest (s : State) (b : BootReport) : State :=
  let s := ((List.range 16).filter fun i => b.badXts.getLsbD i).foldl coreOut s
  let s := ((List.range 24).filter fun i => b.badGcm.getLsbD i).foldl pairOut s
  let s := putFlag s Reg.CKU_STS.root_ok (!b.rootKeyBlank && !b.katFailed)
  if b.katFailed || b.rootKeyBlank then
    let s := setFlag (setFlag s Reg.CKU_STS.kat_fail) Reg.CKU_ERR.kat_fail
    haltStart (adviseReplace (raise s 1448 .katFail 0xFFF []) 8) 2
  else s

/-- The boot ROM reads the fuses (R524). -/
def readFuses (s : State) (b : BootReport) : State :=
  let s := putFlag (putFlag s Reg.MGC_FUSE_STS.debug_closed s.mgc.debugClosed) Reg.MGC_FUSE_STS.root_present (!b.rootKeyBlank)
  let s := putFlag s Reg.MGC_FUSE_STS.repair_map_valid b.mapValid
  if b.fuseErr then raise (setFlag s Reg.MGC_FUSE_STS.fuse_err) 1504 .fuseError 0xFFF [] else s

/-- Steps 4 and 5 of R556. Start-up halts under the first condition met; the images are booted in any case, for the sideband. -/
def dieBoot (s : State) (b : BootReport) (cold : Bool) : State :=
  let s := selfTest (readFuses (applyRepairs s) b) b
  let copy := chooseOption s b
  let s := noteOption s copy
  let s := match copy with
    | some c =>
      let o := optionAt s c
      let s := loadMgmt (loadData s o) o
      if cold then loadPhs s o else s
    | none => if stage s = stHalted then s else haltStart s 1
  let (s, ok) := bootImage s b
  let s := restartWdt s
  if stage s = stHalted then s
  else if !ok then setF (setStage s stHalted) Reg.GLB_START_STS.halt 3
  else setStage s stTraining

/-! ### What the removal of power from the die keeps (R474, R555) -/

/-- A register that a reset of the die keeps: PHS's; EVR's return to reset only when the next run begins (R586). -/
def survives (key : Nat) : Bool := key / 1048576 / 16777216 = 12 || key / 1048576 / 16777216 = 13

/-- A stratum as its cells hold it. -/
def stratumAtRest (x : Stratum) : Stratum := { x with reading := 0, erasing := false }

/-- A die as it stays: a failed one stays failed; quarantine and medians are BFC's own. -/
def dieAtRest (d : Die) : Die := { state := if d.state = 2 then 2 else 0 }

/-- A Bedrock channel as it stays: its remap table and its spares. -/
def channelAtRest (c : BedrockChannel) : BedrockChannel := { remap := c.remap, sparesUsed := c.sparesUsed }

/-- Map a sparse table's values, dropping those that become the default. -/
def smap {α : Type} [DecidableEq α] (d : α) (t : Sparse α) (f : α → α) : Sparse α := (t.map fun e => (e.1, f e.2)).filter fun e => decide (e.2 ≠ d)

/-- Power leaves the die: every block but PHS is reset, and what Bedrock, the code store and the fuses hold stays. The levels
of input pins are not the die's. -/
def dieOff (s : State) : State :=
  let s := abortOp (abortOp s s.mgc.op) s.mgc.suspendedOp
  let t : State := {
    phs := s.phs
    evr := s.evr
    regs := s.regs.filter fun e => survives e.1
    glb := { journal := s.glb.journal, journalSeq := s.glb.journalSeq, ckptDone := s.glb.ckptDone, ckptValid := s.glb.ckptValid, kiln := s.glb.kiln }
    hfp := { links := smap {} s.hfp.links fun l => { perst := l.perst }, dirtyShutdowns := s.hfp.dirtyShutdowns }
    lmc := { repairs := s.lmc.repairs }
    diu := { sramRepairs := s.diu.sramRepairs }
    bfc := { strata := smap {} s.bfc.strata stratumAtRest, base := s.bfc.base, channels := smap {} s.bfc.channels channelAtRest,
             dies := smap {} s.bfc.dies dieAtRest, marksRead := s.bfc.marksRead }
    mgc := { store := s.mgc.store, undefinedSectors := s.mgc.undefinedSectors, wear := s.mgc.wear,
             images := s.mgc.images, options := s.mgc.options, debugClosed := s.mgc.debugClosed }
    pairPend := s.pairPend.filter fun e => survives e.1
    pending := s.pending
    out := s.out
    freeCount := s.freeCount
    devTime := s.devTime }
  let t := { t with phs.dieReset := true, phs.capTest := none }
  let t := putFlag (setF t Reg.FLK_TWIN_STS.alive_in (aliveIn s)) Reg.FLK_TWIN_STS.fence_in (fenceIn s)
  setF t Reg.PHS_HOLDUP_CAP.test_busy 0

/-- The on-die reset is released: the recorder begins a new power-up, the clocks lock, and the boot ROM runs (R556 steps 3 to 5). -/
def coldBoot (s : State) (b : BootReport) : State :=
  let s := { s with
    evr := { history := s.evr.history, crashAreas := s.evr.crashAreas, nextSegment := s.evr.nextSegment, nextBlock := s.evr.nextBlock }
    regs := sdrop s.regs fun k => k / 1048576 / 16777216 = 13
    phs.dieReset := false
    glb.runningAt := s.devTime }
  let s := setF (setF (setF s Reg.GLB_CLK_STS.root_lock 1) Reg.GLB_CLK_STS.ddr_lock 0xFFFF) Reg.GLB_CLK_STS.host_sd_lock 0xF
  let s := setF (setF s Reg.GLB_CLK_STS.twin_sd_lock 3) Reg.GLB_CLK_STS.chain_sd_lock 3
  let s := setFlag (setFlag s Reg.GLB_CLK_STS.refclk_a_ok) Reg.GLB_CLK_STS.refclk_b_ok
  dieBoot s b true

end Sys2Proof.Machine
end

