-- ==== Sys2Proof/Machine/Power.lean ====
section
/-! DEFINITION. Meanings of PHS's commands (15): power sequencing, sense channels, the hold-up store, and the kiln flush. -/

namespace Sys2Proof.Machine

/-! ### The kiln image (R492 to R494, R571) -/

/-- Dirty clods in clod order: the order of the walk. -/
def dirtyWalk (s : State) : List Nat := sortAsc (chargedClods s)

/-- What a clod's frame holds of one dirty grain: poisoned lines and lines that the overlay does not hold are zeros. -/
def grainLines (s : State) (clod grain : Nat) : ClodImage :=
  (List.range 64).filterMap fun i =>
    let line := clod * 1024 + grain * 64 + i
    match placeOf s line with
    | .loam lpa =>
      let v := loamAt s lpa
      if v.poison || v.data = 0 then none else some (grain * 64 + i, v)
    | _ => none

/-- The generation of the plot a clod lies in. -/
def clodGeneration (s : State) (clod : Nat) : Nat :=
  match plotOfClod s clod with
  | some p => (plotRec s p).generation
  | none => 0

/-- The sections of one clod: its dirty grains, and its overlay's map. -/
def clodSections (s : State) (clod : Nat) : List KilnSection :=
  let grains := sortAsc ((s.pou.dirty.filter fun e => e.1 / 16 = clod).map fun e => e.1 % 16)
  let e := entryOf s clod
  (grains.map fun g => KilnSection.data clod g (clodGeneration s clod) (grainLines s clod g)) ++
    (if e.tier = 3 then [KilnSection.overlayMap clod (clodGeneration s clod) (overlayOf s e.overlay).valid] else [])

/-- The state sections and the change map. -/
def stateSections (s : State) : List KilnSection :=
  [.plotChange (s.twin.plotChange.map (·.1)), .poisonList s.diu.poison, .changeMap (s.twin.changeMap.map (·.1))]

/-- Clods that the walk deals to a bed: the kth dirty clod goes to bed k mod 4. -/
def bedShare (walk : List Nat) (bed : Nat) : List Nat :=
  (((List.range walk.length).zip walk).filter fun e => e.1 % 4 = bed).map (·.2)

/-- Grains that the state sections, the change map and the overlay maps fill. -/
def sectionGrains (s : State) (clods : List Nat) : Nat :=
  let state := (512 + 8 * s.diu.poison.length + 4095) / 4096
  let maps := ((s.twin.changeMap.map fun e => e.1 / 32768).eraseDups).length
  let overlays := (clods.filter fun c => (entryOf s c).tier = 3).length
  state + maps + (overlays + 29) / 30

/-- Dirty grains of some clods. -/
def grainsOf (s : State) (clods : List Nat) : Nat := (s.pou.dirty.filter fun e => clods.contains (e.1 / 16)).length

/-- What a flush has sealed: whether the state sections are complete, how many of them are, and the clods of each bed. -/
structure FlushProgress where
  sections : Nat
  share : List (List Nat)
  deriving DecidableEq, Repr

/-- Everything is sealed. -/
def allSealed (s : State) : FlushProgress :=
  { sections := (stateSections s).length, share := (List.range 4).map (bedShare (dirtyWalk s)) }

/-- How far a flush that stops has come: the rules do not say, so free values do. Each bed programs its share in clod order, after
the sections. -/
def someSealed (s : State) : FlushProgress × State :=
  let (w, s) := takeFree s
  let n := w.toNat % ((stateSections s).length + 1)
  (List.range 4).foldl (fun (acc : FlushProgress × State) bed =>
    let (p, s) := acc
    let mine := bedShare (dirtyWalk s) bed
    let (w, s) := takeFree s
    ({ p with share := p.share ++ [if n < (stateSections s).length then [] else mine.take (w.toNat % (mine.length + 1))] }, s))
    ({ sections := n, share := [] }, s)

/-- The 64-bit number the next image takes. -/
def imageNumber (s : State) : Nat :=
  getF s Reg.PHS_KILN_IMG_LO.img_lo + getF s Reg.PHS_KILN_IMG_HI.img_hi * 4294967296

/-- The next image takes the next number (R495). -/
def bumpImage (s : State) : State :=
  let n := (imageNumber s + 1) % 2 ^ 64
  setF (setF s Reg.PHS_KILN_IMG_LO.img_lo (n % 4294967296)) Reg.PHS_KILN_IMG_HI.img_hi (n / 4294967296)

/-- Section grains of a bed: the rules do not deal them, so the model deals them to the beds in turn (DESIGN CHOICE). -/
def bedSections (total bed : Nat) : Nat := total / 4 + if bed < total % 4 then 1 else 0

/-- The closing grain of a bed. -/
def closingGrain (s : State) (p : FlushProgress) (complete : Bool) (bed : Nat) : ClosingGrain :=
  let mine := p.share.getD bed []
  let walked := (p.share.flatten).foldl max 0
  { image := imageNumber s, startTime := s.phs.flushStart.getD 0, closeTime := s.devTime, cause := s.phs.flushCause, complete := complete, bed := bed
    side := sideB s, mode := twinMode s, epoch := epoch s, lastClod := mine.getLast?, dataGrains := grainsOf s mine
    sectionGrains := bedSections (sectionGrains s p.share.flatten) bed
    walk := if complete then s.plots.maxCapacity * 4096 else if p.share.flatten.isEmpty then 0 else walked + 1
    mediaTime := mediaTime s }

/-- The start of an incomplete image's lost range: above the lowest of the beds' last sealed clods (R494). -/
def lostStart (p : FlushProgress) : Nat :=
  match p.share.map List.getLast? with
  | [some a, some b, some c, some d] => min (min a b) (min c d) + 1
  | _ => 0

/-- The image that stands in the kiln strata. -/
def kilnImage (s : State) (p : FlushProgress) (complete closing : Bool) : KilnImage :=
  { sections := (stateSections s).take p.sections ++ (sortAsc p.share.flatten).flatMap (clodSections s)
    closing := if closing then (List.range 4).map (closingGrain s p complete) else []
    lost := if complete then none else some (lostStart p) }

/-- The kiln strata of a bed that hold a number of grains, in row order (R274). -/
def fillKiln (s : State) (bed grains : Nat) : State :=
  let cap := max 1 (rowsOf s true * 20)
  let usable := ((List.range (kilnPerBed s)).map (stratumNo s)).filter fun k => (stratumAt s bed k).state ≠ .retired
  (usable.take ((grains + cap - 1) / cap)).foldl (fun s k =>
    updStratum s bed k fun x => { x with state := .sealed, slc := true, gen := x.gen + 1, sealTime := mediaTime s }) s

/-- The image takes its place in the kiln strata. -/
def storeImage (s : State) (p : FlushProgress) (complete closing : Bool) : State :=
  let s := { s with glb.kiln := some (kilnImage s p complete closing) }
  (List.range 4).foldl (fun s bed =>
    let mine := p.share.getD bed []
    fillKiln s bed (grainsOf s mine + bedSections (sectionGrains s p.share.flatten) bed + if closing then 1 else 0)) s

/-- The record of the flush in PHS_KILN_STS. -/
def endFlush (s : State) (result : Nat) : State :=
  let ms := (s.devTime - s.phs.flushStart.getD 0) / 1000000
  let s := setF (setF s Reg.PHS_KILN_STS.last_result result) Reg.PHS_KILN_STS.last_ms (min ms 0xFFFF)
  let s := setF (putFlag s Reg.PHS_KILN_STS.flushing false) Reg.PHS_KILN_STS.last_cause s.phs.flushCause
  let s := if result = 1 then s else setFlag s Reg.PHS_ERR.kiln_incomplete
  bumpImage { s with phs.flushStart := none }

/-! ### Power-down (R475, R479, R480, R496) -/

/-- An output of PHS_RST_CFG that is asserted by software. -/
def swAsserted (s : State) (o : Nat) : Bool := decide (8 ≤ o) && decide (o < 12) && flagI s Reg.PHS_RST_CFG.sw_assert o

/-- Assert a reset output; its stretch runs no longer. -/
def assertOutput (s : State) (o : Nat) : State :=
  setFlagI { s with phs.stretching := s.phs.stretching.filter fun x => x ≠ o } Reg.PHS_RST_CFG.asserted o

/-- A crash flush that has not ended is cut: how many records stand there the rules do not say, and the sector of the word in
progress is undefined (R545, R512). -/
def cutCrash (s : State) : State :=
  match s.evr.crash with
  | none => s
  | some a =>
    let (w, s) := takeFree s
    let n := w.toNat % (a.records.length + 1)
    let (v, s) := takeFree s
    let sector := (if a.bank then 8192 else 0) + 7232 + v.toNat % 256
    let s := { s with
      evr.crash := none
      evr.crashAreas := (s.evr.crashAreas.filter fun x => x.bank ≠ a.bank) ++ [{ a with records := a.records.take n, ended := false }]
      mgc.undefinedSectors := sput false s.mgc.undefinedSectors sector true }
    let s := setF (putFlag s Reg.EVR_CRASH_STS.flushing false) Reg.EVR_CRASH_STS.last_result 2
    setFlag (setF s Reg.EVR_CRASH_STS.written (min n 0xFFFF)) Reg.EVR_ERR.crash_cut

/-- A rail of the down order that a sequence need not wait for: it has failed (R496). -/
def railFailed (s : State) (k : Nat) : Bool := getF s Reg.PHS_RAIL_STS.failed / 2 ^ (k + 1) % 2 = 1

/-- Clear one of the seven bits. -/
def bitOff (v : BitVec 7) (k : Nat) : BitVec 7 := v &&& ~~~(1#7 <<< k)

/-- Set one of the seven bits. -/
def bitOn (v : BitVec 7) (k : Nat) : BitVec 7 := v ||| (1#7 <<< k)

/-- Switch the next rails off, from up-order number n − 1 down: failed ones are not waited for; with none left, OFF_HOLD. -/
def downFrom (s : State) : Nat → State
  | 0 => setPhs { s with phs.step := none } phsHold
  | n + 1 =>
    if !s.phs.enables.getLsbD n then downFrom s n
    else
      let s := { s with phs.enables := bitOff s.phs.enables n }
      if railFailed s n then downFrom { s with phs.railsUp := bitOff s.phs.railsUp n } n
      else { s with phs.step := some (Fin.ofNat 7 n) }

/-- POWERING_DOWN begins: the die and every output are reset, then the rails go off in order. -/
def powerDown (s : State) : State :=
  let s := cutCrash s
  let s := (List.range 12).foldl assertOutput (dieOff s)
  let s := putFlag (putFlag s Reg.PHS_KILN_STS.armed false) Reg.PHS_KILN_CTL.arm false
  downFrom (setPhs { s with phs.turnBack := none, phs.flushStart := none } phsDown) 7

/-! ### The flush (R491, R492, R496) -/

/-- Clods of the retained frames that the twin has not acknowledged (R571). -/
def retainedClods (s : State) : List Nat :=
  ((s.twin.retained.filter fun r => !r.acked).flatMap fun r => (linesOf s 0 r.body).map fun l => clodOf l.2.2).eraseDups

/-- Write every dirty front-cache and victim line back to Loam (R492 step 3); one with bad parity is poisoned (R203). -/
def flushCache (s : State) : State :=
  let s := s.fcd.ways.foldl (fun s e =>
    if e.2.state ≠ 2 then s
    else if e.2.badChunks ≠ 0 then writeBack (enterPoison s e.2.line 4 false) e.2.line 0x31C poisonLine
    else writeBack s e.2.line 0x31C { data := e.2.data, poison := e.2.poison }) s
  let s := s.fcd.victims.foldl (fun s v => writeBack s v.line 0x31C v.val) s
  { s with
    fcd.ways := s.fcd.ways.map fun e => if e.2.state = 2 then (e.1, { e.2 with state := 1 }) else e
    fcd.victims := [] }

/-- BFC drops what is not kiln traffic and resets busy dies; strata stay as they were programmed (R275). -/
def dropBedrockWork (s : State) : State :=
  { s with
    bfc.reads := [], bfc.units := [], bfc.fetches := [], bfc.serves := []
    bfc.dies := smap {} s.bfc.dies fun d => { d with queue := [], busy := none, held := none }
    bfc.strata := smap {} s.bfc.strata stratumAtRest }

/-- POU orders nothing further, and movement, repairs and journal stop (R492 steps 2 and 3, R325, R417). -/
def dropWork (s : State) : State :=
  { s with
    pou.writes := [], pou.reads := [], pou.fwdWrites := [], pou.fwdReads := [], pou.gpfs := []
    fcd.fills := [], fcd.installs := [], fcd.maint := [], fcd.dirNext := [], fcd.snoops := [], fcd.conflicts := []
    tmg.lifts := [], tmg.liftWaits := [], tmg.liftHints := [], tmg.settleHints := [], tmg.pinWaits := [], tmg.queue := [], tmg.settles := []
    diu.merges := [], diu.repairs := [], diu.scrubQueue := []
    glb.packing := [], glb.journalUnits := []
    chain.reqs := [], chain.waiting := [] }

/-- The crash flush begins, if the area is ready (R545): the cause is recorded first, and the records go newest first. -/
def startCrash (s : State) (channel : Option Nat) : State :=
  let s := match channel with
    | some _ => s
    | none => raise s 1280 .powerCause 0xFFF [getF s Reg.PHS_STATE.last_kind]
  if flag s Reg.EVR_CRASH_STS.ready then
    let unsettled := (s.evr.ring.filter fun r => !r.settled && r.rtype ≠ .pad).reverse
    let s := putFlag (putFlag s Reg.EVR_CRASH_STS.ready false) Reg.EVR_CRASH_CTL.ready false
    let s := setFlag s Reg.EVR_CRASH_STS.flushing
    { s with evr.crash := some {
        bank := getF s Reg.MGC_BOOT_STS.bank = 0, boot := regAt s Reg.EVR_BOOT_NUM.boot_num.addr 0, start := s.devTime, cause := s.phs.flushCause
        firstSeq := (unsettled.head?.map (·.seq)).getD 0, records := unsettled, ended := false } }
  else setFlag (setF s Reg.EVR_CRASH_STS.last_result 3) Reg.EVR_ERR.crash_not_ready

/-- Every link of a side goes down with its SerDes rails. -/
def dropLinks (s : State) : State :=
  let s := (List.range 16).foldl (fun s p => if linkUp s p then linkDown s p else s) s
  let s := (List.range 8).foldl (fun s p =>
    let s := setF (setF s (fieldAt Reg.FLK_TP_STS.up (p * 0x100)) 0) (fieldAt Reg.FLK_TP_STS.lanes (p * 0x100)) 0
    setF (setF s (fieldAt Reg.FLK_CP_STS.up (p * 0x100)) 0) (fieldAt Reg.FLK_CP_STS.lanes (p * 0x100)) 0) s
  setF (setF s Reg.FLK_TWIN_STS.ports_up 0) Reg.FLK_CHAIN_STS.ports_up 0

/-- FLUSHING begins. The cause channel of a request has no rule: a free value. -/
def enterFlush (s : State) (channel : Option Nat) : State :=
  let (cause, s) := match channel with
    | some c => (c, s)
    | none => let (w, s) := takeFree s; (w.toNat % 32, s)
  let s := dropLinks s
  let s := setPhs { s with phs.flushStart := some s.devTime, phs.flushCause := cause, phs.capTest := none } phsFlushing
  let s := startCrash (setFlag (setFlag s Reg.PHS_KILN_STS.flushing) Reg.BFC_KILN_STS.flushing) channel
  let s := [8, 9, 10].foldl assertOutput (putFlag s Reg.PHS_HOLDUP_CAP.test_busy false)
  let s := { s with
    phs.enables := bitOff (bitOff s.phs.enables 3) 2, phs.railsUp := bitOff (bitOff s.phs.railsUp 3) 2, twin.aliveOut := 0 }
  let s := (retainedClods s).foldl (fun s c => { s with twin.changeMap := sput false s.twin.changeMap c true }) (endLease s)
  flushCache (dropBedrockWork (dropWork s))

/-- What ends a run: with the flush armed the flush runs first; otherwise power-down, and the flush's result reads not armed (R491). -/
def stopRun (s : State) (channel : Option Nat) (kind : Nat) : State :=
  let s := notePhs s channel kind
  if armed s then enterFlush s channel else powerDown (setF s Reg.PHS_KILN_STS.last_result 3)

/-- The flush has closed every bed (R494). -/
def flushDone (s : State) : State :=
  let s := storeImage s (allSealed s) true true
  powerDown (endFlush (setF s Reg.BFC_KILN_STS.last_complete 1) 1)

/-- The flush stops at once (R496): closing grains are written where the rails that need to still hold. -/
def flushStops (s : State) (channel : Nat) (closing : Bool) : State :=
  let s := takeSnapshot s channel 3
  let (p, s) := someSealed s
  powerDown (endFlush (setF (storeImage s p false closing) Reg.BFC_KILN_STS.last_complete 0) 2)

/-! ### Power-up (R476 to R481, R616) -/

/-- A step fails: a snapshot, the failure latched, and power-down from the step backwards. -/
def failStep (s : State) (k kind : Nat) (err : Field) : State :=
  let s := setFlag (setFlag (takeSnapshot s (k + 1) kind) err) Reg.PHS_STATE.fail_latched
  powerDown (notePhs s (some (k + 1)) (if kind = 1 then 3 else 2))

/-- Begin the step of a rail: its power-good input must be low before it is enabled (R616). -/
def startStep (s : State) (k : Nat) : State :=
  if s.phs.pg.getLsbD k then failStep s k 0 Reg.PHS_ERR.rail_fault
  else { s with phs.enables := bitOn s.phs.enables k, phs.step := some (Fin.ofNat 7 k) }

/-- What lets PHS leave OFF (R475, R478). -/
def mayPowerUp (s : State) : Bool :=
  s.phs.running && phsState s = phsOff && flag s Reg.PHS_STATE.pwr_req && !flag s Reg.PHS_STATE.fail_latched && !s.phs.stayOff &&
    decide (100 ≤ s.phs.v12Run)

/-- Power up, if PHS may. -/
def tryPowerUp (s : State) : State :=
  if !mayPowerUp s then s
  else
    let s := setRegAt (setF s Reg.PHS_RAIL_STS.failed 0) Reg.PHS_BUDGET_PUB.pub_mib.addr 0 0
    startStep (setPhs (setF s Reg.PHS_HOLDUP_CAP.valid 0) phsUp) 0

/-- PWR_REQ has been low long enough to clear a latched failure. -/
def lowLongEnough (s : State) : Bool := decide (s.phs.lowSince + 1000000 ≤ s.devTime)

/-- An off request in the state PHS is in. -/
def offRequest (s : State) (kind : Nat) : State :=
  if phsState s = phsUp then { s with phs.turnBack := some (32, kind) }
  else if phsState s = phsRunning then stopRun s none kind
  else s

/-- PWR_REQ_CHANGE: the level of PWR_REQ; `v12Good` says that V12_IN has stood above its warning-low threshold for 1 ms. -/
def doPwrReqChange (high v12Good : Bool) (s : State) : State :=
  let s := if v12Good then { s with phs.v12Run := 100 } else s
  if flag s Reg.PHS_STATE.pwr_req = high then tryPowerUp s
  else if high then
    let s := if lowLongEnough s then putFlag s Reg.PHS_STATE.fail_latched false else s
    tryPowerUp (putFlag { s with phs.stayOff := false } Reg.PHS_STATE.pwr_req true)
  else offRequest (putFlag { s with phs.lowSince := s.devTime, phs.stayOff := false } Reg.PHS_STATE.pwr_req false) 1

/-- OFF_REQUEST: a write of off_req. With PWR_REQ high PHS stays off until it rises again (DEDUCED). -/
def doOffRequest (who : Accessor) (s : State) : State :=
  setupWrite s who Reg.PHS_PWR_CTL.off_req.addr
    (if phsState s = phsOff || phsState s = phsHold then s
     else offRequest { s with phs.stayOff := flag s Reg.PHS_STATE.pwr_req } 1)

/-- CYCLE_REQUEST: as an off request; at the end of OFF_HOLD power-up follows if PWR_REQ is high. -/
def doCycleRequest (who : Accessor) (s : State) : State := setupWrite s who Reg.PHS_PWR_CTL.cycle_req.addr (offRequest s 4)

/-- FLUSH_NOW (R491): it is a cause in RUNNING. -/
def doFlushNow (who : Accessor) (s : State) : State :=
  setupWrite s who Reg.PHS_KILN_CTL.flush_now.addr (if phsState s = phsRunning then stopRun s none 5 else s)

/-- The last step has passed: RUNNING, the die's reset is released, and the outputs' stretches run (R477, R482). -/
def enterRunning (s : State) (b : BootReport) : State :=
  coldBoot (setPhs { s with phs.step := none, phs.stretching := List.range 12 } phsRunning) b

/-- Power-up turns back: the step in progress has ended (R480). -/
def turnBack (s : State) (t : Nat × Nat) : State := powerDown (notePhs s (if t.1 < 32 then some t.1 else none) t.2)

/-- RAIL_STEP_PASS: a rail is good, and step_ms has passed. -/
def doRailStepPass (b : BootReport) (s : State) : State :=
  match s.phs.step with
  | some k =>
    if phsState s ≠ phsUp then s
    else
      let s := { s with phs.railsUp := bitOn s.phs.railsUp k.val, phs.pg := bitOn s.phs.pg k.val, phs.step := none }
      match s.phs.turnBack with
      | some t => turnBack s t
      | none => if k.val = 6 then enterRunning s b else startStep s (k.val + 1)
  | none => s

/-- PG_TIMEOUT: a step has not passed in time (R478). -/
def doPgTimeout (s : State) : State :=
  match s.phs.step with
  | some k => if phsState s ≠ phsUp then s else failStep s k.val 1 Reg.PHS_ERR.pg_timeout
  | none => s

/-- RAIL_FALL_STEP: a rail has fallen, and step_ms has passed (R479). -/
def doRailFallStep (s : State) : State :=
  match s.phs.step with
  | some k =>
    if phsState s ≠ phsDown then s
    else downFrom { s with phs.step := none, phs.railsUp := bitOff s.phs.railsUp k.val, phs.pg := bitOff s.phs.pg k.val } k.val
  | none => s

/-- Mark a rail failed, by its sense channel. -/
def markFailed (s : State) (ch : Nat) : State :=
  let v := getF s Reg.PHS_RAIL_STS.failed
  if v / 2 ^ ch % 2 = 1 then s else setF s Reg.PHS_RAIL_STS.failed (v + 2 ^ ch)

/-- OFF_TIMEOUT: a rail has not fallen in time (R496). -/
def doOffTimeout (s : State) : State :=
  match s.phs.step with
  | some k =>
    if phsState s ≠ phsDown then s
    else
      let s := markFailed (setFlag (takeSnapshot s (k.val + 1) 2) Reg.PHS_ERR.off_timeout) (k.val + 1)
      downFrom { s with phs.step := none, phs.railsUp := bitOff s.phs.railsUp k.val } k.val
  | none => s

/-- OFF_HOLD_END: min_off has passed (R479, R481). -/
def doOffHoldEnd (s : State) : State := if phsState s ≠ phsHold then s else tryPowerUp (setPhs s phsOff)

/-! ### Reset outputs (R482) -/

/-- RESET_STRETCH_EXPIRY: an output deasserts, unless software holds it. -/
def doResetStretchExpiry (output : Fin 12) (s : State) : State :=
  if !s.phs.stretching.contains output.val then s
  else
    let s := { s with phs.stretching := s.phs.stretching.filter fun x => x ≠ output.val }
    if swAsserted s output.val then s else putFlagI s Reg.PHS_RST_CFG.asserted output.val false

/-- RESET_SW_ASSERT: a write of PHS_RST_CFG for the selected output; sw_assert acts on outputs 8 to 11, and after its return to 0
the stretch runs. -/
def doResetSwAssert (who : Accessor) (value : Word) (s : State) : State :=
  let o := selOf s who Reg.PHS_RST_SEL.output
  setupWrite s who Reg.PHS_RST_CFG.sw_assert.addr
    (if 12 ≤ o then s
     else
       let was := swAsserted s o
       let s := writeBits s Reg.PHS_RST_CFG.sw_assert.addr o value 0
       if swAsserted s o then assertOutput s o
       else if was && phsState s = phsRunning then { s with phs.stretching := s.phs.stretching ++ [o] }
       else s)

/-! ### Sense channels (R483 to R485, R496) -/

/-- A channel's pin is on the die: the rails (R484). -/
def onDie (ch : Nat) : Bool := decide (ch ≤ 8)

/-- A channel's reading: scaled in its unit; negative values of unsigned channels read 0. Fractions are dropped downwards. -/
def reading (s : State) (ch : Nat) (raw : BitVec 16) : BitVec 16 :=
  if flagI s Reg.PHS_MON_CTL.digital ch then (if raw = 0 then 0 else 1)
  else
    let pin : Int := if onDie ch then raw.toNat else min raw.toNat 1200
    let v : Int := (pin - (getFi s Reg.PHS_MON_SCALE.offset_mv ch : Int)) * (getFi s Reg.PHS_MON_SCALE.gain_q10 ch : Int) / 1024
    if ch = 11 then BitVec.ofInt 16 (max (-32768) (min 32767 v)) else BitVec.ofInt 16 (max 0 (min 65535 v))

/-- A reading lies outside two thresholds; channel 11 is signed. -/
def outside (ch : Nat) (v : BitVec 16) (lo hi : Nat) : Bool :=
  if ch = 11 then decide (v.toInt < (BitVec.ofNat 16 lo).toInt) || decide ((BitVec.ofNat 16 hi).toInt < v.toInt)
  else decide (v.toNat < lo) || decide (hi < v.toNat)

/-- The sense channel of an on-chip rail that PHS switches: 1 to 7, up order one less. -/
def switchedRail (ch : Nat) : Bool := decide (1 ≤ ch) && decide (ch ≤ 7)

/-- A rail that is running: its step has passed, and it has not been switched off. -/
def railRunning (s : State) (ch : Nat) : Bool := !switchedRail ch || (s.phs.railsUp.getLsbD (ch - 1) && s.phs.enables.getLsbD (ch - 1))

/-- A sample that counts toward a fault: out of range, or a low power-good input of a rail that is running (R483, R485). -/
def faultSample (s : State) (ch : Nat) (v : BitVec 16) : Bool :=
  railRunning s ch &&
    (outside ch v (getFi s Reg.PHS_MON_FAULT.fault_lo ch) (getFi s Reg.PHS_MON_FAULT.fault_hi ch) ||
     (switchedRail ch && !s.phs.pg.getLsbD (ch - 1)))

/-- A filter's count as it acts (R497). -/
def filterOf (s : State) (f : Field) (ch : Nat) : Nat := max 1 (getFi s f ch)

/-- Take one channel's sample: its reading, its filters, and what it now holds. -/
def sampleChannel (s : State) (ch : Nat) (raw : BitVec 16) : State :=
  if !flagI s Reg.PHS_MON_CTL.enable ch then s
  else
    let v := reading s ch raw
    let x := sget {} s.phs.senses ch
    let warn := outside ch v (getFi s Reg.PHS_MON_WARN.warn_lo ch) (getFi s Reg.PHS_MON_WARN.warn_hi ch)
    let x := { x with
      warnRun := if warn then min 15 (x.warnRun + 1) else 0
      faultRun := if faultSample s ch v then min 15 (x.faultRun + 1) else 0 }
    let s := setFi { s with phs.senses := sput {} s.phs.senses ch x } Reg.PHS_MON_VAL.value ch v.toNat
    putFlagI (putFlagI s Reg.PHS_MON_VAL.warn ch (decide (filterOf s Reg.PHS_MON_CTL.warn_filter ch ≤ x.warnRun)))
      Reg.PHS_MON_VAL.fault ch (decide (filterOf s Reg.PHS_MON_CTL.fault_filter ch ≤ x.faultRun))

/-- A reading by channel. -/
def senseValue (s : State) (ch : Nat) : Nat := getFi s Reg.PHS_MON_VAL.value ch

/-- Set a channel's bit of PHS_WARN_FLAGS or PHS_FAULT_FLAGS. -/
def setSenseFlag (s : State) (f : Field) (ch : Nat) : State :=
  let v := getF s f
  if v / 2 ^ ch % 2 = 1 then s else setF s f (v + 2 ^ ch)

/-- A warning begins to hold (R485). -/
def senseWarns (s : State) (ch : Nat) : State := raise (setSenseFlag s Reg.PHS_WARN_FLAGS.warn ch) (1472 + ch) .senseWarn 0xFFF [ch, senseValue s ch]

/-- Channels whose fault stops a flush (R496); HOLDUP_V stops it when it reads below vmin. -/
def stopsFlush (ch : Nat) : Bool := [1, 2, 5, 6, 12, 13, 14, 15, 16, 17].contains ch

/-- Channels that closing grains need. -/
def closingNeeds (ch : Nat) : Bool := [1, 2, 6, 14, 15, 16, 17].contains ch

/-- Closing grains can be written: VCCQ_BD, VDD_CORE, VDD_SRAM and every NAND_VCC hold. -/
def mayClose (s : State) : Bool := (List.range 24).all fun c => !(closingNeeds c && flagI s Reg.PHS_MON_VAL.fault c)

/-- A V12_IN fault low: a power failure (R485). -/
def powerFails (s : State) (ch : Nat) : Bool := decide (ch = 9) && decide (senseValue s 9 < getFi s Reg.PHS_MON_FAULT.fault_lo 9)

/-- What a fault does by its action and PHS's state (R475, R480, R485, R496). A power failure is a cause of its own, whatever the channel's
action (R475, R491); DESIGN CHOICE: with action 2 set for it, that is taken. -/
def faultActs (s : State) (ch : Nat) : State :=
  let set_ := min 2 (getFi s Reg.PHS_MON_CTL.action ch)
  let action := if powerFails s ch then max 1 set_ else set_
  let st := phsState s
  if st = phsRunning then
    if action = 0 then s else if action = 1 then stopRun s (some ch) 2 else powerDown (notePhs s (some ch) 2)
  else if st = phsUp then (if action = 0 then s else { s with phs.turnBack := some (ch, 2) })
  else if st = phsFlushing then
    let s := if ch ≤ 8 then markFailed s ch else s
    if stopsFlush ch then flushStops s ch (mayClose s) else s
  else if st = phsDown && ch ≤ 8 then markFailed s ch
  else s

/-- A fault begins to hold (R485): the flag, a snapshot, the event, the error flags, then its action. -/
def senseFaults (s : State) (ch : Nat) : State :=
  let s := takeSnapshot (setSenseFlag s Reg.PHS_FAULT_FLAGS.fault ch) ch 0
  let s := raise s (1472 + ch) .senseFault 0xFFF [ch, senseValue s ch]
  let s := if ch ≤ 8 then setFlag s Reg.PHS_ERR.rail_fault else s
  let s := if ch = 8 then setFlag s Reg.PHS_ERR.vpp_present else s
  let s := if powerFails s ch then
      putFlag (setFlag { s with phs.capTest := none } Reg.PHS_ERR.power_fail) Reg.PHS_HOLDUP_CAP.test_busy false
    else s
  faultActs s ch

/-- Warnings and faults that hold now and did not hold before. -/
def newlyHeld (s t : State) (f : Field) : List Nat := (List.range 24).filter fun c => flagI t f c && !flagI s f c

/-- Average of a list. -/
def average (l : List Nat) : Nat := if l.length = 0 then 0 else l.foldl (· + ·) 0 / l.length

/-- The store voltage: the 1 ms average of HOLDUP_V, in 10 mV (R487). -/
def storeVoltage (s : State) : Nat := average s.phs.holdup

/-- SENSE_SAMPLE: all 24 channels are sampled; what newly holds is reported in channel order, all of it as of this sample. -/
def doSenseSample (values : List (BitVec 16)) (pg : BitVec 7) (s : State) : State :=
  if !s.phs.running then s
  else
    let t := ((List.range 24).zip values).foldl (fun s e => sampleChannel s e.1 e.2) { s with phs.pg := pg }
    let good := decide (getFi t Reg.PHS_MON_WARN.warn_lo 9 < senseValue t 9)
    let t := { t with
      phs.v12Run := if good then min 100 (t.phs.v12Run + 1) else 0
      phs.holdup := (senseValue t 10 :: t.phs.holdup).take 100 }
    let warns := newlyHeld s t Reg.PHS_MON_VAL.warn
    let faults := newlyHeld s t Reg.PHS_MON_VAL.fault
    let t := faults.foldl senseFaults (warns.foldl senseWarns t)
    let t := if phsState t = phsFlushing && decide (senseValue t 10 < getF t Reg.PHS_HOLDUP_CFG2.vmin_10mv) then flushStops t 10 (mayClose t) else t
    tryPowerUp t

/-! ### The hold-up store (R487 to R489) -/

/-- CAP_TEST_START: the test load is connected. -/
def doCapTestStart (s : State) : State :=
  if phsState s ≠ phsRunning || senseValue s 19 = 0 || s.phs.capTest.isSome then s
  else setFlag { s with phs.capTest := some { vStart := storeVoltage s } } Reg.PHS_HOLDUP_CAP.test_busy

/-- The capacitance in mF from the charge in mC and the fall in 10 mV. -/
def measuredCap (charge fall : Nat) : Nat := min (charge * 100 / fall) (2 ^ 24 - 1)

/-- The capacitance in use after a valid test. -/
def nextCap (s : State) (measured : Nat) : Nat :=
  let c := getF s Reg.PHS_HOLDUP_CAP.cap_mf
  if !flag s Reg.PHS_HOLDUP_CAP.valid || measured ≤ c then measured else min measured (c * 102 / 100)

/-- CAP_TEST_END: the charge summed over the test, and the store's voltage after it. -/
def doCapTestEnd (charge : Nat) (vEnd : Fin 65536) (s : State) : State :=
  match s.phs.capTest with
  | none => s
  | some t =>
    let s := putFlag { s with phs.capTest := none } Reg.PHS_HOLDUP_CAP.test_busy false
    let fall := t.vStart - vEnd.val
    if fall = 0 || fall * 200 < t.vStart then setFlag s Reg.PHS_ERR.cap_test_invalid
    else
      let s := setF s Reg.PHS_HOLDUP_CAP.cap_mf (nextCap s (measuredCap charge fall))
      setFlag (setFlag s Reg.PHS_HOLDUP_CAP.valid) Reg.PHS_BUDGET_PUB.valid

/-- Bedrock channels that are lost. -/
def lostChannels (s : State) : Nat := (s.bfc.channels.filter fun e => e.2.lost).length

/-- The kiln rate BFC guarantees, in GB/s (R274). -/
def kilnRate (s : State) : Nat :=
  let full := min 200 (25 * diesPerChannel s)
  if getF s Reg.BFC_POP.planes4 = 1 && lostChannels s = 0 then full
  else min (full - 1) (Config.loweredRate (diesPerChannel s) (lostChannels s) (flag s Reg.BFC_POP.planes4))

/-- Load of a flush in W, and the two percentages, as they act (R497). -/
def flushWatts (s : State) : Nat := max 1 (getF s Reg.PHS_HOLDUP_CFG2.flush_w)
/-- Efficiency in per cent. -/
def effPct (s : State) : Nat := min 100 (getF s Reg.PHS_HOLDUP_CFG.eff_pct)
/-- Margin in per cent. -/
def marginPct (s : State) : Nat := min 90 (getF s Reg.PHS_HOLDUP_CFG.margin_pct)

/-- e_use in units of 1 J ÷ 20,000,000: C in mF and voltages in 10 mV. -/
def useUnits (s : State) : Nat :=
  let v := storeVoltage s
  let m := getF s Reg.PHS_HOLDUP_CFG2.vmin_10mv
  if v ≤ m then 0 else getF s Reg.PHS_HOLDUP_CAP.cap_mf * (v * v - m * m)

/-- e_net in units of 1 J ÷ 200,000,000,000. -/
def netUnits (s : State) : Nat :=
  useUnits s * effPct s * (100 - marginPct s) - flushWatts s * getF s Reg.PHS_HOLDUP_CFG.fixed_ms * 200000000

/-- cover in bytes: seconds of flush times the kiln rate. -/
def coverBytes (s : State) : Nat := netUnits s * kilnRate s / (200 * flushWatts s)

/-- Data capacity of the ERASED kiln strata, in bytes. -/
def kilnSpace (s : State) : Nat :=
  let used := (usedStrata s).filter fun e => stratumUse s e.2.1 = .kiln && e.2.2.state ≠ .erased
  (4 * kilnPerBed s - used.length) * rowsOf s true * 81920

/-- What the image's sections need: meta of R488. -/
def imageMeta (s : State) : Nat :=
  1048576 + 4096 * min s.twin.changeMap.length (s.plots.maxCapacity * 512 / 4096) + 136 * s.tmg.overlays.length + 8 * s.diu.poison.length

/-- BUDGET_PUBLISH (R488). -/
def doBudgetPublish (s : State) : State :=
  if phsState s ≠ phsRunning then s
  else
    let s := setF (setF s Reg.PHS_HOLDUP_E.e_use_j (min 0xFFFF (useUnits s / 20000000))) Reg.PHS_HOLDUP_E.e_net_j (min 0xFFFF (netUnits s / 200000000000))
    if !flag s Reg.PHS_BUDGET_PUB.valid then setF s Reg.PHS_BUDGET_PUB.pub_mib 0
    else
      let cover := coverBytes s
      let space := kilnSpace s - imageMeta s
      let pub := min (min cover space / 1048576) (2 ^ 21 - 1)
      let s := putFlag (setF s Reg.PHS_BUDGET_PUB.pub_mib pub) Reg.PHS_BUDGET_PUB.kiln_capped (decide (space < cover))
      if pub < 1024 then raise (setFlag s Reg.PHS_ERR.holdup_low) 1482 .holdupLow 0xFFF [pub] else s

/-! ### Arming (R490) -/

/-- KILN_ARM: accepted in RUNNING with the kiln ready and a valid budget; then what waited for it goes on. -/
def doKilnArm (who : Accessor) (s : State) : State :=
  setupWrite s who Reg.PHS_KILN_CTL.arm.addr
    (if phsState s = phsRunning && kilnReady s && flag s Reg.PHS_BUDGET_PUB.valid then
       if armed s then s
       else
         let s := setFlag (setFlag s Reg.PHS_KILN_STS.armed) Reg.PHS_KILN_CTL.arm
         let s := if mirrored s || solo s then s else sendHello s
         checkServing (tryPairRestart s)
     else setFlag s Reg.PHS_ERR.arm_refused)

/-- KILN_DISARM: accepted only while nothing is dirty. -/
def doKilnDisarm (who : Accessor) (s : State) : State :=
  setupWrite s who Reg.PHS_KILN_CTL.arm.addr
    (if dirtyGrains s = 0 then putFlag (putFlag s Reg.PHS_KILN_STS.armed false) Reg.PHS_KILN_CTL.arm false else s)

/-- SNAPSHOT_CLEAR -/
def doSnapshotClear (who : Accessor) (s : State) : State :=
  setupWrite s who Reg.PHS_SNAP_CTL.clear.addr { s with phs.snapFirst := none, phs.snapRest := [], phs.snapNext := 0 }

/-- KILN_FLUSH_END: the closing grains are sealed. -/
def doKilnFlushEnd (s : State) : State := if phsState s ≠ phsFlushing then s else flushDone s

/-! ### The commands -/

/-- PWR_REQ changes level (R475). -/
def execPwrReqChange (high v12Good : Bool) (s : State) : Host.Outcome State Fault Refusal := completes s (doPwrReqChange high v12Good s)
/-- An off request by register (R475). -/
def execOffRequest (who : Accessor) (s : State) : Host.Outcome State Fault Refusal := completes s (doOffRequest who s)
/-- A cycle request (R475). -/
def execCycleRequest (who : Accessor) (s : State) : Host.Outcome State Fault Refusal := completes s (doCycleRequest who s)
/-- A flush by register (R491). -/
def execFlushNow (who : Accessor) (s : State) : Host.Outcome State Fault Refusal := completes s (doFlushNow who s)
/-- A power-up step passes (R476, R477). -/
def execRailStepPass (boot : BootReport) (s : State) : Host.Outcome State Fault Refusal := completes s (doRailStepPass boot s)
/-- A power-up step fails (R478). -/
def execPgTimeout (s : State) : Host.Outcome State Fault Refusal := completes s (doPgTimeout s)
/-- A power-down step passes (R479). -/
def execRailFallStep (s : State) : Host.Outcome State Fault Refusal := finishes s (doRailFallStep s)
/-- A power-down step fails (R496). -/
def execOffTimeout (s : State) : Host.Outcome State Fault Refusal := finishes s (doOffTimeout s)
/-- min_off has passed (R479). -/
def execOffHoldEnd (s : State) : Host.Outcome State Fault Refusal := completes s (doOffHoldEnd s)
/-- A stretch ends (R482). -/
def execResetStretchExpiry (output : Fin 12) (s : State) : Host.Outcome State Fault Refusal := finishes s (doResetStretchExpiry output s)
/-- Software asserts or releases an output (R482). -/
def execResetSwAssert (who : Accessor) (value : Word) (s : State) : Host.Outcome State Fault Refusal := finishes s (doResetSwAssert who value s)
/-- The sense channels are sampled (R483). -/
def execSenseSample (values : List (BitVec 16)) (pg : BitVec 7) (s : State) : Host.Outcome State Fault Refusal := completes s (doSenseSample values pg s)
/-- The kiln flush ends (R494). -/
def execKilnFlushEnd (s : State) : Host.Outcome State Fault Refusal := completes s (doKilnFlushEnd s)
/-- A capacitance test starts (R487). -/
def execCapTestStart (s : State) : Host.Outcome State Fault Refusal := finishes s (doCapTestStart s)
/-- A capacitance test ends (R487). -/
def execCapTestEnd (charge : Nat) (vEnd : Fin 65536) (s : State) : Host.Outcome State Fault Refusal := finishes s (doCapTestEnd charge vEnd s)
/-- The budget is published (R488). -/
def execBudgetPublish (s : State) : Host.Outcome State Fault Refusal := finishes s (doBudgetPublish s)
/-- The flush is armed (R490). -/
def execKilnArm (who : Accessor) (s : State) : Host.Outcome State Fault Refusal := settles s (doKilnArm who s)
/-- The flush is disarmed (R490). -/
def execKilnDisarm (who : Accessor) (s : State) : Host.Outcome State Fault Refusal := finishes s (doKilnDisarm who s)
/-- The snapshots are cleared (R486). -/
def execSnapshotClear (who : Accessor) (s : State) : Host.Outcome State Fault Refusal := finishes s (doSnapshotClear who s)

end Sys2Proof.Machine
end

