-- ==== Sys2Proof/Machine/TwinLink.lean ====
section
/-! DEFINITION. Meanings of the twin link's commands (10): ports, the mirror stream, leases, the fence and alive lines,
digests, samples, health, resynchronisation and takeback. -/

namespace Sys2Proof.Machine

/-! ### Ports (R333, R383) -/

/-- TWIN_PORT_DOWN: the port leaves service; with none left the link is lost. -/
def doTwinPortDown (port : Fin 8) (s : State) : State :=
  let up := getF s Reg.FLK_TWIN_STS.ports_up
  if up / 2 ^ port.val % 2 = 0 then s
  else
    let s := setF s Reg.FLK_TWIN_STS.ports_up (clearBit up port.val)
    let s := setF (setF s (twinPortField Reg.FLK_TP_STS.up port.val) 0) (twinPortField Reg.FLK_TP_STS.lanes port.val) 0
    let s := incFiBy s (twinPortField Reg.FLK_TP_RETRY_CNT.downs port.val) 0 1
    if getF s Reg.FLK_TWIN_STS.ports_up = 0 then linkLost s else s

/-- TWIN_PORT_UP: training has completed; the first port brings the link back (R342, R379). A controller that is not
serving says HELLO (R372, R573). -/
def doTwinPortUp (port : Fin 8) (s : State) : State :=
  let up := getF s Reg.FLK_TWIN_STS.ports_up
  if flushing s || up / 2 ^ port.val % 2 = 1 then s
  else
    let s := setF s Reg.FLK_TWIN_STS.ports_up (up + 2 ^ port.val)
    let s := setF (setF s (twinPortField Reg.FLK_TP_STS.up port.val) 1) (twinPortField Reg.FLK_TP_STS.lanes port.val) 4
    let s := linkBack s
    if mirrored s then s else sendHello s

/-- TWIN_LINK_SILENCE: no frame for 20 µs (R333). -/
def doTwinLinkSilence (s : State) : State := linkLost s

/-! ### The mirror stream (R338 to R344) -/

/-- This controller applies the twin's stream. -/
def receives (s : State) : Bool := mirrored s || twinMode s = mTarget

/-- Send the acknowledgement that is owed (R340). -/
def sendAck (s : State) : State :=
  if s.twin.ackOwed then
    sendFrame { s with twin.ackOwed := false } 2 (s.twin.rxExpected - 1) 0 (.mirrorAck (s.twin.rxExpected - 1))
  else s

/-- Take an ordered frame of the twin; every 64th applied is acknowledged at once (R340). -/
def takeOrdered (s : State) (f : FrameIn) (ftype : Nat) (b : OrderedBody) : State :=
  match frameTaken s f ftype with
  | (false, s) => s
  | (true, s) =>
    if receives s then
      let before := (s.twin.rxExpected - 1) / 64
      let s := orderedIn s f.ctr b
      if before < (s.twin.rxExpected - 1) / 64 then sendAck s else s
    else s

/-- MIRROR (R340). -/
def doMirror (f : FrameIn) (plot : PlotId) (seq : Nat) (records : List MirrorRec) (s : State) : State :=
  takeOrdered s f 1 (.mirror plot.val seq records)

/-- Frames of the resynchronisation that an acknowledgement covers: their clods' change-map bits are cleared (R373). -/
def resyncAcked (s : State) (ctr : Nat) : State :=
  match s.twin.resync with
  | none => s
  | some r =>
    let done := r.sent.filter fun x => x.2 ≤ ctr
    let s := done.foldl (fun s x => { s with twin.changeMap := sput false s.twin.changeMap x.1 false }) s
    { s with twin.resync := some { r with sent := r.sent.filter fun x => ctr < x.2 } }

/-- A pair restart's copies have drained in this direction: the pair serves (R572). -/
def pairDrained (s : State) : State :=
  match s.twin.resync with
  | some r => if twinMode s = mMirrored && r.left.isEmpty && r.sent.isEmpty then checkServing { s with twin.resync := none } else s
  | none => s

/-- MIRROR_ACK: every ordered frame up to the counter is acknowledged (R340, R341). -/
def doMirrorAck (f : FrameIn) (ackCtr : Nat) (s : State) : State :=
  match frameTaken s f 2 with
  | (false, s) => s
  | (true, s) =>
    let ctr := min ackCtr s.twin.txOrdered
    let s := { s with
      twin.ackedCtr := max s.twin.ackedCtr ctr
      twin.retained := s.twin.retained.map fun r => if r.ctr ≤ ctr then { r with acked := true } else r
      pou.writes := s.pou.writes.map fun w => if w.frameCtr ≠ 0 && w.frameCtr ≤ ctr then { w with acked := true } else w }
    pairDrained (freeRetained (resyncAcked s ctr))

/-- MIRROR_ACK_TIMER (R340). -/
def doMirrorAckTimer (s : State) : State := sendAck s

/-- DURABLE_NOTICE: the home has applied a forwarded write (R31, R344). -/
def doDurableNotice (f : FrameIn) (plot : PlotId) (seq : Nat) (s : State) : State :=
  match frameTaken s f 3 with
  | (false, s) => s
  | (true, s) =>
    let is (w : FwdWrite) : Bool := w.plot = plot.val && w.seq = some seq
    if s.pou.fwdWrites.any is then
      { s with pou.fwdWrites := s.pou.fwdWrites.map fun w => if is w then { w with noticed := true } else w }
    else if (s.pou.fwdWrites.any fun w => w.plot = plot.val && w.seq.isNone) && !s.twin.notices.contains (plot.val, seq) then
      { s with twin.notices := s.twin.notices ++ [(plot.val, seq)] }
    else s

/-- The home's check of a request from the twin (R59): it reaches a plot in which its master has the rights. -/
def homeAllows (s : State) (mid line need : Nat) : Option Nat :=
  match reach s line with
  | some p => if hasRights s p mid need then some p else none
  | none => none

/-- The rights a request of a plot needs: no write of a sealed or sealing read-only plot is allowed (R39, R41, R61). -/
def writeAllowed (s : State) (p : Nat) : Bool := takesWrites (plotRec s p)

/-- A forwarded request under a reserved master ID is rejected, and an event names the ID (R23). -/
def rejectForwarded (s : State) (mid : Nat) : State := raise s 1312 .reservedMaster mid [mid]

/-- FWD_WRITE: the home takes a write that its partner forwards (R12, R23, R59, R344). -/
def doFwdWrite (f : FrameIn) (mid : Mid) (tag : Fin 256) (line : LineNo) (data : Line) (be : ByteMask) (poison : Bool) (metaVal : MetaValue)
    (s : State) : State :=
  match frameTaken s f 4 with
  | (false, s) => s
  | (true, s) =>
    if !serving s then s
    else if reservedMid mid.val then sendFrame (rejectForwarded s mid.val) 0x1A 0 0 (.fwdRefuse mid.val tag.val)
    else match homeAllows s mid.val line.val 2 with
      | some p =>
        if writeAllowed s p then (acceptHostWrite s (.forwarded mid tag.val) mid.val p line.val data be poison metaVal).2
        else sendFrame (countDenial s mid.val p line.val) 0x1A 0 0 (.fwdRefuse mid.val tag.val)
      | none => sendFrame (countDenial s mid.val ((reach s line.val).getD 0xFFF) line.val) 0x1A 0 0 (.fwdRefuse mid.val tag.val)

/-- FWD_READ: the home orders a read that its partner forwards (R13, R23, R59), answering a denied one with a poisoned zero
line marked as denied (R65; DESIGN CHOICE: the mark, without which the partner could not end a ring's read as R65 says); of a clod whose entry is lost at its home, the partner serves the read itself once it has applied every
write ordered before it (R46). -/
def doFwdRead (f : FrameIn) (seq : Nat) (mid : Mid) (tag : Fin 256) (line : LineNo) (metaVal : MetaValue) (s : State) : State :=
  match frameTaken s f 5 with
  | (false, s) => s
  | (true, s) =>
    if !serving s then s
    else if reservedMid mid.val then sendFrame (rejectForwarded s mid.val) 0x06 0 0 (.readData mid.val tag.val true 0 true)
    else
      let p := (plotOfLine s line.val).getD 0
      if plotOpen (plotRec s p) && !isHome s (plotRec s p) then
        { s with twin.copyReads := s.twin.copyReads ++ [(mid.val, tag.val, line.val, seq)] }
      else match homeAllows s mid.val line.val 1 with
        | some p => (acceptRead s (.forwarded mid tag.val) mid.val p line.val metaVal).2
        | none =>
          let s := countDenial s mid.val ((reach s line.val).getD 0xFFF) line.val
          sendFrame s 0x06 0 0 (.readData mid.val tag.val true 0 true)

/-- The request of this controller that an answer of the twin names: tags are unique within a master ID (R344). -/
def namesRequest (mid : Mid) (tag : Fin 256) (m t : Nat) : Bool := forwardedMid m = forwardedMid mid.val && t = tag.val

/-- READ_DATA: the twin's answer to a forwarded read, or to a read of a clod whose entry is lost here (R13, R46). The
holder is recorded as the data leave (R209); a read the home denied ends under R65. -/
def doReadData (f : FrameIn) (mid : Mid) (tag : Fin 256) (poison : Bool) (data : Line) (denied : Bool) (s : State) : State :=
  match frameTaken s f 6 with
  | (false, s) => s
  | (true, s) =>
    let v : LineVal := if poison then poisonLine else { data := data, poison := false }
    match s.pou.fwdReads.find? fun r => namesRequest mid tag r.mid r.tag with
    | some r =>
      let s := { s with pou.fwdReads := s.pou.fwdReads.filter fun x => x.id ≠ r.id }
      let rd : ReadRec := { id := r.id, origin := r.origin, mid := r.mid, plot := r.plot, line := r.line, metaVal := r.metaVal }
      if denied then refuseRead s rd
      else
        let s := if coherent (plotRec s r.plot) && r.metaVal ≠ .invalid then
            recordHolder s r.line { write := false, metaVal := r.metaVal, requester := requesterOf r.origin r.mid } else s
        answerRead s rd v
    | none =>
      match s.pou.reads.find? fun r => namesRequest mid tag r.mid (r.remoteTag.getD 256) with
      | some r => updRdRec s r.id fun r => { r with val := some v, remoteTag := none }
      | none => s

/-- FWD_REFUSE: the home denied a forwarded write; it ends under R65 (R344). -/
def doFwdRefuse (f : FrameIn) (mid : Mid) (tag : Fin 256) (s : State) : State :=
  match frameTaken s f 0x1A with
  | (false, s) => s
  | (true, s) =>
    match s.pou.fwdWrites.find? fun w => namesRequest mid tag w.mid w.tag && w.seq.isNone with
    | some w =>
      let s := { s with pou.fwdWrites := s.pou.fwdWrites.filter fun x => x.id ≠ w.id }
      refuseWrite s { id := w.id, origin := w.origin, mid := w.mid, plot := w.plot, line := w.line, data := w.data, be := w.be, poison := w.poison,
                      metaVal := w.metaVal, acceptedAt := w.acceptedAt }
    | none => s

/-! ### Leases (R343, R345, R346) -/

/-- Plots of this controller whose durable mark has moved, with their marks (R343). -/
def movedMarks (s : State) : List (Nat × Nat) :=
  (s.plots.plots.filter fun e => e.2.markChanged && e.2.state ≠ .free && isHome s e.2).map fun e => (e.1, durableMark s e.1)

/-- Send a LEASE (R345). -/
def sendLease (s : State) : State :=
  if !linkOk s then s
  else
    let marks := movedMarks s
    let s := marks.foldl (fun s m => updPlot s m.1 fun r => { r with markChanged := false }) s
    let s := sendFrame s 7 0 0 (.lease (s.twin.txOther + 1) marks)
    { s with twin.leaseSent := s.twin.leaseSent ++ [(s.twin.txOther, s.devTime)] }

/-- The time reference of a joined pair sends its device time (R21). DESIGN CHOICE: the spec gives TIME no period; one leaves with each
LEASE, every 10 µs. -/
def sendTime (s : State) : State :=
  if s.twin.timePaired && flag s Reg.GLB_TIME_ALIGN.reference then sendFrame s 0x19 0 0 (.time s.devTime) else s

/-- LEASE_SEND_TIMER: every 10 µs while the link is up (R345). -/
def doLeaseSendTimer (s : State) : State := sendTime (sendLease s)

/-- A durable mark of the twin covers forwarded writes (R31, R343). -/
def takeMark (s : State) (plot mark : Nat) : State :=
  let s := updPlot s plot fun r => { r with leaseMark := mark }
  { s with pou.fwdWrites := s.pou.fwdWrites.map fun w =>
      if w.plot = plot && (w.seq.any fun q => q ≤ mark) then { w with noticed := true } else w }

/-- LEASE: the twin's silence starts anew, its marks are kept, and it is answered (R343, R345, R346); a line that does
not read as toggling meanwhile is faulty (R362). -/
def doLease (f : FrameIn) (marks : List (PlotId × Nat)) (s : State) : State :=
  match frameTaken s f 7 with
  | (false, s) => s
  | (true, s) =>
    let s := marks.foldl (fun s m => takeMark s m.1.val m.2) { s with twin.leaseRxAt := s.devTime }
    let s := sendFrame s 8 f.ctr 0 (.leaseAck f.ctr)
    if mirrored s && aliveIn s ≠ 1 && !fenceIn s then
      raise (setFlag s Reg.FLK_TWIN_ERR.alive_fault) 1521 .aliveFault 0xFFF [aliveIn s]
    else s

/-- LEASE_ACK: the own lease runs to 50 µs after that LEASE was sent; a lapsed one is valid again unless a fence demand
has been asserted or seen (R345). -/
def doLeaseAck (f : FrameIn) (ackCtr : Nat) (s : State) : State :=
  match frameTaken s f 8 with
  | (false, s) => s
  | (true, s) =>
    match s.twin.leaseSent.find? fun l => l.1 = ackCtr with
    | none => s
    | some (_, sent) =>
      let s := { s with twin.leaseSent := s.twin.leaseSent.filter fun l => ackCtr < l.1 }
      let until_ := max (sent + 50000) (s.twin.lease.getD 0)
      if sent < s.twin.twinLeaseAt || !mirrored s || fenceOut s || fenceIn s && !s.twin.fenceLineIgnored || until_ ≤ s.devTime then s
      else
        let s := putFlag { s with twin.lease := some until_ } Reg.FLK_TWIN_STS.lease_valid true
        if twinMode s = mLapsed then setMode s mMirrored else s

/-- LEASE_LAPSE: 50 µs have passed since the latest acknowledged LEASE was sent (R345). -/
def doLeaseLapse (s : State) : State :=
  match s.twin.lease with
  | some t =>
    if t ≤ s.devTime then
      let s := incF (endLease s) Reg.FLK_LEASE_STS.lapses
      if twinMode s = mMirrored then setMode s mLapsed else s
    else s
  | none => s

/-- TWIN_SILENCE_TIMEOUT: 60 µs without a LEASE; the twin's fence is demanded (R346, R350), while its own demand stands
only in a tie (R351). -/
def doTwinSilenceTimeout (s : State) : State :=
  if !mirrored s || s.devTime < s.twin.leaseRxAt + 60000 then s
  else if fenceIn s then
    let tie := match s.twin.fenceInAt with
      | some t => within10us s t
      | none => false
    if flag s Reg.FLK_TWIN_STS.link_lost && priority s && tie then demandFence s else s
  else demandFence s

/-! ### Gaps (R342) -/

/-- GAP_TIMEOUT: a counter has been missing for 10 µs. -/
def doGapTimeout (s : State) : State :=
  if gapOpen s && receives s then sendFrame (incF s Reg.FLK_MIRROR_STS.nacks) 0x0A s.twin.rxExpected 0 (.nack s.twin.rxExpected) else s

/-- NACK: every retained frame from the missing one onward is sent again. -/
def doNack (f : FrameIn) (nackCtr : Nat) (s : State) : State :=
  match frameTaken s f 0x0A with
  | (false, s) => s
  | (true, s) => resendFrom (incF s Reg.FLK_MIRROR_STS.nacks) nackCtr

/-! ### Digests (R364 to R367) -/

/-- DIGEST_TIMER: every 5 µs a marker ends the period of the own stream (R365). -/
def doDigestTimer (s : State) : State :=
  if !mirrorsWrites s then s
  else
    let ds := digestList s.twin.txCrc
    let p := s.twin.txPeriod
    let s := sendOrdered { s with twin.txDigests := s.twin.txDigests ++ [(p, ds)] } (.digestMarker p ds)
    { s with twin.txPeriod := p + 1, twin.txCrc := [] }

/-- DIGEST_MARKER: applied in its place in the stream (R365). -/
def doDigestMarker (f : FrameIn) (period : Nat) (digests : List DWord) (s : State) : State :=
  takeOrdered s f 9 (.digestMarker period digests)

/-- The twin's values of a period of the own stream: equal groups need their frames no longer (R341, R365, R366). -/
def comparePeriod (s : State) (period : Nat) (theirs : List DWord) : State :=
  match s.twin.txDigests.find? fun d => d.1 = period with
  | none => s
  | some (_, own) =>
    let bad := differing own theirs
    let s := bad.foldl (fun s g => startDispute s g period true (periodLines s.twin.txLines period g)) s
    let s := ((List.range 64).filter fun g => !bad.contains g).foldl (fun s g => comparedGroup s g period) s
    freeRetained { s with
      twin.txDigests := s.twin.txDigests.filter fun d => d.1 ≠ period
      twin.txLines := s.twin.txLines.filter fun l => l.1 ≠ period || bad.contains (groupOf l.2.1) }

/-- The twin's check of a group has ended; a group this controller did not dispute is disputed now (R366, R368). -/
def twinResult (s : State) (group period : Nat) (passed : Bool) : State :=
  let s := if s.twin.disputes.any fun d => d.group = group then s else startDispute s group period false []
  { s with twin.disputes := s.twin.disputes.map fun d => if d.group = group && d.twinPassed.isNone then { d with twinPassed := some passed } else d }

/-- DIGEST_REPLY: the twin's values of a period, or the result of its check. -/
def doDigestReply (f : FrameIn) (period : Nat) (reply : DigestAnswer) (s : State) : State :=
  match frameTaken s f 9 with
  | (false, s) => s
  | (true, s) =>
    match reply with
    | .values ds => comparePeriod s period ds
    | .result g passed => twinResult s g.val period passed

/-- DIGEST_CHECK_DONE: this controller's readback and self-tests have ended; the result goes to the twin (R366). -/
def doDigestCheckDone (group : Fin 64) (ownPassed : Bool) (s : State) : State :=
  match s.twin.disputes.find? fun d => d.group = group.val && d.ownPassed.isNone with
  | none => s
  | some d =>
    let s := { s with twin.disputes := s.twin.disputes.map fun d =>
      if d.group = group.val && d.ownPassed.isNone then { d with ownPassed := some ownPassed } else d }
    sendFrame s 9 0 0 (.digestResult d.period group.val ownPassed)

/-! ### Snoops and clod fetches (R209, R210, R288) -/

/-- SNOOP_REQ: the home asks for copies held on this side; a request asked again while it is served is not served twice. -/
def doSnoopReq (f : FrameIn) (tag : Nat) (line : LineNo) (inv : Bool) (ahead : List (Mid × Fin 256)) (s : State) : State :=
  match frameTaken s f 0x0B with
  | (false, s) => s
  | (true, s) =>
    if (s.twin.snoopWaits.any fun w => w.1 = tag) || !(snoopsFor s (.twin tag)).isEmpty then s
    else { s with twin.snoopWaits := s.twin.snoopWaits ++ [(tag, line.val, inv, ahead.map fun a => (a.1.val, a.2.val))] }

/-- SNOOP_RSP: every copy on the twin's side is back. -/
def doSnoopRsp (f : FrameIn) (tag : Nat) (s : State) : State :=
  match frameTaken s f 0x0C with
  | (false, s) => s
  | (true, s) =>
    match s.fcd.snoops.find? fun x => x.id = tag && x.target = partnerTarget with
    | some x => answerSnoop s x
    | none => s

/-- CLOD_FETCH: served once every write through the named sequence is applied (R288). -/
def doClodFetch (f : FrameIn) (tag : Nat) (clod : ClodNo) (seq : Nat) (s : State) : State :=
  match frameTaken s f 0x0D with
  | (false, s) => s
  | (true, s) =>
    if !serving s then s
    else
      let p := (plotOfClod s clod.val).getD 0
      if isHome s (plotRec s p) || seq ≤ (plotRec s p).mirrored then serveFetch s tag clod.val
      else { s with twin.fetchWaits := s.twin.fetchWaits ++ [(tag, clod.val, seq)] }

/-- CLOD_DATA: a half of a fetched clod, or the twin's failure to produce it (R288). An answer that nobody awaits is
discarded (R284). -/
def doClodData (f : FrameIn) (tag : Nat) (clod : ClodNo) (half : Fin 2) (lines : Option ClodImage) (s : State) : State :=
  match frameTaken s f 0x0E with
  | (false, s) => s
  | (true, s) =>
    if !(s.bfc.fetches.any fun x => x.1 = tag && x.2 = clod.val) then s
    else match lines with
      | none => fetchFailed s clod.val
      | some ls => (applyHalf s clod.val half.val ls).2

/-- RESYNC_CLOD: in its place in the stream (R374). -/
def doResyncClod (f : FrameIn) (clod : ClodNo) (half : Fin 2) (lines : ClodImage) (s : State) : State :=
  takeOrdered s f 0xF (.resyncClod clod.val half.val lines)

/-! ### Samples, health and self-tests (R368 to R370) -/

/-- A line's value through the POU at its place in the order: the latest ordered whole write, or what stands below. None
while a merge is open. -/
def orderedLine (s : State) (line : Nat) : Option LineVal :=
  let ws := s.pou.writes.filter fun w => w.line = line && unappliedW w
  if ws.any fun w => w.stage = .merging then none
  else
    match ws.foldl (fun (best : Option WriteRec) w =>
      match best with
      | some b => if b.ord < w.ord then some w else best
      | none => some w) none with
    | some w => some { data := w.data, poison := w.poison }
    | none => some (currentLine s line)

/-- SAMPLE_TIMER: the sampler, master ID 0x31B, picks a written line of a plot it is home of (R368). -/
def doSampleTimer (line : LineNo) (s : State) : State :=
  match reach s line.val with
  | none => s
  | some p =>
    let r := plotRec s p
    if getF s Reg.FLK_SAMPLE_CFG.rate_k = 0 || !mirrored s || !canOrder s r || !linkOk s || (entryOf s (clodOf line.val)).tier = 0 then s
    else match orderedLine s line.val with
      | none => s
      | some v =>
        let tag := (s.twin.samples.foldl (fun n x => max n x.1) 0) + 1
        let s := { sampleRead s line.val with twin.samples := s.twin.samples ++ [(tag, line.val, p, r.seq, sampleCrc v)] }
        sendFrame s 0x10 r.seq p (.sampleReq tag line.val p r.seq)

/-- SAMPLE_REQ: answered once the sequence is applied (R368). -/
def doSampleReq (f : FrameIn) (tag : Nat) (line : LineNo) (plot : PlotId) (seq : Nat) (s : State) : State :=
  match frameTaken s f 0x10 with
  | (false, s) => s
  | (true, s) => { s with twin.sampleWaits := s.twin.sampleWaits ++ [(tag, line.val, plot.val, seq)] }

/-- SAMPLE_RSP: compared; a later write discards the sample, and a mismatch is a digest mismatch of the group (R368). -/
def doSampleRsp (f : FrameIn) (tag : Nat) (crc : Option DWord) (s : State) : State :=
  match frameTaken s f 0x11 with
  | (false, s) => s
  | (true, s) =>
    match s.twin.samples.find? fun x => x.1 = tag with
    | none => s
    | some (_, line, plot, _, own) =>
      let s := { s with twin.samples := s.twin.samples.filter fun x => x.1 ≠ tag }
      match crc with
      | none => s
      | some c =>
        let s := incF s Reg.FLK_SAMPLE_CNT.samples
        if c = own then s
        else
          let s := incF (setFlag s Reg.FLK_TWIN_ERR.sample_mismatch) Reg.FLK_SAMPLE_CNT.mismatches
          let s := raise s twinSource .sampleMismatch 0xFFF [plot, line * 64]
          startDispute s (groupOf plot) s.twin.txPeriod true [line]

/-- Lost Bedrock channels. -/
def lostBedrock (s : State) : Nat := (s.bfc.channels.filter fun c => c.2.lost).length

/-- Loam channels out of service: those that failed to train. -/
def lostLoam (s : State) : Nat := ((List.range 16).filter fun c => getF s (fieldAt Reg.LMC_CH_ERR.train_fail (c * 0x100)) = 1).length

/-- The most quarantined or failed dies in a bed (R281). -/
def quarMax (s : State) : Nat := [0, 1, 2, 3].foldl (fun n b => max n (badDies s b)) 0

/-- Corrections of the last second. -/
def ceLastSecond (s : State) : Nat := s.diu.ceSecond.foldl (fun n e => n + e.2) 0

/-- HEALTH_TIMER: every 1 s (R370). -/
def doHealthTimer (s : State) : State :=
  sendFrame s 0x12 0 0 (.health (sparePct s) (quarMax s) (lostLoam s) (lostBedrock s) (getF s Reg.FLK_SELFTEST_STS.coverage_pct)
    (flag s Reg.FLK_TWIN_ERR.selftest_fail) (ceLastSecond s) (ownLevel s) (flag s Reg.EVR_HEALTH.replace_advised))

/-- HEALTH: the latest report is kept (R370). -/
def doHealth (f : FrameIn) (report : HealthReport) (s : State) : State :=
  match frameTaken s f 0x12 with
  | (false, s) => s
  | (true, s) =>
    let s := setF (setF s Reg.FLK_TWIN_HEALTH.spare_pct report.sparePct.val) Reg.FLK_TWIN_HEALTH.quar_max (min 7 report.quarMax.val)
    let s := putFlag (putFlag s Reg.FLK_TWIN_HEALTH.replace_adv report.replaceAdvised) Reg.FLK_TWIN_HEALTH.selftest_fail report.selftestFail
    { s with twin.healthAt := s.devTime }

/-- HEALTH_MISSING: no report for 3 s while the link is up (R370). -/
def doHealthMissing (s : State) : State :=
  if linkOk s && s.twin.healthAt + 3000000000 ≤ s.devTime then
    raise (setFlag s Reg.FLK_TWIN_ERR.health_missing) twinSource .healthMissing 0xFFF []
  else s

/-- Engines that run self-test slices (R369): movement, scrub and snoop engines. XTS cores stand as 0x400 + core and GCM
pairs as 0x410 + pair in this list. -/
def sliceEngines : List Nat :=
  ((List.range 16).map (0x300 + ·)) ++ ((List.range 4).map (0x310 + ·)) ++ [0x31D] ++ ((List.range 16).map (0x400 + ·)) ++ ((List.range 24).map (0x410 + ·))

/-- Engines of the same kind as one. -/
def likeEngines (e : Nat) : List Nat :=
  if e < 0x308 then (List.range 8).map (0x300 + ·) else if e < 0x30C then (List.range 4).map (0x308 + ·)
  else if e < 0x30E then [0x30C, 0x30D] else if e < 0x310 then [e]
  else if e < 0x314 then (List.range 4).map (0x310 + ·) else if e < 0x400 then [e]
  else if e < 0x410 then (List.range 16).map (0x400 + ·) else (List.range 24).map (0x410 + ·)


/-- SELFTEST_SLICE_START: an engine idle for 50 µs begins a slice. -/
def doSelftestSliceStart (engine : Mid) (s : State) : State :=
  if sliceEngines.contains engine.val && !engineBusy s engine.val && !s.twin.slices.contains engine.val && !s.twin.engineOut.contains engine.val then
    { s with twin.slices := s.twin.slices ++ [engine.val] }
  else s

/-- An engine's slices of the day are complete. -/
def sliceCovered (s : State) (e : Nat) : State :=
  let done := (s.twin.sliceDone ++ [e]).eraseDups
  let s := { s with twin.sliceDone := if done.length = sliceEngines.length then [] else done }
  setF s Reg.FLK_SELFTEST_STS.coverage_pct (done.length * 100 / sliceEngines.length)

/-- Take an engine out of service. -/
def engineRetire (s : State) (e : Nat) : State :=
  let s := { s with twin.engineOut := s.twin.engineOut ++ [e] }
  if e < 0x400 then s else if e < 0x410 then xtsOut s (e - 0x400) else gcmOut s (e - 0x410)

/-- SELFTEST_SLICE_DONE: work that arrived has abandoned the slice; a failed one fences a mirrored controller and takes
the engine out in solo, if a like engine remains (R369). -/
def doSelftestSliceDone (engine : Mid) (failed : Bool) (s : State) : State :=
  let e := engine.val
  if !s.twin.slices.contains e then s
  else
    let s := { s with twin.slices := s.twin.slices.erase e }
    if !failed then sliceCovered s e
    else
      let s := raise (adviseReplace (setFlag s Reg.FLK_TWIN_ERR.selftest_fail) 7) twinSource .selftestFail 0xFFF [e]
      if mirrored s then fenceSelf s []
      else if (likeEngines e).any fun x => x ≠ e && !s.twin.engineOut.contains x then engineRetire s e
      else s

/-! ### Administration (R52, R55, R70, R373) -/

/-- The partner's own check of a proposed admission (R53, R55). -/
def proposalHolds (s : State) (a : AdminPlot) : Bool :=
  let r := a.record
  let live := admitted s
  (plotRec s a.plot.val).state = .free && runFree s r.base r.size && decide (sumOver (·.floor) live + r.floor ≤ loamAvail s) &&
    decide ((sumOver (·.allow) live + r.allow) * 268435456 ≤ budgetBytes s) && decide (sumOver (·.size) live + r.size ≤ admissionCapacity s)

/-- The partner's figures reach the engine, whose checks then use the lesser of both (R53). -/
def figuresIn (s : State) (f : AdmFigures) : State :=
  match s.plots.admActive, s.plots.admPlot with
  | some (.admitPlot o a), none => checkAdmission s o a ((ownFigures s).least f)
  | _, _ => s

/-- A proposal of the engine: side B checks it and enters ADMITTING, keeping which request of its own it answers (R55). -/
def proposalIn (s : State) (p : AdminPlot) (tag : Option Nat) : State :=
  if proposalHolds s p then
    let s := match tag with
      | some t => { s with plots.admGiven := s.plots.admGiven ++ [(t, p.plot.val)] }
      | none => s
    sendAdmin (enterAdmitting s p) (.admitAnswer p.plot true)
  else sendAdmin s (.admitAnswer p.plot false)

/-- The partner's answer to a proposal reaches the engine. -/
def proposalAnswered (s : State) (plot : Nat) (accepted : Bool) : State :=
  match s.plots.admActive, s.plots.admPlot with
  | some (.admitPlot o _), some made =>
    if made.plot.val ≠ plot || (plotRec s plot).state ≠ .free then s
    else if accepted then enterAdmitting s made
    else admRefuse { s with plots.admActive := none, plots.admPlot := none } o stPartnerRefused
  | _, _ => s

/-- The engine's answer to a request sent to side A. -/
def requestAnswered (s : State) (tag status result : Nat) : State :=
  match s.plots.admSent.find? fun x => x.1 = tag with
  | none => s
  | some (_, j) =>
    let s := { s with plots.admSent := s.plots.admSent.filter fun x => x.1 ≠ tag, plots.admGiven := s.plots.admGiven.filter fun x => x.1 ≠ tag }
    match j with
    | .admitPlot (.ring ld ring op) _ => if status = stSuccess then endOp s ld ring op status result else endOpFree s ld ring op status
    | .admitPlot .fabricManager _ => emit s (.fmDcAdd status (plotIdOf result))
    | _ => s

/-- An order of the twin for a plot: at the home it is a request, ordered here and echoed; at the partner it is the
home's order. -/
def orderPlot (s : State) (p : Nat) (f : State → State) (echo : AdminOp) : State :=
  if isHome s (plotRec s p) then sendAdmin (f s) echo else f s

/-- The twin has ended its part of a plot's step. -/
def twinDone (s : State) (p : Nat) : State := plotStep (updPlot s p fun r => { r with doneTwin := true }) p

/-- A replayed plot takes the place of what stood under its ID (R373 step 2): after another generation or another erase,
the clods it held are gone. -/
def replayPlot (s : State) (a : AdminPlot) : State :=
  let p := a.plot.val
  let old := plotRec s p
  let same := old.generation = a.record.generation && old.eraseCount = a.record.eraseCount && old.base = a.record.base && old.size = a.record.size
  let s := if same || old.state = .free then s
    else dropPlotPoison (walkPlot (clearEntries (dropMigrations s (plotHasClod old)) old) old) old
  let s := { s with plots.granules := s.plots.granules.filter fun x => x.plot ≠ p }
  let r := { a.record with curHome := !sideB s, mirrored := a.record.seq, leaseMark := a.record.seq }
  let s := setAcl (setPlot s p r) p a.acl
  if r.state = .free then s
  else
    let s := { s with plots.granules := insertRun { base := r.base, size := r.size, plot := p } s.plots.granules }
    packJournal (if same && old.state ≠ .free then s else deriveXts s p) (plotChange s p) .nothing

/-- ADMIN (R52, R55, R70, R373). -/
def doAdmin (f : FrameIn) (op : AdminOp) (s : State) : State :=
  match frameTaken s f 0x13 with
  | (false, s) => s
  | (true, s) =>
    match op with
    | .admitRequest tag a => { s with plots.admQueue := s.plots.admQueue ++ [.admitPlot (.twin tag) a] }
    | .figuresReq => sendAdmin s (.figures (ownFigures s).loam (ownFigures s).budget (ownFigures s).capacity)
    | .figures l b c => figuresIn s { loam := l, budget := b, capacity := c }
    | .admitPlot p tag => proposalIn s p tag
    | .admitAnswer p ok => proposalAnswered s p.val ok
    | .admitResult tag status result => requestAnswered s tag status result
    | .zeroed p => twinDone s p.val
    | .release p => orderPlot s p.val (fun s => enterReleasing s p.val) (.release p)
    | .released p => twinDone s p.val
    | .seal p seq =>
      let q := if isHome s (plotRec s p.val) then (plotRec s p.val).seq else seq
      orderPlot s p.val (fun s => orderSeal s p.val q) (.seal p q)
    | .unsealed p => updPlot s p.val fun r => { r with doneTwin := false }
    | .sealed p => twinDone s p.val
    | .erase p => orderPlot s p.val (fun s => orderErase s p.val) (.erase p)
    | .erased p => plotStep (updPlot s p.val fun r => { r with eraseTwin := true }) p.val
    | .aclEntry p e v => plotChanged (setRegAt s 0x3000204 (p.val * 64 + e.val) v) p.val .nothing
    | .replay p => if twinMode s = mTarget then replayPlot s p else s

/-! ### Roles (R356 to R363, R378 to R381) -/

/-- The plots of a takeback move here (R378 step 4). -/
def adoptRole (s : State) (e : Word) (plots : List (PlotId × Nat)) : State :=
  let mine := sideB s
  let s := setEpoch { s with twin.adopted := s.twin.adopted ++ [e] } e
  let s := plots.foldl (fun s p => updPlot s p.1.val fun r => { r with curHome := mine, seq := p.2, mirrored := p.2 }) s
  let s := raise s 1520 .homeChange 0xFFF [e.toNat]
  sendFrame (sendLease s) 0x14 0 0 (.roleAck e)

/-- The returning controller has adopted the group (R378 step 5). -/
def roleAdopted (s : State) (t : Takeback) (e : Word) : State :=
  let mine := sideB s
  let s := setEpoch s e
  let s := t.plots.foldl (fun s p => updPlot s p fun r => { r with curHome := !mine, mirrored := r.seq, leaseMark := r.seq }) s
  let s := raise s 1520 .homeChange 0xFFF [e.toNat]
  { s with twin.takeback := if t.groups.isEmpty then none else some { groups := t.groups, group := 0, plots := [], sent := none } }

/-- ROLE_CHANGE: the acknowledgement of this controller's own, a repeat of one adopted, or one to adopt (R378, R379). -/
def doRoleChange (f : FrameIn) (newEpoch_ : Word) (plots : List (PlotId × Nat)) (s : State) : State :=
  match frameIn s f false with
  | (false, s) => s
  | (true, s) =>
    match s.twin.takeback.filter fun t => t.sent = some newEpoch_ with
    | some t => roleAdopted (setTwinEpoch s newEpoch_) t newEpoch_
    | none =>
      if s.twin.adopted.contains newEpoch_ then sendFrame s 0x14 0 0 (.roleAck newEpoch_)
      else if f.epoch ≠ epoch s then
        sendFrame (incF s Reg.FLK_STALE_CNT.rejected) 0x17 0 0 (.staleEpoch (epoch s) f.ctr 0x14)
      else if mirrored s then adoptRole s newEpoch_ plots
      else s

/-- ROLE_CHANGE_RETRY: every 10 µs while it is not acknowledged (R379). -/
def doRoleChangeRetry (s : State) : State := if linkOk s then sendRoleChange s else s

/-- FENCE_DEMAND: with the line asserted within 10 µs of it, the controller fences (R349). -/
def doFenceDemand (f : FrameIn) (s : State) : State :=
  match frameTaken s f 0x15 with
  | (false, s) => s
  | (true, s) =>
    let s := { s with twin.demandFrameAt := some s.devTime }
    match s.twin.fenceInAt with
    | some t => if fenceIn s && within10us s t && (mirrored s || solo s) then fenceSelf s [] else s
    | none => s

/-- FENCE_NOTICE: the twin has fenced itself; this controller takes over at once (R360). A source of a
resynchronisation goes on alone (R376). -/
def doFenceNotice (f : FrameIn) (s : State) : State :=
  match frameTaken s f 0x16 with
  | (false, s) => s
  | (true, s) =>
    if mirrored s then takeover s
    else if twinMode s = mSource then
      let s := (unacked s).foldl (fun s w => updWrite (markChanged s (clodOf w.line)) w.id fun w => { w with mapped := true }) s
      setMode (unpairTime (forgetPair { s with twin.resync := none }) true) mSolo
    else s

/-- The frame a STALE_EPOCH rejects, among those that were sent. -/
def sentFrame (s : State) (ctr ftype : Nat) : Option TwinFrame :=
  s.out.findSome? fun e =>
    match e with
    | .twin f => if f.ctr = ctr && f.ftype = ftype then some f else none
    | _ => none

/-- STALE_EPOCH: the frame waits for the epoch it met, or for 1 µs (R381). -/
def doStaleEpoch (f : FrameIn) (twinEpoch_ : Word) (ctr : Nat) (ftype : Fin 256) (s : State) : State :=
  match frameIn s f false with
  | (false, s) => s
  | (true, s) =>
    let s := setTwinEpoch (incF s Reg.FLK_STALE_CNT.bounced) twinEpoch_
    match sentFrame s ctr ftype.val with
    | none => s
    | some x =>
      let wait := if epochHigher (epoch s) twinEpoch_ || epoch s = twinEpoch_ then none else some twinEpoch_
      { s with twin.staleResends := s.twin.staleResends ++ [{ body := x.body, waitFor := wait }] }

/-- May a rejected frame be sent again: its wait is over. -/
def resendNow (s : State) (r : StaleResend) : Bool :=
  match r.waitFor with
  | none => true
  | some e => epoch s = e || epochHigher (epoch s) e

/-- Type of an unordered frame by its payload (R335). -/
def ftypeOf (b : TwinBody) : Nat :=
  match b with
  | .ordered _ => 1
  | .mirrorAck _ => 2
  | .durableNotice _ _ => 3
  | .fwdWrite _ _ _ _ _ _ _ => 4
  | .fwdRead _ _ _ _ => 5
  | .readData _ _ _ _ _ => 6
  | .lease _ _ => 7
  | .leaseAck _ => 8
  | .digestReply _ _ => 9
  | .digestResult _ _ _ => 9
  | .nack _ => 0x0A
  | .snoopReq _ _ _ _ => 0x0B
  | .snoopRsp _ => 0x0C
  | .clodFetch _ _ _ => 0x0D
  | .clodData _ _ _ _ => 0x0E
  | .clodRefuse _ _ => 0x0E
  | .sampleReq _ _ _ _ => 0x10
  | .sampleRsp _ _ => 0x11
  | .health _ _ _ _ _ _ _ _ _ => 0x12
  | .admin _ => 0x13
  | .roleChange _ _ _ => 0x14
  | .roleAck _ => 0x14
  | .fenceDemand => 0x15
  | .fenceNotice => 0x16
  | .staleEpoch _ _ _ => 0x17
  | .hello _ => 0x18
  | .time _ => 0x19
  | .fwdRefuse _ _ => 0x1A

/-- Send a rejected frame again by the route that holds now (R381): a request whose plot's home is here by now is
ordered here; an ordered frame is resent from the retained ones. -/
def resendBody (s : State) (b : TwinBody) : State :=
  match b with
  | .ordered x =>
    match s.twin.retained.find? fun r => r.body = x with
    | some r => putFrame s (orderedFrame s r.ctr r.body)
    | none => s
  | .fwdWrite mid tag _ _ _ _ _ =>
    match s.pou.fwdWrites.find? fun w => forwardedMid w.mid = mid && w.tag = tag && w.seq.isNone with
    | none => s
    | some w =>
      if isHome s (plotRec s w.plot) then reorderFwd { s with pou.fwdWrites := s.pou.fwdWrites.filter fun x => x.id ≠ w.id } w
      else sendFrame s 4 0 w.plot b
  | .fwdRead mid tag _ _ =>
    match s.pou.fwdReads.find? fun r => forwardedMid r.mid = mid && r.tag = tag with
    | none => sendFrame s 5 0 0 b
    | some r =>
      if isHome s (plotRec s r.plot) then reorderRead { s with pou.fwdReads := s.pou.fwdReads.filter fun x => x.id ≠ r.id } r
      else sendFrame s 5 0 r.plot b
  | _ => sendFrame s (ftypeOf b) 0 0 b

/-- STALE_RESEND_TIMER (R381). -/
def doStaleResendTimer (s : State) : State :=
  let ready := s.twin.staleResends.filter (resendNow s)
  let s := { s with twin.staleResends := s.twin.staleResends.filter fun r => !resendNow s r }
  ready.foldl (fun s r => resendBody s r.body) s

/-! ### HELLO and TIME (R21, R32, R330, R331, R372, R570 to R573) -/

/-- Priority claims that agree are a conflict: side A holds it (R330). -/
def checkPriority (s : State) (h : Hello) : State :=
  if s.twin.optPriority = h.priority then
    let s := raise (setFlag s Reg.FLK_TWIN_ERR.priority_conflict) 1521 .prioConflict 0xFFF []
    putFlag s Reg.FLK_TWIN_CFG.priority (!sideB s)
  else putFlag s Reg.FLK_TWIN_CFG.priority s.twin.optPriority

/-- At each pairing the further device time is the pair's reference, and the other steps forward to it once (R21). DESIGN CHOICE: of two
equal times side A's is the reference. -/
def alignTime (s : State) (h : Hello) : State :=
  if s.twin.timePaired then s
  else
    let ahead := decide (h.deviceTime < s.devTime) || (decide (h.deviceTime = s.devTime) && !sideB s)
    let s := setF (putFlag (setFlag s Reg.GLB_TIME_ALIGN.aligned) Reg.GLB_TIME_ALIGN.reference ahead) Reg.GLB_TIME_ALIGN.offset_ns 0
    { s with devTime := max s.devTime h.deviceTime, twin.timePaired := true, twin.slew := 0 }

/-- Both controllers report one side (R331). -/
def sideConflict (s : State) (h : Hello) : State :=
  let s := raise (setFlag s Reg.FLK_TWIN_ERR.side_conflict) 1521 .sideConflict 0xFFF [if sideB s then 1 else 0]
  if serving s then assertFence s
  else if h.serving then setMode s mFenced
  else haltStart s 8

/-- The controllers carry different capacities (R32): one serves alone, the other stays fenced and halts its start. -/
def capacityConflict (s : State) (h : Hello) : State :=
  let s := raise (setFlag { s with twin.mustFull := true } Reg.FLK_TWIN_ERR.cap_mismatch) 1521 .capMismatch 0xFFF [s.plots.maxCapacity, h.maxCapacity]
  if serving s then assertFence s
  else if h.serving || !priority s then haltStart (setMode { unpairTime s false with twin.aliveOut := 2 } mFenced) 6
  else startSolo s

/-- What the HELLO decides (R372, R570 to R573). -/
def helloRoles (s : State) (f : FrameIn) (h : Hello) : State :=
  let start : TwinStart := { record := h.record, image := h.image.val, lostFrom := h.lostFrom, restored := h.restored }
  if twinMode s = mSolo && !h.serving then
    if h.restored then startResync s h else sendHello s
  else if serving s then s
  else if h.serving then
    if !armed s || twinMode s = mTarget && h.mode.val ≠ mSolo then becomeReturningOnce s
    else
      let s := enterTarget s f.epoch
      if h.mode.val = mSolo then sendHello s else s
  else if stage s = stBoot || stage s = stTraining || stage s = stRecovery || stage s = stHalted || twinMode s = mFenced then s
  else decidePair { s with glb.twinStart := some start } start
where
  /-- the twin serves and this side cannot join it yet -/
  becomeReturningOnce (s : State) : State := if twinMode s = mTarget || twinMode s = mFenced then s else becomeReturning s

/-- HELLO (R372). -/
def doHello (f : FrameIn) (h : Hello) (s : State) : State :=
  match frameIn s f true with
  | (false, s) => s
  | (true, s) =>
    let first := !s.twin.helloSeen
    let s := checkPriority (alignTime (setTwinEpoch { s with twin.helloSeen := true } f.epoch) h) h
    let s := if first then sendHello s else s
    if h.sideB = sideB s then sideConflict s h
    else if h.maxCapacity ≠ s.plots.maxCapacity then capacityConflict s h
    else helloRoles s f h

/-- TIME: the controller that is not the reference learns how far its count is to be slewed; the timer makes that up by 1 ns in each
1 µs of its own (R21). -/
def doTime (f : FrameIn) (deviceTime : Nat) (s : State) : State :=
  match frameIn s f false with
  | (false, s) => s
  | (true, s) =>
    if flag s Reg.GLB_TIME_ALIGN.reference || !s.twin.timePaired then s
    else
      let off := if s.devTime ≤ deviceTime then 65536 - min 32768 (deviceTime - s.devTime) else min 32767 (s.devTime - deviceTime)
      let s := setF s Reg.GLB_TIME_ALIGN.offset_ns (off % 65536)
      let s := putFlag s Reg.GLB_TIME_ALIGN.aligned (decide (deviceTime ≤ s.devTime + 20) && decide (s.devTime ≤ deviceTime + 20))
      { s with twin.slew := (deviceTime : Int) - (s.devTime : Int) }

/-! ### The lines (R347 to R352, R360 to R363) -/

/-- FENCE_IN_RISE (R349, R351). -/
def doFenceInRise (s : State) : State :=
  let s := { putFlag (restartStable s) Reg.FLK_TWIN_STS.fence_in true with twin.fenceInAt := some s.devTime, twin.fenceLineIgnored := false }
  if linkOk s then
    match s.twin.demandFrameAt with
    | some t => if within10us s t && (mirrored s || solo s) then fenceSelf s [] else s
    | none => s
  else if mirrored s || solo s then judgeDemand s
  else s

/-- FENCE_IN_FALL: the survivor's demand drops; a returning controller has been resynchronised (R361, R373). -/
def doFenceInFall (s : State) : State :=
  let s := { putFlag s Reg.FLK_TWIN_STS.fence_in false with twin.fenceInAt := none, twin.fenceLineIgnored := false }
  if twinMode s = mTarget then endTarget s else s

/-- FENCE_LINE_FAULT: the line stands asserted with the link up and no frame within 10 µs (R349). -/
def doFenceLineFault (s : State) : State :=
  if fenceIn s && linkOk s && !s.twin.fenceLineIgnored then
    raise (setFlag { s with twin.fenceLineIgnored := true } Reg.FLK_TWIN_ERR.fence_line_fault) 1521 .fenceLineFault 0xFFF []
  else s

/-- ALIVE_IN_CHANGE (R347, R352, R360, R573). -/
def doAliveInChange (level : AliveLevel) (s : State) : State :=
  let v := match level with
    | .absent => 0
    | .toggling => 1
    | .fenced => 2
  let s := setF s Reg.FLK_TWIN_STS.alive_in v
  let known := !(stage s = stBoot || stage s = stTraining || stage s = stRecovery || stage s = stHalted)
  if twinMode s = mHandshake then checkHandshake s
  else if level = .fenced && flag s Reg.FLK_TWIN_STS.link_lost && mirrored s then takeover s
  else if level = .fenced && twinMode s = 0 && known && !s.twin.helloSeen && !s.glb.roleDecided &&
      (recordClass s.glb.record = 1 || recordClass s.glb.record = 2) then startSolo s
  else s

/-- ALIVE_READBACK_FAULT (R348). -/
def doAliveReadbackFault (s : State) : State :=
  fenceSelf (raise (setFlag s Reg.FLK_TWIN_ERR.alive_fault) 1521 .aliveFault 0xFFF []) []

/-- FENCE_HANDSHAKE_TIMEOUT: the twin still toggles 1 ms after the demand, and no LEASE came meanwhile (R352). -/
def doFenceHandshakeTimeout (s : State) : State :=
  match s.twin.fenceOutAt with
  | some t =>
    if twinMode s = mHandshake && t + 1000000 ≤ s.devTime && s.twin.leaseRxAt ≤ t then
      takeover (raiseFull (setFlag s Reg.FLK_TWIN_ERR.fence_timeout) 1521 3 .fenceTimeout 0xFFF [] .everyone)
    else s
  | none => s

/-! ### Copies and takeback (R373, R375, R377, R378) -/

/-- resync_gbps as it acts (R382): bytes of copy payload in each ns. -/
def resyncGbps (s : State) : Nat := max 1 (min 200 (getF s Reg.FLK_TWIN_CFG.resync_gbps))

/-- RESYNC_COPY: engine 0x31A sends the next clod, no faster than resync_gbps, unless the receiver is at its soft threshold (R373, R375); a
clod that lies in Bedrock is read first. -/
def doResyncCopy (s : State) : State :=
  match s.twin.resync with
  | none => s
  | some r =>
    if (twinMode s ≠ mSource && twinMode s ≠ mMirrored) || reached s.pou.partnerLevel (getF s Reg.POU_BP_CFG.soft_pct) ||
        s.devTime < s.twin.copyNext || !retainFits s 65680 then s
    else match r.left.find? fun c => clodStable s c && (copyRead s c || !(s.twin.copies.any fun x => x.1 = c)) with
      | none => pairDrained s
      | some c =>
        if !copyRead s c then askCopy s c
        else
          let s := { sendClod s c with twin.copyNext := s.devTime + 65536 / resyncGbps s }
          { s with twin.resync := some { r with left := r.left.erase c, sent := r.sent ++ [(c, s.twin.txOrdered)] } }

/-- Plots of which this controller is home and the twin the preferred home. -/
def strayPlots (s : State) : List Nat :=
  ((admitted s).filter fun e => e.2.curHome = sideB s && e.2.prefHome ≠ sideB s).map (·.1)

/-- TAKEBACK_TIMER: the stable period has passed (R377). -/
def doTakebackTimer (s : State) : State :=
  let groups := ((strayPlots s).map groupOf).eraseDups
  if twinMode s ≠ mMirrored || !flag s Reg.FLK_TWIN_CFG.takeback_en || !linkOk s || s.twin.takeback.isSome || groups.isEmpty ||
      s.devTime < s.twin.stableAt + s.twin.stableS * 1000000000 then s
  else { s with twin.takeback := some { groups := sortAsc groups, group := 0, plots := [], sent := none } }

/-- TAKEBACK_GROUP: the next group's moving plots stop (R378 step 1). -/
def doTakebackGroup (s : State) : State :=
  match s.twin.takeback with
  | some t =>
    match t.plots, t.groups with
    | [], g :: rest =>
      { s with twin.takeback := some { groups := rest, group := g, plots := (strayPlots s).filter fun p => groupOf p = g, sent := none } }
    | _, _ => s
  | none => s

/-! ### The commands -/

/-- A twin port goes down (R333). -/
def execTwinPortDown (port : Fin 8) (s : State) : Host.Outcome State Fault Refusal := settles s (doTwinPortDown port s)
/-- A twin port comes up (R333). -/
def execTwinPortUp (port : Fin 8) (s : State) : Host.Outcome State Fault Refusal := settles s (doTwinPortUp port s)
/-- The link falls silent (R333). -/
def execTwinLinkSilence (s : State) : Host.Outcome State Fault Refusal := settles s (doTwinLinkSilence s)
/-- A MIRROR frame (R340). -/
def execMirror (f : FrameIn) (plot : PlotId) (seq : Nat) (records : List MirrorRec) (s : State) : Host.Outcome State Fault Refusal :=
  settles s (doMirror f plot seq records s)
/-- A MIRROR_ACK frame (R340). -/
def execMirrorAck (f : FrameIn) (ackCtr : Nat) (s : State) : Host.Outcome State Fault Refusal := settles s (doMirrorAck f ackCtr s)
/-- An acknowledgement falls due (R340). -/
def execMirrorAckTimer (s : State) : Host.Outcome State Fault Refusal := settles s (doMirrorAckTimer s)
/-- A DURABLE_NOTICE frame (R31). -/
def execDurableNotice (f : FrameIn) (plot : PlotId) (seq : Nat) (s : State) : Host.Outcome State Fault Refusal :=
  settles s (doDurableNotice f plot seq s)
/-- A FWD_WRITE frame (R344). -/
def execFwdWrite (f : FrameIn) (mid : Mid) (tag : Fin 256) (line : LineNo) (data : Line) (be : ByteMask) (poison : Bool) (metaVal : MetaValue)
    (s : State) : Host.Outcome State Fault Refusal :=
  settles s (doFwdWrite f mid tag line data be poison metaVal s)
/-- A FWD_READ frame (R13). -/
def execFwdRead (f : FrameIn) (seq : Nat) (mid : Mid) (tag : Fin 256) (line : LineNo) (metaVal : MetaValue) (s : State) :
    Host.Outcome State Fault Refusal :=
  settles s (doFwdRead f seq mid tag line metaVal s)
/-- A READ_DATA frame (R13). -/
def execReadData (f : FrameIn) (mid : Mid) (tag : Fin 256) (poison : Bool) (data : Line) (denied : Bool) (s : State) :
    Host.Outcome State Fault Refusal :=
  settles s (doReadData f mid tag poison data denied s)
/-- A FWD_REFUSE frame (R344). -/
def execFwdRefuse (f : FrameIn) (mid : Mid) (tag : Fin 256) (s : State) : Host.Outcome State Fault Refusal := settles s (doFwdRefuse f mid tag s)
/-- A LEASE frame (R343). -/
def execLease (f : FrameIn) (marks : List (PlotId × Nat)) (s : State) : Host.Outcome State Fault Refusal := settles s (doLease f marks s)
/-- A LEASE_ACK frame (R345). -/
def execLeaseAck (f : FrameIn) (ackCtr : Nat) (s : State) : Host.Outcome State Fault Refusal := settles s (doLeaseAck f ackCtr s)
/-- A LEASE falls due (R345). -/
def execLeaseSendTimer (s : State) : Host.Outcome State Fault Refusal := settles s (doLeaseSendTimer s)
/-- The own lease lapses (R345). -/
def execLeaseLapse (s : State) : Host.Outcome State Fault Refusal := settles s (doLeaseLapse s)
/-- The twin has been silent for 60 µs (R346). -/
def execTwinSilenceTimeout (s : State) : Host.Outcome State Fault Refusal := settles s (doTwinSilenceTimeout s)
/-- A gap has lasted 10 µs (R342). -/
def execGapTimeout (s : State) : Host.Outcome State Fault Refusal := settles s (doGapTimeout s)
/-- A NACK frame (R342). -/
def execNack (f : FrameIn) (nackCtr : Nat) (s : State) : Host.Outcome State Fault Refusal := settles s (doNack f nackCtr s)
/-- A period ends (R365). -/
def execDigestTimer (s : State) : Host.Outcome State Fault Refusal := settles s (doDigestTimer s)
/-- A DIGEST marker (R365). -/
def execDigestMarker (f : FrameIn) (period : Nat) (digests : List DWord) (s : State) : Host.Outcome State Fault Refusal :=
  settles s (doDigestMarker f period digests s)
/-- A DIGEST reply (R365, R366). -/
def execDigestReply (f : FrameIn) (period : Nat) (reply : DigestAnswer) (s : State) : Host.Outcome State Fault Refusal :=
  settles s (doDigestReply f period reply s)
/-- A disputed group's own check has ended (R366). -/
def execDigestCheckDone (group : Fin 64) (ownPassed : Bool) (s : State) : Host.Outcome State Fault Refusal :=
  settles s (doDigestCheckDone group ownPassed s)
/-- A SNOOP_REQ frame (R210). -/
def execSnoopReq (f : FrameIn) (tag : Nat) (line : LineNo) (inv : Bool) (ahead : List (Mid × Fin 256)) (s : State) :
    Host.Outcome State Fault Refusal :=
  settles s (doSnoopReq f tag line inv ahead s)
/-- A SNOOP_RSP frame (R210). -/
def execSnoopRsp (f : FrameIn) (tag : Nat) (s : State) : Host.Outcome State Fault Refusal := settles s (doSnoopRsp f tag s)
/-- A CLOD_FETCH frame (R288). -/
def execClodFetch (f : FrameIn) (tag : Nat) (clod : ClodNo) (seq : Nat) (s : State) : Host.Outcome State Fault Refusal :=
  settles s (doClodFetch f tag clod seq s)
/-- A CLOD_DATA frame (R288, R374). -/
def execClodData (f : FrameIn) (tag : Nat) (clod : ClodNo) (half : Fin 2) (lines : Option ClodImage) (s : State) : Host.Outcome State Fault Refusal :=
  settles s (doClodData f tag clod half lines s)
/-- A RESYNC_CLOD frame (R374). -/
def execResyncClod (f : FrameIn) (clod : ClodNo) (half : Fin 2) (lines : ClodImage) (s : State) : Host.Outcome State Fault Refusal :=
  settles s (doResyncClod f clod half lines s)
/-- The sampler picks a line (R368). -/
def execSampleTimer (line : LineNo) (s : State) : Host.Outcome State Fault Refusal := settles s (doSampleTimer line s)
/-- A SAMPLE_REQ frame (R368). -/
def execSampleReq (f : FrameIn) (tag : Nat) (line : LineNo) (plot : PlotId) (seq : Nat) (s : State) : Host.Outcome State Fault Refusal :=
  settles s (doSampleReq f tag line plot seq s)
/-- A SAMPLE_RSP frame (R368). -/
def execSampleRsp (f : FrameIn) (tag : Nat) (crc : Option DWord) (s : State) : Host.Outcome State Fault Refusal := settles s (doSampleRsp f tag crc s)
/-- A HEALTH report falls due (R370). -/
def execHealthTimer (s : State) : Host.Outcome State Fault Refusal := settles s (doHealthTimer s)
/-- A HEALTH frame (R370). -/
def execHealth (f : FrameIn) (report : HealthReport) (s : State) : Host.Outcome State Fault Refusal := settles s (doHealth f report s)
/-- The twin's report is missing (R370). -/
def execHealthMissing (s : State) : Host.Outcome State Fault Refusal := settles s (doHealthMissing s)
/-- An ADMIN frame (R52, R70). -/
def execAdmin (f : FrameIn) (op : AdminOp) (s : State) : Host.Outcome State Fault Refusal := settles s (doAdmin f op s)
/-- A ROLE_CHANGE frame (R378, R379): the list of plots names the group. -/
def execRoleChange (f : FrameIn) (newEpoch_ : Word) (_group : Fin 64) (plots : List (PlotId × Nat)) (s : State) : Host.Outcome State Fault Refusal :=
  settles s (doRoleChange f newEpoch_ plots s)
/-- A ROLE_CHANGE is sent again (R379). -/
def execRoleChangeRetry (s : State) : Host.Outcome State Fault Refusal := settles s (doRoleChangeRetry s)
/-- A FENCE_DEMAND frame (R349). -/
def execFenceDemand (f : FrameIn) (s : State) : Host.Outcome State Fault Refusal := settles s (doFenceDemand f s)
/-- A FENCE_NOTICE frame (R360). -/
def execFenceNotice (f : FrameIn) (s : State) : Host.Outcome State Fault Refusal := settles s (doFenceNotice f s)
/-- A STALE_EPOCH frame (R381). -/
def execStaleEpoch (f : FrameIn) (twinEpoch_ : Word) (ctr : Nat) (ftype : Fin 256) (s : State) : Host.Outcome State Fault Refusal :=
  settles s (doStaleEpoch f twinEpoch_ ctr ftype s)
/-- Rejected frames are sent again (R381). -/
def execStaleResendTimer (s : State) : Host.Outcome State Fault Refusal := settles s (doStaleResendTimer s)
/-- A HELLO frame (R372). -/
def execHello (f : FrameIn) (h : Hello) (s : State) : Host.Outcome State Fault Refusal := settlesTimed s (doHello f h s)
/-- A TIME frame (R21). -/
def execTime (f : FrameIn) (deviceTime : Nat) (s : State) : Host.Outcome State Fault Refusal := settles s (doTime f deviceTime s)
/-- TW_FENCE_IN rises (R349). -/
def execFenceInRise (s : State) : Host.Outcome State Fault Refusal := settles s (doFenceInRise s)
/-- TW_FENCE_IN falls (R361). -/
def execFenceInFall (s : State) : Host.Outcome State Fault Refusal := settles s (doFenceInFall s)
/-- A demand on the line alone (R349). -/
def execFenceLineFault (s : State) : Host.Outcome State Fault Refusal := settles s (doFenceLineFault s)
/-- TW_ALIVE_IN changes (R347). -/
def execAliveInChange (level : AliveLevel) (s : State) : Host.Outcome State Fault Refusal := settles s (doAliveInChange level s)
/-- TW_ALIVE_OUT does not read back as driven (R348). -/
def execAliveReadbackFault (s : State) : Host.Outcome State Fault Refusal := settles s (doAliveReadbackFault s)
/-- The handshake has lasted 1 ms (R352). -/
def execFenceHandshakeTimeout (s : State) : Host.Outcome State Fault Refusal := settles s (doFenceHandshakeTimeout s)
/-- The copy engine sends a clod (R373). -/
def execResyncCopy (s : State) : Host.Outcome State Fault Refusal := settles s (doResyncCopy s)
/-- The stable period before a takeback has passed (R377). -/
def execTakebackTimer (s : State) : Host.Outcome State Fault Refusal := settles s (doTakebackTimer s)
/-- The next group of a takeback (R378). -/
def execTakebackGroup (s : State) : Host.Outcome State Fault Refusal := settles s (doTakebackGroup s)
/-- An engine begins a self-test slice (R369). -/
def execSelftestSliceStart (engine : Mid) (s : State) : Host.Outcome State Fault Refusal := settles s (doSelftestSliceStart engine s)
/-- A slice ends (R369). -/
def execSelftestSliceDone (engine : Mid) (failed : Bool) (s : State) : Host.Outcome State Fault Refusal :=
  settles s (doSelftestSliceDone engine failed s)

end Sys2Proof.Machine
end

