-- ==== Sys2Proof/Machine/Clocks.lean ====
section
/-! DEFINITION. Meanings of the always-on domain's resets and of clock faults (R477, R588, R617). -/

namespace Sys2Proof.Machine

/-! ### VDD_AON (R474, R477, R617) -/

/-- AON_POWER_ON_RESET: PHS loses its state with its supply; a flush that runs leaves what the beds hold, without closing grains. -/
def doAonPowerOnReset (s : State) : State :=
  let s := if flushing s then
      let (p, s) := someSealed s
      storeImage s p false false
    else s
  let t := dieOff (cutCrash s)
  { t with
    phs := {}
    regs := t.regs.filter fun e => e.1 / 1048576 / 16777216 ≠ 12
    pairPend := t.pairPend.filter fun e => e.1 / 1048576 / 16777216 ≠ 12
    devTime := 0 }

/-- AON_RESET_RELEASE: PHS runs in OFF, and device time starts. -/
def doAonResetRelease (s : State) : State := if s.phs.running then s else { s with phs.running := true }

/-! ### References and PLLs (R588) -/

/-- A clock fault: its flag, and its event from a GLB source. -/
def clockFault (s : State) (err : Field) (detail : List Nat) : State := raise (setFlag s err) 1280 .clockFault 0xFFF detail

/-- REFCLK_B_LOSS: the reference is lost, or the root PLL unlocks from it; the PLL holds over, and the run ends as for a fault with
action 1, with cause channel 31. -/
def doRefclkBLoss (lost : Bool) (s : State) : State :=
  if s.phs.dieReset then s
  else
    let s := if lost then putFlag (clockFault s Reg.GLB_CLK_ERR.refclk_b_loss [31]) Reg.GLB_CLK_STS.refclk_b_ok false
      else clockFault s Reg.GLB_CLK_ERR.root_unlock [31]
    let s := setFlag (putFlag s Reg.GLB_CLK_STS.root_lock false) Reg.GLB_CLK_STS.holdover
    if phsState s = phsRunning then stopRun s (some 31) 2 else s

/-- Host links go down, and those that were training stop. -/
def stopLinks (s : State) (ports : List Nat) : State :=
  ports.foldl (fun s p => updLink (if linkUp s p then linkDown s p else s) p fun l => { l with training := false }) s

/-- REFCLK_A_LOSS: every host link goes down (R97). -/
def doRefclkALoss (s : State) : State :=
  if s.phs.dieReset then s
  else stopLinks (putFlag (clockFault s Reg.GLB_CLK_ERR.refclk_a_loss [0]) Reg.GLB_CLK_STS.refclk_a_ok false) (List.range 16)

/-- REFCLK_A_RETURN: host links retrain. -/
def doRefclkAReturn (s : State) : State :=
  if s.phs.dieReset then s else startAllTraining (putFlag s Reg.GLB_CLK_STS.refclk_a_ok true)

/-- DDR_PLL_UNLOCK: the channel is held and retrained (R243). -/
def doDdrPllUnlock (channel : Fin 16) (s : State) : State :=
  if s.phs.dieReset then s
  else
    let ch := channel.val
    let s := clockFault s Reg.GLB_CLK_ERR.ddr_unlock [ch]
    let s := setF s Reg.GLB_CLK_STS.ddr_lock (clearBit (getF s Reg.GLB_CLK_STS.ddr_lock) ch)
    let s := askRetrain (updLoamChan s ch fun c => { c with heldByPll := true }) ch false
    if loamState s ch = 1 || loamState s ch = 3 then
      closeRows (setLoamState (updLoamChan s ch fun c => { c with segment := true }) ch 2) ch
    else s

/-- The lock bits of a SerDes PLL: 0 to 3 host groups, 4 and 5 twin ports, 6 and 7 chain ports. -/
def pllBit (pll : Nat) : Field × Nat :=
  if pll < 4 then (Reg.GLB_CLK_STS.host_sd_lock, pll)
  else if pll < 6 then (Reg.GLB_CLK_STS.twin_sd_lock, pll - 4)
  else (Reg.GLB_CLK_STS.chain_sd_lock, pll - 6)

/-- The four ports of a PLL. -/
def pllPorts (pll : Nat) : List Nat := (List.range 4).map ((pllBit pll).2 * 4 + ·)

/-- SERDES_PLL_UNLOCK: its links go down (R97, R333). -/
def doSerdesPllUnlock (pll : Fin 8) (s : State) : State :=
  if s.phs.dieReset then s
  else
    let (f, b) := pllBit pll.val
    let s := setF (clockFault s Reg.GLB_CLK_ERR.sd_unlock [pll.val]) f (clearBit (getF s f) b)
    if pll.val < 4 then stopLinks s (pllPorts pll.val)
    else if pll.val < 6 then (pllPorts pll.val).foldl (fun s p => doTwinPortDown (Fin.ofNat 8 p) s) s
    else (pllPorts pll.val).foldl (fun s p => doChainPortDown (Fin.ofNat 8 p) none s) s

/-- SERDES_PLL_RELOCK: host links of its group retrain; twin and chain ports train and report (R588). -/
def doSerdesPllRelock (pll : Fin 8) (s : State) : State :=
  if s.phs.dieReset then s
  else
    let (f, b) := pllBit pll.val
    let s := setF s f (clearBit (getF s f) b + 2 ^ b)
    if pll.val < 4 then (pllPorts pll.val).foldl startTraining s else s

/-! ### The commands -/

/-- VDD_AON falls (R617): device time is lost with PHS. -/
def execAonPowerOnReset (s : State) : Host.Outcome State Fault Refusal := .next { doAonPowerOnReset s with pending := s.pending }
/-- The always-on reset is released (R477). -/
def execAonResetRelease (s : State) : Host.Outcome State Fault Refusal := finishes s (doAonResetRelease s)
/-- REFCLK_B is lost (R588). -/
def execRefclkBLoss (lost : Bool) (s : State) : Host.Outcome State Fault Refusal := completes s (doRefclkBLoss lost s)
/-- REFCLK_A is lost (R588). -/
def execRefclkALoss (s : State) : Host.Outcome State Fault Refusal := settles s (doRefclkALoss s)
/-- REFCLK_A returns (R588). -/
def execRefclkAReturn (s : State) : Host.Outcome State Fault Refusal := finishes s (doRefclkAReturn s)
/-- A DDR PHY PLL unlocks (R588). -/
def execDdrPllUnlock (channel : Fin 16) (s : State) : Host.Outcome State Fault Refusal := finishes s (doDdrPllUnlock channel s)
/-- A SerDes PLL unlocks (R588). -/
def execSerdesPllUnlock (pll : Fin 8) (s : State) : Host.Outcome State Fault Refusal := settles s (doSerdesPllUnlock pll s)
/-- A SerDes PLL relocks (R588). -/
def execSerdesPllRelock (pll : Fin 8) (s : State) : Host.Outcome State Fault Refusal := finishes s (doSerdesPllRelock pll s)

end Sys2Proof.Machine
end

