-- ==== Sys2Proof/Machine/Codes.lean ====
section
/-! DEFINITION. What the spec says is stored or sent bit by bit: translation entries and overlay records, grain and frame headers,
IVs and tweaks, the inputs of key derivation, and the codes of rows and lines. Commands carry what decoders find as operands; these
functions say what the decoders check. -/

namespace Sys2Proof.Machine

/-! ### Fields into words -/

/-- Fields (low bit, width, value) as one number. -/
def packFields (fs : List (Nat × Nat × Nat)) : Nat := fs.foldl (fun n f => n + f.2.2 % 2 ^ f.2.1 * 2 ^ f.1) 0

/-- A number's lowest `n` bytes, least significant first. -/
def lowBytes (n v : Nat) : List (BitVec 8) := (List.range n).map fun i => BitVec.ofNat 8 (v / 2 ^ (8 * i))

/-! ### CRCs (R44, R303) -/

/-- One step of a CRC that takes the most significant bit first. -/
def crcStepMsb (width poly c : Nat) (bit : Bool) : Nat :=
  let top := decide (c / 2 ^ (width - 1) % 2 = 1)
  let c := c * 2 % 2 ^ width
  if (top != bit) then c ^^^ poly else c

/-- The CRC-8 of a translation entry, polynomial 0x07, over bits 119 down to 0, from 0 (the order and the start: DEDUCED, log entry 44). -/
def crc8 (v : Nat) : Nat := (List.range 120).foldl (fun c i => crcStepMsb 8 0x07 c (v.testBit (119 - i))) 0

/-- One bit of a CRC-32C in reflected form. -/
def crc32cStep (c : Nat) : Nat := if c % 2 = 1 then c / 2 ^^^ 0x82F63B78 else c / 2

/-- CRC-32C, polynomial 0x1EDC_6F41 (R303, R514); reflected, initial value and final XOR all ones (PRESUMED, log entry 44). -/
def crc32c (bytes : List (BitVec 8)) : Nat :=
  bytes.foldl (fun c b => (List.range 8).foldl (fun c _ => crc32cStep c) (c ^^^ b.toNat)) 0xFFFFFFFF ^^^ 0xFFFFFFFF

/-! ### Records in reserved Loam (R44, R303) -/

/-- Bits 119 to 0 of a clod's translation entry. -/
def entryBits (e : Entry) : Nat :=
  packFields [(0, 2, e.tier.val), (2, 1, e.dirty.toNat), (3, 1, e.hasBase.toNat), (4, 1, e.lock.isSome.toNat), (5, 4, (e.lock.getD 0).val),
    (9, 4, e.pins.val), (13, 1, e.marked.toNat), (16, 27, e.frame), (43, 21, e.overlay), (64, 2, e.bed.val), (66, 20, e.stratum),
    (86, 14, e.row), (100, 5, e.grain), (106, 8, e.heat)]

/-- The sixteen bytes of an entry whose crc8 matches. -/
def entryWord (e : Entry) : BitVec 128 := BitVec.ofNat 128 (entryBits e + crc8 (entryBits e) * 2 ^ 120)

/-- How many of the lowest `n` bits of a map are set. -/
def setBits (v : Nat) : Nat → Nat
  | 0 => 0
  | n + 1 => setBits v n + (v.testBit n).toNat

/-- Bytes 0 to 251 of an overlay record. -/
def overlayBody (o : Overlay) : List (BitVec 8) :=
  lowBytes 128 o.valid.toNat ++ lowBytes 4 o.clod ++ lowBytes 2 o.generation ++ lowBytes 2 (setBits o.valid.toNat 1024) ++ List.replicate 116 0

/-- An overlay record of 256 bytes whose crc matches. -/
def overlayBytes (o : Overlay) : List (BitVec 8) := overlayBody o ++ lowBytes 4 (crc32c (overlayBody o))

/-! ### Grains and frames (R266, R334, R339) -/

/-- A grain's header: its kind, grain in its clod, clod, plot generation, stratum generation and media time in ns at sealing. -/
def grainHeader (kind grain clod generation stratumGen mediaTime : Nat) : BitVec 128 :=
  BitVec.ofNat 128 (packFields [(0, 8, kind), (8, 4, grain), (16, 32, clod), (48, 16, generation), (64, 32, stratumGen), (96, 32, mediaTime / 2 ^ 30)])

/-- A header's kind marks the grain bad (R266). -/
def badKind (kind : Nat) : Bool := decide (kind < 1) || decide (5 < kind)

/-- A twin frame's header with `length` payload bytes. -/
def frameHeader (f : TwinFrame) (length : Nat) : BitVec 256 :=
  BitVec.ofNat 256 (packFields [(0, 8, f.ftype), (8, 1, f.sideB.toNat), (9, 1, f.ordered.toNat), (13, 17, length), (32, 32, f.epoch.toNat), (64, 64, f.ctr),
    (128, 64, f.seq), (192, 12, f.plot), (208, 11, min 2047 f.level), (219, 1, f.stop.toNat)])

/-- A write's descriptor in a MIRROR frame. -/
def mirrorDescriptor (line : Nat) (poison fwd : Bool) (mid tag : Nat) : BitVec 64 :=
  BitVec.ofNat 64 (packFields [(0, 42, line), (42, 1, poison.toNat), (43, 1, fwd.toNat), (44, 12, mid), (56, 8, if fwd then tag else 0)])

/-! ### IVs and tweaks (R436, R437, R440) -/

/-- The XTS tweak of a plot's line, from its DPA; a line of reserved Loam uses its LPA in place of it. -/
def xtsTweak (addr : Nat) : BitVec 128 := BitVec.ofNat 128 (addr / 64 * 64)

/-- The IV of a grain. -/
def grainIv (bed stratum row pos : Nat) : BitVec 96 := BitVec.ofNat 96 (packFields [(0, 14, row), (14, 5, pos), (19, 20, stratum), (39, 2, bed)])

/-- The IV of a frame. -/
def frameIv (ctr : Nat) (ordered : Bool) : BitVec 96 := BitVec.ofNat 96 (packFields [(0, 64, ctr), (64, 8, if ordered then 0 else 1)])

/-! ### Key derivation (R431 to R434) -/

/-- What a key is derived for: its purpose, and its context where the purpose has one. -/
inductive KeyPurpose where
  | plotXts (plot keyGen : Nat)
  | grain (plot keyGen bed stratum stratumGen : Nat)
  | kiln (bed stratum stratumGen : Nat)
  | reservedLoam
  | metadata (bed stratum stratumGen : Nat)
  | linkUp
  | linkDown
  deriving DecidableEq, Repr

/-- The purpose code (R433). -/
def keyLabel : KeyPurpose → Nat
  | .plotXts _ _ => 1
  | .grain _ _ _ _ _ => 2
  | .kiln _ _ _ => 3
  | .reservedLoam => 4
  | .metadata _ _ _ => 5
  | .linkUp => 6
  | .linkDown => 7

/-- The output length in bits. -/
def keyBits : KeyPurpose → Nat
  | .plotXts _ _ => 512
  | .reservedLoam => 512
  | _ => 256

/-- Plot ID, key_gen, bed, stratum and stratum generation as the PRF takes them (R432). -/
def keyContext : KeyPurpose → Nat × Nat × Nat × Nat × Nat
  | .plotXts p g => (p, g, 0, 0, 0)
  | .grain p g b k n => (p, g, b, k, n)
  | .kiln b k n => (0x0FFF, 0, b, k, n)
  | .metadata b k n => (0x0FFF, 0, b, k, n)
  | _ => (0x0FFF, 0, 0, 0, 0)

/-- The `i`-th PRF input, 24 bytes (R432). -/
def prfInput (k : KeyPurpose) (i : Nat) : List (BitVec 8) :=
  let (plot, gen, bed, stratum, stratumGen) := keyContext k
  lowBytes 1 i ++ lowBytes 4 (keyLabel k) ++ [0] ++ lowBytes 2 plot ++ lowBytes 4 gen ++ lowBytes 1 bed ++ [0] ++ lowBytes 4 (stratum % 2 ^ 20) ++
    lowBytes 4 stratumGen ++ lowBytes 2 (keyBits k)

/-- The bytes of the derived key under a key-derivation key, most significant byte first: the root key, or a link's session secret. -/
def deriveKey (root : BitVec 256) (k : KeyPurpose) : List Nat :=
  (List.range (keyBits k / 128)).flatMap fun i => aesCmac (beBytes 32 root.toNat) ((prfInput k (i + 1)).map (·.toNat))

/-- A plot's key_gen (R434). -/
def keyGenOf (s : State) (plot : Nat) : Nat := (plotRec s plot).generation * 65536 + (plotRec s plot).eraseCount

/-- A plot's XTS key: derived for its current key_gen only (R434). -/
def plotKey (s : State) (plot : Nat) : List Nat := deriveKey Config.rootKey (.plotXts plot (keyGenOf s plot))

/-- The key of a data grain of a plot, in a stratum of a generation (R438). -/
def dataGrainKey (s : State) (plot bed stratum stratumGen : Nat) : List Nat :=
  deriveKey Config.rootKey (.grain plot (keyGenOf s plot) bed stratum stratumGen)

/-- The keys of a link by direction under its session secret: side A, or the lower node, is the lower end (R433). -/
def linkKeys (secret : BitVec 256) : List Nat × List Nat := (deriveKey secret .linkUp, deriveKey secret .linkDown)

/-! ### What stands at rest (R3, R430, R436 to R438). State holds every line in plaintext, as the blocks on the die do; these functions
give what Loam and Bedrock hold of it. -/

/-- A byte string as numbers. -/
def byteNats (bs : List (BitVec 8)) : List Nat := bs.map (·.toNat)

/-- Encrypt a line under an XTS key of 64 bytes, with an address as its tweak. -/
def xtsLine (key : List Nat) (addr : Nat) (l : Line) : List Nat :=
  xtsEncrypt (key.take 32) (key.drop 32) (byteNats (lowBytes 16 (xtsTweak addr).toNat)) (byteNats (lineBytes l))

/-- The 64 bytes that Loam holds for a line of a plot at a line address, before the line code. -/
def loamAtRest (s : State) (line lpa : Nat) : List Nat :=
  xtsLine (plotKey s ((plotOfLine s line).getD 0)) (line * 64) (loamAt s lpa).data

/-- The 64 bytes that Loam holds for a line of a reserved region at its LPA. -/
def reservedAtRest (lpa : Nat) (l : Line) : List Nat := xtsLine (deriveKey Config.rootKey .reservedLoam) (lpa * 64) l

/-- The 64 lines of a sealed clod's grain, byte 0 of line 0 first. -/
def grainBytes (u : UnitSlot) (grain : Nat) : List Nat :=
  (List.range 64).flatMap fun i => byteNats (lineBytes (sget zeroLine u.image (grain * 64 + i)).data)

/-- A data grain as Bedrock holds it: its ciphertext of 4,096 bytes and its tag, with the header in clear (R265, R430). -/
def grainAtRest (s : State) (u : UnitSlot) (grain bed stratum row pos stratumGen : Nat) (header : BitVec 128) : List Nat × List Nat :=
  gcmEncrypt (dataGrainKey s ((plotOfClod s u.clod).getD 0) bed stratum stratumGen) (byteNats (lowBytes 12 (grainIv bed stratum row pos).toNat))
    (byteNats (lowBytes 16 header.toNat)) (grainBytes u grain)

/-- A frame's payload on a link: ciphertext and tag under the direction's key, its header authenticated (R430, R440). -/
def payloadOnLink (key : List Nat) (ctr : Nat) (ordered : Bool) (header payload : List Nat) : List Nat × List Nat :=
  gcmEncrypt key (byteNats (lowBytes 12 (frameIv ctr ordered).toNat)) header payload

/-! ### Codes over GF(2^m) (R270, R406, R407) -/

/-- Multiply by α in GF(2^m). -/
def gfTimesAlpha (m poly a : Nat) : Nat := let d := a * 2; if d / 2 ^ m % 2 = 1 then d ^^^ poly else d

/-- α to a power. -/
def gfAlpha (m poly : Nat) : Nat → Nat
  | 0 => 1
  | n + 1 => gfTimesAlpha m poly (gfAlpha m poly n)

/-- The product of two elements of GF(2^m): `n` bits of the first from the top. -/
def gfMulBits (m poly a b : Nat) : Nat → Nat
  | 0 => 0
  | n + 1 =>
    let top := gfTimesAlpha m poly (gfMulBits m poly a b n)
    if a.testBit (m - 1 - n) then top ^^^ b else top

/-- The product of two elements of GF(2^m). -/
def gfMul (m poly a b : Nat) : Nat := gfMulBits m poly a b m

/-- A word's value at α^j, its first symbol the highest coefficient (DEDUCED, log entry 44). -/
def syndrome (m poly j : Nat) (word : List Nat) : Nat := word.foldl (fun acc c => gfMul m poly acc (gfAlpha m poly j) ^^^ c) 0

/-- A codeword over GF(2^m) with generator roots α^0 to α^(k-1). -/
def isCodeword (m poly k : Nat) (word : List Nat) : Bool := (List.range k).all fun j => syndrome m poly j word = 0

/-- Byte i of a row's 24 grains is a codeword: 20 data symbols, then 4 of parity (R270). -/
def rowByteGood (bytes : List (BitVec 8)) : Bool := decide (bytes.length = 24) && isCodeword 8 0x11D 4 (bytes.map (·.toNat))

/-- The three address symbols of a line's code: LPA[42:6], zero-extended to 48 bits (R407). -/
def addressSymbols (lpa : Nat) : List Nat := [0, 1, 2].map fun i => lpa / 64 % 2 ^ 37 / 2 ^ (16 * i) % 65536

/-- 40 stored symbols of the line at an LPA are a codeword: 32 data symbols, the unstored address symbols, 8 check symbols
(R406, R407). -/
def lineGood (lpa : Nat) (symbols : List Nat) : Bool :=
  decide (symbols.length = 40) && isCodeword 16 0x1100B 8 (symbols.take 32 ++ addressSymbols lpa ++ symbols.drop 32)

end Sys2Proof.Machine
end

