-- ==== Sys2Proof/Machine/Images.lean ====
section
/-! DEFINITION. What stands in the code store word by word: a copy of the option area (R514) and an image slot with its header (R517). -/

namespace Sys2Proof.Machine

/-- The word at a word address of the code store, as the boot ROM and the lockstep pair read it: an erased one reads all ones (R503). -/
def storeWord (s : State) (a : Nat) : Word := ((slook s.mgc.store a).getD none).getD 0xFFFFFFFF

/-- `n` words of the code store from a word address on. -/
def storeWords (s : State) (a n : Nat) : List Word := (List.range n).map fun i => storeWord s (a + i)

/-- The bytes of words, the least significant of each first. -/
def wordBytes (ws : List Word) : List (BitVec 8) := ws.flatMap fun w => lowBytes 4 w.toNat

/-! ### The option area (R514) -/

/-- The magic of a copy. -/
def optionMagic : Nat := 0x4154504F

/-- The first word of a bank's copy. -/
def optionBase (copy : Nat) : Nat := copy * 8388608 + 0x1C00000 / 4

/-- Words 0x0000 to 0x3FF8 of a copy; its CRC follows in the last word. -/
def optionWords (o : OptionArea) : List Word :=
  let ch (i : Nat) : Word × Word × Word × Word := o.channels.getD i (0, 0, 0, 0)
  [BitVec.ofNat 32 optionMagic, BitVec.ofNat 32 o.seq, BitVec.ofNat 32 o.format, BitVec.ofNat 32 o.maxCapacity,
    BitVec.ofNat 32 (o.sideB.toNat + 2 * o.priority.toNat), BitVec.ofNat 32 o.budget, BitVec.ofNat 32 o.topdressGib, BitVec.ofNat 32 o.recordGib,
    BitVec.ofNat 32 o.bond, BitVec.ofNat 32 o.memActiveTo, BitVec.ofNat 32 o.speed, BitVec.ofNat 32 o.ifCfg, BitVec.ofNat 32 o.layout,
    BitVec.ofNat 32 o.layout2, BitVec.ofNat 32 o.silt, BitVec.ofNat 32 o.sand, BitVec.ofNat 32 o.gravel, o.wdtCfg, o.sbCfg] ++
  List.replicate 13 0 ++
  ((List.range 24).flatMap fun i => [(ch i).1, (ch i).2.1, (ch i).2.2.1, (ch i).2.2.2]) ++
  [o.holdupCfg, o.holdupCfg2] ++
  (List.range 3965).map fun i => o.policy.getD i 0

/-- The digest of a copy as it stands in its 16 KiB. -/
def optionDigest (o : OptionArea) : BitVec 384 :=
  let body := wordBytes (optionWords o)
  sha384 (body ++ lowBytes 4 (crc32c body))

/-- A copy as the words of its bank give it; without its magic nothing else of it counts. -/
def readOption (s : State) (copy : Nat) : OptionArea :=
  let w (off : Nat) : Word := storeWord s (optionBase copy + off / 4)
  let n (off : Nat) : Nat := (w off).toNat
  if n 0 ≠ optionMagic then {}
  else
    { magicOk := true, crcOk := decide (n 0x3FFC = crc32c (wordBytes (storeWords s (optionBase copy) 4095)))
      seq := n 0x04, format := n 0x08, maxCapacity := n 0x0C, sideB := (w 0x10).getLsbD 0, priority := (w 0x10).getLsbD 1, budget := n 0x14
      topdressGib := n 0x18, recordGib := n 0x1C, bond := n 0x20, memActiveTo := n 0x24, speed := n 0x28, ifCfg := n 0x2C, layout := n 0x30
      layout2 := n 0x34, silt := n 0x38, sand := n 0x3C, gravel := n 0x40, wdtCfg := w 0x44, sbCfg := w 0x48
      channels := (List.range 24).map fun i => (w (0x80 + i * 16), w (0x84 + i * 16), w (0x88 + i * 16), w (0x8C + i * 16))
      holdupCfg := w 0x200, holdupCfg2 := w 0x204, policy := storeWords s (optionBase copy + 0x208 / 4) 3965 }

/-! ### Image slots (R517, R518) -/

/-- Bytes of an image slot. -/
def slotBytes : Nat := 29360128

/-- An image length the header may give. -/
def lengthOk (n : Nat) : Bool := decide (n % 4096 = 0) && decide (0 < n) && decide (n ≤ slotBytes)

/-- A number whose first byte is the most significant. -/
def bigNumber (bs : List (BitVec 8)) : Nat := bs.foldl (fun n b => n * 256 + b.toNat) 0

/-- What a bank's image slot holds, as the boot ROM validates it: magic, format, image_len, digest and signature. -/
def readImage (s : State) (bank : Nat) : ImageHeader :=
  let base := bank * 8388608
  let n (off : Nat) : Nat := (storeWord s (base + off / 4)).toNat
  if n 0 ≠ 0x52425654 || n 4 ≠ 1 || !lengthOk (n 16) then {}
  else
    let head := wordBytes (storeWords s base 8)
    let body := wordBytes (storeWords s (base + 1024) (n 16 / 4 - 1024))
    let digest := BitVec.ofNat 384 (bigNumber (wordBytes (storeWords s (base + 8) 12)))
    let signature := BitVec.ofNat 768 (bigNumber (wordBytes (storeWords s (base + 20) 24)))
    { valid := decide (digest = sha384 (head ++ body)) && Config.imageSigned digest signature
      seq := n 8, securityVersion := n 12, length := n 16, digest := digest }

end Sys2Proof.Machine
end

