-- ==== Sys2Proof/Machine/Rings.lean ====
section
/-! DEFINITION. Meanings of the ring commands (04): set-up, doorbells, descriptor fetch, the operations by opcode, and
their completions. -/

namespace Sys2Proof.Machine

/-! ### Set-up (R108, R110 to R113) -/

/-- The enable checks that are running end (R108, R112): ACTIVE with fresh pointers, or DISABLED with an error code. An enable that passes
clears the code an earlier failed one left (DESIGN CHOICE: R153 names only ring reset as clearing it). -/
def endEnable (s : State) (ld : Ld) (ring : RingNo) : State :=
  if !(ringAt s ld ring).enabling then s
  else
    let i := ringIdx ld ring
    let size (n : Nat) : Bool := decide (4 ≤ n) && decide (n ≤ 16)
    let s := updRing s ld ring fun r => { r with enabling := false }
    if ringsAllowed s ld ≤ ring.val || 4096 ≤ ringsActive s then setRingErr s ld ring errNoRing
    else if sqBase s ld ring % 4096 ≠ 0 || cqBase s ld ring % 4096 ≠ 0 || !size (getFi s Reg.CRE_SQ_SIZE.log2_entries i) ||
        !size (getFi s Reg.CRE_CQ_SIZE.log2_entries i) then setRingErr s ld ring errBadSetup
    else
      updRing (setRingErr s ld ring 0) ld ring fun r =>
        { r with state := .active, sqHead := 0, sqTail := 0, cqHead := 0, cqTail := 0, phase := true, unsignalled := 0, results := [] }

/-- A set-up register's address. -/
def setupAddr (reg : SetupReg) : Nat :=
  match reg with
  | .sqBaseLo => Reg.CRE_SQ_BASE_LO.base_lo.addr
  | .sqBaseHi => Reg.CRE_SQ_BASE_HI.base_hi.addr
  | .sqSize => Reg.CRE_SQ_SIZE.log2_entries.addr
  | .cqBaseLo => Reg.CRE_CQ_BASE_LO.base_lo.addr
  | .cqBaseHi => Reg.CRE_CQ_BASE_HI.base_hi.addr
  | .cqSize => Reg.CRE_CQ_SIZE.log2_entries.addr
  | .irq => Reg.CRE_RING_IRQ.vector.addr

/-- The HI half of a base is written: the 64-bit value takes effect (R6, R582). -/
def writeBaseHi (s : State) (ld : Ld) (ring : RingNo) (lo hi : Nat) (value : Word) : State :=
  let i := ringIdx ld ring
  let s := match pendingLo s lo ld.val with
    | some w => setRegAt s lo i w
    | none => s
  dropLo (setRegAt s hi i value) lo ld.val

/-- A base, size or interrupt register is written (R111): only while the ring is DISABLED; a write that meets running
enable checks takes effect after them (R112). -/
def doRingSetupWrite (ld : Ld) (ring : RingNo) (reg : SetupReg) (value : Word) (s : State) : State :=
  if !ldPresent s ld then s else
  let s := endEnable s ld ring
  let addr := setupAddr reg
  if (ringAt s ld ring).state ≠ .disabled then
    let s := setFlagI s Reg.CRE_RING_STS.setup_err (ringIdx ld ring)
    match reg with
    | .sqBaseHi => dropLo s Reg.CRE_SQ_BASE_LO.base_lo.addr ld.val
    | .cqBaseHi => dropLo s Reg.CRE_CQ_BASE_LO.base_lo.addr ld.val
    | _ => s
  else match reg with
    | .sqBaseLo | .cqBaseLo => pendLo s addr ld.val value
    | .sqBaseHi => writeBaseHi s ld ring Reg.CRE_SQ_BASE_LO.base_lo.addr addr value
    | .cqBaseHi => writeBaseHi s ld ring Reg.CRE_CQ_BASE_LO.base_lo.addr addr value
    | .sqSize | .cqSize | .irq => writeBits s addr (ringIdx ld ring) value 0

/-- CRE_RING_CTL is written (R113): the weight always takes the value written; enable and reset act by the ring's state. -/
def writeCtl (s : State) (ld : Ld) (ring : RingNo) (value : Word) : State :=
  let s := endEnable s ld ring
  let i := ringIdx ld ring
  let s := setFi s Reg.CRE_RING_CTL.weight i (wr value Reg.CRE_RING_CTL.weight)
  let enable := wr value Reg.CRE_RING_CTL.enable = 1 && wr value Reg.CRE_RING_CTL.reset = 0
  match (ringAt s ld ring).state, enable with
  | .disabled, true => updRing s ld ring fun r => { r with enabling := true }
  | .disabled, false => s
  | .active, true => s
  | _, true => setFlagI s Reg.CRE_RING_STS.setup_err i
  | _, false => ringReset true s ld ring

/-- An enable starts its checks (R112). -/
def doRingEnable (ld : Ld) (ring : RingNo) (value : Word) (s : State) : State := atLd s ld (writeCtl s ld ring value)

/-- The checks end. -/
def doRingEnableCheck (ld : Ld) (ring : RingNo) (s : State) : State := endEnable s ld ring

/-- A ring reset (R113). -/
def doRingReset (ld : Ld) (ring : RingNo) (s : State) : State := atLd s ld (ringReset true (endEnable s ld ring) ld ring)

/-- A running ring's weight changes (R113). -/
def doRingWeightSet (ld : Ld) (ring : RingNo) (value : Word) (s : State) : State := atLd s ld (writeCtl s ld ring value)

/-! ### Doorbells (R90, R114 to R117) -/

/-- A doorbell on a link without the IDE stream it requires is denied (R90): the CXL.io stream, which carries it (DESIGN CHOICE: R90 says only
"an active IDE stream"). -/
def ideDenies (s : State) (ld : Ld) : Bool :=
  flag s (portField Reg.HFP_PORT_CTL.ide_required (ld.val / 16)) && !flag s (portField Reg.HFP_PORT_STS.ide_io (ld.val / 16))

/-- A doorbell: dropped and counted unless the ring is ACTIVE and the link allowed; else what it does. An LD that its link does not carry
has none. -/
def doorbell (s : State) (ld : Ld) (ring : RingNo) (act : State → State) : State :=
  if !ldPresent s ld then s
  else if ideDenies s ld then countDenial (incF s Reg.CRE_DOORBELL_DROP_CNT.drops) ld.val 0xFFF 0
  else if (ringAt s ld ring).state ≠ .active then incF s Reg.CRE_DOORBELL_DROP_CNT.drops
  else act s

/-- CRE_SQ_TAIL is written. -/
def doSqTailDoorbell (ld : Ld) (ring : RingNo) (value : Word) (s : State) : State :=
  doorbell s ld ring fun s =>
    let t := wr value Reg.CRE_SQ_TAIL.tail
    if sqEntries s ld ring ≤ t then ringError s ld ring errBadDoorbell else updRing s ld ring fun r => { r with sqTail := t }

/-- CRE_CQ_HEAD is written. -/
def doCqHeadDoorbell (ld : Ld) (ring : RingNo) (value : Word) (s : State) : State :=
  doorbell s ld ring fun s =>
    let h := wr value Reg.CRE_CQ_HEAD.head
    let n := cqEntries s ld ring
    if n ≤ h || cqUnreleased s ld ring < (h + n - (ringAt s ld ring).cqHead) % n then ringError s ld ring errBadDoorbell
    else updRing s ld ring fun r => { r with cqHead := h }

/-! ### Descriptor fetch (R133, R138, R140, R153) -/

/-- Descriptors that outstanding SQ reads will bring. -/
def asked (r : Ring) : Nat := r.sqReads.foldl (fun n x => n + x.2) 0

/-- Room in the descriptor fetch queue's fill bank beside the descriptors on their way. -/
def fetchRoom (s : State) : Nat := queueRoom fetchBank s.cre.fetchQ - s.cre.rings.foldl (fun n e => n + asked e.2) 0

/-- Descriptors a ring may fetch now (R133, R140). -/
def fetchable (s : State) (ld : Ld) (ring : RingNo) : Nat :=
  let r := ringAt s ld ring
  let n := sqEntries s ld ring
  if r.state ≠ .active || 2 ≤ r.sqReads.length then 0
  else
    let held := r.ops.length + asked r
    min (min 8 ((r.sqTail + 2 * n - r.sqHead - asked r) % n))
      (min (min (cqEntries s ld ring - 1 - (cqUnreleased s ld ring + held)) (64 - held)) (fetchRoom s))

/-- Rings of an LD that could use an opportunity, in index order. -/
def readyRings (s : State) (ld : Ld) : List RingNo :=
  (s.cre.rings.filter fun e => e.1 / 256 = ld.val && decide (0 < fetchable s ld (Fin.ofNat 256 e.1))).map fun e => Fin.ofNat 256 e.1

/-- LDs that could. -/
def readyLds (s : State) : List Nat :=
  ((s.cre.rings.filter fun e => decide (0 < fetchable s (Fin.ofNat 256 (e.1 / 256)) (Fin.ofNat 256 e.1))).map fun e => e.1 / 256).eraseDups

/-- The first LD after another, round the circle. -/
def nextLd (s : State) : Option Nat :=
  let turn (l : Nat) : Nat := (l + 511 - s.cre.lastLd) % 256
  (readyLds s).foldl (fun best l =>
    match best with
    | some b => if turn l < turn b then some l else some b
    | none => some l) none

/-- A ring's weight as it acts. -/
def weightOf (s : State) (ld : Ld) (ring : RingNo) : Nat := max 1 (getFi s Reg.CRE_RING_CTL.weight (ringIdx ld ring))

/-- The ring an LD's opportunity goes to, and its opportunities used with this one (R140). -/
def nextRing (s : State) (ld : Ld) : Option (RingNo × Nat) :=
  let ready := readyRings s ld
  let (cur, used) := sget (0, 0) s.cre.turns ld.val
  match ready.find? fun r => r.val = cur && decide (used < weightOf s ld r) with
  | some r => some (r, used + 1)
  | none =>
    match ready.find? fun r => decide (cur < r.val) with
    | some r => some (r, 1)
    | none => ready.head?.map fun r => (r, 1)

/-- One fetch opportunity: one host read of up to 8 descriptors. Where it goes past the SQ's end it reads the queue's end and its beginning,
and both return as one (DESIGN CHOICE: the example's one host read covers entries 14, 15 and 0). -/
def doDescriptorFetch (s : State) : State :=
  match nextLd s with
  | none => s
  | some l =>
    let ld : Ld := Fin.ofNat 256 l
    match nextRing s ld with
    | none => s
    | some (ring, used) =>
      let r := ringAt s ld ring
      let k := fetchable s ld ring
      let n := sqEntries s ld ring
      let start := (r.sqHead + asked r) % n
      let first := min k (n - start)
      let s := { s with cre.lastLd := l, cre.turns := sput (0, 0) s.cre.turns l (ring.val, used) }
      let s := updRing s ld ring fun r => { r with sqReads := r.sqReads ++ [(start, k)] }
      let s := toHost s ld (.hostRead ld ring none (sqBase s ld ring + start * 64) (first * 64))
      if first < k then toHost s ld (.hostRead ld ring none (sqBase s ld ring) ((k - first) * 64)) else s

/-- The slot a SHA-256 digest names (R127). -/
def digestSlot (d : Desc) : Option Nat := if d.opcode = 0x18 && param d 0 = 1 then some ((param d 1).toNat % 16) else none

/-- One descriptor enters the fetch queue; a slot it names becomes not ready (R138). -/
def takeDesc (s : State) (ld : Ld) (ring : RingNo) (d : Desc) : State :=
  let s := { s with cre.fetchQ := queuePush fetchBank s.cre.fetchQ 1 }
  updRing s ld ring fun r =>
    { r with
      ops := r.ops ++ [{ num := r.nextOp, desc := d }]
      nextOp := r.nextOp + 1
      results := match digestSlot d with
        | some x => sput 0 r.results x 0
        | none => r.results }

/-- A 32-bit word of a line's bytes, the lowest byte first. -/
def lineWord (l : Line) (i : Nat) : Word := l.extractLsb' (32 * i) 32

/-- A 64-bit word of a line's bytes. -/
def lineDword (l : Line) (i : Nat) : DWord := l.extractLsb' (64 * i) 64

/-- The descriptor that 64 bytes of host memory hold (R119; DEDUCED that host memory is little-endian, byte 0 of the table being the lowest
address). -/
def descOf (l : Line) : Desc :=
  let w0 := lineWord l 0
  let w1 := lineWord l 1
  { opcode := BitVec.ofNat 8 (fieldOf w0 0 8)
    fence := fieldOf w0 8 1 = 1
    irqNow := fieldOf w0 9 1 = 1
    cid := BitVec.ofNat 16 (fieldOf w0 16 16)
    plot := Fin.ofNat 4096 (fieldOf w1 0 12)
    generation := BitVec.ofNat 16 (fieldOf w1 16 16)
    offset := lineDword l 1
    hostAddr := lineDword l 2
    length := lineDword l 3
    params := (List.range 8).map fun i => lineWord l (8 + i)
    reserved := decide (fieldOf w0 10 6 ≠ 0) || decide (fieldOf w1 12 4 ≠ 0) }

/-- The oldest SQ read of a ring returns: its descriptors are fetched, or its fault puts the ring into ERROR. -/
def doSqReadReturn (ld : Ld) (ring : RingNo) (result : Option (List Line)) (s : State) : State :=
  match (ringAt s ld ring).sqReads with
  | [] => s
  | (_, k) :: t =>
    let s := updRing s ld ring fun r => { r with sqReads := t }
    if (ringAt s ld ring).state ≠ .active then ringResetDone s ld ring
    else match result with
      | none => raise (ringError s ld ring errSqFault) 1296 .sqFault ld.val [ld.val, ring.val]
      | some ds =>
        let n := sqEntries s ld ring
        let s := updRing s ld ring fun r => { r with sqHead := (r.sqHead + k) % n }
        (ds.take k).foldl (fun s l => takeDesc s ld ring (descOf l)) s

/-! ### Starting an operation (R136, R139, R143) -/

/-- The operation a ring starts next: the first not yet started; one with fence only when nothing stands before it. -/
def startable (s : State) (ld : Ld) (ring : RingNo) : Option RingOp :=
  let ops := (ringAt s ld ring).ops
  match ops.find? fun o => o.stage = .fetched with
  | some o => if o.desc.fence && (ops.any fun x => decide (x.num < o.num)) then none else some o
  | none => none

/-- Start the next operation of a ring, if it is one of these opcodes and need not wait. -/
def startOp (s : State) (ld : Ld) (ring : RingNo) (mine : BitVec 8 → Bool) (waits : State → RingOp → Bool) (act : State → RingOp → State) : State :=
  match startable s ld ring with
  | none => s
  | some o =>
    if !mine o.desc.opcode || waits s o then s
    else
      let s := { s with cre.fetchQ := queuePop fetchBank s.cre.fetchQ 1 }
      act (updOp s ld ring o.num fun o => { o with stage := .running }) o

/-- No operation waits to start but behind its own ring. -/
def noWait (_ : State) (_ : RingOp) : Bool := false

/-- Parameter words from one on are all 0. -/
def paramsZero (d : Desc) (n : Nat) : Bool := (d.params.drop n).all fun w => w = 0

/-- Bits R119 reserves. -/
def reservedBits (d : Desc) : Bool := d.reserved || decide (2 ^ 48 ≤ d.offset.toNat) || decide (2 ^ 48 ≤ d.length.toNat)

/-- A descriptor that names no plot and no buffer. -/
def plotless (d : Desc) : Bool := d.plot.val = 0 && d.generation = 0 && d.offset = 0 && d.hostAddr = 0 && d.length = 0

/-- The checks of an operation that names a plot, after its fields (R136): the first that fails. `writes` covers the
rights of a write, `state` is check 6, `limits` are the opcode's limits of length. -/
def plotChecks (s : State) (ld : Ld) (d : Desc) (fields : Bool) (need : Nat) (writes : Bool) (state : Plot → Bool) (limits : Nat → Bool) :
    Option Nat :=
  let r := plotRec s d.plot.val
  if reservedBits d || !fields then some stBadField
  else if !plotOpen r then some stNoPlot
  else if d.generation.toNat ≠ r.generation then some stGenMismatch
  else if aclRights s d.plot.val ld.val < need || (writes && !takesWrites r) then some stAccessDenied
  else if !state r then some stWrongState
  else if !limits d.length.toNat || r.size * 268435456 < d.offset.toNat + d.length.toNat then some stBadRange
  else none

/-- End an operation whose checks fail; a denial counts (R66, R136). -/
def failOp (s : State) (ld : Ld) (ring : RingNo) (o : RingOp) (status : Nat) : State :=
  let s := if status = stAccessDenied then countDenial s ld.val o.desc.plot.val ((plotRec s o.desc.plot.val).base * 4194304 + o.desc.offset.toNat / 64)
    else if status = stNoPlot then countDenial s ld.val 0xFFF 0
    else s
  endOpFree s ld ring o.num status

/-- Run an operation whose checks hold. -/
def checked (s : State) (ld : Ld) (ring : RingNo) (o : RingOp) (bad : Option Nat) (act : State → State) : State :=
  match bad with
  | some st => failOp s ld ring o st
  | none => act s

/-- A range has a last byte, at offset + length − 1 (R119): its length is not 0. -/
def someBytes (length : Nat) : Bool := decide (1 ≤ length)

/-- A length from 1 byte to a limit. -/
def upTo (limit n : Nat) : Bool := decide (1 ≤ n) && decide (n ≤ limit)

/-- No check of the plot's state. -/
def anyState (_ : Plot) : Bool := true

/-- Offset and length are whole lines. -/
def wholeLines (d : Desc) : Bool := d.offset.toNat % 64 = 0 && d.length.toNat % 64 = 0

/-- Run an operation that stages through buffers: with none for its first, it ends with NO_BUFFER (R121). -/
def buffered (s : State) (ld : Ld) (ring : RingNo) (o : RingOp) : State :=
  let s := takeBuffers (buffersWanted o) s ld ring o
  match findOp s ld ring o.num with
  | some o => if o.buffers.isEmpty then endOpFree s ld ring o.num stNoBuffer else s
  | none => s

/-! ### Operations (R120 to R128) -/

/-- NOP -/
def doOpNop (ld : Ld) (ring : RingNo) (s : State) : State :=
  startOp s ld ring (· = 0x00) noWait fun s o =>
    if reservedBits o.desc || !plotless o.desc || !paramsZero o.desc 0 then failOp s ld ring o stBadField else endOp s ld ring o.num stSuccess 0

/-- COPY_IN -/
def doCopyIn (ld : Ld) (ring : RingNo) (s : State) : State :=
  startOp s ld ring (· = 0x01) noWait fun s o =>
    checked s ld ring o (plotChecks s ld o.desc (paramsZero o.desc 0) 2 true anyState (upTo 268435456)) fun s => buffered s ld ring o

/-- COPY_OUT -/
def doCopyOut (ld : Ld) (ring : RingNo) (s : State) : State :=
  startOp s ld ring (· = 0x02) noWait fun s o =>
    checked s ld ring o (plotChecks s ld o.desc (paramsZero o.desc 0) 1 false anyState (upTo 268435456)) fun s => buffered s ld ring o

/-- ZERO_RANGE -/
def doZeroRange (ld : Ld) (ring : RingNo) (s : State) : State :=
  startOp s ld ring (· = 0x03) noWait fun s o =>
    checked s ld ring o (plotChecks s ld o.desc (paramsZero o.desc 0 && o.desc.hostAddr = 0 && wholeLines o.desc) 2 true anyState someBytes) id

/-- Writes of a master under way here that a barrier of its LD covers (R124, R400). -/
def masterWrites (s : State) (mid : Nat) : List Nat :=
  ((s.pou.writes.filter fun w => w.mid = mid && ordered w && !w.durable).map (·.id)) ++ ((s.pou.fwdWrites.filter fun f => f.mid = mid).map (·.id)) ++
    (((s.chain.reqs ++ s.chain.waiting).filter fun r => r.write && r.mid = mid).map (·.id))

/-- PERSIST_BARRIER -/
def doPersistBarrier (ld : Ld) (ring : RingNo) (s : State) : State :=
  startOp s ld ring (· = 0x04) noWait fun s o =>
    let d := o.desc
    if reservedBits d || !plotless d || !paramsZero d 1 || decide (1 < (param d 0).toNat) then failOp s ld ring o stBadField
    else if param d 0 = 0 then
      updOp s ld ring o.num fun o => { o with waitsOps := ((ringAt s ld ring).ops.filter fun x => decide (x.num < o.num)).map (·.num) }
    else updOp s ld ring o.num fun o => { o with waits := masterWrites s ld.val }

/-- Clods an operation's range touches, in order. -/
def touched (s : State) (o : RingOp) : List Nat :=
  let n := o.desc.length.toNat
  let off := o.desc.offset.toNat
  let first := (plotRec s o.desc.plot.val).base * 4096 + off / 65536
  if n = 0 then [] else (List.range ((off + n - 1) / 65536 - off / 65536 + 1)).map (first + ·)

/-- Clods a hint queue holds at most (R309, R314). -/
def hintRoom : Nat := 65536

/-- Is a clod's base or overlay all that holds it, in a deep plot? -/
def liftable (s : State) (p clod : Nat) : Bool :=
  let e := entryOf s clod
  (plotRec s p).deep && (e.tier = 2 || e.tier = 3) && !e.crcBad

/-- Fields of an operation on a range that moves no data. -/
def rangeFields (d : Desc) : Bool := paramsZero d 0 && d.hostAddr = 0

/-- LIFT_HINT: clods that are not resident, not queued and not being lifted join the hint queue (R309). -/
def doLiftHint (ld : Ld) (ring : RingNo) (s : State) : State :=
  startOp s ld ring (· = 0x08) noWait fun s o =>
    checked s ld ring o (plotChecks s ld o.desc (rangeFields o.desc) 1 false anyState someBytes) fun s =>
      let new := (touched s o).filter fun c => liftable s o.desc.plot.val c && !s.tmg.liftHints.contains c && !(s.tmg.lifts.any fun l => l.clod = c)
      let new := new.take (hintRoom - s.tmg.liftHints.length)
      retryLifts (endOp { s with tmg.liftHints := s.tmg.liftHints ++ new } ld ring o.num stSuccess new.length)

/-- May a clod be offered for settling: dirty, or Topdressed (R314)? -/
def settleable (s : State) (clod : Nat) : Bool :=
  let e := entryOf s clod
  !e.crcBad && (e.tier = 3 || (e.tier = 1 && e.dirty))

/-- SETTLE_HINT -/
def doSettleHint (ld : Ld) (ring : RingNo) (s : State) : State :=
  startOp s ld ring (· = 0x09) noWait fun s o =>
    checked s ld ring o (plotChecks s ld o.desc (rangeFields o.desc) 2 false anyState someBytes) fun s =>
      let new := (touched s o).filter fun c => settleable s c && !s.tmg.settleHints.contains c && !(s.tmg.queue.any fun q => q.clod = c)
      let new := new.take (hintRoom - s.tmg.settleHints.length)
      endOp { s with tmg.settleHints := s.tmg.settleHints ++ new } ld ring o.num stSuccess new.length

/-- PIN: every clod of the range, or none (R125); those to be lifted keep it running. -/
def doPin (ld : Ld) (ring : RingNo) (s : State) : State :=
  startOp s ld ring (· = 0x0A) noWait fun s o =>
    checked s ld ring o (plotChecks s ld o.desc (rangeFields o.desc) 3 false anyState (upTo 1073741824)) fun s =>
      let clods := touched s o
      if clods.any fun c => (entryOf s c).pins = 15 then failOp s ld ring o stPinLimit
      else
        let s := clods.foldl (fun s c => updEntry s c fun e => { e with pins := Fin.ofNat 16 (e.pins.val + 1) }) s
        let s := { s with tmg.pinWaits := s.tmg.pinWaits ++ clods.filter fun c => !pinHolds s c && !s.tmg.pinWaits.contains c }
        retryLifts (updOp s ld ring o.num fun o => { o with pins := clods, result := clods.length })

/-- UNPIN -/
def doUnpin (ld : Ld) (ring : RingNo) (s : State) : State :=
  startOp s ld ring (· = 0x0B) noWait fun s o =>
    checked s ld ring o (plotChecks s ld o.desc (rangeFields o.desc) 3 false anyState (upTo 1073741824)) fun s =>
      let clods := touched s o
      if clods.any fun c => (entryOf s c).pins = 0 then failOp s ld ring o stNotPinned
      else endOp (clods.foldl (fun s c => updEntry s c fun e => { e with pins := Fin.ofNat 16 (e.pins.val - 1) }) s) ld ring o.num stSuccess clods.length

/-- A bit field of a parameter word. -/
def pf (d : Desc) (n lo width : Nat) : Nat := fieldOf (param d n) lo width

/-- Fields of PLOT_ADMIT hold only what R126 lists. p4 without base_valid must be 0 (DESIGN CHOICE: R119 wants an unused field 0, and R126
says only that p4 is the first granule when base_valid is 1). -/
def admitFields (d : Desc) : Bool :=
  plotless d && pf d 0 21 11 = 0 && pf d 1 21 11 = 0 && pf d 2 13 19 = 0 && pf d 3 5 27 = 0 && pf d 4 20 12 = 0 && pf d 5 12 20 = 0 &&
    paramsZero d 6 && pf d 3 0 2 ≠ 3 && decide (pf d 2 0 13 ≤ 4096) && !(pf d 3 2 1 = 1 && decide (pf d 0 0 21 < pf d 1 0 21)) &&
    (pf d 3 4 1 = 1 || pf d 4 0 20 = 0)

/-- The admission request a PLOT_ADMIT carries. -/
def admissionOf (d : Desc) : Admission :=
  { sizeBytes := pf d 0 0 21 * 268435456, mode := pf d 3 0 2, deep := pf d 3 2 1 = 1, floor := pf d 1 0 21, allow := pf d 2 0 13,
    prefB := pf d 3 3 1 = 1, base := if pf d 3 4 1 = 1 then some (pf d 4 0 20) else none, owner := Fin.ofNat 4096 (pf d 5 0 12), badField := false }

/-- PLOT_ADMIT. A denied one names no plot, so its denial is recorded under plot 0xFFF (DESIGN CHOICE: R136 counts it and names none). -/
def doPlotAdmit (ld : Ld) (ring : RingNo) (s : State) : State :=
  startOp s ld ring (· = 0x10) noWait fun s o =>
    if reservedBits o.desc || !admitFields o.desc then failOp s ld ring o stBadField
    else if !flagI s Reg.CRE_LD_PRIV.admit_allow ld.val then endOpFree (countDenial s ld.val 0xFFF 0) ld ring o.num stAccessDenied
    else submitJob s (.ring ld ring o.num) (admissionOf o.desc)

/-- Fields of an operation on a whole plot. -/
def wholeFields (d : Desc) : Bool := paramsZero d 0 && d.hostAddr = 0

/-- An operation on a whole plot has the range limits of R120: offset and length 0. -/
def wholeRange (d : Desc) (length : Nat) : Bool := decide (d.offset.toNat + length = 0)

/-- An operation the home orders waits while this controller can neither order it nor reach the home (R345, R333). -/
def orderWaits (s : State) (o : RingOp) : Bool :=
  let r := plotRec s o.desc.plot.val
  plotOpen r && (if isHome s r then !canOrder s r || writesHeld s o.desc.plot.val else !linkOk s)

/-- Order a plot's step at its home: here, with the twin told, or by asking the twin (R42, R70). -/
def orderAtHome (s : State) (p : Nat) (act : State → State) (op : AdminOp) : State :=
  if isHome s (plotRec s p) then (let s := act s; if mirrored s then sendAdmin s op else s) else sendAdmin s op

/-- PLOT_RELEASE -/
def doPlotRelease (ld : Ld) (ring : RingNo) (s : State) : State :=
  startOp s ld ring (· = 0x11) orderWaits fun s o =>
    checked s ld ring o (plotChecks s ld o.desc (wholeFields o.desc) 3 false anyState (wholeRange o.desc)) fun s =>
      orderAtHome s o.desc.plot.val (fun s => enterReleasing s o.desc.plot.val) (.release o.desc.plot)

/-- May a plot be sealed (R41, R120)? -/
def sealState (r : Plot) : Bool := r.mode = .sharedReadOnly && r.state = .loading

/-- Every dirty clod of a sealing plot is offered for settling (R314). -/
def queueSeal (s : State) (p : Nat) : State :=
  let r := plotRec s p
  ((chargedClods s).filter (plotHasClod r)).foldl (fun s c => queueSettle s c 3 .seal) s

/-- PLOT_SEAL: a plot that is sealing already is joined. -/
def doPlotSeal (ld : Ld) (ring : RingNo) (s : State) : State :=
  startOp s ld ring (· = 0x12) orderWaits fun s o =>
    checked s ld ring o (plotChecks s ld o.desc (wholeFields o.desc) 3 false sealState (wholeRange o.desc)) fun s =>
      let p := o.desc.plot.val
      let seq := (plotRec s p).seq
      if (plotRec s p).sealing then s else orderAtHome s p (fun s => queueSeal (orderSeal s p seq) p) (.seal o.desc.plot seq)

/-- An erase waits for another of the same plot to end, beside what every ordered step waits for. -/
def eraseWaits (s : State) (o : RingOp) : Bool :=
  let r := plotRec s o.desc.plot.val
  orderWaits s o || r.erasing || r.eraseWait

/-- The erase count may rise (R452). -/
def eraseState (r : Plot) : Bool := decide (r.eraseCount < 0xFFFF)

/-- CRYPTO_ERASE -/
def doCryptoErase (ld : Ld) (ring : RingNo) (s : State) : State :=
  startOp s ld ring (· = 0x13) eraseWaits fun s o =>
    checked s ld ring o (plotChecks s ld o.desc (wholeFields o.desc) 3 false eraseState (wholeRange o.desc)) fun s =>
      orderAtHome s o.desc.plot.val (fun s => orderErase s o.desc.plot.val) (.erase o.desc.plot)

/-- Another operation of the ring holds the slot a digest names (R128). -/
def slotHeld (s : State) (ld : Ld) (ring : RingNo) (o : RingOp) : Bool :=
  match digestSlot o.desc with
  | some x => (ringAt s ld ring).ops.any fun y => y.num ≠ o.num && y.stage ≠ .fetched && digestSlot y.desc = some x
  | none => false

/-- Fields of DIGEST_RANGE (R127, R128). -/
def digestFields (d : Desc) : Bool :=
  paramsZero d 2 && d.hostAddr = 0 && wholeLines d && decide ((param d 0).toNat ≤ 1) && pf d 1 4 28 = 0 && (param d 0 = 1 || param d 1 = 0)

/-- DIGEST_RANGE -/
def doDigestRange (ld : Ld) (ring : RingNo) (s : State) : State :=
  startOp s ld ring (· = 0x18) noWait fun s o =>
    checked s ld ring o (plotChecks s ld o.desc (digestFields o.desc && !slotHeld s ld ring o) 1 false anyState
      fun n => decide (64 ≤ n) && decide (n ≤ 1073741824)) fun s => buffered s ld ring o

/-- The opcodes of R120. -/
def listedOpcode (c : BitVec 8) : Bool :=
  [0x00#8, 0x01#8, 0x02#8, 0x03#8, 0x04#8, 0x08#8, 0x09#8, 0x0A#8, 0x0B#8, 0x10#8, 0x11#8, 0x12#8, 0x13#8, 0x18#8].contains c

/-- A descriptor with another opcode. -/
def doBadOpcode (ld : Ld) (ring : RingNo) (s : State) : State :=
  startOp s ld ring (fun c => !listedOpcode c) noWait fun s o => failOp s ld ring o stBadOpcode

/-! ### Data and completions (R122, R129 to R134, R148, R149) -/

/-- The oldest read of host memory of an operation returns, or fails. -/
def doHostReadCompletion (ld : Ld) (ring : RingNo) (op : Nat) (data : HostData) (s : State) : State :=
  match findOp s ld ring op with
  | none => s
  | some o =>
    match o.hostReads, data with
    | [], _ => s
    | _ :: t, .failed => updOp s ld ring op fun o => { o with hostReads := t, faulted := true, bytes := [] }
    | k :: t, .bytes bs poison =>
      if bs.length < k then s
      else updOp s ld ring op fun o => { o with hostReads := t, bytes := if o.faulted then [] else o.bytes ++ (bs.take k).map fun b => (b, poison) }

/-- Does a ring write completion entries: ACTIVE, or ERROR other than CQ_LOST (R109, R149)? -/
def writesEntries (s : State) (ld : Ld) (ring : RingNo) : Bool :=
  match (ringAt s ld ring).state with
  | .active => true
  | .error => getFi s Reg.CRE_RING_STS.err_code (ringIdx ld ring) ≠ errCqLost
  | _ => false

/-- An ended operation leaves: its entry is written or discarded, its buffers go back. -/
def doRingOperationDone (ld : Ld) (ring : RingNo) (op : Nat) (s : State) : State :=
  match findOp s ld ring op with
  | none => s
  | some o =>
    if !o.queued then s
    else
      let s := if writesEntries s ld ring then writeEntry s ld ring o else s
      let s := putBuffers { s with cre.stageQ := queuePop stageBank s.cre.stageQ 1 } ld o
      stageWaiting (ringResetDone (updRing s ld ring fun r => { r with ops := r.ops.filter fun x => x.num ≠ op }) ld ring)

/-- The oldest unsignalled entry has waited coal_time_us (R134). -/
def doCoalesceTimerExpiry (ld : Ld) (ring : RingNo) (s : State) : State :=
  if (ringAt s ld ring).unsignalled = 0 || getFi s Reg.CRE_RING_IRQ.coal_time_us (ringIdx ld ring) = 0 then s else ringInterrupt s ld ring

/-- The descriptor fetch queue resets: CRE counts it (R148), and what it held ends with ABORTED and does not run (R149). -/
def resetFetchQueue (s : State) : State :=
  let s := { incF s Reg.CRE_QUEUE_ERR_CNT.resets with cre.fetchQ := {} }
  (opsAt s .fetched).foldl (fun s x => endOpFree s x.1 x.2.1 x.2.2.num stAborted) s

/-- A ring that lost a completion: ERROR with CQ_LOST, also where it stood in ERROR for another reason (R149). -/
def cqLost (s : State) (ld : Ld) (ring : RingNo) : State :=
  if (ringAt s ld ring).state = .error then setRingErr s ld ring errCqLost else ringError s ld ring errCqLost

/-- The completion staging queue resets: CRE counts it (R148), and its completions are lost (R149). -/
def resetStagingQueue (s : State) : State :=
  let s := { incF s Reg.CRE_QUEUE_ERR_CNT.resets with cre.stageQ := {} }
  stageWaiting (((opsAt s .ended).filter (·.2.2.queued)).foldl (fun s x =>
    let (ld, ring, o) := x
    let s := updRing (putBuffers s ld o) ld ring fun r => { r with ops := r.ops.filter fun y => y.num ≠ o.num }
    ringResetDone (cqLost s ld ring) ld ring) s)

/-! ### The commands -/

/-- A write of a ring's set-up register (R111). -/
def execRingSetupWrite (ld : Ld) (ring : RingNo) (reg : SetupReg) (value : Word) (s : State) : Host.Outcome State Fault Refusal :=
  finishes s (doRingSetupWrite ld ring reg value s)
/-- A ring's enable (R112). -/
def execRingEnable (ld : Ld) (ring : RingNo) (value : Word) (s : State) : Host.Outcome State Fault Refusal :=
  settlesBuffers s (doRingEnable ld ring value s)
/-- An enable's checks end (R112). -/
def execRingEnableCheck (ld : Ld) (ring : RingNo) (s : State) : Host.Outcome State Fault Refusal := finishes s (doRingEnableCheck ld ring s)
/-- A ring reset (R113). -/
def execRingReset (ld : Ld) (ring : RingNo) (s : State) : Host.Outcome State Fault Refusal := settlesBuffers s (doRingReset ld ring s)
/-- A change of weight (R113). -/
def execRingWeightSet (ld : Ld) (ring : RingNo) (value : Word) (s : State) : Host.Outcome State Fault Refusal :=
  settlesBuffers s (doRingWeightSet ld ring value s)
/-- An SQ tail doorbell (R114). -/
def execSqTailDoorbell (ld : Ld) (ring : RingNo) (value : Word) (s : State) : Host.Outcome State Fault Refusal :=
  finishes s (doSqTailDoorbell ld ring value s)
/-- A CQ head doorbell (R115). -/
def execCqHeadDoorbell (ld : Ld) (ring : RingNo) (value : Word) (s : State) : Host.Outcome State Fault Refusal :=
  finishes s (doCqHeadDoorbell ld ring value s)
/-- A fetch opportunity (R140). -/
def execDescriptorFetch (s : State) : Host.Outcome State Fault Refusal := finishes s (doDescriptorFetch s)
/-- An SQ read returns (R140, R153). -/
def execSqReadReturn (ld : Ld) (ring : RingNo) (result : Option (List Line)) (s : State) : Host.Outcome State Fault Refusal :=
  finishes s (doSqReadReturn ld ring result s)
/-- NOP (R120). -/
def execOpNop (ld : Ld) (ring : RingNo) (s : State) : Host.Outcome State Fault Refusal := settles s (doOpNop ld ring s)
/-- COPY_IN (R122). -/
def execCopyIn (ld : Ld) (ring : RingNo) (s : State) : Host.Outcome State Fault Refusal := settlesBuffers s (doCopyIn ld ring s)
/-- COPY_OUT (R123). -/
def execCopyOut (ld : Ld) (ring : RingNo) (s : State) : Host.Outcome State Fault Refusal := settlesBuffers s (doCopyOut ld ring s)
/-- ZERO_RANGE (R120). -/
def execZeroRange (ld : Ld) (ring : RingNo) (s : State) : Host.Outcome State Fault Refusal := settles s (doZeroRange ld ring s)
/-- PERSIST_BARRIER (R124). -/
def execPersistBarrier (ld : Ld) (ring : RingNo) (s : State) : Host.Outcome State Fault Refusal := settles s (doPersistBarrier ld ring s)
/-- LIFT_HINT (R309). -/
def execLiftHint (ld : Ld) (ring : RingNo) (s : State) : Host.Outcome State Fault Refusal := settles s (doLiftHint ld ring s)
/-- SETTLE_HINT (R314). -/
def execSettleHint (ld : Ld) (ring : RingNo) (s : State) : Host.Outcome State Fault Refusal := settles s (doSettleHint ld ring s)
/-- PIN (R125). -/
def execPin (ld : Ld) (ring : RingNo) (s : State) : Host.Outcome State Fault Refusal := settles s (doPin ld ring s)
/-- UNPIN (R125). -/
def execUnpin (ld : Ld) (ring : RingNo) (s : State) : Host.Outcome State Fault Refusal := settles s (doUnpin ld ring s)
/-- PLOT_ADMIT (R126). -/
def execPlotAdmit (ld : Ld) (ring : RingNo) (s : State) : Host.Outcome State Fault Refusal := settles s (doPlotAdmit ld ring s)
/-- PLOT_RELEASE (R42). -/
def execPlotRelease (ld : Ld) (ring : RingNo) (s : State) : Host.Outcome State Fault Refusal := settles s (doPlotRelease ld ring s)
/-- PLOT_SEAL (R41). -/
def execPlotSeal (ld : Ld) (ring : RingNo) (s : State) : Host.Outcome State Fault Refusal := settles s (doPlotSeal ld ring s)
/-- CRYPTO_ERASE (R451). -/
def execCryptoErase (ld : Ld) (ring : RingNo) (s : State) : Host.Outcome State Fault Refusal := settles s (doCryptoErase ld ring s)
/-- DIGEST_RANGE (R127). -/
def execDigestRange (ld : Ld) (ring : RingNo) (s : State) : Host.Outcome State Fault Refusal := settlesBuffers s (doDigestRange ld ring s)
/-- An unlisted opcode (R120). -/
def execBadOpcode (ld : Ld) (ring : RingNo) (s : State) : Host.Outcome State Fault Refusal := settles s (doBadOpcode ld ring s)
/-- Host memory answers a read (R122). -/
def execHostReadCompletion (ld : Ld) (ring : RingNo) (op : Nat) (data : HostData) (s : State) : Host.Outcome State Fault Refusal :=
  settles s (doHostReadCompletion ld ring op data s)
/-- A completion entry is written (R129). -/
def execRingOperationDone (ld : Ld) (ring : RingNo) (op : Nat) (s : State) : Host.Outcome State Fault Refusal :=
  settlesBuffers s (doRingOperationDone ld ring op s)
/-- A coalescing timer expires (R134). -/
def execCoalesceTimerExpiry (ld : Ld) (ring : RingNo) (s : State) : Host.Outcome State Fault Refusal := finishes s (doCoalesceTimerExpiry ld ring s)

end Sys2Proof.Machine
end

