-- ==== Sys2Proof/Machine/CodeStore.lean ====
section
/-! DEFINITION. Meanings of the code store's commands (16): descriptors, the engine, and completions (R502 to R513). -/

namespace Sys2Proof.Machine

/-! ### Queues (R506) -/

/-- A core's queues. -/
def csQueues (s : State) (m : Nat) : CsQueues := sget {} s.mgc.queues m

/-- Change them. -/
def updQueues (s : State) (m : Nat) (f : CsQueues → CsQueues) : State := { s with mgc.queues := supd {} s.mgc.queues m f }

/-- Masters in round-robin order: 0x340 to 0x345, then JTAG (R508, R581). -/
def csMasters : List Nat := List.range 7

/-! ### A descriptor's fields and checks (R502, R507, R509) -/

/-- op: 1 ERASE, 2 PROGRAM. -/
def csOp (d : CsDesc) : Nat := fieldOf d.w0 0 4
/-- urgent -/
def csUrgent (d : CsDesc) : Bool := fieldOf d.w0 4 1 = 1
/-- tag -/
def csTag (d : CsDesc) : Nat := fieldOf d.w0 8 8
/-- cs_addr -/
def csAddr (d : CsDesc) : Nat := fieldOf d.w1 0 26
/-- sram_off -/
def csSram (d : CsDesc) : Nat := fieldOf d.w2 0 23
/-- count -/
def csCount (d : CsDesc) : Nat := fieldOf d.w3 0 14

/-- Status values of R509. -/
def csOk : Nat := 0x00
/-- BAD_DESC -/
def csBadDesc : Nat := 0x01
/-- PROTECTED -/
def csProtected : Nat := 0x02
/-- REPROGRAM -/
def csReprogram : Nat := 0x03
/-- VERIFY_FAIL -/
def csVerifyFail : Nat := 0x04
/-- ERASE_FAIL -/
def csEraseFail : Nat := 0x05
/-- ADDR_BUSY -/
def csAddrBusy : Nat := 0x06

/-- A reserved bit is set, or the type is not 0x1. -/
def csReserved (d : CsDesc) : Bool :=
  decide (fieldOf d.w0 5 3 ≠ 0) || decide (fieldOf d.w0 16 12 ≠ 0) || decide (fieldOf d.w0 28 4 ≠ 1) ||
    decide (fieldOf d.w1 26 6 ≠ 0) || decide (fieldOf d.w2 23 9 ≠ 0) || decide (fieldOf d.w3 14 18 ≠ 0)

/-- The fields a descriptor's op does not allow. -/
def csBad (d : CsDesc) : Bool :=
  csReserved d ||
    match csOp d with
    | 1 => csUrgent d || decide (csAddr d % 4096 ≠ 0) || decide (csSram d ≠ 0) || decide (csCount d < 1) || decide (8192 < csCount d) ||
        decide (csAddr d / 33554432 ≠ (csAddr d + csCount d * 4096 - 1) / 33554432)
    | 2 => decide (csAddr d % 4 ≠ 0) || decide (csSram d % 4 ≠ 0) || decide (csCount d < 1) || decide (1024 < csCount d) ||
        decide (csAddr d / 4096 ≠ (csAddr d + csCount d * 4 - 1) / 4096)
    | _ => true

/-- May a master erase, or program, at an offset of a bank (R502)? Master 0 is 0x340; JTAG is no core. -/
def csAllowed (m : Nat) (erase : Bool) (off : Nat) : Bool :=
  if off < 0x1C04000 then m = 0
  else if off < 0x1C20000 then false
  else if off < 0x1C40000 then m = 0
  else if off < 0x1D40000 then erase && m = 0
  else if off < 0x1D50000 then m = 0
  else decide (m < 6)

/-- The sectors a descriptor reaches. -/
def csSectors (d : CsDesc) : List Nat :=
  if csOp d = 1 then (List.range (csCount d)).map (csAddr d / 4096 + ·) else [csAddr d / 4096]

/-- Every sector a descriptor reaches may be written by its master. -/
def csMayWrite (m : Nat) (d : CsDesc) : Bool := (csSectors d).all fun x => csAllowed m (csOp d = 1) (x % 8192 * 4096)

/-- An urgent program names a sector whose erase is suspended. -/
def csSectorBusy (s : State) (d : CsDesc) : Bool :=
  match s.mgc.suspendedOp with
  | some o => csOp o.desc = 1 && (csSectors d).any fun x => (csSectors o.desc).contains x
  | none => false

/-- A descriptor that completes without being run: its status. -/
def csRefused (s : State) (m : Nat) (d : CsDesc) : Option Nat :=
  if csBad d then some csBadDesc
  else if !csMayWrite m d then some csProtected
  else if csUrgent d && csSectorBusy s d then some csAddrBusy
  else none

/-! ### Completions (R509) -/

/-- Entries of a completion queue. -/
def csCmplCap : Nat := 16

/-- Write a completion entry: status, tag and address. -/
def csComplete (s : State) (m status tag addr : Nat) : State :=
  let lo := BitVec.ofNat 32 (status + tag * 256 + 0x10000000)
  updQueues s m fun q => { q with cmpl := q.cmpl ++ [(lo, BitVec.ofNat 32 (addr % 67108864))] }

/-- Write the completion of a descriptor that is not run. -/
def csRefuse (s : State) (m status : Nat) (d : CsDesc) : State :=
  csComplete (if status = csProtected then setFlag s Reg.MGC_CS_ERR.protected else s) m status (csTag d) (csAddr d)

/-! ### The engine (R508, R510) -/

/-- The head of a master's urgent or normal queue, while its completion queue has room. -/
def csHead (s : State) (m : Nat) (urgent : Bool) : Option CsDesc :=
  let q := csQueues s m
  if csCmplCap ≤ q.cmpl.length then none else if urgent then q.urgent.head? else q.normal.head?

/-- The next master in round robin after the last served that has a head. -/
def csNext (s : State) (urgent : Bool) : Option (Nat × CsDesc) :=
  let last := if urgent then s.mgc.lastUrgent else s.mgc.lastNormal
  (csMasters.map fun i => (last + 1 + i) % 7).findSome? fun m => (csHead s m urgent).map fun d => (m, d)

/-- Descriptors a bank of a normal or an urgent queue holds (R506). -/
def csBank (urgent : Bool) : Nat := if urgent then 2 else 16

/-- Take a master's head off its queue. -/
def csTake (s : State) (m : Nat) (urgent : Bool) : State :=
  let s := updQueues s m fun q =>
    if urgent then { q with urgent := q.urgent.drop 1, urgentPtrs := queuePop (csBank true) q.urgentPtrs 1 }
    else { q with normal := q.normal.drop 1, normalPtrs := queuePop (csBank false) q.normalPtrs 1 }
  if urgent then { s with mgc.lastUrgent := m } else { s with mgc.lastNormal := m }

/-- Descriptors at the heads that cannot be run complete at once, as many as `n`. -/
def csDropBad : Nat → State → State
  | 0, s => s
  | n + 1, s =>
    let go (urgent : Bool) : Option State :=
      match csNext s urgent with
      | some (m, d) => (csRefused s m d).map fun st => csRefuse (csTake s m urgent) m st d
      | none => none
    match go true with
    | some t => csDropBad n t
    | none =>
      match go false with
      | some t => csDropBad n t
      | none => s

/-- Descriptors waiting in all queues. -/
def csWaiting (s : State) : Nat := csMasters.foldl (fun n m => n + (csQueues s m).normal.length + (csQueues s m).urgent.length) 0

/-- The heads that cannot be run complete. -/
def csSettle (s : State) : State := csDropBad (csWaiting s) s

/-- Begin the descriptor at a master's head. -/
def csBegin (s : State) (m : Nat) (d : CsDesc) (urgent : Bool) : State :=
  { csTake s m urgent with mgc.op := some { master := m, desc := d, done := 0, suspends := 0, urgent := urgent } }

/-- A normal operation gives way: an erase at most 64 times, and nothing while another one is suspended. -/
def csMaySuspend (s : State) (o : CsOp) : Bool :=
  !o.urgent && s.mgc.suspendedOp.isNone && (csOp o.desc = 2 || decide (o.suspends < 64))

/-- Set the operation in progress aside. -/
def csSuspend (s : State) (o : CsOp) : State := { s with mgc.op := none, mgc.suspendedOp := some { o with suspends := o.suspends + 1 } }

/-- Start the next urgent descriptor, else resume what is suspended, else start the next normal one. -/
def csStartNext (s : State) : State :=
  match csNext s true with
  | some (m, d) => csBegin s m d true
  | none =>
    match s.mgc.suspendedOp with
    | some o => { s with mgc.op := some o, mgc.suspendedOp := none }
    | none =>
      match csNext s false with
      | some (m, d) => csBegin s m d false
      | none => s

/-- CS_OP_START: programs of the EVR port come first, then urgent descriptors, then normal ones. -/
def doCsOpStart (s : State) : State :=
  let s := csSettle s
  match s.mgc.op with
  | none => if s.evr.crash.isSome then s else csStartNext s
  | some o =>
    if csMaySuspend s o && (s.evr.crash.isSome || (csNext s true).isSome) then
      let s := csSuspend s o
      if s.evr.crash.isSome then s else csStartNext s
    else s

/-! ### What an operation does to the cells (R505, R507, R512, R513) -/

/-- A sector within the image its bank's slot holds. -/
def inImage (s : State) (sector : Nat) : Bool := decide (sector % 8192 * 4096 < (sget {} s.mgc.images (sector / 8192)).length)

/-- The slot or copy a sector belongs to is erased: its image, where the sector lies in it, or its option-area copy is no longer. -/
def forgetContents (s : State) (sector : Nat) : State :=
  let bank := sector / 8192
  let k := sector % 8192
  if k < 7168 then (if inImage s sector then { s with mgc.images := sput {} s.mgc.images bank {} } else s)
  else if k < 7172 then { s with mgc.options := sput {} s.mgc.options bank {} }
  else if k = 7232 then { s with evr.crashAreas := s.evr.crashAreas.filter fun a => a.bank ≠ (bank = 1) }
  else s

/-- Erase one sector: its words read erased, it is defined again, and its count rises. -/
def eraseSector (s : State) (sector : Nat) : State :=
  let s := forgetContents s sector
  { s with
    mgc.store := sdrop s.mgc.store fun a => a / 1024 = sector
    mgc.undefinedSectors := sput false s.mgc.undefinedSectors sector false
    mgc.wear := supd 0 s.mgc.wear sector (· + 1) }

/-- CS_ERASE: the engine has erased so many further sectors of the run. Suspends are counted afresh for each sector (R510). -/
def doCsErase (sectors : Nat) (s : State) : State :=
  match s.mgc.op with
  | none => s
  | some o =>
    if csOp o.desc ≠ 1 then s
    else
      let run := ((csSectors o.desc).drop o.done).take sectors
      let s := run.foldl eraseSector s
      { s with mgc.op := some { o with done := o.done + run.length, suspends := if run.isEmpty then o.suspends else 0 } }

/-- A sector belongs to an image or an option-area copy that counts as valid: an update by PLDM leaves that verdict and no words. -/
def heldSector (s : State) (sector : Nat) : Bool :=
  let k := sector % 8192
  if k < 7168 then (sget {} s.mgc.images (sector / 8192)).valid && inImage s sector
  else decide (k < 7172) && optionValid (optionAt s (sector / 8192))

/-- A word has been programmed since its sector's erase. -/
def wordProgrammed (s : State) (a : Nat) : Bool := (slook s.mgc.store a).isSome || heldSector s (a / 1024)

/-- A slot or an option-area copy has words programmed: its contents are read again, unless they already hold. -/
def readContents (s : State) (sector : Nat) : State :=
  let bank := sector / 8192
  let k := sector % 8192
  if k < 7168 then
    if (sget {} s.mgc.images bank).valid then s else { s with mgc.images := sput {} s.mgc.images bank (readImage s bank) }
  else if k < 7172 then
    if optionValid (optionAt s bank) then s else { s with mgc.options := sput {} s.mgc.options bank (readOption s bank) }
  else s

/-- The key of SRAM word i of a descriptor's source: the private region leads for the pair, the shared one for the other cores. -/
def sramKey (m off i : Nat) : Nat := ((if m = 0 ∨ m = 1 ∨ m = 6 then 0x111000000 else 0x111200000) + off) / 4 + i

/-- Program words from word `a` on, up to one that is already programmed; the answer counts the words programmed. -/
def programWords (s : State) (a : Nat) : List Word → Nat × State
  | [] => (0, s)
  | w :: t =>
    if wordProgrammed s a then (0, s)
    else
      let (n, s) := programWords { s with mgc.store := sput none s.mgc.store a (some w) } (a + 1) t
      (n + 1, s)

/-- CS_PROGRAM: the rest of the words, which `data` holds, are programmed. -/
def doCsProgram (data : List Word) (s : State) : State :=
  match s.mgc.op with
  | none => s
  | some o =>
    if csOp o.desc ≠ 2 then s
    else
      let words := data.take (csCount o.desc - o.done)
      let s := ((List.range words.length).zip words).foldl (fun s e =>
        { s with mgc.sram := sput 0 s.mgc.sram (sramKey o.master (csSram o.desc) (o.done + e.1)) e.2 }) s
      let (n, s) := programWords s (csAddr o.desc / 4 + o.done) words
      { readContents s (csAddr o.desc / 4096) with mgc.op := some { o with done := o.done + n } }

/-- The address of unit i of an operation. -/
def csAddrOf (d : CsDesc) (i : Nat) : Nat := csAddr d + i * (if csOp d = 1 then 4096 else 4)

/-- CS_OP_DONE: the completion is written. `failed` names a word that does not read back, or a sector that did not erase: its
sector is undefined. A program that met a programmed word ends there. -/
def doCsOpDone (failed : Option (Fin 8192)) (s : State) : State :=
  match s.mgc.op with
  | none => s
  | some o =>
    let erase := csOp o.desc = 1
    let met := !erase && wordProgrammed s (csAddr o.desc / 4 + o.done)
    let fin (s : State) (status n : Nat) : State :=
      csSettle (csComplete { s with mgc.op := none } o.master status (csTag o.desc) (csAddrOf o.desc n))
    match failed.filter fun i => decide (i.val < o.done) with
    | some i =>
      let s := abortOp s (some { o with done := i.val })
      if erase then fin (setFlag s Reg.MGC_CS_ERR.erase_fail) csEraseFail i.val
      else fin (setFlag s Reg.MGC_CS_ERR.verify_fail) csVerifyFail i.val
    | none =>
      if o.done = csCount o.desc then fin s csOk o.done
      else if met then fin s csReprogram o.done
      else s

/-! ### Register accesses of the queues (R506, R509) -/

/-- CS_DESC_OPEN: a write of DESC0 opens a descriptor, and discards one left open. -/
def doCsDescOpen (who : Accessor) (value : Word) (s : State) : State :=
  setupWrite s who Reg.MGC_CS_DESC.word.addr (updQueues s (accessorIdx who) fun q => { q with opened := some { w0 := value } })

/-- A committed descriptor enters its queue. -/
def csPush (q : CsQueues) (d : CsDesc) : CsQueues :=
  if csUrgent d then { q with urgent := q.urgent ++ [d], urgentPtrs := queuePush (csBank true) q.urgentPtrs 1 }
  else { q with normal := q.normal ++ [d], normalPtrs := queuePush (csBank false) q.normalPtrs 1 }

/-- A write of DESC1 or DESC2; without an open descriptor it is ignored. -/
def csDescWord (s : State) (m n : Nat) (value : Word) : State :=
  match (csQueues s m).opened with
  | none => setFlag s Reg.MGC_CS_ERR.desc_err
  | some o => updQueues s m fun q => { q with opened := some (if n = 1 then { o with w1 := value } else { o with w2 := value }) }

/-- CS_DESC_COMMIT: a write of DESC3 commits the open descriptor into the normal or urgent queue. The rules do not say what becomes of one that
finds the fill bank full; the model drops it and sets desc_err. -/
def doCsDescCommit (who : Accessor) (value : Word) (s : State) : State :=
  let m := accessorIdx who
  setupWrite s who (Reg.MGC_CS_DESC.word.addr + 12)
    (match (csQueues s m).opened with
     | none => setFlag s Reg.MGC_CS_ERR.desc_err
     | some o =>
       let d : CsDesc := { w0 := o.w0, w1 := o.w1, w2 := o.w2, w3 := value }
       let q := if csUrgent d then (csQueues s m).urgentPtrs else (csQueues s m).normalPtrs
       let s := updQueues s m fun q => { q with opened := none }
       if 0 < queueRoom (csBank (csUrgent d)) q then csSettle (updQueues s m fun q => csPush q d)
       else setFlag s Reg.MGC_CS_ERR.desc_err)


/-- CS_CMPL_READ: a read of CMPL_LO removes the head entry and latches its HI; an empty queue gives the idle item. -/
def doCsCmplRead (who : Accessor) (s : State) : State :=
  if !isManager s who then s
  else
    let m := accessorIdx who
    let (lo, hi) := ((csQueues s m).cmpl.head?).getD (idleItem, idleItem)
    let s := updQueues s m fun q => { q with cmpl := q.cmpl.drop 1, latchedHi := hi }
    csSettle (emit s (.regData who .mgmt Reg.MGC_CS_CMPL_LO.cmpl_lo.addr lo))

/-- CS_FLUSH: a write of flush empties the core's queues, and discards the item it is writing. -/
def doCsFlush (who : Accessor) (value : Word) (s : State) : State :=
  setupWrite s who Reg.MGC_CS_CTL.flush.addr
    (if wr value Reg.MGC_CS_CTL.flush = 1 then
       csSettle (updQueues s (accessorIdx who) fun q => { q with
         opened := none, normal := [], urgent := []
         normalPtrs := queuePop (csBank false) q.normalPtrs q.normal.length
         urgentPtrs := queuePop (csBank true) q.urgentPtrs q.urgent.length })
     else s)

/-! ### A queue's pointers differ (R148, R149) -/

/-- How the event names a queue: a code, and the master or port it belongs to (DESIGN CHOICE: R148 gives no codes). -/
def queueCode (q : QueueName) : List Nat :=
  match q with
  | .fetch => [0]
  | .staging => [1]
  | .codeNormal who => [2, accessorIdx who]
  | .codeUrgent who => [3, accessorIdx who]
  | .codeCompletion who => [4, accessorIdx who]
  | .twinSend => [5]
  | .twinReceive => [6]
  | .chainForward port => [7, port.val]
  | .eventDrain => [8]

/-- The source a queue's event comes from: its block's first. -/
def queueSource (q : QueueName) : Nat :=
  match q with
  | .fetch | .staging => 1296
  | .codeNormal _ | .codeUrgent _ | .codeCompletion _ => 1504
  | .twinSend | .twinReceive => twinSource
  | .chainForward _ => 1528
  | .eventDrain => 1496

/-- A queue resets: its pointers return to 0, its items are discarded, and an event names it. The items of the twin stream, of chain
forwarding and of the event drain pass through their queues within the command that puts them there, so that these are empty whenever a
mismatch is reported (DESIGN CHOICE). -/
def doQueuePointerMismatch (q : QueueName) (s : State) : State :=
  let s := raise s (queueSource q) .queueError 0xFFF (queueCode q)
  match q with
  | .fetch => resetFetchQueue s
  | .staging => resetStagingQueue s
  | .codeNormal who => csSettle (updQueues s (accessorIdx who) fun q => { q with normal := [], normalPtrs := {} })
  | .codeUrgent who => csSettle (updQueues s (accessorIdx who) fun q => { q with urgent := [], urgentPtrs := {} })
  | .codeCompletion who => csSettle (updQueues s (accessorIdx who) fun q => { q with cmpl := [] })
  | .twinSend | .twinReceive | .chainForward _ | .eventDrain => s

/-! ### Access faults (R501, R503, R511) -/

/-- An access fault of a core, under the master ID its event names (R501): it changes nothing but the code store's error state. -/
def coreFault (mid : Nat) (addr : BitVec 36) (cause : AccessCause) (s : State) : State :=
  let off := addr.toNat % 67108864
  let s := match cause with
    | .busyBank => setF (setFlag s Reg.MGC_CS_ERR.busy_fault) Reg.MGC_CS_FAULT_ADDR.addr off
    | .uncorrectable => setF (setFlag s Reg.MGC_CS_ERR.uncorr) Reg.MGC_CS_FAULT_ADDR.addr off
    | .unmapped => s
    | .denied => s
  raise s 1504 .coreFault mid [addr.toNat]

/-- CORE_ACCESS_FAULT: an event names the master; a busy bank or an uncorrectable word leaves its flag and address. -/
def doCoreAccessFault (core : Fin 5) (addr : BitVec 36) (cause : AccessCause) (s : State) : State :=
  coreFault (if core.val = 0 then 0x340 else 0x341 + core.val) addr cause s

/-! ### The commands -/

/-- CORE_ACCESS_FAULT -/
def execCoreAccessFault (core : Fin 5) (addr : BitVec 36) (cause : AccessCause) (s : State) : Host.Outcome State Fault Refusal :=
  finishes s (doCoreAccessFault core addr cause s)
/-- CS_DESC_OPEN -/
def execCsDescOpen (who : Accessor) (value : Word) (s : State) : Host.Outcome State Fault Refusal := finishes s (doCsDescOpen who value s)
/-- CS_DESC_COMMIT -/
def execCsDescCommit (who : Accessor) (value : Word) (s : State) : Host.Outcome State Fault Refusal := finishes s (doCsDescCommit who value s)
/-- CS_ERASE -/
def execCsErase (sectors : Nat) (s : State) : Host.Outcome State Fault Refusal := finishes s (doCsErase sectors s)
/-- CS_PROGRAM -/
def execCsProgram (data : List Word) (s : State) : Host.Outcome State Fault Refusal := finishes s (doCsProgram data s)
/-- CS_OP_START -/
def execCsOpStart (s : State) : Host.Outcome State Fault Refusal := finishes s (doCsOpStart s)
/-- CS_OP_DONE -/
def execCsOpDone (failed : Option (Fin 8192)) (s : State) : Host.Outcome State Fault Refusal := finishes s (doCsOpDone failed s)
/-- CS_CMPL_READ -/
def execCsCmplRead (who : Accessor) (s : State) : Host.Outcome State Fault Refusal := finishes s (doCsCmplRead who s)
/-- QUEUE_POINTER_MISMATCH -/
def execQueuePointerMismatch (q : QueueName) (s : State) : Host.Outcome State Fault Refusal := settlesBuffers s (doQueuePointerMismatch q s)
/-- CS_FLUSH -/
def execCsFlush (who : Accessor) (value : Word) (s : State) : Host.Outcome State Fault Refusal := finishes s (doCsFlush who value s)

end Sys2Proof.Machine
end

