-- ==== Sys2Proof/Machine/Events.lean ====
section
/-! DEFINITION. The event recorder's commands (17): raising an event, draining the ring into history, fetching history,
the crash area, importing records, MSI-X, and the sources' set-up. -/

namespace Sys2Proof.Machine

/-! ### The ring and history blocks as words (R537, R541) -/

/-- A word of the ring at a byte offset (R537, R538): of the record that stands there, or what is left of a reclaimed one;
bytes never written read all ones. -/
def ringWord (s : State) (off : Nat) : Word :=
  match s.evr.ring.find? fun r => decide (r.offset ≤ off) && decide (off < r.offset + r.len16 * 16) with
  | some r => recordWord r ((off - r.offset) / 4)
  | none =>
    match s.evr.gone with
    | some r =>
      if r.offset < off ∧ off < r.offset + r.len16 * 16 then recordWord r ((off - r.offset) / 4) else 0xFFFFFFFF
    | none => 0xFFFFFFFF

/-- A history block's words: its item header with the length of what it holds, its boot, its first sequence number, its records,
and all ones behind them. -/
def blockWords (b : HistoryBlock) : List Word :=
  let body := b.records.flatMap recordWords
  let head : List Word :=
    [BitVec.ofNat 32 (268435456 + (16 + body.length * 4)), b.boot, BitVec.ofNat 32 b.firstSeq, Config.blockPad]
  head ++ body ++ List.replicate (1020 - body.length) 0xFFFFFFFF

/-- A word of the fetch window: the idle item until a block stands there (R543). -/
def fetchWord (s : State) (n : Nat) : Word :=
  match s.evr.fetchBlock with
  | some b => (blockWords b).getD n 0xFFFFFFFF
  | none => 0xFFFFFFFF

/-! ### EVENT_RAISE (R532, R533, R548) -/

/-- EVENT_RAISE -/
def doEventRaise (source : Fin 2048) (kind : EventKind) (severity : Fin 4) (mid : Mid) (detail : List Nat) (s : State) : State :=
  if source.val < 1536 then raiseFull s source.val severity kind mid.val detail (concernOf source.val kind none) else s

/-! ### Drain and history (R541 to R543) -/

/-- Bytes of records a history block holds. -/
def blockRoom : Nat := 4080

/-- Cut records into blocks, each as full as whole records allow; `here` fills the block at hand. -/
def cutBlocks : List Record → List Record → List (List Record)
  | [], [] => []
  | [], here => [here]
  | r :: t, here =>
    if bytesOf here + r.len16 * 16 ≤ blockRoom ∨ here.isEmpty then cutBlocks t (here ++ [r])
    else here :: cutBlocks t [r]

/-- Records the drain has still to copy; a pad is no part of the history. -/
def undrained (s : State) : List Record := s.evr.ring.filter fun r => !r.settled && !r.drained && r.rtype ≠ .pad

/-- Number history blocks and add them to the segment being filled. -/
def addBlocks (s : State) (cuts : List (List Record)) : State :=
  cuts.foldl (fun s rs =>
    let b : HistoryBlock :=
      { number := s.evr.nextBlock, boot := regAt s Reg.EVR_BOOT_NUM.boot_num.addr 0, firstSeq := (rs.head?.map (·.seq)).getD 0, records := rs }
    { s with
      evr.blocks := s.evr.blocks ++ [b]
      evr.nextBlock := s.evr.nextBlock + 1
      evr.segmentSince := s.evr.segmentSince.or (some s.devTime) }) s

/-- DRAIN_TIMER: every drain_ms, or as soon as 64 KiB wait. `overtaken`: a record was overwritten while the drain copied it; that item ended as
type 0xD, and its block is written again from the oldest record there is (R541). -/
def doDrainTimer (overtaken : Bool) (s : State) : State :=
  if !flag s Reg.EVR_CTL.drain_en || flushing s then s
  else
    let s := if overtaken && !(undrained s).isEmpty then setFlag s Reg.EVR_ERR.drain_abort else s
    let s := addBlocks s (cutBlocks (undrained s) [])
    { s with evr.ring := s.evr.ring.map fun r => { r with drained := true } }

/-- SEGMENT_HANDOFF: 16 blocks, or a partly filled segment whose time has come, go to the metadata stratum of the segment's bed. -/
def doSegmentHandoff (s : State) : State :=
  let bed := s.evr.nextSegment % 4
  let lost := (List.range 24).any fun c => (bchan s (bed * 24 + c)).lost
  if s.evr.blocks.isEmpty || lost || flushing s then s
  else match unitFor s bed false 2 false with
    | none => s
    | some (unit, s) =>
      let number := s.evr.nextSegment
      let s := updUnit s unit fun u => { u with segments := u.segments ++ [number] }
      let left := s.evr.blocks.drop 16
      let s := { s with
        evr.handed := s.evr.handed ++ [(number, s.evr.blocks.take 16)]
        evr.blocks := left
        evr.nextSegment := number + 1
        evr.segmentSince := if left.isEmpty then none else some s.devTime }
      startUnit s unit

/-- HISTORY_FETCH: a write of EVR_FETCH_CTL. -/
def doHistoryFetch (who : Accessor) (seq : Word) (s : State) : State :=
  setupWrite s who Reg.EVR_FETCH_CTL.seq.addr
    (let s := { s with evr.fetchSeq := some seq.toNat, evr.fetchBlock := none }
     putFlag (putFlag (setFlag s Reg.EVR_FETCH_STS.busy) Reg.EVR_FETCH_STS.ready false) Reg.EVR_FETCH_STS.not_found false)

/-- The newest history block that holds a sequence number. -/
def blockOf (s : State) (seq : Nat) : Option HistoryBlock :=
  (s.evr.history.flatMap (·.2) ++ s.evr.handed.flatMap (·.2) ++ s.evr.blocks).reverse.find? fun b => b.records.any fun r => r.seq = seq

/-- HISTORY_FETCH_DONE: the block stands in the window, or is not found; a block that ended poisoned stands there as all ones. -/
def doHistoryFetchDone (poisoned : Bool) (s : State) : State :=
  match s.evr.fetchSeq with
  | none => s
  | some seq =>
    let s := putFlag { s with evr.fetchSeq := none } Reg.EVR_FETCH_STS.busy false
    match blockOf s seq with
    | some b =>
      if poisoned then setFlag (setFlag s Reg.EVR_FETCH_STS.not_found) Reg.EVR_FETCH_STS.ready
      else setFlag { s with evr.fetchBlock := some b } Reg.EVR_FETCH_STS.ready
    | none =>
      let s := setFlag (setFlag s Reg.EVR_FETCH_STS.not_found) Reg.EVR_ERR.fetch_miss
      raise s 1496 .fetchMiss 0xFFF [seq]

/-! ### The crash area (R544, R545) -/

/-- CRASH_READY: only 0x340 arms the crash flush. -/
def doCrashReady (who : Accessor) (value : Word) (s : State) : State :=
  match who with
  | .mid ⟨0x340, _⟩ =>
    if value.getLsbD 0 then setFlag (setFlag s Reg.EVR_CRASH_CTL.ready) Reg.EVR_CRASH_STS.ready else s
  | w => denySetup s w Reg.EVR_CRASH_CTL.ready.addr

/-- The newest records that fit the area behind its header sector. -/
def crashFit : List Record → Nat → List Record
  | [], _ => []
  | r :: t, room => if r.len16 * 16 ≤ room then r :: crashFit t (room - r.len16 * 16) else []

/-- The crash flush programs its end word. -/
def endCrash (s : State) (a : CrashArea) : State :=
  let kept := crashFit a.records 0xFF000
  let s := { s with
    evr.crash := none
    evr.crashAreas := (s.evr.crashAreas.filter fun x => x.bank ≠ a.bank) ++ [{ a with records := kept, ended := true }] }
  let s := setF (putFlag s Reg.EVR_CRASH_STS.flushing false) Reg.EVR_CRASH_STS.last_result 1
  setF s Reg.EVR_CRASH_STS.written (min kept.length 0xFFFF)

/-- CRASH_FLUSH_END: the end word, or the power-down that cuts the flush off. -/
def doCrashFlushEnd (cut : Bool) (s : State) : State :=
  match s.evr.crash with
  | none => s
  | some a => if cut then cutCrash s else endCrash s a

/-! ### Import (R546) -/

/-- A word of the import window. -/
def importWord (s : State) (n : Nat) : Word := sget 0 s.evr.importWin n

/-- The items of a body, two words each, from word n on. -/
def importItems (s : State) (n words : Nat) : List Nat :=
  (List.range (words / 2)).map fun i => (importWord s (n + 2 * i)).toNat + (importWord s (n + 2 * i + 1)).toNat * 4294967296

/-- The record in the import window, if its header meets R534. -/
def importRecord (s : State) : Option Record :=
  let h := importWord s 0
  let len := if fieldOf h 15 6 = 0 then 64 else fieldOf h 15 6
  let kind : Option RecordType := if fieldOf h 28 4 = 1 then some .event else if fieldOf h 28 4 = 3 then some .lossMarker else none
  match kind with
  | none => none
  | some t =>
    if fieldOf h 0 1 = 0 ∧ fieldOf h 21 7 = 127 ∧ fieldOf h 4 11 < 1536 then
      some {
        rtype := t, imported := true, severity := Fin.ofNat 4 (fieldOf h 2 2), source := fieldOf h 4 11, len16 := len, seq := 0, offset := 0
        time := (importWord s 2).toNat + (importWord s 3).toNat * 4294967296
        code := .firmware (fieldOf (importWord s 4) 0 16), mid := fieldOf (importWord s 4) 16 16
        suppressed := (importWord s 5).toNat
        detail := importItems s 6 (len * 4 - 6), lost := (importWord s 4).toNat }
    else none

/-- IMPORT_COMMIT: the window's record enters the ring with a new sequence number, or is refused. -/
def doImportCommit (who : Accessor) (s : State) : State :=
  setupWrite s who Reg.EVR_IMPORT_CTL.commit.addr
    (match importRecord s with
     | none => raise (setFlag s Reg.EVR_ERR.import_bad) 1496 .importBad 0xFFF []
     | some r =>
       deliverNewest (incFi (notifyCores (writeRecord s r) r.source) Reg.EVR_SRC_CNT.raised r.source) (concernOf r.source r.code none))

/-! ### MSI-X (R549, R550) -/

/-- MSIX_TRIGGER: a write of EVR_MSIX_TRIG. -/
def doMsixTrigger (who : Accessor) (value : Word) (s : State) : State :=
  setupWrite s who Reg.EVR_MSIX_TRIG.ld.addr (sendMsix s (Fin.ofNat 256 (wr value Reg.EVR_MSIX_TRIG.ld)) (wr value Reg.EVR_MSIX_TRIG.vector))

/-- MSIX_UNMASK: a vector's mask, or the function mask, clears, and what it held back is sent. -/
def doMsixUnmask (ld : Ld) (vector : Option (Fin 64)) (s : State) : State :=
  if !ldPresent s ld then s else
  match vector with
  | some v => flushMsix { s with evr.msixMask := sput true s.evr.msixMask (ld.val * 64 + v.val) false } ld [v.val]
  | none => flushMsix { s with evr.msixFnMask := sput false s.evr.msixFnMask ld.val false } ld (List.range 64)

/-! ### SRC_CFG_WRITE (R553, R554) -/

/-- A write of EVR_SRC_CFG: the selected source's set-up; a new limit starts its count of the window afresh. -/
def doSrcCfgWrite (who : Accessor) (value : Word) (s : State) : State :=
  setupWrite s who Reg.EVR_SRC_CFG.enable.addr
    (let src := selOf s who Reg.EVR_SRC_SEL.source
     if src < 1536 then
       let old := getFi s Reg.EVR_SRC_CFG.max_per_ms src
       let s := writeBits s Reg.EVR_SRC_CFG.enable.addr src value 0
       if getFi s Reg.EVR_SRC_CFG.max_per_ms src = old then s
       else { s with evr.rates := supd (0, 0, 0) s.evr.rates src fun r => (r.1, 0, r.2.2) }
     else s)

/-! ### The commands -/

/-- EVENT_RAISE -/
def execEventRaise (source : Fin 2048) (kind : EventKind) (severity : Fin 4) (mid : Mid) (detail : List Nat) (s : State) :
    Host.Outcome State Fault Refusal :=
  finishes s (doEventRaise source kind severity mid detail s)
/-- DRAIN_TIMER -/
def execDrainTimer (overtaken : Bool) (s : State) : Host.Outcome State Fault Refusal :=
  finishes s (doDrainTimer overtaken s)
/-- SEGMENT_HANDOFF -/
def execSegmentHandoff (s : State) : Host.Outcome State Fault Refusal :=
  finishes s (doSegmentHandoff s)
/-- HISTORY_FETCH -/
def execHistoryFetch (who : Accessor) (seq : Word) (s : State) : Host.Outcome State Fault Refusal :=
  finishes s (doHistoryFetch who seq s)
/-- HISTORY_FETCH_DONE -/
def execHistoryFetchDone (poisoned : Bool) (s : State) : Host.Outcome State Fault Refusal :=
  finishes s (doHistoryFetchDone poisoned s)
/-- CRASH_READY -/
def execCrashReady (who : Accessor) (value : Word) (s : State) : Host.Outcome State Fault Refusal :=
  finishes s (doCrashReady who value s)
/-- CRASH_FLUSH_END -/
def execCrashFlushEnd (cut : Bool) (s : State) : Host.Outcome State Fault Refusal :=
  finishes s (doCrashFlushEnd cut s)
/-- IMPORT_COMMIT -/
def execImportCommit (who : Accessor) (s : State) : Host.Outcome State Fault Refusal :=
  finishes s (doImportCommit who s)
/-- MSIX_TRIGGER -/
def execMsixTrigger (who : Accessor) (value : Word) (s : State) : Host.Outcome State Fault Refusal :=
  finishes s (doMsixTrigger who value s)
/-- MSIX_UNMASK -/
def execMsixUnmask (ld : Ld) (vector : Option (Fin 64)) (s : State) : Host.Outcome State Fault Refusal :=
  finishes s (doMsixUnmask ld vector s)
/-- SRC_CFG_WRITE -/
def execSrcCfgWrite (who : Accessor) (value : Word) (s : State) : Host.Outcome State Fault Refusal :=
  finishes s (doSrcCfgWrite who value s)

end Sys2Proof.Machine
end

