-- ==== Sys2Proof/Machine/FrontCache.lean ====
section
/-! DEFINITION. The front cache's and the directory's commands (06), and the map cache's fill (R49). -/

namespace Sys2Proof.Machine

/-! ### Snoop answers (R85, R86, R213, R214) -/

/-- BIRsp: the host's copy is back, with the line if it had modified it; under IDE it counts once its MAC has checked good (R88). -/
def doBirsp (ld : Ld) (line : LineNo) (wb : Option LineVal) (s : State) : State :=
  match s.fcd.snoops.find? fun x => x.target = ld.val && x.line = line.val && x.answer.isNone with
  | none => s
  | some x =>
    if arriving s ld = 0 then takeAnswer s x wb
    else { s with fcd.snoops := s.fcd.snoops.map fun y => if y.id = x.id then { y with answer := some wb, mac := arriving s ld } else y }

/-- A host has not answered in time: its link goes down, and it holds no copy (R86, R216). -/
def doBisnpTimeout (id : Nat) (s : State) : State :=
  match s.fcd.snoops.find? fun x => x.id = id && decide (x.target < 0x100) && x.answer.isNone with
  | none => s
  | some x =>
    let port := x.target / 16
    let s := setFlag (setFlag s (portField Reg.HFP_PORT_ERR.bi_timeout port)) Reg.FCD_ERR.bi_late
    let s := raise s (port * 32) .biTimeout x.target [x.target, (plotOfLine s x.line).getD 0xFFF, x.line * 64]
    dropLink s port

/-- A request of the host itself for the line, ahead of the one that caused the snoop: of an eviction's or a recall's, one that had reached
the POU when the snoop was sent. -/
def ownEarlier (s : State) (ld : Ld) (x : Snoop) : Option Nat :=
  let bound := match x.cause with
    | .read id => id
    | .write id => id
    | _ => x.before
  let mine (o : Origin) : Bool := match o with
    | .host l _ => l = ld
    | _ => false
  match s.pou.writes.find? fun w => w.line = x.line && mine w.origin && decide (w.id < bound) with
  | some w => some w.id
  | none => (s.pou.reads.find? fun r => r.line = x.line && mine r.origin && decide (r.id < bound)).map (·.id)

/-- BIConflict: acknowledged after the host's own earlier request, or at once (R214). -/
def doBiconflict (ld : Ld) (line : LineNo) (s : State) : State :=
  match s.fcd.snoops.find? fun x => x.target = ld.val && x.line = line.val with
  | none => s
  | some x =>
    match ownEarlier s ld x with
    | some id => { s with fcd.conflicts := s.fcd.conflicts ++ [(ld.val, line.val, id)] }
    | none => toHost s ld (.biConflictAck ld line.val)

/-! ### Fills and victims (R192 to R197) -/

/-- A Loam read returns. -/
def doLoamFillReturn (line : LineNo) (decode : LoamDecode) (job : XtsEnd) (s : State) : State :=
  match s.fcd.fills.find? fun f => f.line = line.val with
  | none => s
  | some f => returnFill s f decode job

/-- The oldest write of a line that LMC holds: at its victim entry's place, or at its own. -/
def lineWrite (s : State) (line : Nat) : Option LmcReq :=
  let lpa := match findVictim s line with
    | some v => some v.lpa
    | none => writeTarget s line
  lpa.bind fun a => (sget [] s.lmc.queues (subchannelOf a)).find? fun r => r.write && r.lpa = a

/-- A line's Loam write has reached the DRAM, once it has been driven: the victim entry that waits for it goes free, unless the eviction was
cancelled (R195, R196, R227). A line whose encryption fails its check, or is refused, is encrypted again, once; the second failure stops
the controller (R448, R450). -/
def doVictimWriteDone (line : LineNo) (job : XtsEnd) (s : State) : State :=
  match lineWrite s line.val with
  | none => s
  | some r =>
    let again (s : State) : State :=
      if r.again then { s with fcd.fatal := some .elsewhere } else updLmcReq s r fun x => { x with again := true }
    match job with
    | .differs core => again (xtsOut s core.val)
    | .refused => again (ckuRefuse s r.mid)
    | .good =>
      if !r.issued then s
      else
        let s := lmcEnded s r
        if (findVictim s line.val).any fun v => v.write = some r.id && !v.held then dropVictim s line.val else s

/-- A held line has had no write for hold_us: its eviction resumes (R197), its line checked as it is read (R202). DESIGN CHOICE: the write
carries the master of the eviction that put the line into the buffer. -/
def doVictimHoldExpiry (line : LineNo) (s : State) : State :=
  let s := if (findVictim s line.val).any (·.held) then checkVictim s line.val else s
  match findVictim s line.val with
  | none => s
  | some v => if v.held && !(mirrored s && s.fcd.fatal.isSome) then issueVictim s v else s

/-! ### Maintenance operations (R198 to R201): issued by engines only (R15) -/

/-- The blocks that issue an operation (R198). DEDUCED: the POU zeroes under the master ID of the ring whose operation it serves (R24, R25),
TMG flushes, and TMG's engines, for a release or an erase, and FCD invalidate. -/
def issues (op : MaintOp) (m : Mid) : Bool :=
  match op with
  | .zero => decide (m.val < 0x200)
  | .flush => decide (0x300 ≤ m.val) && decide (m.val ≤ 0x30F)
  | .drop => decide (0x300 ≤ m.val) && decide (m.val ≤ 0x30F) || m.val = 0x31D

/-- An operation of a block that issues it: nothing of another master's, and a reserved master ID is rejected with an event (R23). It waits
for a fill of its line, and behind an operation that waits already (R199). -/
def maintain (s : State) (op : MaintOp) (mid : Mid) (line : Nat) : State :=
  if issues op mid then runMaint { s with fcd.maint := s.fcd.maint ++ [{ line := line, mid := mid.val, op := op }] }
  else if reservedMid mid.val then raise s (sliceSource (sliceOf line)) .reservedMaster mid.val [mid.val]
  else s

/-- Zero-a-line: the line takes a way without a fetch and is dirty with zeros. -/
def doZeroALine (engine : Mid) (line : LineNo) (s : State) : State := maintain s .zero engine line.val

/-- Flush-line: a dirty line is written to Loam and stays clean; its tag and data are checked as they are read (R202). -/
def doFlushLine (engine : Mid) (line : LineNo) (seen : ArrayFaults) (s : State) : State :=
  maintain (markFaults s line.val seen) .flush engine line.val

/-- Flush-clod: flush-line on each of the clod's lines. -/
def doFlushClod (clod : ClodNo) (s : State) : State := flushClod s clod.val 0x308

/-- Invalidate: the line is dropped, dirty data and all. -/
def doInvalidateLine (engine : Mid) (line : LineNo) (s : State) : State := maintain s .drop engine line.val

/-- A tag walk of a release or a crypto-erase ends: no line of the plot stays cached (R201). -/
def doPlotTagWalkDone (plot : PlotId) (s : State) : State :=
  let r := plotRec s plot.val
  if !r.tagWalk then s else updPlot (walkPlot s r) plot.val fun r => { r with tagWalk := false }

/-- A map-cache miss's read returns: reissued if the entry changed, lost if its CRC fails, else cached with its heat
halved (R46, R49, R308). -/
def doMapCacheFill (clod : ClodNo) (crcBad : Bool) (s : State) : State :=
  match s.plots.mapFills.find? fun f => f.1 = clod.val with
  | none => s
  | some (_, true) => { s with plots.mapFills := s.plots.mapFills.map fun f => if f.1 = clod.val then (f.1, false) else f }
  | some (_, false) =>
    let s := { s with plots.mapFills := s.plots.mapFills.filter fun f => f.1 ≠ clod.val }
    if crcBad then loseEntry s clod.val
    else mapInstall (updEntry s clod.val fun e => { e with heat := e.heat / 2 }) clod.val

/-! ### The commands -/

/-- BIRSP -/
def execBirsp (ld : Ld) (line : LineNo) (wb : Option LineVal) (s : State) : Host.Outcome State Fault Refusal := settles s (doBirsp ld line wb s)

/-- BISNP_TIMEOUT -/
def execBisnpTimeout (id : Nat) (s : State) : Host.Outcome State Fault Refusal := settles s (doBisnpTimeout id s)

/-- BICONFLICT -/
def execBiconflict (ld : Ld) (line : LineNo) (s : State) : Host.Outcome State Fault Refusal := settles s (doBiconflict ld line s)

/-- LOAM_FILL_RETURN -/
def execLoamFillReturn (line : LineNo) (decode : LoamDecode) (job : XtsEnd) (s : State) : Host.Outcome State Fault Refusal :=
  settles s (doLoamFillReturn line decode job s)

/-- VICTIM_WRITE_DONE -/
def execVictimWriteDone (line : LineNo) (job : XtsEnd) (s : State) : Host.Outcome State Fault Refusal := settles s (doVictimWriteDone line job s)

/-- VICTIM_HOLD_EXPIRY -/
def execVictimHoldExpiry (line : LineNo) (s : State) : Host.Outcome State Fault Refusal := settles s (doVictimHoldExpiry line s)

/-- ZERO_A_LINE -/
def execZeroALine (engine : Mid) (line : LineNo) (s : State) : Host.Outcome State Fault Refusal := settles s (doZeroALine engine line s)

/-- FLUSH_LINE -/
def execFlushLine (engine : Mid) (line : LineNo) (seen : ArrayFaults) (s : State) : Host.Outcome State Fault Refusal :=
  settles s (doFlushLine engine line seen s)

/-- FLUSH_CLOD -/
def execFlushClod (clod : ClodNo) (s : State) : Host.Outcome State Fault Refusal := settles s (doFlushClod clod s)

/-- INVALIDATE_LINE -/
def execInvalidateLine (engine : Mid) (line : LineNo) (s : State) : Host.Outcome State Fault Refusal := settles s (doInvalidateLine engine line s)

/-- PLOT_TAG_WALK_DONE -/
def execPlotTagWalkDone (plot : PlotId) (s : State) : Host.Outcome State Fault Refusal := settles s (doPlotTagWalkDone plot s)

/-- MAP_CACHE_FILL -/
def execMapCacheFill (clod : ClodNo) (crcBad : Bool) (s : State) : Host.Outcome State Fault Refusal := settles s (doMapCacheFill clod crcBad s)

end Sys2Proof.Machine
end

