-- ==== Sys2Proof/Machine/Management.lean ====
section
/-! DEFINITION. Meanings of the management complex's other commands (16): resets, the watchdog, boot_ok and what waited for it,
and the sideband protocols. -/

namespace Sys2Proof.Machine

/-! ### Lockstep, the watchdog and the management reset (R500, R521 to R523) -/

/-- LOCKSTEP_MISMATCH: counted, and a management reset; three within 24 h advise replacement (R500, R551). -/
def doLockstepMismatch (b : BootReport) (s : State) : State :=
  let s := raise (incF s Reg.MGC_RST_CAUSE.lockstep_cnt) 1504 .lockstep 0xFFF []
  let times := (s.mgc.lockstepTimes.filter fun t => s.devTime < t + 86400000000000) ++ [s.devTime]
  let s := { s with mgc.lockstepTimes := times }
  mgmtReset (if 3 ≤ times.length then adviseReplace s 9 else s) 2 b

/-- WDT_KICK: 0x5A5A from a management core restarts the watchdog; another value is counted. -/
def doWdtKick (who : Accessor) (value : Word) (s : State) : State :=
  setupWrite s who Reg.MGC_WDT_KICK.kick.addr
    (match who with
     | .mid _ => if wr value Reg.MGC_WDT_KICK.kick = 0x5A5A then restartWdt s else incF s Reg.MGC_WDT_STS.bad_kicks
     | .jtag => s)

/-- The watchdog runs: it is enabled and the cores are out of reset. -/
def wdtRuns (s : State) : Bool := s.mgc.wdtOn && decide (getF s Reg.MGC_CORE_STS.running ≠ 0)

/-- WDT_WARNING: half the timeout has passed. -/
def doWdtWarning (s : State) : State :=
  if !wdtRuns s || flag s Reg.MGC_WDT_STS.warned then s
  else emit (raise (setFlag s Reg.MGC_WDT_STS.warned) 1504 .wdtWarn 0xFFF []) (.coreIrq 0x3F)

/-- WDT_EXPIRY -/
def doWdtExpiry (b : BootReport) (s : State) : State :=
  if !wdtRuns s then s else mgmtReset (raise (incF s Reg.MGC_RST_CAUSE.wdt_cnt) 1504 .wdtExpiry 0xFFF []) 1 b

/-- MGMT_RESET: by the lockstep pair, or by JTAG while debug is open. -/
def doMgmtReset (who : Accessor) (b : BootReport) (s : State) : State :=
  match who with
  | .mid _ => if isLockstep who then mgmtReset s 4 b else denySetup s who Reg.MGC_RST_CTL.mgmt_reset.addr
  | .jtag => if s.mgc.debugClosed then denySetup s who Reg.MGC_RST_CTL.mgmt_reset.addr else mgmtReset s 5 b

/-- JTAG_FUSE_CLOSE: DEBUG_CLOSE is blown while VPP_EFUSE is held at 1.80 V (R525). -/
def doJtagFuseClose (vppHigh : Bool) (s : State) : State :=
  if vppHigh then setFlag { s with mgc.debugClosed := true } Reg.MGC_FUSE_STS.debug_closed else s

/-! ### Sideband buses (R526) -/

/-- One bit at a place. -/
def bitAt (b : Bool) (n : Nat) : Nat := if b then 2 ^ n else 0

/-- The flags of the SMBus block and of PLDM's state sensors. -/
def sideFlags (s : State) : Nat :=
  bitAt (getF s Reg.EVR_HEALTH.reasons ≠ 0) 0 + bitAt (twinMode s = mFenced) 1 + bitAt (solo s) 2 + bitAt (armed s) 3

/-- SMBUS_BLOCK_READ: eight bytes; until boot_ok the bus's busy response (R523). -/
def doSmbusBlockRead (s : State) : State :=
  if !s.mgc.booted then emit s (.sideband .smbusBusy)
  else emit s (.sideband (.smbusBlock (sideFlags s) (phsState s) (senseValue s 20) (BitVec.ofNat 32 s.mgc.eventsRaised)))

/-- I3C_ADDRESS_ASSIGN: SETDASA or ENTDAA. -/
def doI3cAddressAssign (address : Fin 128) (s : State) : State :=
  emit { s with mgc.i3cDynamic := some address.val } (.sideband (.addressAssigned address.val))

/-! ### MCTP (R527) -/

/-- SET_ENDPOINT_ID: 0, 1 to 7 and 255 are no endpoint's IDs (DSP0236, PRESUMED). -/
def doSetEndpointId (eid : Fin 256) (s : State) : State :=
  if eid.val < 8 || eid.val = 255 then emit s (.sideband (.endpointId eid.val false))
  else emit (setFlag (setF s Reg.MGC_MCTP_STS.eid eid.val) Reg.MGC_MCTP_STS.eid_valid) (.sideband (.endpointId eid.val true))

/-- Message types taken: control, PLDM, SPDM, secured, CXL FM API, CXL CCI (DSP0239 codes, PRESUMED). -/
def mctpTypes : List Nat := [0, 1, 5, 6, 7, 8]

/-- A packet is for this endpoint: its EID, or the null ID. -/
def mctpMine (s : State) (dest : Nat) : Bool := dest = 0 || (flag s Reg.MGC_MCTP_STS.eid_valid && decide (dest = getF s Reg.MGC_MCTP_STS.eid))

/-- A whole message of a type that is taken counts. -/
def mctpWhole (s : State) (msgType : Nat) : State := if mctpTypes.contains msgType then incF s Reg.MGC_MCTP_STS.msgs else s

/-- MCTP_PACKET: reassembly of up to 8 messages of up to 64 KiB. Every packet but a message's last carries 64 to 256 bytes. -/
def doMctpPacket (p : MctpPacket) (s : State) : State :=
  if !mctpMine s p.dest.val || 256 < p.bytes.val || (p.bytes.val < 64 && !p.eom) then s
  else
    let mine (r : Reassembly) : Bool := r.source = p.src.val && r.tag = p.tag.val
    let others := s.mgc.reassembly.filter fun r => !mine r
    if p.som then
      let s := { s with mgc.reassembly := others }
      if p.eom then mctpWhole s p.msgType.val
      else if 8 ≤ others.length then s
      else { s with mgc.reassembly := others ++
          [{ source := p.src.val, tag := p.tag.val, msgType := p.msgType.val, bytes := p.bytes.val, nextSeq := (p.seq.val + 1) % 4 }] }
    else match s.mgc.reassembly.find? mine with
      | none => s
      | some r =>
        if r.nextSeq ≠ p.seq.val || 65536 < r.bytes + p.bytes.val then { s with mgc.reassembly := others }
        else if p.eom then mctpWhole { s with mgc.reassembly := others } r.msgType
        else { s with mgc.reassembly := others ++ [{ r with bytes := r.bytes + p.bytes.val, nextSeq := (r.nextSeq + 1) % 4 }] }

/-! ### PLDM (R514, R516, R517, R519, R520, R528) -/

/-- Answer on the sideband. -/
def side (s : State) (r : SidebandReply) : State := emit s (.sideband r)

/-- PLDM_BASE: answered. -/
def doPldmBase (cmd : Fin 256) (s : State) : State := side s (.pldmBase cmd.val)

/-- The hottest Loam device in °C. -/
def hottestLoam (s : State) : Nat := (List.range 16).foldl (fun t c => max t (getF s (lmcField Reg.LMC_CH_STS.temp_max_c c))) 0

/-- PLDM_PLATFORM: numeric sensors 0 to 20 are PHS's channels and 21 the hottest Loam device; state sensors 22 to 24 are
replace-advised, the twin mode and the kiln. The numbers are the model's (DESIGN CHOICE). -/
def doPldmPlatform (cmd : Fin 256) (sensor : Fin 65536) (s : State) : State :=
  let n := sensor.val
  if n ≤ 20 then side s (.pldmPlatform cmd.val n (senseValue s n) [])
  else if n = 21 then side s (.pldmPlatform cmd.val n (hottestLoam s) [])
  else if n = 22 then side s (.pldmPlatform cmd.val n 0 [bitAt (getF s Reg.EVR_HEALTH.reasons ≠ 0) 0])
  else if n = 23 then side s (.pldmPlatform cmd.val n 0 [twinMode s])
  else if n = 24 then side s (.pldmPlatform cmd.val n 0 [bitAt (armed s) 0, bitAt (kilnReady s) 0, bitAt (flushing s) 0])
  else side s (.pldmError 0x80)

/-- PLDM_FRU: read only. -/
def doPldmFru (cmd : Fin 256) (s : State) : State := side s (.pldmFru cmd.val)

/-- The bank an update writes: the one that does not hold the running image. -/
def updateBank (s : State) : Nat := 1 - getF s Reg.MGC_BOOT_STS.bank

/-- The option-area copy a rewrite takes: an invalid one, else the one of lower seq (R516). -/
def updateCopy (s : State) : Nat :=
  if !optionValid (optionAt s 0) then 0
  else if !optionValid (optionAt s 1) then 1
  else if (optionAt s 1).seq < (optionAt s 0).seq then 1 else 0

/-- An image an update may bring: its length, its sequence number and its security version (R517, R520). -/
def imageAllowed (s : State) (i : ImageHeader) : Bool :=
  decide (1 ≤ i.seq) && decide (i.seq ≤ 0xFFFFFFFE) && lengthOk i.length &&
    decide ((sget {} s.mgc.images (getF s Reg.MGC_BOOT_STS.bank)).securityVersion ≤ i.securityVersion)

/-- Erase the sectors an update needs: those of the new image, or the copy's four. -/
def eraseForUpdate (s : State) (component : Nat) (i : ImageHeader) : State :=
  if component = 1 then (List.range (i.length / 4096)).foldl (fun s k => eraseSector s (updateBank s * 8192 + k)) s
  else let copy := updateCopy s; (List.range 4).foldl (fun s k => eraseSector s (copy * 8192 + 7168 + k)) s

/-- An update's answer: status 0 is success. -/
def updateReply (s : State) (cmd status : Nat) : State := side s (.pldmUpdate cmd status)

/-- An update begins, on a path that MGC_SB_CFG.update_paths leaves open. -/
def beginUpdate (s : State) (path component : Nat) (i : ImageHeader) (o : Option OptionArea) : State :=
  let open_ := getF s Reg.MGC_SB_CFG.update_paths / 2 ^ path % 2 = 1
  let fits := if component = 1 then imageAllowed s i else component = 2 && o.isSome
  if !open_ || s.mgc.update.isSome || !fits then updateReply s 1 1
  else updateReply { eraseForUpdate s component i with mgc.update := some { component := component, image := i, option := o, phase := 0 } } 1 0

/-- The header sector, or the magic, is programmed last: the new contents count from now on. -/
def applyUpdate (s : State) (u : Update) : State :=
  if u.component = 1 then { s with mgc.images := sput {} s.mgc.images (updateBank s) { u.image with valid := true } }
  else
    let copy := updateCopy s
    let o := (u.option.getD {})
    { s with mgc.options := sput {} s.mgc.options copy { o with magicOk := true, crcOk := true, seq := (optionAt s (1 - copy)).seq + 1 } }

/-- Take an update in progress from one phase to the next; out of order it is refused. -/
def updatePhase (s : State) (cmd from_ : Nat) (act : State → Update → State) : State :=
  match s.mgc.update with
  | some u => if u.phase = from_ then act { s with mgc.update := some { u with phase := from_ + 1 } } u else updateReply s cmd 1
  | none => updateReply s cmd 1

/-- PLDM_FIRMWARE_UPDATE: one step of an update of the image or of the option area. -/
def doPldmFirmwareUpdate (u : UpdateStep) (s : State) : State :=
  match u with
  | .begin path component image option => beginUpdate s path.val component.val image option
  | .transfer => updatePhase s 2 0 fun s _ => updateReply s 2 0
  | .verify ok => updatePhase s 3 1 fun s _ =>
      if ok then updateReply s 3 0 else updateReply (raise { s with mgc.update := none } 1504 .authFail 0xFFF []) 3 1
  | .apply => updatePhase s 4 2 fun s u => updateReply (applyUpdate s u) 4 0
  | .activate boot => updatePhase s 5 3 fun s _ => mgmtReset (updateReply s 5 0) 3 boot
  | .cancel => updateReply { s with mgc.update := none } 6 0

/-! ### SPDM (R439, R441, R529) -/

/-- Error codes of DSP0274 (PRESUMED): an invalid request, an invalid session, an unexpected request, too many sessions. -/
def spdmInvalid : Nat := 0x01
/-- InvalidSession -/
def spdmNoSession : Nat := 0x02
/-- UnexpectedRequest -/
def spdmUnexpected : Nat := 0x04
/-- SessionLimitExceeded -/
def spdmSessionLimit : Nat := 0x0A

/-- Keep the count of sessions in its register. -/
def setSessions (s : State) (l : List SpdmSession) : State := setF { s with mgc.sessions := l } Reg.MGC_SPDM_STS.sessions l.length

/-- Requests that need negotiated algorithms (DSP0274, PRESUMED). -/
def whenNegotiated (s : State) (t : State) : State := if s.mgc.negotiated then t else side s (.spdmError spdmUnexpected)

/-- SPDM_GET_VERSION: 1.3. It starts the negotiation afresh. -/
def doSpdmGetVersion (s : State) : State := side { s with mgc.negotiated := false } (.spdmVersion 0x13)

/-- SPDM_GET_CAPABILITIES -/
def doSpdmGetCapabilities (s : State) : State := side s .spdmCapabilities

/-- SPDM_NEGOTIATE_ALGORITHMS: the requester offers every supported one, or none can be selected. -/
def doSpdmNegotiateAlgorithms (offersAll : Bool) (s : State) : State :=
  if offersAll then side { s with mgc.negotiated := true } (.spdmAlgorithms true) else side s (.spdmAlgorithms false)

/-- The certificate chain: the programmed words of the running bank's identity region. -/
def identityWords (s : State) : List Word :=
  let first := (getF s Reg.MGC_BOOT_STS.bank * 33554432 + 0x1D40000) / 4
  (s.mgc.store.filter fun e => decide (first ≤ e.1) && decide (e.1 < first + 16384)).filterMap (·.2)

/-- SPDM_GET_DIGESTS: of the certificate chain. -/
def doSpdmGetDigests (s : State) : State := whenNegotiated s (side s (.spdmDigests (sha384 (wordBytes (identityWords s)))))

/-- SPDM_GET_CERTIFICATE: the portion asked for. -/
def doSpdmGetCertificate (offset length : Fin 65536) (s : State) : State :=
  whenNegotiated s (side s (.spdmCertificate offset.val length.val (((wordBytes (identityWords s)).drop offset.val).take length.val)))

/-- SPDM_CHALLENGE -/
def doSpdmChallenge (nonce : BitVec 256) (s : State) : State := whenNegotiated s (side s (.spdmChallengeAuth (Config.signature nonce)))

/-- The die ID of the eFuses (R524). -/
def dieIdBits : BitVec 128 := Config.dieId 3 ++ Config.dieId 2 ++ Config.dieId 1 ++ Config.dieId 0

/-- The five measurements. -/
def measurement (s : State) (i : Nat) : Measurement :=
  let img := sget {} s.mgc.images (getF s Reg.MGC_BOOT_STS.bank)
  let copy := getF s Reg.MGC_BOOT_STS.opt_copy
  match i with
  | 1 => .bootRom Config.romDigest
  | 2 => .image img.digest img.seq
  | 3 => .optionCopy (optionDigest (optionAt s copy)) (optionAt s copy).seq
  | 4 => .device s.mgc.debugClosed dieIdBits
  | _ => .securityVersion img.securityVersion

/-- SPDM_GET_MEASUREMENTS: one index, or all under 0xFF. -/
def doSpdmGetMeasurements (index : Fin 256) (signed : Bool) (nonce : BitVec 256) (s : State) : State :=
  let sig := if signed then some (Config.signature nonce) else none
  whenNegotiated s
    (if index.val = 0xFF then side s (.spdmMeasurements 0xFF ((List.range 5).map fun i => measurement s (i + 1)) sig)
     else if index.val = 0 then side s (.spdmMeasurements 0 [] sig)
     else if index.val ≤ 5 then side s (.spdmMeasurements index.val [measurement s index.val] sig)
     else side s (.spdmError spdmInvalid))

/-- A failed authentication. -/
def authFails (s : State) : State := raise (incF s Reg.MGC_SPDM_STS.auth_fail) 1504 .authFail 0xFFF []

/-- SPDM_KEY_EXCHANGE: a session of up to 32; a link's exchange takes mutual authentication, and its secret comes through the key
window (R439). -/
def doSpdmKeyExchange (path : SpdmPath) (mutualAuth : Bool) (s : State) : State :=
  let session (doe : Option Nat) : State :=
    if 32 ≤ s.mgc.sessions.length then side s (.spdmError spdmSessionLimit)
    else
      let id := s.mgc.nextSession
      let s := setSessions s (s.mgc.sessions ++ [{ id := id, established := false, mutualAuth := mutualAuth, doe := doe }])
      side { s with mgc.nextSession := id + 1 } (.spdmKeyExchange id)
  whenNegotiated s
    (match path with
     | .link _ => if mutualAuth then side s (.spdmKeyExchange 0) else side (authFails s) (.spdmError spdmInvalid)
     | .doe port => session (some port.val)
     | .mctp => session none)

/-- A session by its number. -/
def findSession (s : State) (id : Nat) : Option SpdmSession := s.mgc.sessions.find? fun x => x.id = id

/-- SPDM_FINISH: the handshake completes, or fails and the session ends. -/
def doSpdmFinish (session : Fin 65536) (ok : Bool) (s : State) : State :=
  match (findSession s session.val).filter fun x => !x.established with
  | none => side s (.spdmError spdmNoSession)
  | some x =>
    if ok then
      side (setSessions s (s.mgc.sessions.map fun y => if y.id = x.id then { y with established := true } else y)) (.spdmFinish session.val)
    else side (authFails (setSessions s (s.mgc.sessions.filter fun y => y.id ≠ x.id))) (.spdmError spdmInvalid)

/-- An established session, or an error. -/
def inSession (s : State) (session : Nat) (t : State) : State :=
  if (findSession s session).any (·.established) then t else side s (.spdmError spdmNoSession)

/-- SPDM_KEY_UPDATE: of a session, or of a link from the counters named (R441). -/
def doSpdmKeyUpdate (session : Fin 65536) (link : Option (Fin 9)) (fromOrdered fromOther : Nat) (s : State) : State :=
  match link with
  | none => inSession s session.val (side s (.spdmKeyUpdate session.val))
  | some l =>
    if linkSecret s l.val = [] || (sget none s.cku.rekeys l.val).isSome then side s (.spdmError spdmUnexpected)
    else side (startRekey s l.val fromOrdered fromOther) (.spdmKeyUpdate session.val)

/-- SPDM_HEARTBEAT -/
def doSpdmHeartbeat (session : Fin 65536) (s : State) : State := inSession s session.val (side s (.spdmHeartbeat session.val))

/-- SPDM_END_SESSION -/
def doSpdmEndSession (session : Fin 65536) (s : State) : State :=
  inSession s session.val (side (setSessions s (s.mgc.sessions.filter fun y => y.id ≠ session.val)) (.spdmEndSession session.val))

/-! ### boot_ok and what waited for it (R518, R523) -/

/-- Serve a sideband request. -/
def serveSideband (i : Instr) (s : State) : State :=
  match i with
  | .mctpPacket p => doMctpPacket p s
  | .setEndpointId eid => doSetEndpointId eid s
  | .pldmBase cmd => doPldmBase cmd s
  | .pldmPlatform cmd sensor => doPldmPlatform cmd sensor s
  | .pldmFru cmd => doPldmFru cmd s
  | .pldmFirmwareUpdate u => doPldmFirmwareUpdate u s
  | .spdmGetVersion => doSpdmGetVersion s
  | .spdmGetCapabilities => doSpdmGetCapabilities s
  | .spdmNegotiateAlgorithms a => doSpdmNegotiateAlgorithms a s
  | .spdmGetDigests => doSpdmGetDigests s
  | .spdmGetCertificate o l => doSpdmGetCertificate o l s
  | .spdmChallenge n => doSpdmChallenge n s
  | .spdmGetMeasurements x g n => doSpdmGetMeasurements x g n s
  | .spdmKeyExchange l m => doSpdmKeyExchange l m s
  | .spdmFinish x ok => doSpdmFinish x ok s
  | .spdmKeyUpdate x l a b => doSpdmKeyUpdate x l a b s
  | .spdmHeartbeat x => doSpdmHeartbeat x s
  | .spdmEndSession x => doSpdmEndSession x s
  | _ => s

/-- Serve a request of a mailbox or of DOE. -/
def serveMailbox (i : Instr) (s : State) : State :=
  match i with
  | .ideKeyProg p slot key iv => doIdeKeyProg p slot key iv s
  | .ideKeySetGo p k => doIdeKeySetGo p k s
  | .cdatRead ld => doCdatRead ld s
  | .getEventRecords ld log => doGetEventRecords ld log s
  | .clearEventRecords ld log n => doClearEventRecords ld log n s
  | .getEventInterruptPolicy ld => doGetEventInterruptPolicy ld s
  | .setEventInterruptPolicy ld m => doSetEventInterruptPolicy ld m s
  | .getSupportedLogs ld => doGetSupportedLogs ld s
  | .getLog ld => doGetLog ld s
  | .getTimestamp ld => doGetTimestamp ld s
  | .setTimestamp ld t => doSetTimestamp ld t s
  | .identifyMemoryDevice ld => doIdentifyMemoryDevice ld s
  | .getHealthInfo ld => doGetHealthInfo ld s
  | .getAlertConfiguration ld => doGetAlertConfiguration ld s
  | .setAlertConfiguration ld w c => doSetAlertConfiguration ld w c s
  | .getPoisonList ld a l => doGetPoisonList ld a l s
  | .injectPoison ld a => doInjectPoison ld a s
  | .clearPoison ld a d => doClearPoison ld a d s
  | .getDcConfiguration ld => doGetDcConfiguration ld s
  | .getDcExtentList ld => doGetDcExtentList ld s
  | .addDcResponse ld p g a => doAddDcResponse ld p g a s
  | .releaseDc ld p g => doReleaseDc ld p g s
  | .mailboxUnsupported ld _ => doMailboxUnsupported ld s
  | _ => serveSideband i s

/-- BOOT_OK: the booted bank's count clears, and what waited is served in order. -/
def doBootOk (who : Accessor) (s : State) : State :=
  setupWrite s who Reg.MGC_BOOT_CTL.boot_ok.addr
    (let s := setF (setFlag s Reg.MGC_BOOT_CTL.boot_ok) (bootCount (getF s Reg.MGC_BOOT_STS.bank)) 0
     let waiting := s.mgc.waiting
     waiting.foldl (fun s i => serveMailbox i s) { s with mgc.booted := true, mgc.waiting := [] })

/-- A sideband request waits for boot_ok; a firmware update is also served from ROM when no image runs (R518). -/
def whenSideband (s : State) (i : Instr) (t : State) : State :=
  if getF s Reg.MGC_CORE_STS.running = 0 && !s.phs.dieReset then t else whenBooted s i t

/-! ### The commands -/

/-- LOCKSTEP_MISMATCH -/
def execLockstepMismatch (boot : BootReport) (s : State) : Host.Outcome State Fault Refusal :=
  finishes s (doLockstepMismatch boot s)
/-- BOOT_OK -/
def execBootOk (who : Accessor) (s : State) : Host.Outcome State Fault Refusal :=
  settles s (doBootOk who s)
/-- WDT_KICK -/
def execWdtKick (who : Accessor) (value : Word) (s : State) : Host.Outcome State Fault Refusal :=
  finishes s (doWdtKick who value s)
/-- WDT_WARNING -/
def execWdtWarning (s : State) : Host.Outcome State Fault Refusal :=
  finishes s (doWdtWarning s)
/-- WDT_EXPIRY -/
def execWdtExpiry (boot : BootReport) (s : State) : Host.Outcome State Fault Refusal :=
  finishes s (doWdtExpiry boot s)
/-- MGMT_RESET -/
def execMgmtReset (who : Accessor) (boot : BootReport) (s : State) : Host.Outcome State Fault Refusal :=
  finishes s (doMgmtReset who boot s)
/-- JTAG_FUSE_CLOSE -/
def execJtagFuseClose (vppHigh : Bool) (s : State) : Host.Outcome State Fault Refusal :=
  finishes s (doJtagFuseClose vppHigh s)
/-- SMBUS_BLOCK_READ -/
def execSmbusBlockRead (s : State) : Host.Outcome State Fault Refusal :=
  finishes s (doSmbusBlockRead s)
/-- I3C_ADDRESS_ASSIGN -/
def execI3cAddressAssign (address : Fin 128) (s : State) : Host.Outcome State Fault Refusal :=
  finishes s (doI3cAddressAssign address s)
/-- MCTP_PACKET -/
def execMctpPacket (p : MctpPacket) (s : State) : Host.Outcome State Fault Refusal :=
  finishes s (whenBooted s (.mctpPacket p) (doMctpPacket p s))
/-- SET_ENDPOINT_ID -/
def execSetEndpointId (eid : Fin 256) (s : State) : Host.Outcome State Fault Refusal :=
  finishes s (whenBooted s (.setEndpointId eid) (doSetEndpointId eid s))
/-- PLDM_BASE -/
def execPldmBase (cmd : Fin 256) (s : State) : Host.Outcome State Fault Refusal :=
  finishes s (whenBooted s (.pldmBase cmd) (doPldmBase cmd s))
/-- PLDM_PLATFORM -/
def execPldmPlatform (cmd : Fin 256) (sensor : Fin 65536) (s : State) : Host.Outcome State Fault Refusal :=
  finishes s (whenBooted s (.pldmPlatform cmd sensor) (doPldmPlatform cmd sensor s))
/-- PLDM_FRU -/
def execPldmFru (cmd : Fin 256) (s : State) : Host.Outcome State Fault Refusal :=
  finishes s (whenBooted s (.pldmFru cmd) (doPldmFru cmd s))
/-- PLDM_FIRMWARE_UPDATE -/
def execPldmFirmwareUpdate (u : UpdateStep) (s : State) : Host.Outcome State Fault Refusal :=
  finishes s (whenSideband s (.pldmFirmwareUpdate u) (doPldmFirmwareUpdate u s))
/-- SPDM_GET_VERSION -/
def execSpdmGetVersion (s : State) : Host.Outcome State Fault Refusal :=
  finishes s (whenBooted s (.spdmGetVersion) (doSpdmGetVersion s))
/-- SPDM_GET_CAPABILITIES -/
def execSpdmGetCapabilities (s : State) : Host.Outcome State Fault Refusal :=
  finishes s (whenBooted s (.spdmGetCapabilities) (doSpdmGetCapabilities s))
/-- SPDM_NEGOTIATE_ALGORITHMS -/
def execSpdmNegotiateAlgorithms (offersAll : Bool) (s : State) : Host.Outcome State Fault Refusal :=
  finishes s (whenBooted s (.spdmNegotiateAlgorithms offersAll) (doSpdmNegotiateAlgorithms offersAll s))
/-- SPDM_GET_DIGESTS -/
def execSpdmGetDigests (s : State) : Host.Outcome State Fault Refusal :=
  finishes s (whenBooted s (.spdmGetDigests) (doSpdmGetDigests s))
/-- SPDM_GET_CERTIFICATE -/
def execSpdmGetCertificate (offset length : Fin 65536) (s : State) : Host.Outcome State Fault Refusal :=
  finishes s (whenBooted s (.spdmGetCertificate offset length) (doSpdmGetCertificate offset length s))
/-- SPDM_CHALLENGE -/
def execSpdmChallenge (nonce : BitVec 256) (s : State) : Host.Outcome State Fault Refusal :=
  finishes s (whenBooted s (.spdmChallenge nonce) (doSpdmChallenge nonce s))
/-- SPDM_GET_MEASUREMENTS -/
def execSpdmGetMeasurements (index : Fin 256) (signed : Bool) (nonce : BitVec 256) (s : State) : Host.Outcome State Fault Refusal :=
  finishes s (whenBooted s (.spdmGetMeasurements index signed nonce) (doSpdmGetMeasurements index signed nonce s))
/-- SPDM_KEY_EXCHANGE -/
def execSpdmKeyExchange (path : SpdmPath) (mutualAuth : Bool) (s : State) : Host.Outcome State Fault Refusal :=
  finishes s (whenBooted s (.spdmKeyExchange path mutualAuth) (doSpdmKeyExchange path mutualAuth s))
/-- SPDM_FINISH -/
def execSpdmFinish (session : Fin 65536) (ok : Bool) (s : State) : Host.Outcome State Fault Refusal :=
  finishes s (whenBooted s (.spdmFinish session ok) (doSpdmFinish session ok s))
/-- SPDM_KEY_UPDATE -/
def execSpdmKeyUpdate (session : Fin 65536) (link : Option (Fin 9)) (fromOrdered fromOther : Nat) (s : State) : Host.Outcome State Fault Refusal :=
  finishes s (whenBooted s (.spdmKeyUpdate session link fromOrdered fromOther) (doSpdmKeyUpdate session link fromOrdered fromOther s))
/-- SPDM_HEARTBEAT -/
def execSpdmHeartbeat (session : Fin 65536) (s : State) : Host.Outcome State Fault Refusal :=
  finishes s (whenBooted s (.spdmHeartbeat session) (doSpdmHeartbeat session s))
/-- SPDM_END_SESSION -/
def execSpdmEndSession (session : Fin 65536) (s : State) : Host.Outcome State Fault Refusal :=
  finishes s (whenBooted s (.spdmEndSession session) (doSpdmEndSession session s))

end Sys2Proof.Machine
end

