-- ==== Sys2Proof/Machine/Lifecycle.lean ====
section
/-! DEFINITION. Start-up after training, restore and shutdown (18): translation recovery, kiln image validation and restore,
the twin at start, orderly shutdown and warm reset. -/

namespace Sys2Proof.Machine

/-! ### The journal (R559) -/

/-- Insert a record by its sequence number. -/
def insertRec (r : JournalRec) : List JournalRec → List JournalRec
  | [] => [r]
  | x :: t => if r.seq < x.seq then r :: x :: t else x :: insertRec r t

/-- The sealed records in sequence order. -/
def journalInOrder (s : State) : List JournalRec := s.glb.journal.foldr insertRec []

/-- The number in the latest image-consumed record. -/
def latestConsumed (s : State) : Option Nat :=
  (journalInOrder s).foldl (fun n r =>
    match r.change with
    | .imageConsumed k => some k
    | _ => n) none

/-- The latest shutdown record. -/
def latestShutdown (s : State) : Option StopRecord :=
  (journalInOrder s).foldl (fun n r =>
    match r.change with
    | .shutdown side mode e => some { side := side, mode := mode, epoch := e }
    | _ => n) none

/-- Everything packed so far is sealed, and what waited for it completes. -/
def sealAllJournal (s : State) : State :=
  let s := (s.glb.journalUnits.map (·.1)).foldl sealJournal s
  let recs := s.glb.packing
  recs.foldl journalSealed { s with glb.journal := s.glb.journal ++ recs, glb.packing := [] }

/-- Seal one more record behind all others. -/
def sealRecord (s : State) (change : JournalChange) : State := sealAllJournal (packJournal (sealAllJournal s) change .nothing)

/-- JOURNAL_UNIT_TIMEOUT: the records packed are programmed in a unit of the metadata stratum of the first bed, in turn, that
has one. -/
def doJournalUnitTimeout (s : State) : State :=
  if s.glb.packing.isEmpty || flushing s then s
  else
    let beds := (List.range 4).map fun i => (s.glb.journalSeq + i) % 4
    match beds.findSome? fun b => unitFor s b false 2 false with
    | none => s
    | some (unit, s) =>
      startUnit { s with glb.journalUnits := s.glb.journalUnits ++ [(unit, s.glb.packing)], glb.packing := [] } unit

/-! ### The checkpoint (R560) -/

/-- Numbers of the checkpoint grains a pass writes: 16 for each granule whose entries are valid, 256 entries each. -/
def ckptKeys (s : State) : List Nat :=
  sortAsc (s.plots.granules.flatMap fun r => (List.range (r.size * 16)).map fun i => r.base * 16 + i)

/-- What grain k holds; the first grain of a pass also holds the granule table and the plot records. -/
def ckptGrain (s : State) (k : Nat) : CkptGrain :=
  let first := s.glb.ckptNow.isEmpty
  let mine := s.plots.entries.filter fun e => e.1 / 256 = k && e.2.hasBase
  { seq := s.glb.journalSeq
    plots := if first then s.plots.plots else []
    acl := if first then s.plots.plots.map fun e => (e.1, (adminPlot s e.1).acl) else []
    granules := if first then s.plots.granules else []
    bases := mine.map fun e => (e.1, { bed := e.2.bed.val, stratum := e.2.stratum, row := e.2.row, grain := e.2.grain }) }

/-- The pass is complete: it is the one recovery reads, and journal records older than its oldest grain are dead. -/
def endPass (s : State) : State :=
  let oldest := s.glb.ckptNow.foldl (fun n e => match e.2 with
    | some g => min n g.seq
    | none => n) s.glb.journalSeq
  { s with
    glb.ckptDone := s.glb.ckptNow, glb.ckptValid := true, glb.ckptNow := [], glb.ckptNext := 0
    glb.journal := s.glb.journal.filter fun r => decide (oldest ≤ r.seq) }

/-- CHECKPOINT_WRITE: the next grain of the pass. -/
def doCheckpointWrite (s : State) : State :=
  if stage s = stBoot || stage s = stTraining || stage s = stRecovery || flushing s then s
  else
    let left := (ckptKeys s).filter fun k => decide (s.glb.ckptNext ≤ k)
    let k := left.headD s.glb.ckptNext
    let s := { s with glb.ckptNow := sput none s.glb.ckptNow k (some (ckptGrain s k)), glb.ckptNext := k + 1 }
    if left.length ≤ 1 then endPass s else s

/-! ### Translation recovery (R559 to R561) -/

/-- What checkpoint and journal say: plot records, access tables, base locations. -/
structure Recovered where
  plots : Sparse Plot
  acl : List (Nat × List (Nat × Word))
  bases : List (Nat × BaseLoc)
  deriving DecidableEq, Repr

/-- A plot's record changes: bases under an older generation or erase count, and of a plot being released, are its no more. -/
def recoverPlot (r : Recovered) (p : Nat) (rec_ : Plot) (acl : List (Nat × Word)) : Recovered :=
  let old := sget {} r.plots p
  let gone := old.generation ≠ rec_.generation || old.eraseCount ≠ rec_.eraseCount || rec_.state = PlotState.free || rec_.state = PlotState.releasing
  { plots := sput {} r.plots p rec_
    acl := (r.acl.filter fun x => x.1 ≠ p) ++ [(p, acl)]
    bases := if gone then r.bases.filter fun b => !plotHasClod old b.1 else r.bases }

/-- Apply one journal record. -/
def recoverRecord (r : Recovered) (x : JournalRec) : Recovered :=
  match x.change with
  | .settled clod loc => { r with bases := (r.bases.filter fun b => b.1 ≠ clod) ++ [(clod, loc)] }
  | .plot p rec_ acl => recoverPlot r p rec_ acl
  | .acl p e v =>
    { r with acl := r.acl.map fun x => if x.1 = p then (p, (x.2.filter fun y => y.1 ≠ e) ++ (if v = 0 then [] else [(e, v)])) else x }
  | .shutdown _ _ _ => r
  | .imageConsumed _ => r

/-- The latest complete pass with every later record applied in sequence order. -/
def recoverAll (s : State) : Recovered :=
  let grains := s.glb.ckptDone.filterMap (·.2)
  let start : Recovered :=
    { plots := grains.flatMap (·.plots), acl := grains.flatMap (·.acl), bases := grains.flatMap (·.bases) }
  let oldest := grains.foldl (fun n g => min n g.seq) s.glb.journalSeq
  ((journalInOrder s).filter fun r => decide (oldest ≤ r.seq) || grains.isEmpty).foldl recoverRecord start

/-- A plot after a start: its orders and waits are counted afresh (R168). -/
def plotAtStart (r : Plot) : Plot :=
  { r with
    seq := 0, mirrored := 0, leaseMark := 0, markChanged := false, sealing := false, erasing := false, tagWalk := false
    cleanup := r.state = .releasing, doneHere := false, doneTwin := false, eraseWait := false, eraseTwin := false }

/-- Put a recovered plot in place. -/
def placePlot (s : State) (r : Recovered) (p : Nat) (x : Plot) : State :=
  let s := setPlot s p (plotAtStart x)
  if x.state = .free then s
  else
    let s := setAcl s p (((r.acl.find? fun y => y.1 = p).map (·.2)).getD [])
    let s := { s with plots.granules := insertRun { base := x.base, size := x.size, plot := p } s.plots.granules }
    if x.state = .releasing && engineHere s then { s with plots.admQueue := s.plots.admQueue ++ [.cleanup (plotIdOf p)] } else s

/-- A clod with a base becomes Settled, and its grains count as live. -/
def placeBase (s : State) (clod : Nat) (l : BaseLoc) : State :=
  match plotOfClod s clod with
  | none => s
  | some _ =>
    updStratum (setEntry s clod (withBase { tier := 2 } l)) l.bed l.stratum fun x => { x with live := x.live + 16 }

/-- Every stratum's live grains are counted afresh; SEALED data strata without one become STALE. -/
def recountLive (s : State) (bases : List (Nat × BaseLoc)) : State :=
  let s := { s with bfc.strata := smap {} s.bfc.strata fun x => { x with live := 0 } }
  let s := bases.foldl (fun s b => placeBase s b.1 b.2) s
  (usedStrata s).foldl (fun s e => if stratumUse s e.2.1 = .data then checkStale s e.1 e.2.1 else s) s

/-- Rebuild plots, granules, access tables and every entry. -/
def rebuildTable (s : State) : State :=
  let r := recoverAll s
  let s := r.plots.foldl (fun s e => placePlot s r e.1 e.2) s
  recountBedrock (recountLive s r.bases)

/-- No readable checkpoint while plots exist: a new device (R557). -/
def newDevice (s : State) : State :=
  recountBedrock (recountLive { s with glb.journal := [], glb.ckptDone := [], glb.ckptValid := false } [])

/-- The journal names a plot. -/
def plotsNamed (s : State) : Bool :=
  s.glb.journal.any fun r => match r.change with
    | .plot _ _ _ => true
    | _ => false

/-! ### Kiln image validation (R562, R563) -/

/-- Classes of GLB_START_STS.image. -/
def imNone : Nat := 0
/-- Complete. -/
def imComplete : Nat := 1
/-- Incomplete. -/
def imIncomplete : Nat := 2
/-- Stale, erased unread. -/
def imStale : Nat := 3

/-- The class of what the kiln strata hold, with `stateBad` when a state, change-map or overlay-map grain cannot be read. -/
def imageClass (s : State) (stateBad : Bool) : Nat :=
  match s.glb.kiln with
  | none => imNone
  | some k =>
    let number := (k.closing.head?.map (·.image)).getD 0
    let stale := match latestConsumed s with
      | some n => !k.closing.isEmpty && decide (number ≤ n)
      | none => false
    if stale then imStale
    else if k.closing.length = 4 ∧ k.closing.all (fun c => c.complete && c.image = number) ∧ !stateBad then imComplete
    else imIncomplete

/-- The class is known: the lost range, the dirty shutdown count and its event. -/
def classifyImage (s : State) (stateBad : Bool) : State :=
  let c := imageClass s stateBad
  let s := setF s Reg.GLB_START_STS.image c
  if c ≠ imIncomplete then s
  else
    let lost := if stateBad then 0 else ((s.glb.kiln.bind (·.lost))).getD 0
    let s := { s with
      glb.lostFrom := some lost
      glb.kiln := if stateBad then s.glb.kiln.map fun k => { k with sections := [] } else s.glb.kiln
      hfp.dirtyShutdowns := s.hfp.dirtyShutdowns + 1 }
    raise s 1280 .kilnIncomplete 0xFFF [lost]

/-- The image that is to be applied. -/
def goodImage (s : State) : Option KilnImage :=
  if getF s Reg.GLB_START_STS.image = imComplete ∨ getF s Reg.GLB_START_STS.image = imIncomplete then s.glb.kiln else none

/-- What this side recorded at its stop: in its closing grains, or in the latest shutdown record (R570). -/
def stopRecord (s : State) : Option StopRecord :=
  match (goodImage s).bind fun k => k.closing.head? with
  | some c => some { side := c.side, mode := c.mode, epoch := c.epoch }
  | none => latestShutdown s

/-- Media time resumes at the highest the journal and the closing grains hold (R267). -/
def resumeMedia (s : State) : State :=
  let times := s.glb.journal.map (·.mediaTime) ++ ((s.glb.kiln.map fun k => k.closing.map (·.mediaTime)).getD [])
  if times.isEmpty then s
  else
    let ofs := (times.foldl max 0 + 2 ^ 64 - s.devTime % 2 ^ 64) % 2 ^ 64
    setF (setF s Reg.BFC_MEDIA_OFS_LO.ofs_lo (ofs % 4294967296)) Reg.BFC_MEDIA_OFS_HI.ofs_hi (ofs / 4294967296)

/-- The poison list of an image. -/
def imagePoisons (k : KilnImage) : List (Nat × PoisonEntry) :=
  k.sections.flatMap fun x => match x with
    | .poisonList es => es
    | _ => []

/-- Clods that the image's poison list names are marked (R561). -/
def markPoisoned (s : State) : State :=
  match goodImage s with
  | none => s
  | some k =>
    let clods := ((imagePoisons k).map fun e => clodOf e.1).eraseDups
    clods.foldl (fun s c => if (entryOf s c).tier = 0 then s else updEntry s c fun e => { e with marked := true }) s

/-- With the twin's HELLO missing and its line reading fenced, current data start solo at once (R573). -/
def startIfFenced (s : State) : State :=
  let current := recordClass s.glb.record = 1 || recordClass s.glb.record = 2
  if aliveIn s = 2 && twinMode s = 0 && !s.twin.helloSeen && !s.glb.roleDecided && current then startSolo s else s

/-- The role epoch as recorded. -/
def adoptRecord (s : State) : State :=
  match s.glb.record with
  | some r => setEpoch { s with twin.lastEpoch := r.epoch } r.epoch
  | none => s

/-- Clods whose base can be found neither in the checkpoint nor from the strata the journal names: their entries say nothing, and they
join the rejoin list. -/
def unplace (s : State) (clods : List Nat) : State :=
  let lost := (sortAsc clods.eraseDups).filter fun c => (plotOfClod s c).isSome
  let s := lost.foldl (fun s c => setEntry s c {}) s
  { s with glb.unplaced := lost, twin.rejoin := (sortAsc (s.twin.rejoin ++ lost)).eraseDups }

/-- TRANSLATION_RECOVERY_DONE: the table is rebuilt, the image classified, and HELLO goes out. `unplaced` names the clods that cannot be
placed: they are lost under R46, once there is a twin to fetch them from or this side serves alone. -/
def doTranslationRecoveryDone (readable stateBad : Bool) (unplaced : List ClodNo) (s : State) : State :=
  if stage s ≠ stRecovery then s
  else
    let known := readable && (s.glb.ckptValid || !plotsNamed s)
    let s := resumeMedia s
    let s := classifyImage (if known then unplace (rebuildTable s) (unplaced.map (·.val)) else newDevice s) stateBad
    let s := markPoisoned (adoptRecord { s with glb.record := if known then stopRecord s else none })
    startIfFenced (sendHello (setStage s stRestore))

/-! ### Restore (R564 to R566) -/

/-- The lines of a grain's place in a valid map. -/
def grainMask (g : Nat) : BitVec 1024 := (BitVec.ofNat 1024 (2 ^ 64 - 1)) <<< (64 * g)

/-- What the image holds of a clod under its plot's generation: its grains with their lines, and its overlay's map. -/
def clodGrains (s : State) (k : KilnImage) (clod : Nat) : List (Nat × ClodImage) :=
  k.sections.filterMap fun x => match x with
    | .data c g gen lines => if c = clod ∧ gen = clodGeneration s clod then some (g, lines) else none
    | _ => none

/-- The overlay map of a clod in the image. -/
def clodMap (s : State) (k : KilnImage) (clod : Nat) : Option (BitVec 1024) :=
  k.sections.findSome? fun x => match x with
    | .overlayMap c gen v => if c = clod ∧ gen = clodGeneration s clod then some v else none
    | _ => none

/-- Clods of the image's data grains below the lost range, in clod order, that lie in a plot not being released. -/
def imageClods (s : State) (k : KilnImage) : List Nat :=
  let all := k.sections.filterMap fun x => match x with
    | .data c _ _ _ => some c
    | _ => none
  (sortAsc all.eraseDups).filter fun c =>
    (match s.glb.lostFrom with
      | some l => decide (c < l)
      | none => true) &&
    (match plotOfClod s c with
      | some p => (plotRec s p).state ≠ .releasing && (plotRec s p).state ≠ .free
      | none => false) && !(clodGrains s k c).isEmpty

/-- A line the image holds: poisoned where the list says so (R423). -/
def restoredLine (s : State) (clod : Nat) (grains : List (Nat × ClodImage)) (i : Nat) : LineVal :=
  match poisonEntry s (clod * 1024 + i) with
  | some p => if p.base then zeroLine else poisonLine
  | none => ((grains.find? fun g => g.1 = i / 64).map fun g => sget zeroLine g.2 i).getD zeroLine

/-- Which poisoned lines of a clod now lie only in its base. -/
def baseWhere (s : State) (clod : Nat) (only : Nat → Bool) : State :=
  { s with diu.poison := s.diu.poison.map fun e =>
      if clodOf e.1 = clod then (e.1, { e.2 with base := e.2.base || only (lineIn e.1) }) else e }

/-- The clod's grains are charged. -/
def chargeGrains (s : State) (clod : Nat) (grains : List (Nat × ClodImage)) : State :=
  grains.foldl (fun s g => chargeLine s (clod * 1024 + g.1 * 64)) s

/-- A clod becomes Topdressed with a valid map. -/
def restoreTopdressed (s : State) (clod : Nat) (grains : List (Nat × ClodImage)) (valid : BitVec 1024) : Option State :=
  let e := entryOf s clod
  match takeOverlay s clod (clodGeneration s clod) with
  | none => none
  | some (i, s) =>
    let f := overlayFrame s i
    let s := (List.range 1024).foldl (fun s n => if valid.getLsbD n then setLoam s (lpaOf f n) (restoredLine s clod grains n) else s) (zeroFrame s f)
    let s := setOverlay s i { overlayOf s i with valid := valid }
    let s := setEntry s clod { e with tier := 3, dirty := true, overlay := i, frame := f }
    some (chargeGrains (baseWhere s clod fun n => !valid.getLsbD n) clod grains)

/-- A clod becomes Resident in a fresh frame: new, or lifted from its base with the image's lines over it. -/
def restoreResident (s : State) (clod : Nat) (grains : List (Nat × ClodImage)) (valid : BitVec 1024) : Option State :=
  let e := entryOf s clod
  match takeFrame s with
  | none => none
  | some (f, s) =>
    let s0 := baseWhere s clod fun n => e.hasBase && !valid.getLsbD n
    let line (n : Nat) : LineVal := if valid.getLsbD n || !e.hasBase then restoredLine s0 clod grains n else baseLine s0 e (clod * 1024 + n)
    let s := setEntry (fillFrame s f line) clod { e with tier := 1, dirty := true, frame := f }
    some (chargeGrains (markBase s clod fun _ => false) clod grains)

/-- Restore one clod (R564 step 3). -/
def restoreClod (k : KilnImage) (s : State) (clod : Nat) : State :=
  let e := entryOf s clod
  let grains := clodGrains s k clod
  let all := grains.foldl (fun m g => m ||| grainMask g.1) 0
  let valid := (clodMap s k clod).getD all
  let done := if e.hasBase && decide (131072 < freeOverlays s) then restoreTopdressed s clod grains valid else restoreResident s clod grains valid
  match done with
  | some s => resourceCheck s
  | none => s

/-- Load the state sections and the change map (R564 steps 1 and 2). Entries of the list under an older generation go free, and a
poisoned line that the image does not hold lies in its clod's base. -/
def loadSections (s : State) (k : KilnImage) : State :=
  let s := k.sections.foldl (fun s x => match x with
    | .plotChange ps => ps.foldl (fun s p => { s with twin.plotChange := sput false s.twin.plotChange p true }) s
    | .poisonList es => { s with diu.poison := es }
    | .changeMap cs => cs.foldl markChanged s
    | _ => s) s
  let s := { s with diu.poison := s.diu.poison.filter fun e => (poisonEntry s e.1).isSome }
  let inImage := imageClods s k
  { s with diu.poison := s.diu.poison.map fun e =>
      if inImage.contains (clodOf e.1) || !(entryOf s (clodOf e.1)).hasBase then e else (e.1, { e.2 with base := true }) }

/-- OPEN data and metadata strata are closed at their last sealed row. -/
def closeOpen (s : State) : State :=
  (usedStrata s).foldl (fun s e => if stratumUse s e.2.1 ≠ .kiln && e.2.2.state = .open_ then sealStratum s e.1 e.2.1 else s) s

/-- The XTS key table: the slot of reserved Loam, 4,096, and one of every plot outside FREE (R435, R566). -/
def deriveKeys (s : State) : State :=
  setFlag ((admitted s).foldl (fun s e => deriveXts s e.1) (deriveXts s 4096)) Reg.CKU_STS.keys_ready

/-- Every dirty clod is queued for settling at class 0. -/
def settleEvery (s : State) : State := (chargedClods s).foldl (fun s c => queueSettle s c 0 .repair) s

/-- The kiln strata are erased: what is left is to find the twin. -/
def afterErase (s : State) : State := setStage s (if getF s Reg.GLB_START_STS.pair = 3 then stReturn else stTwin)

/-- The failed grains that belong to restored clods. -/
def failedGrains (lost : List (ClodNo × Fin 16)) (clods : List Nat) : List (Nat × Nat) :=
  (lost.filter fun g => clods.contains g.1.val).map fun g => (g.1.val, g.2.val)

/-- Apply an image (R564 steps 1 to 3). The clods whose writes may not have reached the twin, and those of failed grains, join the
rejoin list. -/
def applyImage (s : State) (k : KilnImage) (lost : List (ClodNo × Fin 16)) : State :=
  let s := loadSections s k
  let clods := imageClods s k
  let s := clods.foldl (restoreClod k) s
  let failed := failedGrains lost clods
  let rejoin := s.twin.rejoin ++ s.twin.changeMap.map (·.1) ++ failed.map (·.1)
  { s with glb.lostGrains := failed, twin.rejoin := (sortAsc rejoin).eraseDups }

/-- RESTORE_DONE: the image has been applied; `lost` names the data grains of it that no rung repaired. -/
def doRestoreDone (lost : List (ClodNo × Fin 16)) (s : State) : State :=
  if stage s ≠ stRestore then s
  else
    let image := goodImage s
    let s := match image with
      | some k => applyImage s k lost
      | none => s
    let s := settleEvery (checkLost (deriveKeys (closeOpen { s with glb.restored := true })))
    let s := sendHello (setStage s (if image.isSome then stSettle else stErase))
    if kilnReady s && image.isNone then afterErase s else s

/-! ### The end of the image (R567) -/

/-- RESTORE_SETTLE_DONE: nothing is dirty any more; the image's number is recorded as consumed. An image without a closing grain
names no number: the latest one consumed is recorded again. -/
def doRestoreSettleDone (s : State) : State :=
  if stage s ≠ stSettle || dirtyGrains s ≠ 0 then s
  else
    let number := match s.glb.kiln.bind fun k => k.closing.head? with
      | some c => c.image
      | none => (latestConsumed s).getD 0
    setStage (sealRecord s (.imageConsumed number)) stErase

/-- KILN_ERASE_DONE: every kiln stratum that is not RETIRED is ERASED. -/
def doKilnEraseDone (s : State) : State :=
  if stage s ≠ stErase then s
  else
    let s := (usedStrata s).foldl (fun s e =>
      if stratumUse s e.2.1 = .kiln && e.2.2.state ≠ .retired && e.2.2.state ≠ .erased then
        updStratum s e.1 e.2.1 fun x => { x with state := .erased, eraseCount := x.eraseCount + 1, readCounts := [], nextUnit := 0, sealedRows := 0, erasing := false }
      else s) { s with glb.kiln := none }
    afterErase s

/-! ### The twin at start (R572, R573) -/

/-- HELLO_WAIT_TIMEOUT: TW_ALIVE_IN has read absent for hello_wait_s; current data start solo. -/
def doHelloWaitTimeout (s : State) : State :=
  let known := !(stage s = stBoot || stage s = stTraining || stage s = stRecovery || stage s = stHalted)
  let current := recordClass s.glb.record = 1 || recordClass s.glb.record = 2
  if known && aliveIn s = 0 && twinMode s = 0 && !s.twin.helloSeen && !s.glb.roleDecided && current then startSolo s else s

/-- PAIR_WAIT_TIMEOUT: the twin of a pair restart is still restoring after pair_wait_s; this side serves alone. -/
def doPairWaitTimeout (s : State) : State :=
  let twinDone := match s.glb.twinStart with
    | some t => t.restored
    | none => false
  if getF s Reg.GLB_START_STS.pair = 1 && twinMode s = 0 && armed s && !twinDone then startSolo s else s

/-- The stage a halted start goes on from. -/
def resumeStage (s : State) : Nat :=
  if !s.glb.restored then stRestore
  else if s.glb.kiln.isSome && goodImage s ≠ none && dirtyGrains s ≠ 0 then stSettle
  else if kilnReady s then stTwin
  else stErase

/-- FORCE_SOLO: only from 0x340, while the halt is pair_unknown or side_conflict. -/
def doForceSolo (who : Accessor) (s : State) : State :=
  match who with
  | .mid ⟨0x340, _⟩ =>
    if getF s Reg.GLB_START_STS.halt = 7 ∨ getF s Reg.GLB_START_STS.halt = 8 then
      startSolo (setStage (setF (setFlag s Reg.GLB_START_CTL.force_solo) Reg.GLB_START_STS.halt 0) (resumeStage s))
    else s
  | w => denySetup s w Reg.GLB_START_CTL.force_solo.addr

/-! ### Orderly shutdown and warm reset (R574, R576) -/

/-- Steps 1 and 2: hosts move to the twin, or their links go down; every dirty clod settles. -/
def beginShutdown (s : State) (how : Shutdown) : State :=
  let s := { s with glb.shutdown := how }
  settleEvery (if mirrored s then fenceSelf s [] else if solo s then dropAllLinks s else s)

/-- ORDERLY_SHUTDOWN -/
def doOrderlyShutdown (s : State) : State :=
  if s.glb.shutdown ≠ .none || flushing s then s else raise (beginShutdown s .orderly) 1280 .shutdown 0xFFF []

/-- The flush is disarmed. -/
def disarm (s : State) : State := putFlag (putFlag s Reg.PHS_KILN_STS.armed false) Reg.PHS_KILN_CTL.arm false

/-- SHUTDOWN_DIRTY_ZERO -/
def doShutdownDirtyZero (s : State) : State :=
  if s.glb.shutdown ≠ .orderly || dirtyGrains s ≠ 0 then s
  else sealRecord { disarm s with glb.shutdown := .none } (.shutdown (sideB s) (twinMode s) (epoch s))

/-- WARM_RESET_REQUEST: only from 0x340; refused while alone in a pair. -/
def doWarmResetRequest (who : Accessor) (s : State) : State :=
  match who with
  | .mid ⟨0x340, _⟩ =>
    if solo s && s.twin.helloSeen then setFlag s Reg.GLB_START_STS.warm_refused
    else if s.glb.shutdown ≠ .none || flushing s then s
    else raise (beginShutdown s .warm) 1280 .warmReset 0xFFF []
  | w => denySetup s w Reg.GLB_RESET_CTL.warm_req.addr

/-- Registers a warm reset keeps (R474, R555, R586), among them the access tables, which stand with the plots. -/
def warmKeeps (key : Nat) : Bool :=
  let addr := key / 1048576
  survives key || addr = 0x3000204 || addr = Reg.GLB_SCRATCH.scratch.addr || addr = Reg.GLB_CLK_STS.root_lock.addr ||
    addr = Reg.MGC_BOOT_STS.bank.addr || addr = Reg.MGC_RST_CAUSE.cause.addr || addr = Reg.MGC_CS_WEAR.max_cycles.addr

/-- An entry as the table in Loam keeps it: no engine holds it any more. -/
def entryAtRest (e : Entry) : Entry := { e with lock := none }

/-- The recorder after a warm reset: what belongs to hosts is reset with HFP, and segments whose grains had not sealed are handed to BFC
again. -/
def warmEvr (s : State) : Evr :=
  { s.evr with
    policy := [], msixAddr := [], msixData := [], msixMask := [], msixPending := [], msixFnMask := [], handed := []
    blocks := s.evr.handed.flatMap (·.2) ++ s.evr.blocks, nextSegment := (s.evr.handed.head?.map (·.1)).getD s.evr.nextSegment
    segmentSince := if s.evr.handed.isEmpty then s.evr.segmentSince else s.evr.segmentSince.or (some s.devTime) }

/-- The reset of a warm reset: every block but PHS and EVR, while Loam keeps its contents and what lies in it. -/
def warmState (s : State) : State :=
  let s := dropMigrations s fun _ => true
  let s := abortOp (abortOp s s.mgc.op) s.mgc.suspendedOp
  let t : State := {
    phs := s.phs
    evr := warmEvr s
    regs := s.regs.filter fun e => warmKeeps e.1
    plots := { plots := s.plots.plots, granules := s.plots.granules, entries := smap {} s.plots.entries entryAtRest, maxCapacity := s.plots.maxCapacity,
               loamMib := s.plots.loamMib, poolsMib := s.plots.poolsMib, recordMib := s.plots.recordMib }
    tmg := { nextFrame := s.tmg.nextFrame, freedFrames := s.tmg.freedFrames, draining := s.tmg.draining.map fun d => (d.1, []), overlays := s.tmg.overlays,
             freedOverlays := s.tmg.freedOverlays, nextOverlay := s.tmg.nextOverlay }
    glb := { journal := s.glb.journal, journalSeq := s.glb.journalSeq, ckptDone := s.glb.ckptDone, ckptValid := s.glb.ckptValid, kiln := s.glb.kiln,
             record := some { side := sideB s, mode := 8 + twinMode s, epoch := epoch s }, shutdown := .warm }
    twin := { lastEpoch := s.twin.lastEpoch, takeoverEpoch := s.twin.takeoverEpoch, rejoin := s.twin.rejoin, rejoinIntact := s.twin.rejoinIntact,
              changeMap := s.twin.changeMap, plotChange := s.twin.plotChange, aliveOut := if fenceIn s then s.twin.aliveOut else 0 }
    hfp := { links := smap {} s.hfp.links fun l => { perst := l.perst }, dirtyShutdowns := s.hfp.dirtyShutdowns }
    lmc := { lines := s.lmc.lines, retired := s.lmc.retired, repairs := s.lmc.repairs, held := true }
    diu := { sramRepairs := s.diu.sramRepairs, poison := s.diu.poison }
    cku := { xtsSlots := s.cku.xtsSlots }
    bfc := { strata := smap {} s.bfc.strata stratumAtRest, base := s.bfc.base, channels := smap {} s.bfc.channels channelAtRest,
             dies := smap {} s.bfc.dies dieAtRest, marksRead := s.bfc.marksRead }
    mgc := { sram := sdrop s.mgc.sram fun a => 0x111000000 ≤ a * 4 && a * 4 < 0x111200000, store := s.mgc.store,
             undefinedSectors := s.mgc.undefinedSectors, wear := s.mgc.wear, images := s.mgc.images, options := s.mgc.options,
             debugClosed := s.mgc.debugClosed, eventsRaised := s.mgc.eventsRaised }
    pairPend := s.pairPend.filter fun e => survives e.1
    pending := s.pending
    out := s.out
    freeCount := s.freeCount
    devTime := s.devTime }
  let t := { t with phs.dieReset := true }
  let t := putFlag (setF t Reg.FLK_TWIN_STS.alive_in (aliveIn s)) Reg.FLK_TWIN_STS.fence_in (fenceIn s)
  setF t Reg.FLK_TWIN_STS.mode (if fenceIn s && twinMode s = mFenced then mFenced else 0)

/-- WARM_RESET_DIRTY_ZERO: the record is sealed, Loam enters self-refresh, and the resets assert. While a training step runs, the entry waits for
its end (R248), and so does the reset. -/
def doWarmResetDirtyZero (s : State) : State :=
  if s.glb.shutdown ≠ .warm || dirtyGrains s ≠ 0 || s.phs.dieReset || (List.range 16).any (fun c => loamState s c = 2) then s
  else warmState (sealRecord (disarm s) (.shutdown (sideB s) (8 + twinMode s) (epoch s)))

/-- WARM_RESET_RELEASE: boot runs again, and media time and the role epoch go on from what was recorded. -/
def doWarmResetRelease (boot : BootReport) (s : State) : State :=
  if s.glb.shutdown ≠ .warm || !s.phs.dieReset then s
  else
    let s := { s with phs.dieReset := false, glb.shutdown := .none, glb.runningAt := s.devTime }
    let s := resumeMedia (setF s Reg.GLB_START_STS.kind 1)
    let s := match s.glb.record with
      | some r => setEpoch s r.epoch
      | none => s
    dieBoot (if s.cku.xtsSlots.isEmpty then s else setFlag s Reg.CKU_STS.keys_ready) boot false

/-! ### The commands -/

/-- TRANSLATION_RECOVERY_DONE -/
def execTranslationRecoveryDone (readable stateBad : Bool) (unplaced : List ClodNo) (s : State) : Host.Outcome State Fault Refusal :=
  finishes s (doTranslationRecoveryDone readable stateBad unplaced s)
/-- RESTORE_DONE -/
def execRestoreDone (lost : List (ClodNo × Fin 16)) (s : State) : Host.Outcome State Fault Refusal :=
  settles s (doRestoreDone lost s)
/-- RESTORE_SETTLE_DONE -/
def execRestoreSettleDone (s : State) : Host.Outcome State Fault Refusal :=
  settles s (doRestoreSettleDone s)
/-- KILN_ERASE_DONE -/
def execKilnEraseDone (s : State) : Host.Outcome State Fault Refusal :=
  finishes s (doKilnEraseDone s)
/-- JOURNAL_UNIT_TIMEOUT -/
def execJournalUnitTimeout (s : State) : Host.Outcome State Fault Refusal :=
  finishes s (doJournalUnitTimeout s)
/-- CHECKPOINT_WRITE -/
def execCheckpointWrite (s : State) : Host.Outcome State Fault Refusal :=
  finishes s (doCheckpointWrite s)
/-- HELLO_WAIT_TIMEOUT -/
def execHelloWaitTimeout (s : State) : Host.Outcome State Fault Refusal :=
  settles s (doHelloWaitTimeout s)
/-- PAIR_WAIT_TIMEOUT -/
def execPairWaitTimeout (s : State) : Host.Outcome State Fault Refusal :=
  settles s (doPairWaitTimeout s)
/-- FORCE_SOLO -/
def execForceSolo (who : Accessor) (s : State) : Host.Outcome State Fault Refusal :=
  settles s (doForceSolo who s)
/-- ORDERLY_SHUTDOWN -/
def execOrderlyShutdown (s : State) : Host.Outcome State Fault Refusal :=
  settles s (doOrderlyShutdown s)
/-- SHUTDOWN_DIRTY_ZERO -/
def execShutdownDirtyZero (s : State) : Host.Outcome State Fault Refusal :=
  settles s (doShutdownDirtyZero s)
/-- WARM_RESET_REQUEST -/
def execWarmResetRequest (who : Accessor) (s : State) : Host.Outcome State Fault Refusal :=
  settles s (doWarmResetRequest who s)
/-- WARM_RESET_DIRTY_ZERO -/
def execWarmResetDirtyZero (s : State) : Host.Outcome State Fault Refusal :=
  completes s (doWarmResetDirtyZero s)
/-- WARM_RESET_RELEASE -/
def execWarmResetRelease (boot : BootReport) (s : State) : Host.Outcome State Fault Refusal :=
  finishes s (doWarmResetRelease boot s)

end Sys2Proof.Machine
end

