-- ==== Sys2Proof/Machine/Movement.lean ====
section
/-! DEFINITION. Tier movement's commands (09): heat, lifts, evictions, the grants of the wear governor and what they start. -/

namespace Sys2Proof.Machine

/-! ### Heat and overlay records (R303, R304, R308) -/

/-- Every clod whose entry stands in the map cache. -/
def mapCached (s : State) : List Nat := s.plots.mapCache.flatMap (·.2)

/-- The heat of every entry in the map cache is halved. -/
def doHeatDecay (s : State) : State := (mapCached s).foldl (fun s c => updEntry s c fun e => { e with heat := e.heat / 2 }) s

/-- An overlay record's read returns: it is cached, or, with a bad CRC, its clod is lost and rebuilt (R46, R303). -/
def doOverlayRecordFill (overlay : Fin (2 ^ 21)) (crcBad : Bool) (s : State) : State :=
  let i := overlay.val
  if !s.tmg.overlayFills.contains i then s
  else
    let s := { s with tmg.overlayFills := s.tmg.overlayFills.erase i }
    if !crcBad then overlayInstall s i
    else
      let o := overlayOf s i
      loseEntry (setFlag (setOverlay s i { o with crcBad := true }) Reg.TMG_MIG_ERR.overlay_crc) o.clod

/-! ### Lift (R310, R311, R326) -/

/-- A plot asked for a frame back while its lift was in flight: the clod is evicted, or settled first (R312, R324). -/
def evictNow (s : State) (clod : Nat) : State :=
  if !evictableClod s clod then s
  else if (entryOf s clod).dirty then queueSettle s clod 3 .eviction
  else evictClod s clod

/-- The lift hold begins, unless a pin holds the clod (R311); a clod its plot wants back is evicted at once if it is clean and no pin holds
it, else when its lift hold lapses (R324). -/
def holdLift (s : State) (l : Lift) : State :=
  if l.evict && !(entryOf s l.clod).dirty && evictableClod s l.clod then evictClod s l.clod
  else if l.trigger = .pin || s.tmg.liftHolds.contains l.clod then s
  else { s with
    tmg.liftHolds := s.tmg.liftHolds ++ [l.clod]
    tmg.evictAfter := if l.evict then s.tmg.evictAfter ++ [l.clod] else s.tmg.evictAfter }

/-- Commit a lift from the base and overlay: one entry change, and the old overlay drains (R310 steps 3 to 5). -/
def commitLift (s : State) (l : Lift) : State :=
  let e := entryOf s l.clod
  let held := e.tier = 3 && (overlayOf s e.overlay).valid ≠ 0
  let s := if e.tier = 3 then engineClod s l.engine l.clod else s
  let s := fillFrame (engineFrame s l.engine true l.frame 0 32) l.frame (mergedLine s l.clod none)
  let s := setEntry (dropOverlay s l.clod e) l.clod
    { e with tier := 1, dirty := e.dirty || held, frame := l.frame, overlay := 0, lock := none }
  let s := markBase s l.clod fun _ => false
  { s with pou.dirtyAge := if e.dirty || held then sput 0 s.pou.dirtyAge l.clod (s.devTime + 1) else s.pou.dirtyAge }

/-- A lift whose grains have all come commits, once its engine can reach the frames (R253). -/
def doLiftCommit (clod : ClodNo) (s : State) : State :=
  match s.tmg.lifts.find? fun l => l.clod = clod.val with
  | none => s
  | some l =>
    if frameHeld s l.frame || clodHeld s l.clod then s
    else
    let s' := { s with tmg.lifts := s.tmg.lifts.filter fun x => x.clod ≠ l.clod }
    match l.image with
    | some im => holdLift (incF (commitFetched (engineFrame s' l.engine true l.frame 0 32) l.clod l.frame im) Reg.TMG_LIFT_CNT.lifts) l
    | none =>
      if l.got ≠ BitVec.allOnes 16 || (entryOf s l.clod).crcBad then s
      else holdLift (incF (commitLift s' l) Reg.TMG_LIFT_CNT.lifts) l

/-- A lift hold lapses; the eviction its plot asked for meanwhile follows (R324). -/
def doLiftHoldExpiry (clod : ClodNo) (s : State) : State :=
  let t := { s with tmg.liftHolds := s.tmg.liftHolds.erase clod.val, tmg.evictAfter := s.tmg.evictAfter.erase clod.val }
  if s.tmg.liftHolds.contains clod.val && s.tmg.evictAfter.contains clod.val then evictNow t clod.val else t

/-! ### Eviction (R312, R313) -/

/-- A clod that an eviction has already queued for settling. -/
def evictionQueued (s : State) (clod : Nat) : Bool := s.tmg.queue.any fun q => q.clod = clod

/-- The next victim that is not on its way out yet. -/
def freshVictim (s : State) : Option (Nat × Entry) :=
  coldest (s.plots.entries.filter fun e => evictableClod s e.1 && borrows s e.1 && !(e.2.dirty && evictionQueued s e.1))

/-- Free frames stand below frame_low, or writes are stopped for want of them (R312, R322). -/
def evicting (s : State) : Bool := decide (freeFrames s < max 1 (getF s Reg.TMG_FRAME_CFG.frame_low) * 4096) || resourceStop s

/-- A lift in flight whose frame its plot, above its floor, can be asked to give back (R324): the coldest that has not been. -/
def liftVictim (s : State) : Option (Nat × Entry) :=
  coldest ((s.tmg.lifts.filter fun l => !l.evict && borrows s l.clod).map fun l => (l.clod, entryOf s l.clod))

/-- Evict one victim: a clean one leaves at once, a dirty one is settled first. With no resident victim, a clod being lifted is to leave
after its lift (R324). -/
def doEvictionStart (s : State) : State :=
  if !evicting s then s
  else match freshVictim s with
    | some v => if v.2.dirty then queueSettle s v.1 3 .eviction else evictClod s v.1
    | none =>
      match liftVictim s with
      | some v => { s with tmg.lifts := s.tmg.lifts.map fun l => if l.clod = v.1 then { l with evict := true } else l }
      | none => s

/-- The reads ordered against a frame have ended: it joins the free pool, and lifts that wait for a frame try again. -/
def doFrameRelease (frame : Nat) (s : State) : State :=
  match s.tmg.draining.find? fun d => d.1 = frame with
  | none => s
  | some d =>
    if d.2.any fun id => (findRdRec s id).isSome then s
    else
      let s := { s with tmg.draining := s.tmg.draining.erase d }
      let s :=
        if overlayFrame s 0 ≤ frame then
          let i := frame - overlayFrame s 0
          { setOverlay s i { clod := 0, generation := 0, valid := 0 } with
            tmg.freedOverlays := if s.lmc.retired.contains frame then s.tmg.freedOverlays else s.tmg.freedOverlays ++ [i] }
        else if s.lmc.retired.contains frame then s
        else { s with tmg.freedFrames := s.tmg.freedFrames ++ [frame] }
      resourceCheck s

/-! ### What is queued before a grant (R178, R182, R314, R319, R322) -/

/-- When a clod became dirty; a clod with no such time comes last. -/
def dirtySince (s : State) (clod : Nat) : Nat :=
  match sget 0 s.pou.dirtyAge clod with
  | 0 => 2 ^ 64
  | t => t

/-- Insert into a list by rising key; equal keys keep their order. -/
def insertBy {α : Type} (key : α → Nat) (x : α) : List α → List α
  | [] => [x]
  | y :: t => if key x < key y then x :: y :: t else y :: insertBy key x t

/-- Sort by rising key; equal keys keep their order. -/
def sortBy {α : Type} (key : α → Nat) (l : List α) : List α := l.foldl (fun acc x => insertBy key x acc) []

/-- Dirty clods of the plots that pass, oldest first. -/
def dirtyOldest (s : State) (ok : Plot → Bool) : List Nat :=
  sortBy (dirtySince s) ((s.plots.entries.filter fun e => e.2.dirty && (match plotOfClod s e.1 with
    | some p => ok (plotRec s p)
    | none => false)).map (·.1))

/-- Topdressed clods, most valid lines first. -/
def topdressedFullest (s : State) : List Nat :=
  sortBy (fun c => 1024 - validCount (overlayOf s (entryOf s c).overlay).valid) ((s.plots.entries.filter fun e => e.2.tier = 3).map (·.1))

/-- Queue a list of clods. -/
def queueAll (s : State) (clods : List Nat) (cls : Nat) (reason : SettleReason) : State :=
  clods.foldl (fun s c => queueSettle s c cls reason) s

/-- Overlays in use. -/
def overlaysUsed (s : State) : Nat := overlayTotal s - freeOverlays s

/-- td_lo_pct as it acts (R328). -/
def tdLoPct (s : State) : Nat :=
  let hi := getF s Reg.TMG_TD_CFG.td_hi_pct
  let lo := getF s Reg.TMG_TD_CFG.td_lo_pct
  if lo < hi then lo else hi - 1

/-- Overlays above td_hi_pct: Topdressed clods retire theirs until td_lo_pct. -/
def queueOverlays (s : State) : State :=
  if overlayTotal s * getF s Reg.TMG_TD_CFG.td_hi_pct < overlaysUsed s * 100 then
    queueAll s ((topdressedFullest s).take (overlaysUsed s - overlayTotal s * tdLoPct s / 100)) 3 .overlays
  else s

/-- Back-pressure, override and resource stop offer their clods; when the override is over its clods leave the queue (R182). -/
def queuePressure (s : State) : State :=
  let s :=
    if flag s Reg.POU_BP_STS.override then queueAll s (dirtyOldest s fun _ => true) 0 .override_
    else { s with tmg.queue := s.tmg.queue.filterMap fun q =>
      if q.reason ≠ .override_ then some q else q.before.map fun b => { q with cls := b.1, reason := b.2, before := none } }
  let s := match bpStage s with
    | 0 => s
    | 1 => queueAll s (dirtyOldest s (overAllowance s)) 2 .backpressure
    | _ => queueAll s (dirtyOldest s fun _ => true) 2 .backpressure
  if resourceStop s then queueAll s (topdressedFullest s) 2 .resource else s

/-- Hints wait in a queue of their own until they are offered. -/
def queueHints (s : State) : State := queueAll { s with tmg.settleHints := [] } s.tmg.settleHints 3 .hint

/-! ### Grants (R321) -/

/-- A queued clod still has something to settle: it is dirty, or its base is to move. -/
def stillWanted (s : State) (q : SettleReq) : Bool :=
  let e := entryOf s q.clod
  if moves q.reason then e.hasBase || e.dirty else e.dirty

/-- The order of offers: lowest class first; in a class, the oldest dirty first where age decides. -/
def offerKey (s : State) (q : SettleReq) : Nat :=
  q.cls * 2 ^ 66 + (match q.reason with
    | .override_ | .backpressure => dirtySince s q.clod
    | _ => 0)

/-- Take a clod off the queue. -/
def dequeue (s : State) (clod : Nat) : State := { s with tmg.queue := s.tmg.queue.filter fun q => q.clod ≠ clod }

/-- Count refused settle work in whole MiB. -/
def countRefused (s : State) (cls : Nat) : State :=
  let n := s.tmg.refusedKib + 64
  let low := s.tmg.refusedClass
  let s := incFiBy { s with tmg.refusedKib := n % 1024 } Reg.TMG_GOV_REFUSED.refused_mib 0 (n / 1024)
  let s := { s with tmg.refusedClass := if low = 0 then cls else min low cls }
  if cls = 2 then setFlag s Reg.TMG_MIG_ERR.gov_refuse else s

/-- Count what the override settles in whole MiB (R182). -/
def countOverride (s : State) : State :=
  let n := s.tmg.overrideKib + 64
  incFiBy { s with tmg.overrideKib := n % 1024 } Reg.TMG_SETTLE_OVERRIDE_MIB.override_mib 0 (n / 1024)

/-- Change a queued request. -/
def updQueued (s : State) (clod : Nat) (f : SettleReq → SettleReq) : State :=
  { s with tmg.queue := s.tmg.queue.map fun x => if x.clod = clod then f x else x }

/-- A request meets a lift in flight: it is cancelled and counted, once; a dirty clod stays queued (R324). -/
def meetLift (s : State) (q : SettleReq) : State :=
  if q.waits then s
  else
    let s := incF s Reg.TMG_RACE_CNT.settle_cancel
    if (entryOf s q.clod).dirty then updQueued s q.clod fun x => { x with waits := true } else dequeue s q.clod

/-- Offer one queued clod to the governor. -/
def offer (s : State) (q : SettleReq) : State :=
  if !stillWanted s q then dequeue s q.clod
  else if s.tmg.lifts.any fun l => l.clod = q.clod then meetLift s q
  else if q.refused || !burstRoom s then s
  else if !granted s q.cls then
    countRefused (updQueued s q.clod fun x => { x with refused := true }) q.cls
  else
    match startSettle s q with
    | none => if [0, 1, 2, 3].any (bedTakes s) then s else setFlag s Reg.TMG_MIG_ERR.no_erased
    | some s =>
      let s := countGrant (dequeue s q.clod) q.cls
      if q.reason = .override_ then countOverride s else s

/-- One round of the governor: what is due is queued, and queued work is granted by class. -/
def doSettleGrant (s : State) : State :=
  let s := tillAll (queueOverlays (queueHints (queuePressure (queueRelocations s))))
  (sortBy (offerKey s) s.tmg.queue).foldl offer s

/-- A program unit's fill time is over: it is programmed as it stands (R315). -/
def doUnitFillTimeout (unit : Nat) (s : State) : State :=
  match findUnit s unit with
  | some u => if u.slots.isEmpty && u.segments.isEmpty then s else startUnit s unit
  | none => s

/-- A clod has been dirty for age_s (R314). -/
def doSettleAgeTrigger (clod : ClodNo) (s : State) : State :=
  if (entryOf s clod.val).dirty then queueSettle s clod.val 4 .age else s

/-- A minute ends: its bin leaves the window, refused clods are offered again, and a changed TMG_GOV_CFG acts (R320, R321, R329). -/
def doGovernorMinute (s : State) : State :=
  let m := s.tmg.minute + 1
  { s with
    tmg.minute := m
    tmg.bins := s.tmg.bins.filter fun b => decide (m < b.1 + 1440)
    tmg.grantedSlow := 0
    tmg.refusedClass := 0
    tmg.govCfg := regAt s Reg.TMG_GOV_CFG.avg_mbps.addr 0
    tmg.queue := s.tmg.queue.map fun q => { q with refused := false } }

/-! ### The commands -/

/-- HEAT_DECAY -/
def execHeatDecay (s : State) : Host.Outcome State Fault Refusal := settles s (doHeatDecay s)

/-- OVERLAY_RECORD_FILL -/
def execOverlayRecordFill (overlay : Fin (2 ^ 21)) (crcBad : Bool) (s : State) : Host.Outcome State Fault Refusal :=
  settles s (doOverlayRecordFill overlay crcBad s)

/-- LIFT_COMMIT -/
def execLiftCommit (clod : ClodNo) (s : State) : Host.Outcome State Fault Refusal := settles s (doLiftCommit clod s)

/-- LIFT_HOLD_EXPIRY -/
def execLiftHoldExpiry (clod : ClodNo) (s : State) : Host.Outcome State Fault Refusal := settles s (doLiftHoldExpiry clod s)

/-- EVICTION_START -/
def execEvictionStart (s : State) : Host.Outcome State Fault Refusal := settles s (doEvictionStart s)

/-- FRAME_RELEASE -/
def execFrameRelease (frame : Nat) (s : State) : Host.Outcome State Fault Refusal := settles s (doFrameRelease frame s)

/-- SETTLE_GRANT -/
def execSettleGrant (s : State) : Host.Outcome State Fault Refusal := settles s (doSettleGrant s)

/-- UNIT_FILL_TIMEOUT -/
def execUnitFillTimeout (unit : Nat) (s : State) : Host.Outcome State Fault Refusal := settles s (doUnitFillTimeout unit s)

/-- SETTLE_AGE_TRIGGER -/
def execSettleAgeTrigger (clod : ClodNo) (s : State) : Host.Outcome State Fault Refusal := settles s (doSettleAgeTrigger clod s)

/-- GOVERNOR_MINUTE -/
def execGovernorMinute (s : State) : Host.Outcome State Fault Refusal := settles s (doGovernorMinute s)

end Sys2Proof.Machine
end

