-- ==== Sys2Proof/Machine/Plots.lean ====
section
/-! DEFINITION. Meanings of the plot commands (02, 13): the admission engine, the ends of admission, release, seal and
crypto-erase, the access table and its drains, plot snapshots and engine assignments. -/

namespace Sys2Proof.Machine

/-! ### The admission engine (R51 to R55) -/

/-- The fabric manager's request joins the engine's queue. -/
def doFmDcAdd (a : Admission) (s : State) : State := submitJob s .fabricManager a

/-- The engine takes its next job, one at a time (R52). -/
def doAdmissionEngineJob (s : State) : State :=
  if !engineHere s || s.plots.admActive.isSome then s
  else match s.plots.admQueue with
    | [] => s
    | .admitPlot o a :: t => takeAdmission { s with plots.admQueue := t } o a
    | .cleanup p :: t =>
      let s := { s with plots.admQueue := t }
      if (plotRec s p.val).state = .releasing then { s with plots.admActive := some (.cleanup p) } else s


/-- The plot's entries are zero here (R40); with both controllers done, the plot leaves ADMITTING. -/
def doAdmissionZeroingDone (plot : PlotId) (s : State) : State :=
  let p := plot.val
  let r := plotRec s p
  if r.state ≠ .admitting || r.doneHere then s
  else plotStep (tellTwin (updPlot (clearEntries s r) p fun r => { r with doneHere := true }) (.zeroed plot)) p

/-- May the clean-up of a plot end here: the engine's job, where the engine is, and nothing of the plot in flight? -/
def cleanupReady (s : State) (p : Nat) : Bool :=
  let r := plotRec s p
  r.state = .releasing && !r.doneHere && !r.tagWalk && plotQuiet s p && (!engineHere s || s.plots.admActive = some (.cleanup (plotIdOf p)))

/-- Entries, dirty charges and poison of a plot's range go (R42, R426). -/
def clearPlot (s : State) (r : Plot) : State :=
  let s := dropPlotPoison (clearEntries s r) r
  { s with pou.dirty := s.pou.dirty.filter fun e => !plotHasClod r (e.1 / 16) }

/-- A release's clean-up ends here (R42). -/
def doReleaseCleanupDone (plot : PlotId) (s : State) : State :=
  let p := plot.val
  if !cleanupReady s p then s
  else
    let s := updPlot (clearPlot s (plotRec s p)) p fun r => { r with doneHere := true, cleanup := false }
    plotStep (tellTwin s (.released plot)) p

/-- A sealing plot holds no dirty grain here (R41). -/
def doSealComplete (plot : PlotId) (s : State) : State :=
  let p := plot.val
  let r := plotRec s p
  if r.state ≠ .loading || !r.sealing || !sealReady s p then s
  else if r.doneHere then plotStep s p
  else plotStep (tellTwin (updPlot s p fun r => { r with doneHere := true }) (.sealed plot)) p

/-- Every step of an erase has ended here (R451, R453). -/
def doCryptoEraseDone (plot : PlotId) (s : State) : State :=
  let p := plot.val
  let r := plotRec s p
  if !r.erasing || r.tagWalk || !plotQuiet s p then s
  else plotStep (tellTwin (eraseHolds s p) (.erased plot)) p

/-! ### The access table (R60 to R64, R69, R70, R82) -/

/-- Valid entries of a plot's table, counted with one of them replaced. -/
def validEntries (s : State) (p e : Nat) (w : Word) : Nat :=
  ((List.range 64).filter fun i => fieldOf (if i = e then w else aclWord s p i) 31 1 = 1).length

/-- The rule of private plots (R63): exact matches, at most four valid entries. -/
def breaksPrivate (s : State) (p e : Nat) (w : Word) : Bool :=
  let r := plotRec s p
  r.state != .free && r.mode = .private_ && fieldOf w 31 1 = 1 && (fieldOf w 12 12 ≠ 0xFFF || decide (4 < validEntries s p e w))

/-- Start or extend a plot's drain: every request checked here before the write (R64). -/
def startDrain (s : State) (p : Nat) : State :=
  let ids := plotInFlight s p
  { s with plots.aclDrain := supd [] s.plots.aclDrain p fun old => old ++ ids.filter fun i => !old.contains i }

/-- A drain is over: LDs left without rights are asked for the extent (R82). -/
def drainOver (s : State) (p : Nat) : State :=
  if plotOpen (plotRec s p) then askBackExtents s p fun ld => aclRights s p ld.val = 0 else s

/-- POU_ACL_DATA is written: the selected entry changes, or the private-plot rule refuses it; a drain starts. -/
def doAclWrite (who : Accessor) (value : Word) (s : State) : State :=
  setupWrite s who Reg.POU_ACL_DATA.acl_entry.addr
    (let p := selOf s who Reg.POU_ACL_SEL.plot_id
     let e := selOf s who Reg.POU_ACL_SEL.entry
     let w := value &&& 0x83FFFFFF#32
     let s := startDrain s p
     let s := if breaksPrivate s p e w then setFlagI s Reg.POU_ACL_SEL.acl_err (accessorIdx who)
       else
         let s := setRegAt s Reg.POU_ACL_DATA.acl_entry.addr (p * 64 + e) w
         let s := if (plotRec s p).state = PlotState.free then s else plotChanged s p .nothing
         if plotOpen (plotRec s p) then offerExtents s p else s
     if (sget [] s.plots.aclDrain p).isEmpty && solo s then drainOver s p else s)

/-- The requests a drain waits for have completed; `twinDrain` is what POU_ACL_SEL.drain reads at the partner, for extents are asked back
once it reads 0 on both controllers (R82). -/
def doAclDrainDone (who : Accessor) (twinDrain : Bool) (s : State) : State :=
  let p := selOf s who Reg.POU_ACL_SEL.plot_id
  let now := plotInFlight s p
  let left := (sget [] s.plots.aclDrain p).filter fun i => now.contains i
  let s := { s with plots.aclDrain := sput [] s.plots.aclDrain p left }
  if left.isEmpty && (!twinDrain || solo s) then drainOver s p else s

/-! ### Snapshots (R67, R184, R592) -/

/-- Store a word of a snapshot. -/
def latch (s : State) (addr idx v : Nat) : State := setRegAt s addr idx (BitVec.ofNat 32 v)

/-- The code of a plot state. -/
def stateCode (x : PlotState) : Nat :=
  match x with
  | .free => 0
  | .admitting => 1
  | .loading => 2
  | .active => 3
  | .releasing => 4

/-- The code of a plot mode. -/
def modeCode (x : PlotMode) : Nat :=
  match x with
  | .private_ => 0
  | .sharedCoherent => 1
  | .sharedReadOnly => 2

/-- A truth value as a bit. -/
def bit (b : Bool) : Nat := if b then 1 else 0

/-- Frames of a plot that hold dirty data: those of its dirty Resident clods, and the overlay frames of its Topdressed ones. -/
def dirtyFrames (s : State) (r : Plot) : Nat :=
  (s.plots.entries.filter fun e => (e.2.tier = 1 || e.2.tier = 3) && e.2.dirty && plotHasClod r e.1).length

/-- TMG_PLOT_SEL is written: the plot's entry is latched for this master. -/
def doTmgPlotSelect (who : Accessor) (value : Word) (s : State) : State :=
  setupWrite s who Reg.TMG_PLOT_SEL.plot_id.addr
    (let i := accessorIdx who
     let s := writeBits s Reg.TMG_PLOT_SEL.plot_id.addr i value 0
     let r := plotRec s (getFi s Reg.TMG_PLOT_SEL.plot_id i)
     let d0 := stateCode r.state + modeCode r.mode * 8 + bit r.deep * 32 + bit r.prefHome * 64 + bit r.curHome * 128 + r.generation * 65536
     [d0, r.base, r.size, r.floor, r.allow, residents s r, dirtyFrames s r, r.ownerMid].zipIdx.foldl
       (fun s v => latch s (Reg.TMG_PLOT_DATA0.state.addr + 4 * v.2) i v.1) s)

/-- POU_PLOT_SEL is written: the plot's sequence, durable mark and dirty count are latched. -/
def doPouPlotSelect (who : Accessor) (value : Word) (s : State) : State :=
  setupWrite s who Reg.POU_PLOT_SEL.plot_id.addr
    (let i := accessorIdx who
     let s := writeBits s Reg.POU_PLOT_SEL.plot_id.addr i value 0
     let p := getFi s Reg.POU_PLOT_SEL.plot_id i
     let r := plotRec s p
     let d := durableMark s p
     [r.seq % 4294967296, r.seq / 4294967296, d % 4294967296, d / 4294967296,
      plotDirty s r + bit (overAllowance s r) * 2147483648].zipIdx.foldl
       (fun s v => latch s (Reg.POU_PLOT_SEQ_LO.seq_lo.addr + 4 * v.2) i v.1) s)

/-- A plot is visible to an LD (R592). -/
def visible (s : State) (p : Nat) (ld : Ld) : Bool := plotOpen (plotRec s p) && decide (0 < aclRights s p ld.val)

/-- HFP_LD_PLOT_SEL is written: the plot as the LD may see it. -/
def doLdPlotSelect (ld : Ld) (value : Word) (s : State) : State :=
  if !ldPresent s ld then s else
  let s := writeBits s Reg.HFP_LD_PLOT_SEL.plot_id.addr ld.val value 0
  let p := getFi s Reg.HFP_LD_PLOT_SEL.plot_id ld.val
  let r := plotRec s p
  let d := if visible s p ld then
      [stateCode r.state + modeCode r.mode * 8 + bit r.deep * 32 + bit r.curHome * 64 + bit (r.curHome = sideB s) * 128
         + aclRights s p ld.val * 256 + 1024 + r.generation * 65536, r.base, r.size]
    else [0, 0, 0]
  d.zipIdx.foldl (fun s v => latch s (Reg.HFP_LD_PLOT_STS0.state.addr + 4 * v.2) ld.val v.1) s

/-! ### Engine assignments (R16, R23) -/

/-- An engine takes an assignment under the epoch in force, and rejects another; a reserved master ID is rejected. -/
def doEngineAssignment (engine : Mid) (epoch_ : Word) (s : State) : State :=
  if reservedMid engine.val then raise s 1280 .reservedMaster engine.val [engine.val]
  else if decide (0x300 ≤ engine.val) && decide (engine.val ≤ 0x31D) then emit s (.assignment engine (epoch_ = epoch s))
  else s

/-! ### The commands -/

/-- The fabric manager adds capacity (R51). -/
def execFmDcAdd (a : Admission) (s : State) : Host.Outcome State Fault Refusal := settles s (doFmDcAdd a s)
/-- The engine's next job (R52). -/
def execAdmissionEngineJob (s : State) : Host.Outcome State Fault Refusal := settles s (doAdmissionEngineJob s)
/-- An admission's zeroing ends (R40). -/
def execAdmissionZeroingDone (plot : PlotId) (s : State) : Host.Outcome State Fault Refusal := settles s (doAdmissionZeroingDone plot s)
/-- A release's clean-up ends (R42). -/
def execReleaseCleanupDone (plot : PlotId) (s : State) : Host.Outcome State Fault Refusal := settles s (doReleaseCleanupDone plot s)
/-- A sealing plot is clean (R41). -/
def execSealComplete (plot : PlotId) (s : State) : Host.Outcome State Fault Refusal := settles s (doSealComplete plot s)
/-- An erase's steps end (R451). -/
def execCryptoEraseDone (plot : PlotId) (s : State) : Host.Outcome State Fault Refusal := settles s (doCryptoEraseDone plot s)
/-- A write of POU_ACL_DATA (R63, R64). -/
def execAclWrite (who : Accessor) (value : Word) (s : State) : Host.Outcome State Fault Refusal := settles s (doAclWrite who value s)
/-- A drain ends (R64). -/
def execAclDrainDone (who : Accessor) (twinDrain : Bool) (s : State) : Host.Outcome State Fault Refusal :=
  finishes s (doAclDrainDone who twinDrain s)
/-- A write of TMG_PLOT_SEL (R67). -/
def execTmgPlotSelect (who : Accessor) (value : Word) (s : State) : Host.Outcome State Fault Refusal := finishes s (doTmgPlotSelect who value s)
/-- A write of POU_PLOT_SEL (R184). -/
def execPouPlotSelect (who : Accessor) (value : Word) (s : State) : Host.Outcome State Fault Refusal := finishes s (doPouPlotSelect who value s)
/-- A write of HFP_LD_PLOT_SEL (R592). -/
def execLdPlotSelect (ld : Ld) (value : Word) (s : State) : Host.Outcome State Fault Refusal := finishes s (doLdPlotSelect ld value s)
/-- An engine assignment (R16). -/
def execEngineAssignment (engine : Mid) (epoch : Word) (s : State) : Host.Outcome State Fault Refusal := finishes s (doEngineAssignment engine epoch s)

end Sys2Proof.Machine
end

