-- ==== Sys2Proof/Machine/RegViews.lean ====
section
/-! DEFINITION. What a register reads as: the bits it stores, and the fields that show other state (19 and the field tables
of the chapters). -/

namespace Sys2Proof.Machine

/-- A word with fields replaced; a value above a field's width reads as the field's highest. -/
def shown (w : Word) (fs : List (Field × Nat)) : Word :=
  fs.foldl (fun w x => withField w x.1.lo x.1.width (min x.2 (2 ^ x.1.width - 1))) w

/-- A whole word. -/
def shownWord (n : Nat) : Word := BitVec.ofNat 32 n

/-- Code of a ring state (R109). -/
def ringStateCode (x : RingState) : Nat :=
  match x with
  | .disabled => 0
  | .active => 1
  | .reset => 2
  | .error => 3

/-- CRE's registers (R153, R155). -/
def viewCre (s : State) (addr idx : Nat) (w : Word) : Word :=
  let ring := sget {} s.cre.rings idx
  match addr with
  | 0x2000008 => shown w [(Reg.CRE_RINGS_ACTIVE.rings, ringsActive s)]
  | 0x100001004 => shown w [(Reg.CRE_RING_CTL.enable, bit (ring.state = .active || ring.state = .error))]
  | 0x100001008 =>
    shown w [(Reg.CRE_RING_STS.state, ringStateCode ring.state),
             (Reg.CRE_RING_STS.inflight, ring.ops.length)]
  | 0x100001028 => shown w [(Reg.CRE_RING_CAP.rings_allowed, getFi s Reg.CRE_LD_PRIV.rings_allowed (idx / 256))]
  | _ => w

/-- POU's registers (R69, R184). -/
def viewPou (s : State) (addr idx : Nat) (w : Word) : Word :=
  match addr with
  | 0x3000004 =>
    shown w [(Reg.POU_BP_STS.level_pct, ownLevel s * 100 / 1024),
             (Reg.POU_BP_STS.partner_pct, if solo s then 0 else s.pou.partnerLevel * 100 / 1024), (Reg.POU_BP_STS.stage, bpStage s)]
  | 0x3000010 => shown w [(Reg.POU_HAZ_STS.in_use, (hazardLines s).length)]
  | 0x3000200 => shown w [(Reg.POU_ACL_SEL.drain, bit (sget [] s.plots.aclDrain (getFi s Reg.POU_ACL_SEL.plot_id idx) ≠ []))]
  | _ => w

/-- FCD's registers (R220). -/
def viewFcd (s : State) (addr idx : Nat) (w : Word) : Word :=
  match addr with
  | 0x4000008 => shown w [(Reg.FCD_SLICE_STS.victim_in_use, victimsOf s idx), (Reg.FCD_SLICE_STS.fills_in_use, fillsOf s idx)]
  | 0x4000040 => shown w [(Reg.FCD_DIR_STS.in_use, (s.fcd.dir.filter fun e => e.2.state ≠ 0).length)]
  | 0x4000044 => shown w [(Reg.FCD_DIR_COARSE.coarse, (s.fcd.dir.filter fun e => e.2.coarse).length)]
  | 0x4000050 => shown w [(Reg.FCD_BISNP_OUT.outstanding, s.fcd.snoops.length)]
  | 0x4000054 => shown w [(Reg.FCD_DIR_UNKNOWN_SETS.sets, s.fcd.unknownSets.length)]
  | _ => w

/-- LMC's registers (R254, R255). -/
def viewLmc (s : State) (addr : Nat) (w : Word) : Word :=
  if addr = 0x5000038 then shown w [(Reg.LMC_PPR_STS.hppr_pending, s.lmc.repairs.length)]
  else if addr % 256 = 0 ∧ 0x5001000 ≤ addr then
    let ch := (addr - 0x5001000) / 256
    shown w [(Reg.LMC_CH_STS.inorder_banks, (s.lmc.banks.filter fun b => b.1 / 1024 = ch && b.2.inOrder).length)]
  else w

/-- Progress of one scrub engine in its pass, in per cent: its least advanced channel (R417). -/
def scrubPct (s : State) (engine : Nat) : Nat :=
  if loamLines s = 0 then 0
  else ((List.range 4).map fun c => min 100 (sget 0 s.diu.scrubNext (engine * 4 + c) * 100 / loamLines s)).foldl min 100

/-- An entry of the correctable-error log as DIU_CE_LOG_LO and HI show it, LO in the lower half (R415, R429). -/
def ceLogWord (e : CeEntry) : Nat :=
  e.lpa + e.device * 2 ^ 37 + min e.count 3 * 2 ^ 41 + bit e.hard * 2 ^ 43 + 2 ^ 44

/-- The selected log entry. -/
def ceLogAt (s : State) (i : Nat) : Nat :=
  match s.diu.ceLog[i]? with
  | some (some e) => ceLogWord e
  | _ => 0

/-- DIU's registers (R429). -/
def viewDiu (s : State) (addr idx : Nat) (w : Word) : Word :=
  match addr with
  | 0x6000004 => shown w [(Reg.DIU_SCRUB_STS.progress_pct, ((List.range 4).map (scrubPct s)).foldl min 100)]
  | 0x6000018 => shownWord (ceLogAt s idx)
  | 0x600001C => shownWord (ceLogAt s idx / 2 ^ 32)
  | 0x6000024 => shown w [(Reg.DIU_MERGE_STS.in_use, s.diu.merges.length)]
  | 0x600002C => shown w [(Reg.DIU_POISON_STS.entries, s.diu.poison.length), (Reg.DIU_POISON_STS.overflow, bit (poisonOverflow s))]
  | 0x6000034 => shown w [(Reg.DIU_SPARE_STS.field_repairs, s.diu.sramRepairs.length), (Reg.DIU_SPARE_STS.exhausted, exhaustedMacros s)]
  | _ => w

/-- BFC's registers (R297, R298). The wear registers' index is a bed; BFC_DIE_STS's is channel × 16 + die. -/
def viewBfc (s : State) (addr idx : Nat) (w : Word) : Word :=
  match addr with
  | 0x7000040 => shown w [(Reg.BFC_KILN_STS.ready, bit (kilnReady s)), (Reg.BFC_KILN_STS.rate_gbps, kilnRate s)]
  | 0x7000044 =>
    shown w [(Reg.BFC_SPARE_STS.spare_pct, sparePct s), (Reg.BFC_SPARE_STS.quar_max, ((List.range 4).map (badDies s)).foldl max 0),
             (Reg.BFC_SPARE_STS.lost_ch, lostChannels s)]
  | 0x700004C => shown w [(Reg.BFC_WEAR_AVG.avg_pe, wearAvg s idx)]
  | 0x7000050 => shown w [(Reg.BFC_WEAR_MAX.max_pe, wearMax s idx)]
  | 0x7000054 => shown w [(Reg.BFC_WEAR_ALLOW.allow_mib_day, wearAllow s idx)]
  | 0x700005C =>
    if diesPerChannel s ≤ idx % 16 then w
    else shown w [(Reg.BFC_DIE_STS.state, (dieAt s idx).state.val), (Reg.BFC_DIE_STS.med_tlc, dieMedian s idx false),
                  (Reg.BFC_DIE_STS.med_slc, dieMedian s idx true)]
  | _ =>
    if addr % 256 = 0 ∧ 0x7001000 ≤ addr then
      let ch := (addr - 0x7001000) / 256
      let w := shown w [(Reg.BFC_CH_STS.remap_used, (bchan s ch).remap.length / 16)]
      if flushing s && fieldOf w 0 2 = 1 then shown w [(Reg.BFC_CH_STS.state, 3)] else w
    else w

/-- TMG's registers (R68, R186, R328, R578). -/
def viewTmg (s : State) (addr : Nat) (w : Word) : Word :=
  match addr with
  | 0x8000130 => shownWord (reservedKib s / 1024)
  | 0x8000134 => shown w [(Reg.TMG_LOAM_AVAIL.avail, loamAvail s)]
  | 0x8000138 => shown w [(Reg.TMG_FLOOR_SUM.floor_sum, sumOver (·.floor) (admitted s))]
  | 0x800013C => shown w [(Reg.TMG_ALLOW_SUM.allow_sum, allowSum s)]
  | 0x8000144 => shown w [(Reg.TMG_SIZE_SUM.size_sum, sumOver (·.size) (admitted s))]
  | 0x8000158 => shown w [(Reg.TMG_DIRTY_GRAINS.grains, dirtyGrains s)]
  | 0x8000014 => shown w [(Reg.TMG_TD_STS.overlays, s.tmg.overlays.length)]
  | 0x800001C =>
    shown w [(Reg.TMG_GOV_STS.used_pct, if dailyAllowance s = 0 then (if trailing s = 0 then 0 else 255) else trailing s * 100 / dailyAllowance s),
             (Reg.TMG_GOV_STS.refused_class, s.tmg.refusedClass)]
  | 0x8000020 => shownWord (trailing s / 1048576)
  | 0x8000030 => shown w [(Reg.TMG_FRAME_STS.free_frames, freeFrames s)]
  | 0x8000034 => shown w [(Reg.TMG_MIG_STS.lifts, s.tmg.lifts.length), (Reg.TMG_MIG_STS.settles, s.tmg.settles.length)]
  | 0x8000184 =>
    shown w [(Reg.TMG_CKPT_STS.pass_pct, if (ckptKeys s).isEmpty then 0 else s.glb.ckptNext * 100 / (ckptKeys s).length),
             (Reg.TMG_CKPT_STS.journal_kib, Config.journalKib s.glb.journal.length)]
  | _ => w

/-- Time since `t` in a unit, in ns. -/
def since (s : State) (t unit : Nat) : Nat := (s.devTime - t) / unit

/-- FLK's registers (R382, R404). -/
def viewFlk (s : State) (addr : Nat) (w : Word) : Word :=
  match addr with
  | 0x9000004 => shown w [(Reg.FLK_TWIN_STS.copy_serving, bit (copyServing s)), (Reg.FLK_TWIN_STS.lease_valid, bit (leaseValid s))]
  | 0x9000018 =>
    shown w [(Reg.FLK_DIGEST_CNT.neither_24h, (s.twin.neitherTimes.filter fun t => s.devTime < t + 86400000000000).length)]
  | 0x9000010 =>
    shown w [(Reg.FLK_LEASE_STS.silence_us, since s s.twin.leaseRxAt 1000),
             (Reg.FLK_LEASE_STS.lease_left_us, (s.twin.lease.getD 0 - s.devTime) / 1000)]
  | 0x9000014 => shown w [(Reg.FLK_MIRROR_STS.retain_kib, retainedBytes s.twin.retained / 1024)]
  | 0x900002C => shownWord s.twin.changeMap.length
  | 0x9000030 => shownWord (match s.twin.resync with
      | some r => r.left.length + r.sent.length
      | none => 0)
  | 0x9000034 => shown w [(Reg.FLK_TWIN_HEALTH.age_ms, since s s.twin.healthAt 1000000)]
  | 0x900083C => shown w [(Reg.FLK_CHAIN_STS.inflight, s.chain.reqs.length)]
  | _ => w

/-- BPM's registers (R472); a pool register's index is the pool. -/
def viewBpm (s : State) (addr idx : Nat) (w : Word) : Word :=
  match addr with
  | 0xA000008 => shown w [(Reg.BPM_POOL_USABLE.usable, (poolAt s idx).usable)]
  | 0xA00000C => shown w [(Reg.BPM_POOL_FREE.free, poolFree (poolAt s idx))]
  | 0xA000010 => shown w [(Reg.BPM_POOL_CACHE.cached, (poolAt s idx).cache.length)]
  | 0xA000020 => shown w [(Reg.BPM_REGION.region_mib, regionMib s), (Reg.BPM_REGION.meta_bufs, metaBuffers s)]
  | _ => w

/-- CKU's registers (R456); CKU_PLOT_KEYGEN's index is the plot. -/
def viewCku (s : State) (addr idx : Nat) (w : Word) : Word :=
  match addr with
  | 0xB000008 =>
    shown w [(Reg.CKU_GCM_STS.spares, ((List.range 24).filter fun p => gcmIn s p && decide (gcmRole s p = 0)).length)]
  | 0xB00001C =>
    shown w [(Reg.CKU_PLOT_KEYGEN.erase_count, (plotRec s idx).eraseCount), (Reg.CKU_PLOT_KEYGEN.generation, (plotRec s idx).generation)]
  | 0xB000030 =>
    shown w [(Reg.CKU_LINK_KEY_STS.twin_keyed, bit (twinKeyed s)),
             (Reg.CKU_LINK_KEY_STS.chain_keyed, ((List.range 8).map fun p => bit (chainKeyed s p) * 2 ^ p).foldl (· + ·) 0)]
  | _ => w

/-- The snapshot in the selected slot (R486). -/
def snapAt (s : State) : Option Snapshot :=
  match getF s Reg.PHS_SNAP_CTL.slot with
  | 0 => s.phs.snapFirst
  | n + 1 => s.phs.snapRest[n]?

/-- A channel's reading and flags in a snapshot. -/
def snapVal (x : Snapshot) (ch : Nat) : Nat :=
  let v := x.values.getD ch (0, false, false)
  v.1.toNat + bit v.2.1 * 65536 + bit v.2.2 * 131072

/-- PHS's snapshot registers: header, time halves and channel readings; all zero for a slot that holds none. -/
def viewSnap (s : State) (addr : Nat) (w : Word) : Word :=
  match snapAt s with
  | none => w
  | some x =>
    match addr with
    | 0xC000060 =>
      shown w [(Reg.PHS_SNAP_HDR.cause, x.cause), (Reg.PHS_SNAP_HDR.kind, x.kind), (Reg.PHS_SNAP_HDR.state, x.state), (Reg.PHS_SNAP_HDR.valid, 1)]
    | 0xC000064 => shownWord x.time
    | 0xC000068 => shownWord (x.time / 2 ^ 32)
    | _ => shownWord (snapVal x ((addr - 0xC000080) / 4))

/-- PHS's registers (R497). A latched failure shows until PWR_REQ has been low for 1 ms (R478). -/
def viewPhs (s : State) (addr : Nat) (w : Word) : Word :=
  match addr with
  | 0xC000000 =>
    shown w [(Reg.PHS_STATE.fail_latched, bit (flag s Reg.PHS_STATE.fail_latched && !(!flag s Reg.PHS_STATE.pwr_req && lowLongEnough s)))]
  | 0xC00000C => shown w [(Reg.PHS_RAIL_STS.en_out, s.phs.enables.toNat), (Reg.PHS_RAIL_STS.pg_in, s.phs.pg.toNat)]
  | 0xC00005C => shown w [(Reg.PHS_SNAP_CTL.count, bit s.phs.snapFirst.isSome + s.phs.snapRest.length)]
  | 0xC000060 | 0xC000064 | 0xC000068 => viewSnap s addr w
  | _ => if 0xC000080 ≤ addr ∧ addr < 0xC0000E0 then viewSnap s addr w else w

/-- EVR's registers and windows (R540, R543, R553). -/
def viewEvr (s : State) (addr : Nat) (w : Word) : Word :=
  match addr with
  | 0xD000004 => shown w [(Reg.EVR_RING_STS.used_16, bytesOf s.evr.ring / 16)]
  | 0xD000008 => shown w [(Reg.EVR_RING_UNSETTLED.unsettled_16, unsettledBytes s.evr.ring / 16)]
  | 0xD00000C => shownWord s.evr.seqNext
  | 0xD000010 => shownWord ((s.evr.ring.head?.map (·.offset)).getD s.evr.head)
  | 0xD000014 => shownWord ((s.evr.ring.head?.map (·.seq)).getD 0)
  | 0xD000018 => shownWord s.evr.head
  | _ =>
    if 0xD001000 ≤ addr ∧ addr < 0xD002000 then fetchWord s ((addr - 0xD001000) / 4)
    else if 0xD100000 ≤ addr ∧ addr < 0xD200000 then ringWord s (addr - 0xD100000)
    else w

/-- Code-store banks with an operation in progress or suspended: bit 0 bank A, bit 1 bank B (R511). -/
def busyBanks (s : State) : Nat :=
  let ops := s.mgc.op.toList ++ s.mgc.suspendedOp.toList
  let busy (b : Bool) : Bool := ops.any (fun o => decide (8192 ≤ opSector o) = b) || s.evr.crash.any fun a => a.bank = b
  bit (busy false) + bit (busy true) * 2

/-- MGC's registers (R530), for the master that reads. -/
def viewMgc (s : State) (who : Accessor) (addr : Nat) (w : Word) : Word :=
  let q := csQueues s (accessorIdx who)
  match addr with
  | 0xE000020 =>
    shown w [(Reg.MGC_WDT_STS.remaining_ms, if wdtRuns s then s.mgc.wdtMs - since s s.mgc.wdtAt 1000000 else s.mgc.wdtMs)]
  | 0xE000034 => shownWord ((q.cmpl.head?.map fun c => c.1.toNat).getD 0xFFFFFFFF)
  | 0xE000038 => q.latchedHi
  | 0xE000040 =>
    shown w [(Reg.MGC_CS_STS.busy_a, busyBanks s % 2), (Reg.MGC_CS_STS.busy_b, busyBanks s / 2), (Reg.MGC_CS_STS.suspended, bit s.mgc.suspendedOp.isSome),
             (Reg.MGC_CS_STS.normal, q.normal.length), (Reg.MGC_CS_STS.urgent, q.urgent.length), (Reg.MGC_CS_STS.cmpl, q.cmpl.length)]
  | _ => if 0xE000058 ≤ addr ∧ addr < 0xE000068 then Config.dieId ((addr - 0xE000058) / 4) else w

/-- GLB's registers (R587). -/
def viewGlb (s : State) (addr : Nat) (w : Word) : Word :=
  match addr with
  | 0x8 => shownWord s.devTime
  | 0xC => shownWord (s.devTime / 2 ^ 32)
  | _ => w

/-- HFP's registers (R105): a port that is not the lowest of its bond reads 0; a link in recovery is not in L0. -/
def viewHfp (s : State) (addr : Nat) (w : Word) : Word :=
  if addr < 0x1001000 then w
  else
    let port := (addr - 0x1001000) / 256
    if !isLowest s port then 0
    else if addr % 256 = 4 && (hostLink s port).recovery then shown w [(Reg.HFP_PORT_STS.link_up, 0)]
    else w

/-- The 64 bytes of a slot of a ring's result window, a word at a time: the idle item while not ready (R137, R138). -/
def resultWord (s : State) (idx off : Nat) : Word :=
  match slook (sget {} s.cre.rings idx).results (off / 64) with
  | some l => BitVec.ofNat 32 (l.toNat / 2 ^ (off % 64 * 8))
  | none => 0xFFFFFFFF

/-- The registers of a ring's doorbell page (R154, R593); a ring at or above rings_allowed shows nothing, unless it was enabled before
rings_allowed fell (R155). -/
def viewPage (s : State) (ld : Ld) (ring : RingNo) (off : Nat) : Word :=
  let r := ringAt s ld ring
  let shut := decide (ringsAllowed s ld ≤ ring.val) && r.state = .disabled
  if off = 8 then (if shut then 0 else BitVec.ofNat 32 (r.sqHead % 65536 + r.cqTail % 65536 * 65536))
  else if 0x800 ≤ off ∧ off < 0xC00 then (if shut then 0xFFFFFFFF else resultWord s (ringIdx ld ring) (off - 0x800))
  else 0

/-- An LD's identity and status registers (R591, R592), and its MSI-X structures (R550). -/
def viewLd (s : State) (ld : Ld) (off : Nat) : Word :=
  let port := ld.val / 16
  if off = 0x0 then 0x01B17416
  else if off = 0x4 then BitVec.ofNat 32 (ld.val + bit (sideB s) * 4096)
  else if off = 0x8 then BitVec.ofNat 32 s.plots.maxCapacity
  else if off = 0xC then
    shown 0 [(Reg.HFP_LD_STATUS.memory_active, bit (ldState s ld).memoryActive),
             (Reg.HFP_LD_STATUS.replace_advised, getF s Reg.EVR_HEALTH.replace_advised), (Reg.HFP_LD_STATUS.twin_mode, twinMode s),
             (Reg.HFP_LD_STATUS.kiln_armed, bit (armed s)), (Reg.HFP_LD_STATUS.ide_required, getF s (portField Reg.HFP_PORT_CTL.ide_required port))]
  else if off = 0x18 then shownWord s.devTime
  else if off = 0x1C then shownWord (s.devTime / 2 ^ 32)
  else if 0x200 ≤ off ∧ off < 0x400 then
    BitVec.ofNat 32 (((List.range 32).map fun b => bit (visible s ((off - 0x200) / 4 * 32 + b) ld) * 2 ^ b).foldl (· + ·) 0)
  else if 0x2000 ≤ off ∧ off < 0x2400 then
    let k := ld.val * 64 + (off - 0x2000) / 16
    match (off - 0x2000) % 16 with
    | 0 => BitVec.ofNat 32 (sget 0 s.evr.msixAddr k).toNat
    | 4 => BitVec.ofNat 32 ((sget 0 s.evr.msixAddr k).toNat / 2 ^ 32)
    | 8 => sget 0 s.evr.msixData k
    | _ => BitVec.ofNat 32 (bit (sget true s.evr.msixMask k))
  else if off = 0x2800 ∨ off = 0x2804 then
    BitVec.ofNat 32 (((List.range 32).map fun b => bit (sget false s.evr.msixPending (ld.val * 64 + (off - 0x2800) * 8 + b)) * 2 ^ b).foldl (· + ·) 0)
  else regAt s (0x100000000 + off) ld.val

/-- What a register of the management space reads as, at its index. -/
def viewMgmt (s : State) (who : Accessor) (addr idx : Nat) : Word :=
  let w := regAt s addr idx
  match addr / 16777216 with
  | 0 => viewGlb s addr w
  | 1 => viewHfp s addr w
  | 2 => viewCre s addr idx w
  | 3 => viewPou s addr idx w
  | 4 => viewFcd s addr idx w
  | 5 => viewLmc s addr w
  | 6 => viewDiu s addr idx w
  | 7 => viewBfc s addr idx w
  | 8 => viewTmg s addr w
  | 9 => viewFlk s addr w
  | 10 => viewBpm s addr idx w
  | 11 => viewCku s addr idx w
  | 12 => viewPhs s addr w
  | 13 => viewEvr s addr w
  | 14 => viewMgc s who addr w
  | _ => w

end Sys2Proof.Machine
end

