-- ==== Sys2Proof/Machine/Registers.lean ====
section
/-! DEFINITION. Meanings of the register commands (19): a write or a read of any register of the management space or an LD
space, under the rules of R5 to R9, R14, R581 to R585 and R594. -/

namespace Sys2Proof.Machine

/-! ### Which register an access reaches (R5, R579 to R581, R590 to R594) -/

/-- What an access reaches. -/
inductive RegTarget where
  /-- a register of the management space, and its index; none where a selector selects nothing -/
  | mgmt (addr : Nat) (idx : Option Nat)
  /-- BAR0 of an LD, outside the CXL ranges -/
  | ldSpace (ld : Ld) (off : Nat)
  /-- the CXL register ranges of BAR0 -/
  | cxl (ld : Ld) (off : Nat)
  /-- a doorbell page of BAR2 -/
  | page (ld : Ld) (ring : RingNo) (off : Nat)
  /-- an LD space of an LD that its link does not carry: nothing is there -/
  | absent
  /-- R5 rejects the access, or the space does not belong to the accessor -/
  | rejected
  deriving DecidableEq, Repr

/-- Registers held once per accessing master: the selectors and the snapshots they latch (R581). -/
def perMaster (addr : Nat) : Bool :=
  (decide (0x8000100 ≤ addr) && decide (addr ≤ 0x8000120)) || (decide (0x3000020 ≤ addr) && decide (addr ≤ 0x3000034)) ||
    [0x3000200, 0x2000000, 0x4000004, 0x5000018, 0x5000020, 0x600000C, 0x6000014, 0x7000048, 0x7000058, 0x9000808, 0x9000810, 0x900082C,
     0x9000834, 0xA000000, 0xB00000C, 0xB000018, 0xC000010, 0xC000018, 0xD000024].contains addr

/-- An index below a bound. -/
def below (bound n : Nat) : Option Nat := if n < bound then some n else none

/-- The index of a management register for an accessor: its own, or the entry its selector names. -/
def mgmtIndex (s : State) (who : Accessor) (addr : Nat) : Option Nat :=
  if perMaster addr then some (accessorIdx who)
  else if 0x9000814 ≤ addr ∧ addr ≤ 0x9000828 then some (selOf s who Reg.FLK_WIN_SEL.window)
  else if 0xA000004 ≤ addr ∧ addr ≤ 0xA00001C then below 3 (selOf s who Reg.BPM_POOL_SEL.pool)
  else if 0xC00001C ≤ addr ∧ addr ≤ 0xC00002C then below 24 (selOf s who Reg.PHS_MON_SEL.channel)
  else if 0x700004C ≤ addr ∧ addr ≤ 0x7000054 then some (selOf s who Reg.BFC_WEAR_SEL.bed)
  else match addr with
    | 0x2000004 => some (selOf s who Reg.CRE_LD_SEL.ld)
    | 0x3000204 => some (selOf s who Reg.POU_ACL_SEL.plot_id * 64 + selOf s who Reg.POU_ACL_SEL.entry)
    | 0x4000008 => some (selOf s who Reg.FCD_SLICE_SEL.slice)
    | 0x500001C => below 20 (selOf s who Reg.LMC_QOS_SEL.class)
    | 0x5000024 => some (selOf s who Reg.LMC_QOS_MISS_SEL.mid)
    | 0x6000010 => some (selOf s who Reg.DIU_CE_SEL.channel)
    | 0x6000018 | 0x600001C => some (selOf s who Reg.DIU_CE_LOG_SEL.entry)
    | 0x700005C => (below 96 (selOf s who Reg.BFC_DIE_SEL.channel)).map fun c => c * 16 + selOf s who Reg.BFC_DIE_SEL.die
    | 0x900080C => some (selOf s who Reg.FLK_ROUTE_SEL.entry)
    | 0x9000830 => some (selOf s who Reg.FLK_INGRESS_SEL.mid)
    | 0x9000838 => some (selOf s who Reg.FLK_CLASS_SEL.class)
    | 0xB000010 | 0xB000014 => below 24 (selOf s who Reg.CKU_GCM_SEL.pair)
    | 0xB00001C => some (selOf s who Reg.CKU_PLOT_SEL.plot_id)
    | 0xC000014 => below 12 (selOf s who Reg.PHS_RST_SEL.output)
    | 0xD000028 | 0xD00002C => below 1536 (selOf s who Reg.EVR_SRC_SEL.source)
    | _ => some 0

/-- The only access R5 accepts outside the CXL ranges: an aligned 32-bit word. -/
def wordAccess (a : Access) : Bool := a.bytes.val = 4 && a.addr.toNat % 4 = 0

/-- An LD's link is in a CXL mode: outside it the CXL ranges are reserved (R590). -/
def cxlMode (s : State) (ld : Ld) : Bool := decide (2 ≤ getF s (portField Reg.HFP_PORT_STS.mode (ld.val / 16)))

/-- What an access reaches. -/
def regTarget (s : State) (a : Access) : RegTarget :=
  let off := a.addr.toNat
  match a.space with
  | .mgmt =>
    if isManager s a.who && wordAccess a && decide (off < 0x0F000000) then .mgmt off (mgmtIndex s a.who off) else .rejected
  | .bar0 ld =>
    if !ldPresent s ld then .absent
    else if decide (0x3000 ≤ off) && cxlMode s ld then
      (if wordAccess a || (a.bytes.val = 8 && off % 8 = 0) then .cxl ld off else .rejected)
    else if wordAccess a then .ldSpace ld off
    else .rejected
  | .bar2 ld =>
    if !ldPresent s ld then .absent
    else if wordAccess a then .page ld (Fin.ofNat 256 (off / 4096)) (off % 4096) else .rejected

/-- A rejected access raises the event of R5 naming the master; a management core's is an access fault (R501, R594). -/
def rejectAccess (s : State) (a : Access) : State :=
  let report := raise s (match a.space with
    | .mgmt => blockSource a.addr.toNat
    | .bar0 ld => ld.val / 16 * 32
    | .bar2 ld => ld.val / 16 * 32) .registerReject (accessorMid a.who) [a.addr.toNat]
  match a.space, a.who with
  | .mgmt, .mid m =>
    if 0x340 ≤ m.val ∧ m.val ≤ 0x345 then coreFault m.val (BitVec.ofNat 36 a.addr.toNat) .unmapped s
    else report
  | _, _ => report

/-- A rejected write: dropped. One to the management space by a master that may not make it is denied under R14, or for the key
window under R443. -/
def rejectWrite (s : State) (a : Access) : State :=
  if a.space = .mgmt && !isManager s a.who then
    if 0xB000040 ≤ a.addr.toNat ∧ a.addr.toNat ≤ 0xB000070 then denyKeyWrite s a.who else denySetup s a.who a.addr.toNat
  else rejectAccess s a

/-- A rejected read by a host returns 0xFFFF_FFFF in each requested dword (R594). -/
def rejectRead (s : State) (a : Access) : State := emit (rejectAccess s a) (.regReject a.who a.space a.addr.toNat)

/-! ### Writes with effects of their own -/

/-- A write of a management register that only its bits feel. -/
def plainWrite (s : State) (a : Access) (addr idx : Nat) (value hwSet : Word) : State := setupWrite s a.who addr (writeBits s addr idx value hwSet)

/-- A write that only 0x340 and 0x341 may make (R530). -/
def pairOnly (s : State) (who : Accessor) (addr : Nat) (act : State) : State := if isLockstep who then act else denySetup s who addr

/-- The greatest erase count has reached its limit (R513). -/
def checkWear (s : State) : State :=
  if min 100000 (getF s Reg.MGC_CS_WEAR_LIMIT.limit) ≤ getF s Reg.MGC_CS_WEAR.max_cycles then adviseReplace s 10 else s

/-- MGC_WDT_CFG: enable takes 0 only while DEBUG_CLOSE is not blown (R521). -/
def writeWdtCfg (s : State) (value : Word) : State :=
  let on := flag s Reg.MGC_WDT_CFG.enable
  let s := writeBits s Reg.MGC_WDT_CFG.timeout_ms.addr 0 value 0
  if s.mgc.debugClosed && on then setFlag s Reg.MGC_WDT_CFG.enable else s

/-- HFP_BI_TIMEOUT: a value outside 100 to 2,400 is written as the nearer limit (R85). -/
def writeBiTimeout (s : State) (value : Word) : State :=
  setF s Reg.HFP_BI_TIMEOUT.bi_timeout_us (max 100 (min 2400 (wr value Reg.HFP_BI_TIMEOUT.bi_timeout_us)))

/-- PHS_PWR_CTL: an off request, then a cycle request. -/
def writePwrCtl (s : State) (who : Accessor) (value : Word) : State :=
  let s := if wr value Reg.PHS_PWR_CTL.off_req = 1 then doOffRequest who s else s
  if wr value Reg.PHS_PWR_CTL.cycle_req = 1 then doCycleRequest who s else s

/-- PHS_KILN_CTL: arm or disarm, then flush_now (R490, R491). -/
def writeKilnCtl (s : State) (who : Accessor) (value : Word) : State :=
  let s := if wr value Reg.PHS_KILN_CTL.arm = 1 then doKilnArm who s else doKilnDisarm who s
  if wr value Reg.PHS_KILN_CTL.flush_now = 1 then doFlushNow who s else s

/-- PHS_SNAP_CTL: the slot, and clear (R486). -/
def writeSnapCtl (s : State) (who : Accessor) (value : Word) : State :=
  let s := writeBits s Reg.PHS_SNAP_CTL.slot.addr 0 value 0
  if wr value Reg.PHS_SNAP_CTL.clear = 1 then doSnapshotClear who s else s

/-- A word of CKU_KEYWIN_DATA: only the lockstep pair, and DATA11 is reserved (R443). -/
def writeKeyData (s : State) (who : Accessor) (n : Nat) (value : Word) : State :=
  if !isLockstep who then denyKeyWrite s who
  else if n < 11 then { s with cku.window := sput 0 s.cku.window n value }
  else s

/-- A word of the import window (R546). -/
def writeImport (s : State) (n : Nat) (value : Word) : State := { s with evr.importWin := sput 0 s.evr.importWin n value }

/-- A sense channel's set-up: its filter counts restart (R498). -/
def writeSense (s : State) (addr ch : Nat) (value hwSet : Word) : State :=
  let s := writeBits s addr ch value hwSet
  { s with phs.senses := sput {} s.phs.senses ch {} }

/-- A register of a host link; one of a port that is not the lowest of its bond ignores the write (R105). -/
def writeLinkReg (s : State) (addr : Nat) (value hwSet : Word) : State :=
  let port := (addr - 0x1001000) / 256
  if !isLowest s port then s
  else
    let s := writeBits s addr 0 value hwSet
    if addr % 256 = 0 then startTraining s port else s

/-! ### Pairs of the management space (R6, R267, R582) -/

/-- Media time under an offset. -/
def mediaWith (s : State) (lo hi : Word) : Nat := (s.devTime + lo.toNat + hi.toNat * 2 ^ 32) % 2 ^ 64

/-- The HI half of a writable pair is written; the LO half stands 4 below. A media-time offset that would move media time
backwards changes neither half. -/
def writeHiHalf (s : State) (who : Accessor) (addr : Nat) (value : Word) : State :=
  let lo := addr - 4
  let i := accessorIdx who
  let low := (pendingLo s lo i).getD (regAt s lo 0)
  if addr = 0x700006C ∧ mediaWith s low value < mediaTime s then dropLo s lo i
  else dropLo (setRegAt (setRegAt s lo 0 low) addr 0 value) lo i

/-! ### A write of the management space -/

/-- The registers whose write is more than its bits, by address; none: it is not. -/
def specialWrite (s : State) (who : Accessor) (addr : Nat) (value : Word) : Option State :=
  match addr with
  | 0x0000204 => some (setupWrite s who addr (if wr value Reg.GLB_START_CTL.force_solo = 1 then doForceSolo who s else s))
  | 0x000020C => some (setupWrite s who addr (if wr value Reg.GLB_RESET_CTL.warm_req = 1 then doWarmResetRequest who s else s))
  | 0x1000004 => some (setupWrite s who addr (writeBiTimeout s value))
  | 0x3000000 => some (doBpCfgWrite who value s)
  | 0x3000020 => some (doPouPlotSelect who value s)
  | 0x3000204 => some (doAclWrite who value s)
  | 0x5000008 => some (doSpeedChange who value s)
  | 0x7000008 | 0x700000C => if s.glb.bedrockReady then some (setupWrite s who addr s) else none
  | 0x7000068 | 0xC000054 => some (setupWrite s who addr (pendLo s addr (accessorIdx who) value))
  | 0x700006C | 0xC000058 => some (setupWrite s who addr (writeHiHalf s who addr value))
  | 0x8000100 => some (doTmgPlotSelect who value s)
  | 0x8000150 => some (doBudgetCfgWrite who value s)
  | 0x9000800 => some (doChainCfgWrite who value s)
  | 0x9000820 => some (doWindowCommit who value s)
  | 0xB000010 => some (doGcmRoleWrite who value s)
  | 0xB000040 => some (writeKeyWindow s who value)
  | 0xC000004 => some (setupWrite s who addr (writePwrCtl s who value))
  | 0xC000014 => some (doResetSwAssert who value s)
  | 0xC00004C => some (setupWrite s who addr (writeKilnCtl s who value))
  | 0xC00005C => some (setupWrite s who addr (writeSnapCtl s who value))
  | 0xD000028 => some (doSrcCfgWrite who value s)
  | 0xD000034 => some (doHistoryFetch who value s)
  | 0xD00003C => some (setupWrite s who addr (if wr value Reg.EVR_IMPORT_CTL.commit = 1 then doImportCommit who s else s))
  | 0xD000040 => some (doCrashReady who value s)
  | 0xD00004C => some (doMsixTrigger who value s)
  | 0xE000008 => some (setupWrite s who addr s)
  | 0xE000010 => some (setupWrite s who addr (if wr value Reg.MGC_BOOT_CTL.boot_ok = 1 then doBootOk who s else s))
  | 0xE000018 => some (setupWrite s who addr (writeWdtCfg s value))
  | 0xE00001C => some (doWdtKick who value s)
  | 0xE000024 => some (doCsDescOpen who value s)
  | 0xE000028 => some (setupWrite s who addr (csDescWord s (accessorIdx who) 1 value))
  | 0xE00002C => some (setupWrite s who addr (csDescWord s (accessorIdx who) 2 value))
  | 0xE000030 => some (doCsDescCommit who value s)
  | 0xE00003C => some (doCsFlush who value s)
  | 0xE00004C | 0xE000050 => some (pairOnly s who addr (checkWear (writeBits s addr 0 value 0)))
  | 0xE000068 => some (pairOnly s who addr (writeBits s addr 0 value 0))
  | _ => none

/-- A write of a management register at its index. -/
def writeMgmt (s : State) (a : Access) (addr idx : Nat) (value hwSet : Word) : State :=
  match specialWrite s a.who addr value with
  | some t => t
  | none =>
    if 0x1001000 ≤ addr ∧ addr < 0x1002000 then setupWrite s a.who addr (writeLinkReg s addr value hwSet)
    else if 0xB000044 ≤ addr ∧ addr ≤ 0xB000070 then writeKeyData s a.who ((addr - 0xB000044) / 4) value
    else if 0xC00001C ≤ addr ∧ addr ≤ 0xC000028 then setupWrite s a.who addr (writeSense s addr idx value hwSet)
    else if 0xD002000 ≤ addr ∧ addr < 0xD002400 then setupWrite s a.who addr (writeImport s ((addr - 0xD002000) / 4) value)
    else plainWrite s a addr idx value hwSet

/-! ### A write of an LD space (R153, R550, R591 to R593) -/

/-- A word of an MSI-X table entry. -/
def writeMsix (s : State) (ld : Ld) (off : Nat) (value : Word) : State :=
  let v : Fin 64 := Fin.ofNat 64 (off / 16)
  let k := ld.val * 64 + v.val
  let old := (sget 0 s.evr.msixAddr k).toNat
  match off % 16 with
  | 0 => { s with evr.msixAddr := sput 0 s.evr.msixAddr k (BitVec.ofNat 64 (old / 2 ^ 32 * 2 ^ 32 + value.toNat / 4 * 4)) }
  | 4 => { s with evr.msixAddr := sput 0 s.evr.msixAddr k (BitVec.ofNat 64 (old % 2 ^ 32 + value.toNat * 2 ^ 32)) }
  | 8 => { s with evr.msixData := sput 0 s.evr.msixData k value }
  | _ =>
    if value.getLsbD 0 then { s with evr.msixMask := sput true s.evr.msixMask k true }
    else doMsixUnmask ld (some v) s

/-- The ring that CRE_RING_SEL of an LD selects (R110). -/
def selectedRing (s : State) (ld : Ld) : RingNo := Fin.ofNat 256 (getFi s Reg.CRE_RING_SEL.ring ld.val)

/-- The set-up register at an offset of the ring set-up window. -/
def setupRegAt (off : Nat) : Option SetupReg :=
  match off with
  | 0x100C => some .sqBaseLo
  | 0x1010 => some .sqBaseHi
  | 0x1014 => some .sqSize
  | 0x1018 => some .cqBaseLo
  | 0x101C => some .cqBaseHi
  | 0x1020 => some .cqSize
  | 0x1024 => some .irq
  | _ => none

/-- A write of BAR0 outside the CXL ranges. -/
def writeLd (s : State) (ld : Ld) (off : Nat) (value hwSet : Word) : State :=
  let ring := selectedRing s ld
  if off = 0x100 then doLdPlotSelect ld value s
  else if off = 0x1000 then writeBits s 0x100001000 ld.val value hwSet
  else if off = 0x1004 then writeCtl s ld ring value
  else if off = 0x1008 then writeBits s 0x100001008 (ringIdx ld ring) value hwSet
  else if 0x2000 ≤ off ∧ off < 0x2400 then writeMsix s ld (off - 0x2000) value
  else match setupRegAt off with
    | some r => doRingSetupWrite ld ring r value s
    | none => s

/-- A write of a doorbell page. -/
def writePage (s : State) (ld : Ld) (ring : RingNo) (off : Nat) (value : Word) : State :=
  if off = 0 then doSqTailDoorbell ld ring value s else if off = 4 then doCqHeadDoorbell ld ring value s else s

/-! ### HDM decoders (R76, R83, R590). The place of the capability and its layout are not the spec's (PRESUMED: CXL 3.1) -/

/-- Where the HDM decoder capability stands in BAR0, and its size. -/
def hdmBase : Nat := 0x9100

/-- Word `n` of an LD's HDM decoder capability: 1 global control; decoder d's eight words from 4 + 8d. -/
def hdmWord (l : LdState) (n : Nat) : Nat := (sget 0 l.hdm n).toNat

/-- The first word of a decoder. -/
def hdmFirst (d : Nat) : Nat := 4 + 8 * d

/-- A decoder's control word: granularity [3:0], ways [7:4], lock 8, commit 9, committed 10, error 11, back-invalidation 13. -/
def hdmCtl (l : LdState) (d : Nat) : Nat := hdmWord l (hdmFirst d + 4)

/-- A decoder's size in bytes, its interleave ways, and the DPA it skips. -/
def hdmSize (l : LdState) (d : Nat) : Nat := hdmWord l (hdmFirst d + 2) + hdmWord l (hdmFirst d + 3) * 2 ^ 32

/-- Interleave ways. -/
def hdmWays (l : LdState) (d : Nat) : Nat := 2 ^ (hdmCtl l d / 16 % 16)

/-- DPA skipped below a decoder. -/
def hdmSkip (l : LdState) (d : Nat) : Nat := hdmWord l (hdmFirst d + 5) + hdmWord l (hdmFirst d + 6) * 2 ^ 32

/-- DPA taken by the decoders below `d`, with their skips. -/
def hdmTaken (l : LdState) : Nat → Nat
  | 0 => 0
  | d + 1 => hdmTaken l d + hdmSkip l d + hdmSize l d / hdmWays l d

/-- Is a decoder committed? -/
def hdmCommitted (l : LdState) (d : Nat) : Bool := hdmCtl l d / 1024 % 2 = 1

/-- A decoder as requests meet it: off unless committed and the global enable is set. -/
def hdmDecoder (l : LdState) (d : Nat) : Decoder :=
  if hdmCommitted l d && hdmWord l 1 / 2 % 2 = 1 then
    { enabled := true, hpaBase := hdmWord l (hdmFirst d) + hdmWord l (hdmFirst d + 1) * 2 ^ 32, size := hdmSize l d
      dpaBase := hdmTaken l d + hdmSkip l d, ways := hdmWays l d, granularity := 256 * 2 ^ (hdmCtl l d % 16)
      backInval := hdmCtl l d / 8192 % 2 = 1 }
  else {}

/-- May a decoder be committed: R76's ways, a size, inside DPA space, and every lower decoder committed before it. -/
def hdmGood (s : State) (l : LdState) (d : Nat) : Bool :=
  decide (hdmCtl l d / 16 % 16 ≤ 4) && decide (hdmCtl l d % 16 ≤ 6) && decide (0 < hdmSize l d) &&
    decide (hdmTaken l (d + 1) ≤ s.plots.maxCapacity * 268435456) && (List.range d).all (hdmCommitted l)

/-- Replace a word of the capability. -/
def hdmPut (l : LdState) (n v : Nat) : LdState := { l with hdm := sput 0 l.hdm n (BitVec.ofNat 32 v) }

/-- A decoder's control word is written: commit takes effect or ends in error; clearing commit takes it off. -/
def hdmControl (s : State) (l : LdState) (d v : Nat) : LdState :=
  let n := hdmFirst d + 4
  let plain := v % 1024 + v / 4096 % 4 * 4096
  let l := hdmPut l n plain
  if v / 512 % 2 = 0 then l else if hdmGood s l d then hdmPut l n (plain + 1024) else hdmPut l n (plain + 2048)

/-- Base, size and skip hold 256 MiB units in their low words. -/
def hdmMask (field v : Nat) : Nat := if field % 2 = (if field < 4 then 0 else 1) then v / 268435456 * 268435456 else v

/-- Write a word of the capability: a locked and committed decoder takes nothing. -/
def hdmWrite (s : State) (l : LdState) (n : Nat) (value : Word) : LdState :=
  if n = 1 then hdmPut l 1 (value.toNat % 4)
  else if n < 4 ∨ 68 ≤ n then l
  else
    let d := (n - 4) / 8
    let field := (n - 4) % 8
    if hdmCommitted l d && hdmCtl l d / 256 % 2 = 1 then l
    else if field = 4 then hdmControl s l d value.toNat
    else if field = 7 then l
    else hdmPut l n (hdmMask field value.toNat)

/-- The decoders as requests meet them. -/
def hdmDecoders (l : LdState) : Sparse Decoder := (List.range 8).foldl (fun t d => sput {} t d (hdmDecoder l d)) []

/-- A write of the CXL ranges: the HDM decoder capability; the mailbox's commands have rows of their own, and the rest has no
effect the spec describes. -/
def writeCxl (s : State) (ld : Ld) (off : Nat) (value : Word) : State :=
  if hdmBase ≤ off ∧ off < hdmBase + 272 then
    updLd s ld fun l =>
      let l := hdmWrite s l ((off - hdmBase) / 4) value
      { l with decoders := hdmDecoders l }
  else s

/-! ### Writes -/

/-- A register write (R585): rejected, or what it does to the register it reaches. The upper dword is that of an 8-byte access. -/
def registerWrite (s : State) (a : Access) (value upper hwSet : Word) : State :=
  match regTarget s a with
  | .rejected => rejectWrite s a
  | .mgmt addr (some idx) => writeMgmt s a addr idx value hwSet
  | .mgmt addr none => setupWrite s a.who addr s
  | .ldSpace ld off => writeLd s ld off value hwSet
  | .cxl ld off =>
    let s := writeCxl s ld off value
    if a.bytes.val = 8 then writeCxl s ld (off + 4) upper else s
  | .page ld ring off => writePage s ld ring off value
  | .absent => s

/-- REGISTER_WRITE -/
def doRegisterWrite (a : Access) (value upper hwSet : Word) (s : State) : State := registerWrite s a value upper hwSet

/-- PAIR_LO_WRITE: the LO half waits for HI (R6, R582). -/
def doPairLoWrite (a : Access) (value : Word) (s : State) : State := registerWrite s a value 0 0

/-- PAIR_HI_WRITE: the value takes effect, or only the upper half with no LO waiting (R582). -/
def doPairHiWrite (a : Access) (value : Word) (s : State) : State := registerWrite s a value 0 0

/-! ### Reads -/

/-- A register's word after a read: its rc fields are cleared, but keep what hardware counts in the same cycle (R583). -/
def clearedWord (fs : List FieldDesc) (old counted : Word) : Word :=
  fs.foldl (fun w f => if f.access = .rc then withField w f.lo f.width (fieldOf counted f.lo f.width) else w) old

/-- Clear the rc fields of a register that has been read. -/
def clearRc (s : State) (addr idx : Nat) (counted : Word) : State :=
  match regRow addr with
  | some d => if d.fields.any (fun f => f.access = .rc) then setRegAt s addr idx (clearedWord d.fields (regAt s addr idx) counted) else s
  | none => s

/-- The value a target reads as; a register no row names, or that a selector does not reach, reads 0 (R7). -/
def readValue (s : State) (who : Accessor) (t : RegTarget) : Word :=
  match t with
  | .mgmt addr (some idx) => if (regRow addr).isSome then viewMgmt s who addr idx else 0
  | .mgmt _ none => 0
  | .ldSpace ld off =>
    if 0x1000 < off ∧ off ≤ 0x1028 then viewCre s (0x100000000 + off) (ringIdx ld (selectedRing s ld)) (regAt s (0x100000000 + off) (ringIdx ld (selectedRing s ld)))
    else viewLd s ld off
  | .cxl ld off => if off < hdmBase then 0 else BitVec.ofNat 32 (hdmWord (ldState s ld) ((off - hdmBase) / 4))
  | .page ld ring off => viewPage s ld ring off
  | .absent => 0xFFFFFFFF
  | .rejected => 0xFFFFFFFF

/-- Answer a read. -/
def sendValue (s : State) (a : Access) (v : Word) : State := emit s (.regData a.who a.space a.addr.toNat v)

/-- A CXL register outside the HDM decoders' words: the spec leaves its value to CXL 3.1. The CXL.io range 0x8000 to 0x8FFF is
reserved (R590). -/
def cxlOpen (off : Nat) : Bool :=
  !(decide (0x8000 ≤ off) && decide (off < 0x9000)) && (decide (off < hdmBase + 4) || decide (hdmBase + 272 ≤ off))

/-- One dword of the CXL ranges. -/
def readCxl (s : State) (a : Access) (ld : Ld) (off : Nat) : State :=
  if cxlOpen off then sendValue (takeFree s).2 a (takeFree s).1 else sendValue s a (readValue s a.who (.cxl ld off))

/-- A register read: the value, and the rc fields of the register cleared (R8, R583). -/
def registerRead (s : State) (a : Access) (counted : Word) : State :=
  match regTarget s a with
  | .rejected => rejectRead s a
  | .absent => s
  | .mgmt 0xE000034 _ => doCsCmplRead a.who s
  | .mgmt addr (some idx) => clearRc (sendValue s a (readValue s a.who (.mgmt addr (some idx)))) addr idx counted
  | .cxl ld off =>
    let s := readCxl s a ld off
    if a.bytes.val = 8 then readCxl s { a with addr := a.addr + 4 } ld (off + 4) else s
  | t => sendValue s a (readValue s a.who t)

/-- RC_FIELD_READ -/
def doRcFieldRead (a : Access) (counted : Word) (s : State) : State := registerRead s a counted

/-! ### Pair reads (R6, R581, R582) -/

/-- The LO halves of the pairs, as addresses of the register map. -/
def loHalf (addr : Nat) : Bool :=
  [0x8, 0x3000024, 0x300002C, 0x6000018, 0x7000068, 0xC000054, 0xC000064, 0x100000018, 0x10000100C, 0x100001018].contains addr

/-- Where an access's register stands in the register map, and whose latch it uses: an accessor's, or an LD's. -/
def pairPlace (s : State) (a : Access) : Option (Nat × Nat) :=
  match regTarget s a with
  | .mgmt addr (some _) => some (addr, accessorIdx a.who)
  | .ldSpace ld off => some (0x100000000 + off, ld.val)
  | _ => none

/-- A LO half is read: its HI half is latched for the reader. -/
def doPairLoRead (a : Access) (s : State) : State :=
  match pairPlace s a with
  | some (addr, i) =>
    if loHalf addr then
      let hi := readValue s a.who (regTarget s { a with addr := a.addr + 4 })
      registerRead { s with pairLatch := sput none s.pairLatch (regKey addr i) (some hi) } a 0
    else registerRead s a 0
  | none => registerRead s a 0

/-- A HI half is read: the latched half, consumed, or the current one. -/
def doPairHiRead (a : Access) (s : State) : State :=
  match pairPlace s a with
  | some (addr, i) =>
    if 4 ≤ addr ∧ loHalf (addr - 4) then
      match sget none s.pairLatch (regKey (addr - 4) i) with
      | some w => sendValue { s with pairLatch := sput none s.pairLatch (regKey (addr - 4) i) none } a w
      | none => registerRead s a 0
    else registerRead s a 0
  | none => registerRead s a 0

/-! ### The commands -/

/-- A register write (R585). -/
def execRegisterWrite (a : Access) (value upper hwSet : Word) (s : State) : Host.Outcome State Fault Refusal :=
  settlesBuffers s (doRegisterWrite a value upper hwSet s)

/-- A write of a LO half (R582). -/
def execPairLoWrite (a : Access) (value : Word) (s : State) : Host.Outcome State Fault Refusal := completes s (doPairLoWrite a value s)

/-- A write of a HI half (R582). -/
def execPairHiWrite (a : Access) (value : Word) (s : State) : Host.Outcome State Fault Refusal := completes s (doPairHiWrite a value s)

/-- A read of a LO half (R6). -/
def execPairLoRead (a : Access) (s : State) : Host.Outcome State Fault Refusal := finishes s (doPairLoRead a s)

/-- A read of a HI half (R582). -/
def execPairHiRead (a : Access) (s : State) : Host.Outcome State Fault Refusal := finishes s (doPairHiRead a s)

/-- A read of a register with rc fields (R583). -/
def execRcFieldRead (a : Access) (counted : Word) (s : State) : Host.Outcome State Fault Refusal := finishes s (doRcFieldRead a counted s)

end Sys2Proof.Machine
end

