-- ==== Sys2Proof/Machine/Dispatch.lean ====
section
/-! DEFINITION. The dispatch: one arm per command, each a direct call of its meaning. -/

namespace Sys2Proof.Machine

/-- The effect of a command on everything but the queue. -/
def exec (i : Instr) (s : State) : Host.Outcome State Fault Refusal :=
  match i with
  | .registerWrite a value upper hwSet => Sys2Proof.Machine.execRegisterWrite a value upper hwSet s
  | .pairLoWrite a value => Sys2Proof.Machine.execPairLoWrite a value s
  | .pairHiWrite a value => Sys2Proof.Machine.execPairHiWrite a value s
  | .pairLoRead a => Sys2Proof.Machine.execPairLoRead a s
  | .pairHiRead a => Sys2Proof.Machine.execPairHiRead a s
  | .rcFieldRead a counted => Sys2Proof.Machine.execRcFieldRead a counted s
  | .tmgPlotSelect who value => Sys2Proof.Machine.execTmgPlotSelect who value s
  | .pouPlotSelect who value => Sys2Proof.Machine.execPouPlotSelect who value s
  | .ldPlotSelect ld value => Sys2Proof.Machine.execLdPlotSelect ld value s
  | .cxlMemRead ld tag hpa metaVal seen => Sys2Proof.Machine.execCxlMemRead ld tag hpa metaVal seen s
  | .cxlMemWrite ld tag hpa be data poison metaVal seen => Sys2Proof.Machine.execCxlMemWrite ld tag hpa be data poison metaVal seen s
  | .completionDelayExpiry forwarded id => Sys2Proof.Machine.execCompletionDelayExpiry forwarded id s
  | .mergeOldLineReturn line => Sys2Proof.Machine.execMergeOldLineReturn line s
  | .gpfPhase1 port => Sys2Proof.Machine.execGpfPhase1 port s
  | .gpfPhase2 port => Sys2Proof.Machine.execGpfPhase2 port s
  | .gpfPhase2Response => Sys2Proof.Machine.execGpfPhase2Response s
  | .birsp ld line wb => Sys2Proof.Machine.execBirsp ld line wb s
  | .bisnpTimeout id => Sys2Proof.Machine.execBisnpTimeout id s
  | .biconflict ld line => Sys2Proof.Machine.execBiconflict ld line s
  | .loamFillReturn line decode job => Sys2Proof.Machine.execLoamFillReturn line decode job s
  | .victimWriteDone line job => Sys2Proof.Machine.execVictimWriteDone line job s
  | .victimHoldExpiry line => Sys2Proof.Machine.execVictimHoldExpiry line s
  | .zeroALine engine line => Sys2Proof.Machine.execZeroALine engine line s
  | .flushLine engine line seen => Sys2Proof.Machine.execFlushLine engine line seen s
  | .flushClod clod => Sys2Proof.Machine.execFlushClod clod s
  | .invalidateLine engine line => Sys2Proof.Machine.execInvalidateLine engine line s
  | .plotTagWalkDone plot => Sys2Proof.Machine.execPlotTagWalkDone plot s
  | .mapCacheFill clod crcBad => Sys2Proof.Machine.execMapCacheFill clod crcBad s
  | .overlayRecordFill overlay crcBad => Sys2Proof.Machine.execOverlayRecordFill overlay crcBad s
  | .engineAssignment engine epoch => Sys2Proof.Machine.execEngineAssignment engine epoch s
  | .perstAssert port => Sys2Proof.Machine.execPerstAssert port s
  | .perstRelease port => Sys2Proof.Machine.execPerstRelease port s
  | .linkUp port trained => Sys2Proof.Machine.execLinkUp port trained s
  | .flitCrcFail port again fecCorrected => Sys2Proof.Machine.execFlitCrcFail port again fecCorrected s
  | .linkRecoveryDone port => Sys2Proof.Machine.execLinkRecoveryDone port s
  | .linkDown port => Sys2Proof.Machine.execLinkDown port s
  | .ldReset ld byFm => Sys2Proof.Machine.execLdReset ld byFm s
  | .ideKeyProg port slot key iv => Sys2Proof.Machine.execIdeKeyProg port slot key iv s
  | .ideKeySetGo port skid => Sys2Proof.Machine.execIdeKeySetGo port skid s
  | .ideMacFail port => Sys2Proof.Machine.execIdeMacFail port s
  | .viralReceived ld => Sys2Proof.Machine.execViralReceived ld s
  | .cdatRead ld => Sys2Proof.Machine.execCdatRead ld s
  | .getEventRecords ld log => Sys2Proof.Machine.execGetEventRecords ld log s
  | .clearEventRecords ld log count => Sys2Proof.Machine.execClearEventRecords ld log count s
  | .getEventInterruptPolicy ld => Sys2Proof.Machine.execGetEventInterruptPolicy ld s
  | .setEventInterruptPolicy ld modes => Sys2Proof.Machine.execSetEventInterruptPolicy ld modes s
  | .getSupportedLogs ld => Sys2Proof.Machine.execGetSupportedLogs ld s
  | .getLog ld => Sys2Proof.Machine.execGetLog ld s
  | .getTimestamp ld => Sys2Proof.Machine.execGetTimestamp ld s
  | .setTimestamp ld time => Sys2Proof.Machine.execSetTimestamp ld time s
  | .identifyMemoryDevice ld => Sys2Proof.Machine.execIdentifyMemoryDevice ld s
  | .getHealthInfo ld => Sys2Proof.Machine.execGetHealthInfo ld s
  | .getAlertConfiguration ld => Sys2Proof.Machine.execGetAlertConfiguration ld s
  | .setAlertConfiguration ld warn crit => Sys2Proof.Machine.execSetAlertConfiguration ld warn crit s
  | .getPoisonList ld start length => Sys2Proof.Machine.execGetPoisonList ld start length s
  | .injectPoison ld dpa => Sys2Proof.Machine.execInjectPoison ld dpa s
  | .clearPoison ld dpa data => Sys2Proof.Machine.execClearPoison ld dpa data s
  | .getDcConfiguration ld => Sys2Proof.Machine.execGetDcConfiguration ld s
  | .getDcExtentList ld => Sys2Proof.Machine.execGetDcExtentList ld s
  | .addDcResponse ld plot generation accept => Sys2Proof.Machine.execAddDcResponse ld plot generation accept s
  | .releaseDc ld plot generation => Sys2Proof.Machine.execReleaseDc ld plot generation s
  | .mailboxUnsupported ld opcode => Sys2Proof.Machine.execMailboxUnsupported ld opcode s
  | .mctpPacket p => Sys2Proof.Machine.execMctpPacket p s
  | .setEndpointId eid => Sys2Proof.Machine.execSetEndpointId eid s
  | .pldmBase cmd => Sys2Proof.Machine.execPldmBase cmd s
  | .pldmPlatform cmd sensor => Sys2Proof.Machine.execPldmPlatform cmd sensor s
  | .pldmFru cmd => Sys2Proof.Machine.execPldmFru cmd s
  | .pldmFirmwareUpdate u => Sys2Proof.Machine.execPldmFirmwareUpdate u s
  | .spdmGetVersion => Sys2Proof.Machine.execSpdmGetVersion s
  | .spdmGetCapabilities => Sys2Proof.Machine.execSpdmGetCapabilities s
  | .spdmNegotiateAlgorithms offersAll => Sys2Proof.Machine.execSpdmNegotiateAlgorithms offersAll s
  | .spdmGetDigests => Sys2Proof.Machine.execSpdmGetDigests s
  | .spdmGetCertificate offset length => Sys2Proof.Machine.execSpdmGetCertificate offset length s
  | .spdmChallenge nonce => Sys2Proof.Machine.execSpdmChallenge nonce s
  | .spdmGetMeasurements index signed nonce => Sys2Proof.Machine.execSpdmGetMeasurements index signed nonce s
  | .spdmKeyExchange path mutualAuth => Sys2Proof.Machine.execSpdmKeyExchange path mutualAuth s
  | .spdmFinish session ok => Sys2Proof.Machine.execSpdmFinish session ok s
  | .spdmKeyUpdate session link fromOrdered fromOther => Sys2Proof.Machine.execSpdmKeyUpdate session link fromOrdered fromOther s
  | .spdmHeartbeat session => Sys2Proof.Machine.execSpdmHeartbeat session s
  | .spdmEndSession session => Sys2Proof.Machine.execSpdmEndSession session s
  | .fmDcAdd a => Sys2Proof.Machine.execFmDcAdd a s
  | .ringSetupWrite ld ring reg value => Sys2Proof.Machine.execRingSetupWrite ld ring reg value s
  | .ringEnable ld ring value => Sys2Proof.Machine.execRingEnable ld ring value s
  | .ringEnableCheck ld ring => Sys2Proof.Machine.execRingEnableCheck ld ring s
  | .ringReset ld ring => Sys2Proof.Machine.execRingReset ld ring s
  | .ringWeightSet ld ring value => Sys2Proof.Machine.execRingWeightSet ld ring value s
  | .sqTailDoorbell ld ring value => Sys2Proof.Machine.execSqTailDoorbell ld ring value s
  | .cqHeadDoorbell ld ring value => Sys2Proof.Machine.execCqHeadDoorbell ld ring value s
  | .descriptorFetch => Sys2Proof.Machine.execDescriptorFetch s
  | .sqReadReturn ld ring result => Sys2Proof.Machine.execSqReadReturn ld ring result s
  | .opNop ld ring => Sys2Proof.Machine.execOpNop ld ring s
  | .copyIn ld ring => Sys2Proof.Machine.execCopyIn ld ring s
  | .copyOut ld ring => Sys2Proof.Machine.execCopyOut ld ring s
  | .zeroRange ld ring => Sys2Proof.Machine.execZeroRange ld ring s
  | .persistBarrier ld ring => Sys2Proof.Machine.execPersistBarrier ld ring s
  | .liftHint ld ring => Sys2Proof.Machine.execLiftHint ld ring s
  | .settleHint ld ring => Sys2Proof.Machine.execSettleHint ld ring s
  | .pin ld ring => Sys2Proof.Machine.execPin ld ring s
  | .unpin ld ring => Sys2Proof.Machine.execUnpin ld ring s
  | .plotAdmit ld ring => Sys2Proof.Machine.execPlotAdmit ld ring s
  | .plotRelease ld ring => Sys2Proof.Machine.execPlotRelease ld ring s
  | .plotSeal ld ring => Sys2Proof.Machine.execPlotSeal ld ring s
  | .cryptoErase ld ring => Sys2Proof.Machine.execCryptoErase ld ring s
  | .digestRange ld ring => Sys2Proof.Machine.execDigestRange ld ring s
  | .badOpcode ld ring => Sys2Proof.Machine.execBadOpcode ld ring s
  | .hostReadCompletion ld ring op data => Sys2Proof.Machine.execHostReadCompletion ld ring op data s
  | .ringOperationDone ld ring op => Sys2Proof.Machine.execRingOperationDone ld ring op s
  | .coalesceTimerExpiry ld ring => Sys2Proof.Machine.execCoalesceTimerExpiry ld ring s
  | .queuePointerMismatch queue => Sys2Proof.Machine.execQueuePointerMismatch queue s
  | .admissionEngineJob => Sys2Proof.Machine.execAdmissionEngineJob s
  | .admissionZeroingDone plot => Sys2Proof.Machine.execAdmissionZeroingDone plot s
  | .releaseCleanupDone plot => Sys2Proof.Machine.execReleaseCleanupDone plot s
  | .sealComplete plot => Sys2Proof.Machine.execSealComplete plot s
  | .aclWrite who value => Sys2Proof.Machine.execAclWrite who value s
  | .aclDrainDone who twinDrain => Sys2Proof.Machine.execAclDrainDone who twinDrain s
  | .cryptoEraseDone plot => Sys2Proof.Machine.execCryptoEraseDone plot s
  | .bpCfgWrite who value => Sys2Proof.Machine.execBpCfgWrite who value s
  | .budgetCfgWrite who value => Sys2Proof.Machine.execBudgetCfgWrite who value s
  | .effectiveBudgetUpdate => Sys2Proof.Machine.execEffectiveBudgetUpdate s
  | .lmcCommandIssue sub => Sys2Proof.Machine.execLmcCommandIssue sub s
  | .actWindowEnd => Sys2Proof.Machine.execActWindowEnd s
  | .alertBackoff sub bank rfms => Sys2Proof.Machine.execAlertBackoff sub bank rfms s
  | .writeCrcAlert sub id => Sys2Proof.Machine.execWriteCrcAlert sub id s
  | .refreshDue sub bank => Sys2Proof.Machine.execRefreshDue sub bank s
  | .thermalPoll channel dimm0 dimm1 => Sys2Proof.Machine.execThermalPoll channel dimm0 dimm1 s
  | .rowIdleClose sub bank => Sys2Proof.Machine.execRowIdleClose sub bank s
  | .zqCalDue channel => Sys2Proof.Machine.execZqCalDue channel s
  | .oscReadDue channel drift => Sys2Proof.Machine.execOscReadDue channel drift s
  | .centeringCheckDue channel => Sys2Proof.Machine.execCenteringCheckDue channel s
  | .retrainSegmentEnd channel last => Sys2Proof.Machine.execRetrainSegmentEnd channel last s
  | .caParityError channel affected => Sys2Proof.Machine.execCaParityError channel affected s
  | .speedChange who value => Sys2Proof.Machine.execSpeedChange who value s
  | .speedChangeStepDone failed => Sys2Proof.Machine.execSpeedChangeStepDone failed s
  | .trainingStepAbort channel => Sys2Proof.Machine.execTrainingStepAbort channel s
  | .selfRefreshIdle channel => Sys2Proof.Machine.execSelfRefreshIdle channel s
  | .loamTrainingDone results population populationOk unrepaired => Sys2Proof.Machine.execLoamTrainingDone results population populationOk unrepaired s
  | .spprDone channel ok => Sys2Proof.Machine.execSpprDone channel ok s
  | .nandZqRecal channel => Sys2Proof.Machine.execNandZqRecal channel s
  | .channelLost channel => Sys2Proof.Machine.execChannelLost channel s
  | .bfcSequencerIssue die => Sys2Proof.Machine.execBfcSequencerIssue die s
  | .grainReadComplete id outcome bits quarterUs rebuiltOk => Sys2Proof.Machine.execGrainReadComplete id outcome bits quarterUs rebuiltOk s
  | .hedgeTimer id => Sys2Proof.Machine.execHedgeTimer id s
  | .bedMedianRecompute => Sys2Proof.Machine.execBedMedianRecompute s
  | .quarantineEntry die => Sys2Proof.Machine.execQuarantineEntry die s
  | .quarantineExit die => Sys2Proof.Machine.execQuarantineExit die s
  | .probeReadTimer die => Sys2Proof.Machine.execProbeReadTimer die s
  | .dieBusyTimeout die => Sys2Proof.Machine.execDieBusyTimeout die s
  | .ladderTimer id => Sys2Proof.Machine.execLadderTimer id s
  | .clodFetchTimeout tag => Sys2Proof.Machine.execClodFetchTimeout tag s
  | .programUnitDone unit failed job => Sys2Proof.Machine.execProgramUnitDone unit failed job s
  | .staleStratumErase bed stratum => Sys2Proof.Machine.execStaleStratumErase bed stratum s
  | .eraseDone bed stratum failed => Sys2Proof.Machine.execEraseDone bed stratum failed s
  | .retentionScan bed stratum row bits => Sys2Proof.Machine.execRetentionScan bed stratum row bits s
  | .heatDecay => Sys2Proof.Machine.execHeatDecay s
  | .liftCommit clod => Sys2Proof.Machine.execLiftCommit clod s
  | .liftHoldExpiry clod => Sys2Proof.Machine.execLiftHoldExpiry clod s
  | .evictionStart => Sys2Proof.Machine.execEvictionStart s
  | .frameRelease frame => Sys2Proof.Machine.execFrameRelease frame s
  | .settleGrant => Sys2Proof.Machine.execSettleGrant s
  | .unitFillTimeout unit => Sys2Proof.Machine.execUnitFillTimeout unit s
  | .settleAgeTrigger clod => Sys2Proof.Machine.execSettleAgeTrigger clod s
  | .governorMinute => Sys2Proof.Machine.execGovernorMinute s
  | .twinPortDown port => Sys2Proof.Machine.execTwinPortDown port s
  | .twinPortUp port => Sys2Proof.Machine.execTwinPortUp port s
  | .twinLinkSilence => Sys2Proof.Machine.execTwinLinkSilence s
  | .mirror f plot seq records => Sys2Proof.Machine.execMirror f plot seq records s
  | .mirrorAck f ackCtr => Sys2Proof.Machine.execMirrorAck f ackCtr s
  | .mirrorAckTimer => Sys2Proof.Machine.execMirrorAckTimer s
  | .durableNotice f plot seq => Sys2Proof.Machine.execDurableNotice f plot seq s
  | .fwdWrite f mid tag line data be poison metaVal => Sys2Proof.Machine.execFwdWrite f mid tag line data be poison metaVal s
  | .fwdRead f seq mid tag line metaVal => Sys2Proof.Machine.execFwdRead f seq mid tag line metaVal s
  | .readData f mid tag poison data denied => Sys2Proof.Machine.execReadData f mid tag poison data denied s
  | .fwdRefuse f mid tag => Sys2Proof.Machine.execFwdRefuse f mid tag s
  | .lease f marks => Sys2Proof.Machine.execLease f marks s
  | .leaseAck f ackCtr => Sys2Proof.Machine.execLeaseAck f ackCtr s
  | .leaseSendTimer => Sys2Proof.Machine.execLeaseSendTimer s
  | .leaseLapse => Sys2Proof.Machine.execLeaseLapse s
  | .twinSilenceTimeout => Sys2Proof.Machine.execTwinSilenceTimeout s
  | .gapTimeout => Sys2Proof.Machine.execGapTimeout s
  | .nack f nackCtr => Sys2Proof.Machine.execNack f nackCtr s
  | .digestTimer => Sys2Proof.Machine.execDigestTimer s
  | .digestMarker f period digests => Sys2Proof.Machine.execDigestMarker f period digests s
  | .digestReply f period reply => Sys2Proof.Machine.execDigestReply f period reply s
  | .digestCheckDone group ownPassed => Sys2Proof.Machine.execDigestCheckDone group ownPassed s
  | .snoopReq f tag line inv ahead => Sys2Proof.Machine.execSnoopReq f tag line inv ahead s
  | .snoopRsp f tag => Sys2Proof.Machine.execSnoopRsp f tag s
  | .clodFetch f tag clod seq => Sys2Proof.Machine.execClodFetch f tag clod seq s
  | .clodData f tag clod half lines => Sys2Proof.Machine.execClodData f tag clod half lines s
  | .resyncClod f clod half lines => Sys2Proof.Machine.execResyncClod f clod half lines s
  | .sampleTimer line => Sys2Proof.Machine.execSampleTimer line s
  | .sampleReq f tag line plot seq => Sys2Proof.Machine.execSampleReq f tag line plot seq s
  | .sampleRsp f tag crc => Sys2Proof.Machine.execSampleRsp f tag crc s
  | .healthTimer => Sys2Proof.Machine.execHealthTimer s
  | .health f report => Sys2Proof.Machine.execHealth f report s
  | .healthMissing => Sys2Proof.Machine.execHealthMissing s
  | .admin f op => Sys2Proof.Machine.execAdmin f op s
  | .roleChange f newEpoch group plots => Sys2Proof.Machine.execRoleChange f newEpoch group plots s
  | .roleChangeRetry => Sys2Proof.Machine.execRoleChangeRetry s
  | .fenceDemand f => Sys2Proof.Machine.execFenceDemand f s
  | .fenceNotice f => Sys2Proof.Machine.execFenceNotice f s
  | .staleEpoch f twinEpoch ctr ftype => Sys2Proof.Machine.execStaleEpoch f twinEpoch ctr ftype s
  | .staleResendTimer => Sys2Proof.Machine.execStaleResendTimer s
  | .hello f h => Sys2Proof.Machine.execHello f h s
  | .time f deviceTime => Sys2Proof.Machine.execTime f deviceTime s
  | .fenceInRise => Sys2Proof.Machine.execFenceInRise s
  | .aliveInChange level => Sys2Proof.Machine.execAliveInChange level s
  | .aliveReadbackFault => Sys2Proof.Machine.execAliveReadbackFault s
  | .fenceHandshakeTimeout => Sys2Proof.Machine.execFenceHandshakeTimeout s
  | .resyncCopy => Sys2Proof.Machine.execResyncCopy s
  | .takebackTimer => Sys2Proof.Machine.execTakebackTimer s
  | .takebackGroup => Sys2Proof.Machine.execTakebackGroup s
  | .selftestSliceStart engine => Sys2Proof.Machine.execSelftestSliceStart engine s
  | .selftestSliceDone engine failed => Sys2Proof.Machine.execSelftestSliceDone engine failed s
  | .chRead port check f => Sys2Proof.Machine.execChRead port check f s
  | .chWrite port check f => Sys2Proof.Machine.execChWrite port check f s
  | .chData port check f => Sys2Proof.Machine.execChData port check f s
  | .chCmpl port check f => Sys2Proof.Machine.execChCmpl port check f s
  | .chRefuse port check f => Sys2Proof.Machine.execChRefuse port check f s
  | .chSnoopReq port check f => Sys2Proof.Machine.execChSnoopReq port check f s
  | .chSnoopRsp port check f => Sys2Proof.Machine.execChSnoopRsp port check f s
  | .chAbort port check f => Sys2Proof.Machine.execChAbort port check f s
  | .chUnreach port check f => Sys2Proof.Machine.execChUnreach port check f s
  | .chStale port check f => Sys2Proof.Machine.execChStale port check f s
  | .chHello port check f => Sys2Proof.Machine.execChHello port check f s
  | .chHelloTimer => Sys2Proof.Machine.execChHelloTimer s
  | .chainForward port check f => Sys2Proof.Machine.execChainForward port check f s
  | .chainResponseTimeout tag => Sys2Proof.Machine.execChainResponseTimeout tag s
  | .chainSnoopTimeout id => Sys2Proof.Machine.execChainSnoopTimeout id s
  | .windowCommit who value => Sys2Proof.Machine.execWindowCommit who value s
  | .chainCfgWrite who value => Sys2Proof.Machine.execChainCfgWrite who value s
  | .ceScrubWriteback engine => Sys2Proof.Machine.execCeScrubWriteback engine s
  | .patrolScrubRead engine decode => Sys2Proof.Machine.execPatrolScrubRead engine decode s
  | .ceLogExpiry entry => Sys2Proof.Machine.execCeLogExpiry entry s
  | .ceSecondTimer => Sys2Proof.Machine.execCeSecondTimer s
  | .keywinLoad who value => Sys2Proof.Machine.execKeywinLoad who value s
  | .keywinClear who value => Sys2Proof.Machine.execKeywinClear who value s
  | .gcmRoleWrite who value => Sys2Proof.Machine.execGcmRoleWrite who value s
  | .linkRekeyTimer link => Sys2Proof.Machine.execLinkRekeyTimer link s
  | .oldKeyRetire link => Sys2Proof.Machine.execOldKeyRetire link s
  | .bufferGet bytes owners => Sys2Proof.Machine.execBufferGet bytes owners s
  | .bufferShare handle owner adds recordBad => Sys2Proof.Machine.execBufferShare handle owner adds recordBad s
  | .bufferPut handle owner recordBad => Sys2Proof.Machine.execBufferPut handle owner recordBad s
  | .bufferLineAccess handle owner line access => Sys2Proof.Machine.execBufferLineAccess handle owner line access s
  | .poolRefill pool mismatch => Sys2Proof.Machine.execPoolRefill pool mismatch s
  | .poolRebuildDone pool => Sys2Proof.Machine.execPoolRebuildDone pool s
  | .pwrReqChange high v12Good => Sys2Proof.Machine.execPwrReqChange high v12Good s
  | .offRequest who => Sys2Proof.Machine.execOffRequest who s
  | .cycleRequest who => Sys2Proof.Machine.execCycleRequest who s
  | .railStepPass boot => Sys2Proof.Machine.execRailStepPass boot s
  | .pgTimeout => Sys2Proof.Machine.execPgTimeout s
  | .railFallStep => Sys2Proof.Machine.execRailFallStep s
  | .offTimeout => Sys2Proof.Machine.execOffTimeout s
  | .offHoldEnd => Sys2Proof.Machine.execOffHoldEnd s
  | .resetStretchExpiry output => Sys2Proof.Machine.execResetStretchExpiry output s
  | .resetSwAssert who value => Sys2Proof.Machine.execResetSwAssert who value s
  | .senseSample values pg => Sys2Proof.Machine.execSenseSample values pg s
  | .kilnFlushEnd => Sys2Proof.Machine.execKilnFlushEnd s
  | .capTestStart => Sys2Proof.Machine.execCapTestStart s
  | .capTestEnd charge vEnd => Sys2Proof.Machine.execCapTestEnd charge vEnd s
  | .budgetPublish => Sys2Proof.Machine.execBudgetPublish s
  | .kilnArm who => Sys2Proof.Machine.execKilnArm who s
  | .kilnDisarm who => Sys2Proof.Machine.execKilnDisarm who s
  | .flushNow who => Sys2Proof.Machine.execFlushNow who s
  | .snapshotClear who => Sys2Proof.Machine.execSnapshotClear who s
  | .aonPowerOnReset => Sys2Proof.Machine.execAonPowerOnReset s
  | .aonResetRelease => Sys2Proof.Machine.execAonResetRelease s
  | .refclkBLoss lost => Sys2Proof.Machine.execRefclkBLoss lost s
  | .refclkALoss => Sys2Proof.Machine.execRefclkALoss s
  | .ddrPllUnlock channel => Sys2Proof.Machine.execDdrPllUnlock channel s
  | .serdesPllUnlock pll => Sys2Proof.Machine.execSerdesPllUnlock pll s
  | .lockstepMismatch boot => Sys2Proof.Machine.execLockstepMismatch boot s
  | .coreAccessFault core addr cause => Sys2Proof.Machine.execCoreAccessFault core addr cause s
  | .csDescOpen who value => Sys2Proof.Machine.execCsDescOpen who value s
  | .csDescCommit who value => Sys2Proof.Machine.execCsDescCommit who value s
  | .csErase sectors => Sys2Proof.Machine.execCsErase sectors s
  | .csProgram data => Sys2Proof.Machine.execCsProgram data s
  | .csOpStart => Sys2Proof.Machine.execCsOpStart s
  | .csOpDone failed => Sys2Proof.Machine.execCsOpDone failed s
  | .csCmplRead who => Sys2Proof.Machine.execCsCmplRead who s
  | .csFlush who value => Sys2Proof.Machine.execCsFlush who value s
  | .bootOk who => Sys2Proof.Machine.execBootOk who s
  | .wdtKick who value => Sys2Proof.Machine.execWdtKick who value s
  | .wdtWarning => Sys2Proof.Machine.execWdtWarning s
  | .wdtExpiry boot => Sys2Proof.Machine.execWdtExpiry boot s
  | .mgmtReset who boot => Sys2Proof.Machine.execMgmtReset who boot s
  | .jtagFuseClose vppHigh => Sys2Proof.Machine.execJtagFuseClose vppHigh s
  | .smbusBlockRead => Sys2Proof.Machine.execSmbusBlockRead s
  | .i3cAddressAssign address => Sys2Proof.Machine.execI3cAddressAssign address s
  | .eventRaise source kind severity mid detail => Sys2Proof.Machine.execEventRaise source kind severity mid detail s
  | .drainTimer overtaken => Sys2Proof.Machine.execDrainTimer overtaken s
  | .segmentHandoff => Sys2Proof.Machine.execSegmentHandoff s
  | .historyFetch who seq => Sys2Proof.Machine.execHistoryFetch who seq s
  | .historyFetchDone poisoned => Sys2Proof.Machine.execHistoryFetchDone poisoned s
  | .crashReady who value => Sys2Proof.Machine.execCrashReady who value s
  | .crashFlushEnd cut => Sys2Proof.Machine.execCrashFlushEnd cut s
  | .importCommit who => Sys2Proof.Machine.execImportCommit who s
  | .msixTrigger who value => Sys2Proof.Machine.execMsixTrigger who value s
  | .msixUnmask ld vector => Sys2Proof.Machine.execMsixUnmask ld vector s
  | .srcCfgWrite who value => Sys2Proof.Machine.execSrcCfgWrite who value s
  | .translationRecoveryDone readable stateBad unplaced => Sys2Proof.Machine.execTranslationRecoveryDone readable stateBad unplaced s
  | .restoreDone lost => Sys2Proof.Machine.execRestoreDone lost s
  | .restoreSettleDone => Sys2Proof.Machine.execRestoreSettleDone s
  | .kilnEraseDone => Sys2Proof.Machine.execKilnEraseDone s
  | .journalUnitTimeout => Sys2Proof.Machine.execJournalUnitTimeout s
  | .checkpointWrite => Sys2Proof.Machine.execCheckpointWrite s
  | .helloWaitTimeout => Sys2Proof.Machine.execHelloWaitTimeout s
  | .pairWaitTimeout => Sys2Proof.Machine.execPairWaitTimeout s
  | .forceSolo who => Sys2Proof.Machine.execForceSolo who s
  | .orderlyShutdown => Sys2Proof.Machine.execOrderlyShutdown s
  | .shutdownDirtyZero => Sys2Proof.Machine.execShutdownDirtyZero s
  | .warmResetRequest who => Sys2Proof.Machine.execWarmResetRequest who s
  | .warmResetDirtyZero => Sys2Proof.Machine.execWarmResetDirtyZero s
  | .fenceInFall => Sys2Proof.Machine.execFenceInFall s
  | .fenceLineFault => Sys2Proof.Machine.execFenceLineFault s
  | .chainPortDown port cut => Sys2Proof.Machine.execChainPortDown port cut s
  | .chainPortUp port => Sys2Proof.Machine.execChainPortUp port s
  | .bedrockTrainingDone channels page populationOk factoryBad => Sys2Proof.Machine.execBedrockTrainingDone channels page populationOk factoryBad s
  | .refclkAReturn => Sys2Proof.Machine.execRefclkAReturn s
  | .serdesPllRelock pll => Sys2Proof.Machine.execSerdesPllRelock pll s
  | .trainingStepDone channel => Sys2Proof.Machine.execTrainingStepDone channel s
  | .warmResetRelease boot => Sys2Proof.Machine.execWarmResetRelease boot s

end Sys2Proof.Machine
end

