-- ==== Sys2Proof/Machine/Step.lean ====
section
/-! DEFINITION. One step: the command at the front of the queue, or device time going on while nothing waits. -/

namespace Sys2Proof.Machine

/-- One step of the block: take the front command and run it; with nothing waiting, idle. -/
def step (s : State) : Host.Outcome State Fault Refusal :=
  match s.pending with
  | [] => idles s
  | c :: rest => exec c { s with pending := rest }

/-- The state with a word's command in front of its queue; a word that spells none changes nothing. -/
def State.withFetchWord (s : State) (nbits w : Nat) : State :=
  match decodeTableWord nbits w with
  | some c => { s with pending := c :: s.pending }
  | none => s

end Sys2Proof.Machine
end

