-- ==== Sys2Proof/WellFormed.lean ====
section
/-! DEFINITION. Which terms of Instr are commands that can be sent: what the types of the operands leave open. -/

namespace Sys2Proof

/-- An access comes from who can make it: a host reaches an LD space as its own LD, within the BAR (R590, R593). -/
def accessWf (a : Access) : Bool :=
  match a.space, a.who with
  | .mgmt, _ => true
  | .bar0 ld, .mid m => decide (m.val = ld.val) && decide (a.addr.toNat < 65536)
  | .bar2 ld, .mid m => decide (m.val = ld.val) && decide (a.addr.toNat < 1048576)
  | _, .jtag => false

/-- A clod's image: lines of the clod in rising order from `lo` to below `hi`, none of them a good zero line. -/
def imageWf (lo hi : Nat) : ClodImage → Bool
  | [] => true
  | (i, v) :: t => decide (lo ≤ i) && decide (i < hi) && decide (v ≠ { data := 0, poison := false }) && imageWf (i + 1) hi t

/-- One half of a clod's image (R374). -/
def halfWf (half : Fin 2) (lines : ClodImage) : Bool := imageWf (512 * half.val) (512 * half.val + 512) lines

/-- An owner name: the block codes 1 to 7 (R466). -/
def ownerWf (o : Owner) : Bool := decide (1 ≤ o.block.val) && decide (o.block.val ≤ 7)


/-- Opcodes of the mailbox commands R77 lists. PRESUMED: their numbers are those of CXL 3.1. -/
def supportedOpcodes : List Nat := [
  0x0100, 0x0101, 0x0102, 0x0103, 0x0300, 0x0301, 0x0400, 0x0401, 0x4000, 0x4200, 0x4201, 0x4202,
  0x4300, 0x4301, 0x4302, 0x4800, 0x4801, 0x4802, 0x4803]

/-- Does a chain frame carry the payload of its row (R390)? -/
def bodyIs (f : ChainFrame) (p : ChainBody → Bool) : Bool := p f.body

/-- The well-formed commands. -/
def Instr.wf (i : Instr) : Bool :=
  match i with
  | .registerWrite a _ _ _ | .pairLoWrite a _ | .pairHiWrite a _ | .pairLoRead a | .pairHiRead a | .rcFieldRead a _ => accessWf a
  | .ideKeyProg _ _ key iv => key.length = 8 && iv.length = 3
  | .setEventInterruptPolicy _ modes => modes.length = 4 || modes.length = 5
  | .mailboxUnsupported _ opcode => !supportedOpcodes.contains opcode.val
  | .sqReadReturn _ _ (some ls) => decide (1 ≤ ls.length) && decide (ls.length ≤ 8)
  | .loamTrainingDone results _ _ _ => results.length = 16
  | .bedrockTrainingDone channels _ _ _ => channels.length = 96
  | .retentionScan _ _ _ bits => bits.length = 24
  | .mirror _ _ _ records => decide (1 ≤ records.length) && decide (records.length ≤ 128)
  | .digestMarker _ _ digests => digests.length = 64
  | .digestReply _ _ (.values digests) => digests.length = 64
  | .clodData _ _ _ half (some lines) => halfWf half lines
  | .resyncClod _ _ half lines => halfWf half lines
  | .chRead _ _ f => bodyIs f fun | .read .. => true | _ => false
  | .chWrite _ _ f => bodyIs f fun | .write .. => true | _ => false
  | .chData _ _ f => bodyIs f fun | .data _ => true | _ => false
  | .chCmpl _ _ f => bodyIs f fun | .cmpl => true | _ => false
  | .chRefuse _ _ f => bodyIs f fun | .refuse => true | _ => false
  | .chSnoopReq _ _ f => bodyIs f fun | .snoopReq .. => true | _ => false
  | .chSnoopRsp _ _ f => bodyIs f fun | .snoopRsp _ => true | _ => false
  | .chAbort _ _ f => bodyIs f fun | .abort => true | _ => false
  | .chUnreach _ _ f => bodyIs f fun | .unreach => true | _ => false
  | .chStale _ _ f => bodyIs f fun | .stale .. => true | _ => false
  | .chHello _ _ f => bodyIs f fun | .hello .. => true | _ => false
  | .senseSample values _ => values.length = 24
  | .csErase sectors => decide (1 ≤ sectors) && decide (sectors ≤ 8192)
  | .csProgram data => decide (1 ≤ data.length) && decide (data.length ≤ 1024)
  | .bufferGet _ owners => !owners.isEmpty && owners.all ownerWf
  | .bufferShare _ owner adds _ => ownerWf owner && ownerWf adds
  | .bufferPut _ owner _ | .bufferLineAccess _ owner _ _ => ownerWf owner
  | .eventRaise source _ _ _ detail => decide (source.val < 1536) && decide (detail.length ≤ 125)
  | _ => true

end Sys2Proof
end

