-- ==== Sys2Proof/Safety.lean ====
section
/-! DEFINITION. What the statements speak of: the state a command answers, the states in which nothing can go on by itself, and
the invariants that a safe run keeps. -/

namespace Sys2Proof.Machine

/-! ### The state a command answers -/

/-- A command's effect `t` as its answer: the queue and device time are those the command found. -/
def ended (s t : State) : State := { t with pending := s.pending, devTime := s.devTime }

/-- The same for a command that takes and frees no buffer. -/
def finished (s t : State) : State := { t with pending := s.pending, devTime := s.devTime, bpm := s.bpm }

/-- A command's effect `t`, and everything that follows from it at once; the pools are as the command found them, but for what the
hardware engines take and free. -/
def settled (s t : State) : State := ended s (stageBuffers { settleAll t with bpm := s.bpm })

/-- The same for a command that takes or frees buffers: the pools are as its own effect left them, and requests that wait have asked
again. -/
def settledPools (s t : State) : State :=
  let t := if flushing t then t else askBuffers t
  ended s (stageBuffers { settleAll t with bpm := t.bpm })

/-- The same for what moves device time itself: the idle tick and the twin's HELLO (R20, R21). -/
def settledTimed (s t : State) : State := { stageBuffers { settleAll t with bpm := s.bpm } with pending := s.pending }

/-- A ring's next operation has left the fetch queue and runs. -/
def opStarted (s : State) (ld : Ld) (ring : RingNo) (o : RingOp) : State :=
  updOp { s with cre.fetchQ := queuePop fetchBank s.cre.fetchQ 1 } ld ring o.num fun o => { o with stage := .running }

/-! ### Quiet states -/

/-- No request, frame or operation is under way that could go on without another command. -/
structure Quiet (s : State) : Prop where
  writes : s.pou.writes = []
  reads : s.pou.reads = []
  fwdWrites : s.pou.fwdWrites = []
  withheld : s.pou.withheld = []
  installs : s.fcd.installs = []
  maint : s.fcd.maint = []
  dirNext : s.fcd.dirNext = []
  snoops : ∀ x ∈ s.fcd.snoops, x.mac = 0 ∧ x.answer = none
  waiting : s.chain.waiting = []
  conflicts : s.fcd.conflicts = []
  fatal : s.fcd.fatal = none
  density : s.tmg.density = []
  grainReads : s.bfc.reads = []
  fetched : s.tmg.fetched = []
  liftWaits : s.tmg.liftWaits = []
  pinWaits : s.tmg.pinWaits = []
  liftHints : s.tmg.liftHints = []
  slices : s.twin.slices = []
  seals : ∀ e ∈ s.plots.plots, e.2.sealing = false
  rings : ∀ e ∈ s.cre.rings, ∀ o ∈ e.2.ops, o.stage ≠ .running
  reorder : s.twin.reorder = []
  disputes : s.twin.disputes = []
  resend : s.twin.resend = []
  fetchWaits : s.twin.fetchWaits = []
  copyReads : s.twin.copyReads = []
  sampleWaits : s.twin.sampleWaits = []
  snoopWaits : s.twin.snoopWaits = []
  chainSnoops : s.chain.snoopWaits = []
  resync : s.twin.resync = none
  takeback : s.twin.takeback = none
  stopSince : s.pou.stopSince = none
  running : bpStage s ≠ 3
  override : flag s Reg.POU_BP_STS.override = false

/-! ### The register table -/

/-- Registers stand at strictly rising keys, each with a value that is not its reset value: equal registers are equal data. -/
def regsWf (t : Sparse Word) : Prop :=
  t.Pairwise (fun a b => a.1 < b.1) ∧ ∀ e ∈ t, e.2 ≠ resetAt (e.1 / 1048576) (e.1 % 1048576)

/-! ### The buffer pools (R461 to R469) -/

/-- The indices in a ring's runs, head first. -/
def ringIndices : List (Nat × Nat) → List Nat
  | [] => []
  | (i, k) :: t => (List.range k).map (i + ·) ++ ringIndices t

/-- The buffers a pool can still issue: its handle cache, then its free ring. -/
def issuable (p : Pool) : List Nat := p.cache ++ ringIndices p.ring

/-- A pool beside the records of its buffers: every buffer it can issue is one of its own, stands in it once, and is neither held
nor quarantined (R461, R463, R469). -/
structure PoolInv (recs : Sparse BufRec) (k : Nat) (p : Pool) : Prop where
  fits : p.usable ≤ 8388608
  own : ∀ i ∈ issuable p, i < p.usable
  once : (issuable p).Nodup
  free : ∀ i ∈ issuable p, (sget {} recs (bufKey k i)).held = false ∧ (sget {} recs (bufKey k i)).quarantined = false

/-- A buffer's record: a held one has one to eight owners, each once; a free one has none; tags take seven bits (R461, R465, R467). -/
structure RecInv (r : BufRec) : Prop where
  owned : r.held = true → r.owners ≠ []
  most : r.owners.length ≤ 8
  once : r.owners.Nodup
  none_ : r.held = false → r.owners = []
  tag : r.tag < 128

/-- The pools as a safe run keeps them: no buffer is issued twice, and a held one is never issued. -/
structure BpmInv (b : Bpm) : Prop where
  poolsWf : sparseWf {} b.pools = true
  recsWf : sparseWf {} b.recs = true
  linesWf : sparseWf 0 b.lines = true
  pools : ∀ k, k < 3 → PoolInv b.recs k (sget {} b.pools k)
  recs : ∀ k, RecInv (sget {} b.recs k)

/-! ### Frames that are taken -/

/-- A chain frame arrives on a port in use, under keys, its tag good and its decryption passed, at the node and epoch it names (R336,
R391, R392, R439, R448). -/
structure ChainTaken (s : State) (port : Fin 8) (check : GcmCheck) (f : ChainFrame) : Prop where
  tag : check.tagOk = true
  job : check.first = .good
  on : chainOn s = true
  still : flushing s = false
  up : chainPortUp s port.val = true
  keyed : chainKeyed s port.val = true
  here : f.dst.val = s.chain.nodeId
  epoch : f.epoch = s.chain.nodeEpoch

end Sys2Proof.Machine
end

