-- ==== Sys2Proof/Certificates/Slice0/Obligations.lean ====
section
/-! DEFINITION. The statements for the provers, in terms of the model. `settled s t` is the state after a command whose own effect
leads from `s` to `t` and after everything that follows from it at once; `finished s t` and `ended s t` are the same where nothing
follows. In each of them the queue and device time are those of `s`. -/

open Sys2Proof Sys2Proof.Machine

/-! ### The block -/

/-- Every command answers a next state, at every state and with every operand: none faults and none is refused, and none touches the queue.
What each one's next state is, the statements below say. -/
def Obligations.StepTotal : Prop :=
  (∀ (c : Instr) (s : State), ∃ t, Sys2Proof.Machine.exec c s = .next t ∧ t.pending = s.pending) ∧
  (∀ s : State, ∃ t, Sys2Proof.core.step s = .next t ∧ t.pending = s.pending.tail)

/-- A step with a command at the front of the queue is that command on the state with the queue's rest. With an empty queue device time goes
on once PHS runs, by 10 ns and, as a microsecond ends, by the 1 ns that R21 lets a controller slew towards its reference (that an idle step
stands for one cycle is the model's choice, log entry 2); requests and answers whose MAC epoch is open then learn its verdict. -/
def Obligations.StepRunsFront : Prop :=
  (∀ (s : State) (c : Instr) (rest : List Instr), Sys2Proof.Machine.step { s with pending := c :: rest } = exec c { s with pending := rest }) ∧
  (∀ s : State, s.pending = [] → s.phs.running = true → macWaits s = false → ∃ d : Int, -1 ≤ d ∧ d ≤ 1 ∧ (s.twin.slew = 0 → d = 0) ∧
    (s.devTime / 1000 = (s.devTime + 10) / 1000 → d = 0) ∧ (d ≠ 0 → (s.twin.slew - d).natAbs < s.twin.slew.natAbs) ∧
    Sys2Proof.Machine.step s = .next { s with devTime := (s.devTime + 10 + d).toNat, twin.slew := s.twin.slew - d }) ∧
  (∀ s : State, s.pending = [] → s.phs.running = false → macWaits s = false → Sys2Proof.Machine.step s = .next s) ∧
  (∀ s : State, s.pending = [] → macWaits s = true → Sys2Proof.Machine.step s = .next (settledTimed s (idleTick s)))

/-- The queue drains: after as many steps as commands wait, no fault or refusal has met any of them and none waits. -/
def Obligations.QueueDrains : Prop :=
  ∀ s : State, ∃ t, Host.Core.run Sys2Proof.core s.pending.length s = .next t ∧ t.pending = []

/-- Where nothing is under way, nothing follows from a command but its own effect. -/
def Obligations.QuietStaysStill : Prop :=
  ∀ s : State, Quiet s → settleAll s = s

/-- Device time is the timer's: the only commands that change it are the always-on reset, which restarts it, and the HELLO of a pairing
(R20, R21). -/
def Obligations.DevTimeKept : Prop :=
  ∀ (c : Instr) (s t : State), exec c s = .next t → t.devTime = s.devTime ∨ c = .aonPowerOnReset ∨ (∃ f h, c = .hello f h)

/-- What the block is right after reset: nothing waits, nothing has been driven out, no rail is up, no ring is enabled, no plot is admitted,
every cache and buffer pool is empty, and every register holds its reset value (R40, R109, R475, R589). -/
def Obligations.ResetState : Prop :=
  State.reset.pending = [] ∧ State.reset.out = [] ∧ State.reset.phs.railsUp = 0 ∧ State.reset.phs.dieReset = true ∧
  (∀ (ld : Ld) (ring : RingNo), (ringAt State.reset ld ring).state = .disabled) ∧
  (∀ p : PlotId, (plotRec State.reset p.val).state = .free ∧ (plotRec State.reset p.val).generation = 0) ∧
  (∀ clod : ClodNo, entryOf State.reset clod.val = {}) ∧
  (∀ addr idx : Nat, regAt State.reset addr idx = resetAt addr idx) ∧
  BpmInv State.reset.bpm

/-- The buffer pools' invariant: at every step no buffer is issued twice, a held buffer cannot be issued, a quarantined one never is again,
and every held buffer has one to eight owners (R461, R463 to R469). -/
def Obligations.BpmInvKept : Prop :=
  ∀ s t : State, BpmInv s.bpm → Sys2Proof.Machine.step s = .next t → BpmInv t.bpm

/-! ### Registers (01, 20, 21) -/

/-- A write of a management register by a manager acts on all its fields at once: rw bits take the value, w1c bits written 1 are cleared,
w1s bits written 1 are set, and ro, rc and reserved bits stay (R585); nothing else of the block changes but what follows from the new bits.
Registers whose write has an effect of its own have statements of their own. -/
def Obligations.RegisterWriteTakesItsFields : Prop :=
  ∀ (s : State) (who : Accessor) (addr value upper hwSet : Word) (idx : Nat),
    regTarget s ⟨who, .mgmt, addr, 4⟩ = .mgmt addr.toNat (some idx) → isManager s who = true →
    specialWrite s who addr.toNat value = none →
    ¬ (0x1001000 ≤ addr.toNat ∧ addr.toNat < 0x1002000) → ¬ (0xB000044 ≤ addr.toNat ∧ addr.toNat ≤ 0xB000070) →
    ¬ (0xC00001C ≤ addr.toNat ∧ addr.toNat ≤ 0xC000028) → ¬ (0xD002000 ≤ addr.toNat ∧ addr.toNat < 0xD002400) →
    exec (.registerWrite ⟨who, .mgmt, addr, 4⟩ value upper hwSet) s =
      .next (settledPools s (writeBits s addr.toNat idx value hwSet))

/-- Every field of every register of the map after a write, by its access type, whatever stands in the register's other fields. -/
def Obligations.FieldAfterWrite : Prop :=
  ∀ d ∈ regTable, ∀ f ∈ d.fields, ∀ old value hwSet : Word,
    fieldOf (writtenWord d.fields old value hwSet) f.lo f.width =
      match f.access with
      | .rw => fieldOf value f.lo f.width
      | .ro | .rc => fieldOf old f.lo f.width
      | .w1c => ((BitVec.ofNat 32 (fieldOf old f.lo f.width) &&& ~~~BitVec.ofNat 32 (fieldOf value f.lo f.width)) |||
          BitVec.ofNat 32 (fieldOf hwSet f.lo f.width)).toNat
      | .w1s => (BitVec.ofNat 32 (fieldOf old f.lo f.width) ||| BitVec.ofNat 32 (fieldOf value f.lo f.width)).toNat
      | .wo => 0

/-- A write of a management register by a master that may not make it changes no register bit of its own: only the event of R14 follows,
whatever the register and whatever is written; the key window, whose denial R443 describes, apart. -/
def Obligations.SetupWriteDenied : Prop :=
  ∀ (s : State) (who : Accessor) (addr value upper hwSet : Word),
    isManager s who = false → ¬ (0xB000040 ≤ addr.toNat ∧ addr.toNat ≤ 0xB000070) →
    exec (.registerWrite ⟨who, .mgmt, addr, 4⟩ value upper hwSet) s =
      .next (settledPools s (denySetup s who addr.toNat))

/-- Every access the register commands name completes, whatever it reaches: nothing where a link does not carry the LD, or where a selector
selects nothing; the event of R5 where the access is rejected, with 0xFFFF_FFFF for a read (R594); a doorbell in a page of BAR2; a register
of an LD space in BAR0; one dword or two of the CXL ranges; and the value that stands, for a read. -/
def Obligations.RegisterAccess : Prop :=
  (∀ (s : State) (a : Access) (value upper hwSet counted : Word),
    (regTarget s a = .absent →
      exec (.registerWrite a value upper hwSet) s = .next (settledPools s s) ∧ exec (.rcFieldRead a counted) s = .next (finished s s)) ∧
    (∀ addr, regTarget s a = .mgmt addr none →
      exec (.registerWrite a value upper hwSet) s = .next (settledPools s s) ∧
      (addr ≠ 0xE000034 → exec (.rcFieldRead a counted) s = .next (finished s (emit s (.regData a.who a.space a.addr.toNat 0))))) ∧
    (regTarget s a = .rejected →
      exec (.registerWrite a value upper hwSet) s = .next (settledPools s (rejectWrite s a)) ∧
      exec (.rcFieldRead a counted) s = .next (finished s (emit (rejectAccess s a) (.regReject a.who a.space a.addr.toNat)))) ∧
    (∀ addr idx, regTarget s a = .mgmt addr (some idx) →
      exec (.registerWrite a value upper hwSet) s = .next (settledPools s (writeMgmt s a addr idx value hwSet))) ∧
    (∀ ld ring off, regTarget s a = .page ld ring off →
      exec (.registerWrite a value upper hwSet) s = .next (settledPools s
        (if off = 0 then doSqTailDoorbell ld ring value s else if off = 4 then doCqHeadDoorbell ld ring value s else s)) ∧
      exec (.rcFieldRead a counted) s = .next (finished s (emit s (.regData a.who a.space a.addr.toNat (viewPage s ld ring off))))) ∧
    (∀ ld off, regTarget s a = .ldSpace ld off →
      exec (.registerWrite a value upper hwSet) s = .next (settledPools s (writeLd s ld off value hwSet)) ∧
      exec (.rcFieldRead a counted) s =
        .next (finished s (emit s (.regData a.who a.space a.addr.toNat (readValue s a.who (.ldSpace ld off)))))) ∧
    (∀ ld off, regTarget s a = .cxl ld off →
      exec (.registerWrite a value upper hwSet) s = .next (settledPools s
        (if a.bytes.val = 8 then writeCxl (writeCxl s ld off value) ld (off + 4) upper else writeCxl s ld off value)) ∧
      exec (.rcFieldRead a counted) s = .next (finished s
        (if a.bytes.val = 8 then readCxl (readCxl s a ld off) { a with addr := a.addr + 4 } ld (off + 4) else readCxl s a ld off)))) ∧
  (∀ (s : State) (who : Accessor) (m : Mid), who = .mid m → isManager s who = false → ∀ addr : Word,
    rejectRead s ⟨who, .mgmt, addr, 4⟩ =
      emit (raise s (blockSource addr.toNat) .registerReject m.val [addr.toNat]) (.regReject who .mgmt addr.toNat))

/-- Register pairs (R6, R582). A LO write of a pair of rw fields waits for its HI; a HI write makes the pair take effect, with the LO half
that waited or else the one that stands, and uses the waiting half up; one that the register refuses, a write of BFC_MEDIA_OFS that would
move media time back, changes neither half (R267). A pair of an LD's ring set-up is written under the rules of R153. A LO read latches the
HI half for its reader; the next HI read gives it and uses it up, and a HI read with none latched gives the half that stands. A write or
read of any other register by these commands is one like any other. -/
def Obligations.RegisterPairs : Prop :=
  (∀ (s : State) (who : Accessor) (addr value : Word), isManager s who = true → addr.toNat = 0x7000068 ∨ addr.toNat = 0xC000054 →
    exec (.pairLoWrite ⟨who, .mgmt, addr, 4⟩ value) s =
      .next (ended s { s with pairPend := sput none s.pairPend (regKey addr.toNat (accessorIdx who)) (some value) })) ∧
  (∀ (s : State) (who : Accessor) (addr value low : Word), isManager s who = true → addr.toNat = 0x700006C ∨ addr.toNat = 0xC000058 →
    (pendingLo s (addr.toNat - 4) (accessorIdx who)).getD (regAt s (addr.toNat - 4) 0) = low →
    exec (.pairHiWrite ⟨who, .mgmt, addr, 4⟩ value) s =
      .next (ended s (dropLo (if addr.toNat = 0x700006C ∧ mediaWith s low value < mediaTime s then s
        else setRegAt (setRegAt s (addr.toNat - 4) 0 low) addr.toNat 0 value) (addr.toNat - 4) (accessorIdx who)))) ∧
  (∀ (s : State) (a : Access) (value : Word) (ld : Ld) (off : Nat), regTarget s a = .ldSpace ld off →
    (off = 0x100C → exec (.pairLoWrite a value) s = .next (ended s (doRingSetupWrite ld (selectedRing s ld) .sqBaseLo value s))) ∧
    (off = 0x1018 → exec (.pairLoWrite a value) s = .next (ended s (doRingSetupWrite ld (selectedRing s ld) .cqBaseLo value s))) ∧
    (off = 0x1010 → exec (.pairHiWrite a value) s = .next (ended s (doRingSetupWrite ld (selectedRing s ld) .sqBaseHi value s))) ∧
    (off = 0x101C → exec (.pairHiWrite a value) s = .next (ended s (doRingSetupWrite ld (selectedRing s ld) .cqBaseHi value s)))) ∧
  (∀ (s : State) (a : Access) (value : Word),
    exec (.pairLoWrite a value) s = .next (ended s (registerWrite s a value 0 0)) ∧
    exec (.pairHiWrite a value) s = .next (ended s (registerWrite s a value 0 0))) ∧
  (∀ (s : State) (a : Access) (addr i : Nat) (half : Word), pairPlace s a = some (addr, i) → loHalf addr = true →
    readValue s a.who (regTarget s { a with addr := a.addr + 4 }) = half →
    exec (.pairLoRead a) s =
      .next (finished s (registerRead { s with pairLatch := sput none s.pairLatch (regKey addr i) (some half) } a 0))) ∧
  (∀ (s : State) (a : Access) (addr i : Nat) (half : Word), pairPlace s a = some (addr + 4, i) → loHalf addr = true →
    sget none s.pairLatch (regKey addr i) = some half →
    exec (.pairHiRead a) s = .next (finished s (emit { s with pairLatch := sput none s.pairLatch (regKey addr i) none }
      (.regData a.who a.space a.addr.toNat half)))) ∧
  (∀ (s : State) (a : Access), (∀ addr i, pairPlace s a = some (addr, i) → loHalf addr = false) →
    exec (.pairLoRead a) s = .next (finished s (registerRead s a 0))) ∧
  (∀ (s : State) (a : Access), (∀ addr i, pairPlace s a = some (addr + 4, i) → loHalf addr = true → sget none s.pairLatch (regKey addr i) = none) →
    exec (.pairHiRead a) s = .next (finished s (registerRead s a 0))) ∧
  (∀ (s : State) (who : Accessor), isManager s who = true →
    exec (.pairLoRead ⟨who, .mgmt, 0x8, 4⟩) s =
      .next (finished s { s with
        pairLatch := sput none s.pairLatch (regKey 0x8 (accessorIdx who)) (some (BitVec.ofNat 32 (s.devTime / 4294967296)))
        out := .regData who .mgmt 0x8 (BitVec.ofNat 32 s.devTime) :: s.out }))

/-- A read of an rc field returns it and clears it; an increment of the same cycle is kept, so that no count is lost, and the register's
other fields stay (R583). -/
def Obligations.RcReadLosesNoCount : Prop :=
  (∀ (s : State) (who : Accessor) (addr counted : Word) (idx : Nat) (d : RegDesc),
    regTarget s ⟨who, .mgmt, addr, 4⟩ = .mgmt addr.toNat (some idx) → addr.toNat ≠ 0xE000034 → regRow addr.toNat = some d →
    exec (.rcFieldRead ⟨who, .mgmt, addr, 4⟩ counted) s =
      .next (finished s (clearRc (emit s (.regData who .mgmt addr.toNat (viewMgmt s who addr.toNat idx))) addr.toNat idx counted))) ∧
  (∀ d ∈ regTable, ∀ f ∈ d.fields, ∀ old counted : Word,
    fieldOf (clearedWord d.fields old counted) f.lo f.width =
      if f.access = .rc then fieldOf counted f.lo f.width else fieldOf old f.lo f.width)

/-- The plot selectors (R67, R184, R592): each latches a snapshot of the plot that bits 11:0 name, for the master that wrote it; a write by
a master that may not make it latches nothing (R14). What an LD may not see reads 0, and an LD that its link does not carry latches nothing.
-/
def Obligations.PlotSnapshots : Prop :=
  (∀ (s : State) (who : Accessor) (value : Word) (r : Plot), isManager s who = true → plotRec s (value.toNat % 4096) = r →
    exec (.tmgPlotSelect who value) s = .next (finished s (
      let s1 := writeBits s 0x8000100 (accessorIdx who) value 0
      let put (t : State) (n v : Nat) : State := latch t (0x8000104 + 4 * n) (accessorIdx who) v
      put (put (put (put (put (put (put (put s1 0 (stateCode r.state + modeCode r.mode * 8 + bit r.deep * 32 + bit r.prefHome * 64
        + bit r.curHome * 128 + r.generation * 65536)) 1 r.base) 2 r.size) 3 r.floor) 4 r.allow) 5 (residents s1 r)) 6 (dirtyFrames s1 r)) 7 r.ownerMid))) ∧
  (∀ (s : State) (who : Accessor) (value : Word) (r : Plot), isManager s who = true → plotRec s (value.toNat % 4096) = r →
    exec (.pouPlotSelect who value) s = .next (finished s (
      let s1 := writeBits s 0x3000020 (accessorIdx who) value 0
      let d := durableMark s1 (value.toNat % 4096)
      let put (t : State) (n v : Nat) : State := latch t (0x3000024 + 4 * n) (accessorIdx who) v
      put (put (put (put (put s1 0 (r.seq % 4294967296)) 1 (r.seq / 4294967296)) 2 (d % 4294967296)) 3 (d / 4294967296)) 4
        (plotDirty s1 r + bit (overAllowance s1 r) * 2147483648)))) ∧
  (∀ (s : State) (ld : Ld) (value : Word) (p : Nat), ldPresent s ld = true → value.toNat % 4096 = p →
    ∃ a b c : Nat, exec (.ldPlotSelect ld value) s = .next (finished s (
        latch (latch (latch (writeBits s 0x100000100 ld.val value 0) 0x100000104 ld.val a) 0x100000108 ld.val b) 0x10000010C ld.val c)) ∧
      (visible s p ld = false → a = 0 ∧ b = 0 ∧ c = 0) ∧
      (visible s p ld = true → b = (plotRec s p).base ∧ c = (plotRec s p).size ∧
        a = stateCode (plotRec s p).state + modeCode (plotRec s p).mode * 8 + bit (plotRec s p).deep * 32 + bit (plotRec s p).curHome * 64 +
          bit ((plotRec s p).curHome = sideB s) * 128 + aclRights s p ld.val * 256 + 1024 + (plotRec s p).generation * 65536)) ∧
  (∀ (s : State) (ld : Ld) (value : Word), ldPresent s ld = false → exec (.ldPlotSelect ld value) s = .next (finished s s)) ∧
  (∀ (s : State) (who : Accessor) (value : Word), isManager s who = false →
    exec (.tmgPlotSelect who value) s = .next (finished s (denySetup s who 0x8000100)) ∧
    exec (.pouPlotSelect who value) s = .next (finished s (denySetup s who 0x3000020)))
/-! ### CXL.mem, GPF and the dirty budget (03, 05) -/

/-! ### Host requests, persistence and the front cache (05, 06) -/

/-- A CXL.mem read or write that passes every check of its port and of the access table is accepted by the POU as the newest request of its
plot, under the host's own tag (R157, R169); what the request finds of its line's parity is noted for its lookup (R202), its data wait for
the verdict of an open MAC epoch (R88), and a write that outruns its link's credits is marked so (R180). A write back of a line that a snoop
asks for goes ahead of the request that caused it (R213). A request to a chain window goes there (R387). A request that no decoder, plot or
right lets through is denied: a read answers zero data with poison, a write is dropped and completed, which gives its credit back, and the
denial is counted (R65, R66, R83, R180). On a viral link the same answers are given and nothing is counted (R94); on a link that carries no
CXL.mem for the LD nothing happens (R79, R95). -/
def Obligations.HostRequests : Prop :=
  ((∀ (s : State) (ld : Ld) (tag : Tag) (hpa : DWord) (m : MetaValue) (seen : ArrayFaults) (p line : Nat) (db : Bool),
      gate s ld hpa false = .plot p line db →
      exec (.cxlMemRead ld tag hpa m seen) s = .next (settled s (
        let u := meetFaults s line seen
        let r : ReadRec := { id := u.pou.nextId, origin := .host ld tag.val, mid := ld.val, plot := p, line := line, metaVal := m,
                             dir := if coherent (plotRec u p) then 0 else 2 }
        updRdRec { u with pou.nextId := u.pou.nextId + 1, pou.reads := u.pou.reads ++ [r] } u.pou.nextId fun r => { r with mac := arriving s ld }))) ∧
    (∀ (s : State) (ld : Ld) (tag : Tag) (hpa : DWord) (be : ByteMask) (data : Line) (poison : Bool) (m : MetaValue) (seen : ArrayFaults)
        (p line : Nat) (db : Bool), gate s ld hpa true = .plot p line db →
      exec (.cxlMemWrite ld tag hpa be data poison m seen) s = .next (settled s (
        let u := meetFaults s line seen
        let back := answersSnoop u ld.val line m
        let w : WriteRec := { id := u.pou.nextId, origin := .host ld tag.val, mid := ld.val, plot := p, line := line,
                              data := if poison then 0 else data, be := be, poison := poison, metaVal := m, acceptedAt := u.devTime,
                              dir := if coherent (plotRec u p) then 0 else 2 }
        let v := { u with pou.nextId := u.pou.nextId + 1, pou.writes := u.pou.writes ++ [w] }
        let v := if !back then v else { v with
          pou.writes := v.pou.writes.map fun w => if w.id = u.pou.nextId then { w with dir := 2, back := true } else w
          pou.reads := v.pou.reads.map fun r => if r.line = line && r.dir = 1 then { r with ord := 0 } else r }
        updWrite v u.pou.nextId fun w => { w with uncredited := !creditLeft s (ld.val / 16), mac := arriving s ld }))) ∧
    (∀ (s : State) (ld : Ld) (tag : Tag) (hpa : DWord) (m : MetaValue) (seen : ArrayFaults) (i : Nat) (w : Window) (cls line : Nat) (db : Bool),
      gate s ld hpa false = .window i w cls line db →
      exec (.cxlMemRead ld tag hpa m seen) s = .next (settled s
        (startChain s (.host ld tag.val) ld.val cls i w false line 0 0 false (if db then m else .invalid) (arriving s ld)))) ∧
    (∀ (s : State) (ld : Ld) (tag : Tag) (hpa : DWord) (be : ByteMask) (data : Line) (poison : Bool) (m : MetaValue) (seen : ArrayFaults)
        (i : Nat) (w : Window) (cls line : Nat) (db : Bool), gate s ld hpa true = .window i w cls line db →
      exec (.cxlMemWrite ld tag hpa be data poison m seen) s = .next (settled s
        (startChain s (.host ld tag.val) ld.val cls i w true line be data poison (if db then m else .invalid) (arriving s ld))))) ∧
  (∀ (s : State) (ld : Ld) (tag : Tag) (hpa : DWord) (be : ByteMask) (data : Line) (poison : Bool) (m : MetaValue) (seen : ArrayFaults),
      (∀ (p line : Nat) (mode : Bool), gate s ld hpa false = .denied p line mode →
        exec (.cxlMemRead ld tag hpa m seen) s = .next (settled s (toHost (denyHost s ld p line mode) ld (.memData ld tag.val 0 true)))) ∧
      (∀ (p line : Nat) (mode : Bool), gate s ld hpa true = .denied p line mode →
        exec (.cxlMemWrite ld tag hpa be data poison m seen) s = .next (settled s
          (toHost (freeCredit (denyHost s ld p line mode) (ld.val / 16)) ld (.memDone ld tag.val)))) ∧
      (gate s ld hpa false = .viral → exec (.cxlMemRead ld tag hpa m seen) s = .next (settled s (toHost s ld (.memData ld tag.val 0 true)))) ∧
      (gate s ld hpa true = .viral → exec (.cxlMemWrite ld tag hpa be data poison m seen) s = .next (settled s
        (toHost (freeCredit s (ld.val / 16)) ld (.memDone ld tag.val)))) ∧
      (carriesMem s ld = false → exec (.cxlMemRead ld tag hpa m seen) s = .next (settled s s) ∧
        exec (.cxlMemWrite ld tag hpa be data poison m seen) s = .next (settled s s)))

/-- GPF Phase 1 is answered at once, with no action; while the link recovers, the answer waits for its end (R96). -/
def Obligations.GpfPhase1AtOnce : Prop :=
  ∀ (s : State) (port : Port),
    (linkUp s port.val = true → (hostLink s port.val).recovery = false →
      exec (.gpfPhase1 port) s = .next (finished s { s with out := .gpfResponse port 1 :: s.out })) ∧
    ((hostLink s port.val).recovery = true →
      exec (.gpfPhase1 port) s = .next (finished s { s with hfp.held := s.hfp.held ++ [(port.val, .gpfResponse port 1)] }))

/-- GPF Phase 2 marks the writes that are not yet durable and answers once they are, with its duration in µs and the flag for more than 20
µs (R166). The frame: only the POU, its status register and the output change. The write path's timers (R179, R411): a completion's delay
that runs out no longer holds it, whoever ordered the write; an old line that arrives, from Loam or from the base, completes the merge that
asked for it. The budget (R177, R185, R186): a back-pressure setting is taken only when soft_pct < hard_pct ≤ 99, else it leaves the
register and sets cfg_err; a written budget and a published figure take effect as the lesser of the two. -/
def Obligations.GpfAndWritePath : Prop :=
  ((∀ (s : State) (port : Port), linkUp s port.val = true →
      exec (.gpfPhase2 port) s = .next (finished s (putFlag { s with
        pou.gpfs := s.pou.gpfs ++ [{ port := port, start := s.devTime, marked := gpfWrites s }] } Reg.POU_GPF_STS.ph2_busy true))) ∧
    (∀ (s : State) (g : Gpf), s.pou.gpfs = [g] → g.marked.any (notDurable s) = true →
      exec .gpfPhase2Response s = .next (finished s (putFlag s Reg.POU_GPF_STS.ph2_busy true))) ∧
    (∀ (s : State) (g : Gpf), s.pou.gpfs = [g] → g.marked.any (notDurable s) = false → linkUp s g.port.val = true →
      (hostLink s g.port.val).recovery = false → s.hfp.gpfPhase2Us = 20 → s.devTime - g.start ≤ 20000 →
      exec .gpfPhase2Response s = .next (finished s (putFlag
        (emit (setF { s with pou.gpfs := [] } Reg.POU_GPF_STS.last_ph2_us ((s.devTime - g.start) / 1000)) (.gpfResponse g.port 2))
        Reg.POU_GPF_STS.ph2_busy false)))) ∧
  ((∀ (s : State) (id : Nat), exec (.completionDelayExpiry false id) s = .next (settled s { s with
      pou.writes := s.pou.writes.map fun w => if w.id = id then { w with delayed := false } else w })) ∧
    (∀ (s : State) (id : Nat), exec (.completionDelayExpiry true id) s = .next (settled s { s with
      pou.fwdWrites := s.pou.fwdWrites.map fun f => if f.id = id then { f with delayed := false } else f })) ∧
    (∀ (s : State) (line : LineNo) (m : Merge) (f : Fill), (s.diu.merges.find? fun m => m.line = line.val) = some m → m.asked = true →
      (s.fcd.fills.find? fun f => f.line = line.val) = some f →
      exec (.mergeOldLineReturn line) s = .next (settled s (returnFill s f .good .good))) ∧
    (∀ (s : State) (line : LineNo) (m : Merge), (s.diu.merges.find? fun m => m.line = line.val) = some m → m.asked = true →
      (s.fcd.fills.find? fun f => f.line = line.val) = none → grainReadOf s (clodOf line.val) (grainIn line.val) = none →
      exec (.mergeOldLineReturn line) s = .next (settled s (combine m.ids (currentLine s line.val)
        { s with diu.merges := s.diu.merges.filter fun x => x.line ≠ m.line })))) ∧
  ((∀ (s : State) (who : Accessor) (value : Word), isManager s who = true →
      wr value Reg.POU_BP_CFG.soft_pct < wr value Reg.POU_BP_CFG.hard_pct → wr value Reg.POU_BP_CFG.hard_pct ≤ 99 →
      exec (.bpCfgWrite who value) s = .next (settled s (setF (setF (setF s Reg.POU_BP_CFG.soft_pct (wr value Reg.POU_BP_CFG.soft_pct))
        Reg.POU_BP_CFG.hard_pct (wr value Reg.POU_BP_CFG.hard_pct)) Reg.POU_BP_CFG.max_delay_us (min 1000 (wr value Reg.POU_BP_CFG.max_delay_us))))) ∧
    (∀ (s : State) (who : Accessor) (value : Word), isManager s who = true →
      ¬ (wr value Reg.POU_BP_CFG.soft_pct < wr value Reg.POU_BP_CFG.hard_pct ∧ wr value Reg.POU_BP_CFG.hard_pct ≤ 99) →
      exec (.bpCfgWrite who value) s = .next (settled s (setFlag s Reg.POU_BP_STS.cfg_err))) ∧
    (∀ (s : State) (who : Accessor) (value : Word), isManager s who = true →
      exec (.budgetCfgWrite who value) s = .next (settled s (applyBudget (writeBits s 0x8000150 0 value 0) false))) ∧
    (∀ s : State, exec .effectiveBudgetUpdate s = .next (settled s (applyBudget { s with tmg.budgetSet := true } true))) ∧
    (∀ (s : State) (energy : Bool), regsWf s.regs → allowSum s = 0 → s.pou.dirty = [] →
      getF (applyBudget s energy) Reg.TMG_BUDGET_EFF.eff_mib =
        min (min 4096 (max 1 (getF s Reg.TMG_BUDGET_CFG.cfg_granules)) * 256) (getF s Reg.PHS_BUDGET_PUB.pub_mib) % 2 ^ 21))

/-- The completion delay of a write (R179): none below soft_pct, none between the thresholds for a plot within its allowance, never more
than max_delay_us, and the whole of it at or above hard_pct. -/
def Obligations.WriteDelayBounds : Prop :=
  ∀ (s : State) (r : Plot),
    (bpStage s = 0 → writeDelay s r = 0) ∧
    (bpStage s = 1 → overAllowance s r = false → writeDelay s r = 0) ∧
    (bpStage s = 1 → writeDelay s r ≤ min (getF s Reg.POU_BP_CFG.max_delay_us) 1000 * 1000) ∧
    (2 ≤ bpStage s → writeDelay s r = min (getF s Reg.POU_BP_CFG.max_delay_us) 1000 * 1000)

/-- Answers to snoops (R86, R88, R213, R214): a BIRsp frees its slot; one with the modified line is ordered first, as a write of the host
with all bytes enabled, or for a chain owner goes with the answer; under IDE the answer waits for its MAC's verdict; an answer that does not
come takes the link down; a conflict is acknowledged at once where the host has no earlier request for the line, else after it. What Loam
sends back (R193, R195, R197, R202, R227, R408, R418, R448): the issued read of a good line ends its fill with the line; a corrected one is
logged and scrubbed as well; an uncorrectable one starts the repair; a line whose decryption fails its check is decrypted once more. A write
that has been driven frees its victim entry, unless the line was written anew; one not driven yet has not reached the DRAM. The line of a
held victim is checked and its eviction resumes. A lookup's read of an entry that has changed is done again; one that has not puts the entry
into the map cache, its heat halved. The engines' operations on lines (R15, R23, R198 to R201): each is a block's that issues it; an
operation of any other master has no effect, and one of a reserved master ID raises the event of R23. With no fill of the line out and
nothing waiting, a zero makes the line dirty with zeros, an invalidate drops it, a flush writes it back and leaves it clean; else the
operation waits in order. A tag walk leaves no line of its plot. -/
def Obligations.FrontCacheCommands : Prop :=
  ((∀ (s : State) (ld : Ld) (line : LineNo) (x : Snoop) (v : LineVal),
      (s.fcd.snoops.find? fun x => x.target = ld.val && x.line = line.val && x.answer.isNone) = some x → arriving s ld = 0 →
      exec (.birsp ld line none) s = .next (settled s (answerSnoop s x)) ∧
      ((∃ n t, x.cause = .chain n t) → exec (.birsp ld line (some v)) s = .next (settled s (answerSnoop s { x with back := some v }))) ∧
      ((∀ n t, x.cause ≠ .chain n t) →
        exec (.birsp ld line (some v)) s = .next (settled s (answerSnoop (takeBack s (Fin.ofNat 256 x.target) x.line v) x)))) ∧
    (∀ (s : State) (ld : Ld) (line : LineNo) (x : Snoop) (wb : Option LineVal),
      (s.fcd.snoops.find? fun x => x.target = ld.val && x.line = line.val && x.answer.isNone) = some x → arriving s ld ≠ 0 →
      exec (.birsp ld line wb) s = .next (settled s { s with
        fcd.snoops := s.fcd.snoops.map fun y => if y.id = x.id then { y with answer := some wb, mac := arriving s ld } else y })) ∧
    (∀ (s : State) (id : Nat) (x : Snoop), (s.fcd.snoops.find? fun x => x.id = id && decide (x.target < 0x100) && x.answer.isNone) = some x →
      exec (.bisnpTimeout id) s = .next (settled s (dropLink
        (raise (setFlag (setFlag s (portField Reg.HFP_PORT_ERR.bi_timeout (x.target / 16))) Reg.FCD_ERR.bi_late) (x.target / 16 * 32) .biTimeout
          x.target [x.target, (plotOfLine s x.line).getD 0xFFF, x.line * 64]) (x.target / 16)))) ∧
    (∀ (s : State) (ld : Ld) (line : LineNo) (x : Snoop), (s.fcd.snoops.find? fun x => x.target = ld.val && x.line = line.val) = some x →
      (s.pou.writes = [] → s.pou.reads = [] →
        exec (.biconflict ld line) s = .next (settled s (toHost s ld (.biConflictAck ld line.val)))) ∧
      (∀ id, ownEarlier s ld x = some id →
        exec (.biconflict ld line) s = .next (settled s { s with fcd.conflicts := s.fcd.conflicts ++ [(ld.val, line.val, id)] })))) ∧
  ((∀ (s : State) (line : LineNo) (f : Fill) (r : LmcReq), (s.fcd.fills.find? fun f => f.line = line.val) = some f → f.rechecked = false →
      issuedReq s f.lpa f.req = some r →
      exec (.loamFillReturn line .good .good) s = .next (settled s (endFill (lmcEnded s r) f f.val)) ∧
      (∀ d, exec (.loamFillReturn line (.corrected d) .good) s =
        .next (settled s (endFill (loamCorrected (lmcEnded s r) f.lpa d.val f.val) f f.val))) ∧
      exec (.loamFillReturn line .uncorrectable .good) s = .next (settled s (
        let t := lmcEnded s r
        startRepair { t with fcd.fills := t.fcd.fills.map fun x => if x.line = f.line then { x with rechecked := false } else x } f.line f.lpa f.users)) ∧
      (∀ d core, exec (.loamFillReturn line d (.differs core)) s = .next (settled s (
        let t := xtsOut (lmcEnded s r) core.val
        { t with fcd.fills := t.fcd.fills.map fun x => if x.line = f.line then { x with rechecked := true } else x })))) ∧
    (∀ (s : State) (line : LineNo) (f : Fill) (d : LoamDecode) (job : XtsEnd), (s.fcd.fills.find? fun f => f.line = line.val) = some f →
      f.rechecked = false → issuedReq s f.lpa f.req = none → exec (.loamFillReturn line d job) s = .next (settled s s)) ∧
    (∀ (s : State) (line : LineNo) (r : LmcReq), lineWrite s line.val = some r → r.issued = false →
      exec (.victimWriteDone line .good) s = .next (settled s s)) ∧
    (∀ (s : State) (line : LineNo) (r : LmcReq) (v : Victim), lineWrite s line.val = some r → r.issued = true →
      findVictim (lmcEnded s r) line.val = some v →
      (v.write = some r.id → v.held = false →
        exec (.victimWriteDone line .good) s = .next (settled s { lmcEnded s r with
          fcd.victims := (lmcEnded s r).fcd.victims.filter fun v => v.line ≠ line.val })) ∧
      (v.write ≠ some r.id ∨ v.held = true → exec (.victimWriteDone line .good) s = .next (settled s (lmcEnded s r)))) ∧
    (∀ (s : State) (line : LineNo) (v : Victim), findVictim s line.val = some v → v.held = true → v.badChunks = 0 → s.fcd.fatal = none →
      exec (.victimHoldExpiry line) s = .next (settled s (issueVictim s v))) ∧
    (∀ (s : State) (clod : ClodNo), (s.plots.mapFills.find? fun f => f.1 = clod.val) = some (clod.val, true) →
      exec (.mapCacheFill clod false) s = .next (settled s { s with
        plots.mapFills := s.plots.mapFills.map fun f => if f.1 = clod.val then (f.1, false) else f })) ∧
    (∀ (s : State) (clod : ClodNo), (s.plots.mapFills.find? fun f => f.1 = clod.val) = some (clod.val, false) →
      exec (.mapCacheFill clod false) s = .next (settled s (mapInstall (updEntry { s with
        plots.mapFills := s.plots.mapFills.filter fun f => f.1 ≠ clod.val } clod.val fun e => { e with heat := e.heat / 2 }) clod.val)) ∧
      exec (.mapCacheFill clod true) s = .next (settled s
        (loseEntry { s with plots.mapFills := s.plots.mapFills.filter fun f => f.1 ≠ clod.val } clod.val)))) ∧
  ((∀ (s : State) (e : Mid) (line : LineNo) (p : Nat) (t : State), e.val < 0x200 → s.fcd.fills = [] → s.fcd.maint = [] →
      plotOfLine s line.val = some p → (entryOf s (clodOf line.val)).crcBad = false → (entryOf s (clodOf line.val)).tier = 3 →
      applyLine s line.val e.val zeroLine 0 = (true, t) → exec (.zeroALine e line) s = .next (settled s t)) ∧
    (∀ (s : State) (e : Mid) (line : LineNo) (seen : ArrayFaults), 0x300 ≤ e.val → e.val ≤ 0x30F → s.fcd.fills = [] → s.fcd.maint = [] →
      exec (.flushLine e line seen) s = .next (settled s (flushLine (markFaults s line.val seen) line.val e.val))) ∧
    (∀ (s : State) (clod : ClodNo), exec (.flushClod clod) s =
      .next (settled s ((List.range 1024).foldl (fun s i => flushLine s (clod.val * 1024 + i) 0x308) s))) ∧
    (∀ (s : State) (e : Mid) (line : LineNo), (0x300 ≤ e.val ∧ e.val ≤ 0x30F) ∨ e.val = 0x31D → s.fcd.fills = [] → s.fcd.maint = [] →
      exec (.invalidateLine e line) s = .next (settled s (dropLine s line.val))) ∧
    (∀ (s : State) (e : Mid) (line : LineNo) (f : Fill), (0x300 ≤ e.val ∧ e.val ≤ 0x30F) ∨ e.val = 0x31D → s.fcd.fills = [f] → f.line = line.val →
      s.fcd.maint = [] →
      exec (.invalidateLine e line) s = .next (settled s { s with fcd.maint := [{ line := line.val, mid := e.val, op := .drop }] })) ∧
    (∀ (s : State) (plot : PlotId), (plotRec s plot.val).tagWalk = true →
      exec (.plotTagWalkDone plot) s = .next (settled s (updPlot (walkPlot s (plotRec s plot.val)) plot.val fun r => { r with tagWalk := false }))) ∧
    (∀ (s : State) (e : Mid) (line : LineNo), reservedMid e.val = false →
      (0x200 ≤ e.val → exec (.zeroALine e line) s = .next (settled s s)) ∧
      (¬ (0x300 ≤ e.val ∧ e.val ≤ 0x30F) → ∀ seen, exec (.flushLine e line seen) s = .next (settled s (markFaults s line.val seen))) ∧
      (¬ (0x300 ≤ e.val ∧ e.val ≤ 0x30F) → e.val ≠ 0x31D → exec (.invalidateLine e line) s = .next (settled s s))) ∧
    (∀ (s : State) (e : Mid) (line : LineNo), reservedMid e.val = true →
      exec (.zeroALine e line) s = .next (settled s (raise s (sliceSource (sliceOf line.val)) .reservedMaster e.val [e.val])) ∧
      exec (.invalidateLine e line) s = .next (settled s (raise s (sliceSource (sliceOf line.val)) .reservedMaster e.val [e.val]))))

/-! ### The chain (11) -/

/-- Answers to a chain request of this ingress node: data and a completion end it and leave for its host, poison with them; a refusal ends
it as a denial; an abort, an unreachable node, a stale epoch or an overdue answer has it sent again (R65, R397 to R399, R401). A stale epoch
is flagged, and the request goes to the alternate node (R398). A tag that no request carries is answered by nothing. A chain read or write
at its owner (R389, R391, R397, R398, R402), for the tag table as its prefix leaves it: the source's epoch is noted, tags below its low_tag
are forgotten, and writes that waited for the table try again. Where nothing stands against it, a request is accepted for its plot under the
ingress class's master ID; a class bound to another node is refused and flagged; a write that has completed before is only answered again,
and one under way goes on; with the table full a new one waits; a controller that does not serve answers that it cannot be reached. -/
def Obligations.ChainRequests : Prop :=
  (∀ (s : State) (port : Fin 8) (ck : GcmCheck) (f : ChainFrame) (r : ChainReq), ChainTaken s port ck f → findReq s f.pfx.tag = some r →
      (∀ line, f.body = .data line → r.write = false → exec (.chData port ck f) s = .next (settled s (chainEnd
        (giveData (noteHolder (dropReq s r.tag) r) r (if f.pfx.poison then poisonLine else { data := line, poison := false }))))) ∧
      (f.body = .cmpl → r.write = true → exec (.chCmpl port ck f) s = .next (settled s (chainEnd (giveDone (noteHolder (dropReq s r.tag) r) r)))) ∧
      (f.body = .refuse → r.write = false → exec (.chRefuse port ck f) s = .next (settled s (chainEnd (giveData (dropReq s r.tag) r poisonLine)))) ∧
      (f.body = .refuse → r.write = true → exec (.chRefuse port ck f) s = .next (settled s (chainEnd (giveDone (dropReq s r.tag) r)))) ∧
      (f.body = .abort → exec (.chAbort port ck f) s = .next (settled s (chainEnd (resendReq 4 s { r with unsure := true } false)))) ∧
      (f.body = .unreach → exec (.chUnreach port ck f) s = .next (settled s (chainEnd (resendReq 4 s r true)))) ∧
      (exec (.chainResponseTimeout f.pfx.tag) s = .next (settled s (chainEnd (resendReq 4 s { r with unsure := true } false))))) ∧
  (∀ (s : State) (port : Fin 8) (ck : GcmCheck) (f : ChainFrame) (node : Fin 4096) (e : Word), ChainTaken s port ck f → f.body = .stale node e →
      (∀ r, findReq (setFlag s Reg.FLK_CHAIN_ERR.stale) f.pfx.tag = some r →
        exec (.chStale port ck f) s = .next (settled s (chainEnd (resendReq 4 (setFlag s Reg.FLK_CHAIN_ERR.stale) r true)))) ∧
      (findReq (setFlag s Reg.FLK_CHAIN_ERR.stale) f.pfx.tag = none →
        exec (.chStale port ck f) s = .next (settled s (chainEnd (setFlag s Reg.FLK_CHAIN_ERR.stale))))) ∧
  (∀ (s u : State) (port : Fin 8) (ck : GcmCheck) (f : ChainFrame) (dpa : DWord) (be : ByteMask) (data : Line) (m : MetaValue) (p : Nat),
      ChainTaken s port ck f → readPrefix s f.pfx = u →
      (f.body = .read dpa m → serving u = true → classBound u f.pfx = true →
        chainAllows u (0x200 + port.val * 32 + f.pfx.cls.val) (chainLine dpa) 1 = some p →
        exec (.chRead port ck f) s = .next (settled s (acceptRead u
          (.chain (Fin.ofNat 4096 (0x200 + port.val * 32 + f.pfx.cls.val)) f.pfx.srcNode.val f.pfx.tag.toNat) (0x200 + port.val * 32 + f.pfx.cls.val) p
          (chainLine dpa) m).2)) ∧
      (f.body = .read dpa m → serving u = true → classBound u f.pfx = true →
        chainAllows u (0x200 + port.val * 32 + f.pfx.cls.val) (chainLine dpa) 1 = none →
        exec (.chRead port ck f) s = .next (settled s (refuseChain u (0x200 + port.val * 32 + f.pfx.cls.val) (chainLine dpa) f.pfx))) ∧
      (f.body = .read dpa m → serving u = true → classBound u f.pfx = false →
        exec (.chRead port ck f) s = .next (settled s (refuseChain (setFlag u Reg.FLK_CHAIN_ERR.class_refused)
          (0x200 + port.val * 32 + f.pfx.cls.val) (chainLine dpa) f.pfx))) ∧
      (f.body = .read dpa m → serving u = false → exec (.chRead port ck f) s = .next (settled s (answerChain u f.pfx .unreach))) ∧
      (f.body = .write dpa be data m → serving u = true → classBound u f.pfx = true →
        (u.chain.done.contains (f.pfx.srcNode.val, f.pfx.tag) = true →
          exec (.chWrite port ck f) s = .next (settled s (answerChain u f.pfx .cmpl))) ∧
        (u.chain.done.contains (f.pfx.srcNode.val, f.pfx.tag) = false → chainUnderWay u f.pfx = true →
          exec (.chWrite port ck f) s = .next (settled s u)) ∧
        (u.chain.done.contains (f.pfx.srcNode.val, f.pfx.tag) = false → chainUnderWay u f.pfx = false →
          chainAllows u (0x200 + port.val * 32 + f.pfx.cls.val) (chainLine dpa) 2 = none →
          exec (.chWrite port ck f) s = .next (settled s (refuseChain u (0x200 + port.val * 32 + f.pfx.cls.val) (chainLine dpa) f.pfx))) ∧
        (u.chain.done.contains (f.pfx.srcNode.val, f.pfx.tag) = false → chainUnderWay u f.pfx = false →
          chainAllows u (0x200 + port.val * 32 + f.pfx.cls.val) (chainLine dpa) 2 = some p → takesWrites (plotRec u p) = false →
          exec (.chWrite port ck f) s = .next (settled s (refuseChain u (0x200 + port.val * 32 + f.pfx.cls.val) (chainLine dpa) f.pfx))) ∧
        (u.chain.done.contains (f.pfx.srcNode.val, f.pfx.tag) = false → chainUnderWay u f.pfx = false →
          chainAllows u (0x200 + port.val * 32 + f.pfx.cls.val) (chainLine dpa) 2 = some p → takesWrites (plotRec u p) = true →
          (dedupUsed u < dedupCap → exec (.chWrite port ck f) s = .next (settled s (acceptHostWrite u
            (.chain (Fin.ofNat 4096 (0x200 + port.val * 32 + f.pfx.cls.val)) f.pfx.srcNode.val f.pfx.tag.toNat)
            (0x200 + port.val * 32 + f.pfx.cls.val) p (chainLine dpa) data be f.pfx.poison m).2)) ∧
          (dedupCap ≤ dedupUsed u → u.chain.dedupWaits = [] → exec (.chWrite port ck f) s = .next (settled s
            { setFlag u Reg.FLK_CHAIN_ERR.dedup_full with chain.dedupWaits := [(port, f)] })))) ∧
      (f.body = .write dpa be data m → serving u = true → classBound u f.pfx = false →
        exec (.chWrite port ck f) s = .next (settled s (refuseChain (setFlag u Reg.FLK_CHAIN_ERR.class_refused)
          (0x200 + port.val * 32 + f.pfx.cls.val) (chainLine dpa) f.pfx))) ∧
      (f.body = .write dpa be data m → serving u = false →
        exec (.chWrite port ck f) s = .next (settled s (answerChain u f.pfx .unreach))))

/-- Snoops between nodes (R401): a request for a window's line waits its turn among this node's own requests; an answer, or the end of its
time, frees the slot; a modified line that comes with an answer is ordered first, where its master may write it (R213). Frames for another
node pass on (R392 to R395): one hop fewer, by the route to their destination, counted; with no hop left or no route the ingress node hears
that its request is unreachable; a frame whose tag fails is discarded here, is cut short in transit, and the ingress node hears of the
abort. A node sends its own HELLO on every port that is up, and keeps its neighbours'. Chain ports and identity (R384, R386, R392, R402,
R404): a port that goes down or comes up shows in its status and is counted; a window takes effect unless it overlaps a plot or another
window; a node ID takes effect with the epoch written before it. -/
def Obligations.ChainFrames : Prop :=
  ((∀ (s : State) (port : Fin 8) (ck : GcmCheck) (f : ChainFrame) (dpa : DWord) (inv : Bool) (ahead : List Word) (line : Nat), ChainTaken s port ck f →
      f.body = .snoopReq dpa inv ahead → s.chain.snoopWaits = [] → snoopsFor (noteEpoch s f.pfx) (.chain f.pfx.srcNode.val f.pfx.tag.toNat) = [] →
      windowLine (noteEpoch s f.pfx) f.pfx.srcNode (chainLine dpa) = some line →
      exec (.chSnoopReq port ck f) s = .next (settled s { noteEpoch s f.pfx with
        chain.snoopWaits := [(f.pfx.srcNode.val, f.pfx.tag.toNat, line, inv, ahead)] })) ∧
    (∀ (s : State) (port : Fin 8) (ck : GcmCheck) (f : ChainFrame) (x : Snoop), ChainTaken s port ck f → f.body = .snoopRsp none →
      (s.fcd.snoops.find? fun x => x.id = f.pfx.tag.toNat && decide (0x200 ≤ x.target)) = some x →
      exec (.chSnoopRsp port ck f) s = .next (settled s (answerSnoop s x))) ∧
    (∀ (s : State) (port : Fin 8) (ck : GcmCheck) (f : ChainFrame) (x : Snoop) (line : Line) (p : Nat), ChainTaken s port ck f →
      f.body = .snoopRsp (some line) → (s.fcd.snoops.find? fun x => x.id = f.pfx.tag.toNat && decide (0x200 ≤ x.target)) = some x →
      (chainBackPlot s x.target x.line = some p → exec (.chSnoopRsp port ck f) s = .next (settled s (
        let w := acceptHostWrite s (.writeBack (Fin.ofNat 4096 x.target)) x.target p x.line line (BitVec.allOnes 64) f.pfx.poison .invalid
        answerSnoop (advanceWrite w.2 w.1) x))) ∧
      (chainBackPlot s x.target x.line = none → exec (.chSnoopRsp port ck f) s = .next (settled s
        (answerSnoop (countDenial s x.target ((reach s x.line).getD 0xFFF) x.line) x)))) ∧
    (∀ (s : State) (id : Nat) (x : Snoop),
      (s.fcd.snoops.find? fun x => x.id = id && decide (0x200 ≤ x.target) && decide (x.target < 0x300)) = some x →
      exec (.chainSnoopTimeout id) s = .next (settled s (
        let u := raise (setFlag s Reg.FLK_CHAIN_ERR.snoop_late) 1528 .biTimeout x.target [x.target, (plotOfLine s x.line).getD 0xFFF, x.line * 64]
        answerSnoop (dropPointer u x.line x.target) x)))) ∧
  ((∀ (s : State) (port : Fin 8) (ck : GcmCheck) (f : ChainFrame), chainOn s = true → flushing s = false → chainPortUp s port.val = true →
      chainKeyed s port.val = true → f.dst.val ≠ s.chain.nodeId → ck.first = .good →
      (∀ q, ck.tagOk = true → f.hops.val ≠ 0 → routePort s f.dst.val = some q →
        exec (.chainForward port ck f) s = .next (settled s (
          let g := { f with hops := Fin.ofNat 64 (f.hops.val - 1) }
          let u := incF { s with chain.items := sput (itemHeader itemOpen 0) s.chain.items q (itemHeader 1 (frameBytes g)) }
            Reg.FLK_CHAIN_FWD_CNT.forwarded
          emit { u with chain.sent := supd 0 u.chain.sent q (· + 1) } (.chain (Fin.ofNat 8 q) g)))) ∧
      (∀ q, ck.tagOk = false → f.hops.val ≠ 0 → routePort s f.dst.val = some q → isSnoopFrame f = false → f.pfx.srcNode.val ≠ s.chain.nodeId →
        exec (.chainForward port ck f) s = .next (settled s (
          let g := { f with hops := Fin.ofNat 64 (f.hops.val - 1) }
          let v := incF (setFlag s Reg.CKU_ERR.tag_fail) Reg.CKU_TAG_FAIL.frame
          let u := { v with
            chain.items := sput (itemHeader itemOpen 0) v.chain.items q (itemHeader itemFailed (frameBytes g))
            chain.sent := supd 0 v.chain.sent q (· + 1) }
          answerChain (incF (emit u (.chainFailTag (Fin.ofNat 8 q) g)) Reg.FLK_CHAIN_ABORT.aborts) f.pfx .abort))) ∧
      (ck.tagOk = true → f.hops.val = 0 → isSnoopFrame f = false → f.pfx.srcNode.val ≠ s.chain.nodeId →
        exec (.chainForward port ck f) s = .next (settled s (answerChain (incF s Reg.FLK_CHAIN_DROP.hop_expired) f.pfx .unreach))) ∧
      (ck.tagOk = true → f.hops.val ≠ 0 → routePort s f.dst.val = none → isSnoopFrame f = false → f.pfx.srcNode.val ≠ s.chain.nodeId →
        exec (.chainForward port ck f) s = .next (settled s (answerChain (incF s Reg.FLK_CHAIN_DROP.no_route) f.pfx .unreach)))) ∧
    (∀ (s : State) (port : Fin 8) (ck : GcmCheck) (f : ChainFrame), chainOn s = true → flushing s = false → chainPortUp s port.val = true →
      chainKeyed s port.val = true → f.dst.val = s.chain.nodeId → ck.first = .good → ck.tagOk = false →
      exec (.chainForward port ck f) s = .next (settled s (incF (setFlag (incFiBy s (chainPortField Reg.FLK_CP_CORR_CNT.corrected port.val) 0 1)
        Reg.CKU_ERR.tag_fail) Reg.CKU_TAG_FAIL.frame))) ∧
    (∀ (s : State) (port : Fin 8) (ck : GcmCheck) (f : ChainFrame) (node : Fin 4096) (e : Word), chainOn s = true → f.body = .hello node e →
      ck.tagOk = true → ck.first = .good →
      exec (.chHello port ck f) s = .next (settled s { s with chain.neighbours := sput (0, 0) s.chain.neighbours port.val (node.val, e) })) ∧
    (∀ s : State, chainOn s = true → (List.range 8).filter (chainPortUp s) = [0] →
      exec .chHelloTimer s = .next (finished s (emit { s with chain.sent := supd 0 s.chain.sent 0 (· + 1) } (.chain 0 {
        dst := nodeOf (sget (0, 0) s.chain.neighbours 0).1, hops := maxHops s, epoch := (sget (0, 0) s.chain.neighbours 0).2
        pfx := { srcNode := nodeOf s.chain.nodeId, cls := 0, poison := false, srcEpoch := s.chain.nodeEpoch, tag := 0, lowTag := 0 }
        body := .hello (nodeOf s.chain.nodeId) s.chain.nodeEpoch })))) ∧
    (∀ s : State, chainOn s = false → exec .chHelloTimer s = .next (finished s s))) ∧
  ((∀ (s : State) (port : Fin 8), getF s Reg.FLK_CHAIN_STS.ports_up / 2 ^ port.val % 2 = 1 →
      exec (.chainPortDown port none) s = .next (finished s (incFiBy (setF (setF
        (setF s Reg.FLK_CHAIN_STS.ports_up (clearBit (getF s Reg.FLK_CHAIN_STS.ports_up) port.val))
        (chainPortField Reg.FLK_CP_STS.up port.val) 0) (chainPortField Reg.FLK_CP_STS.lanes port.val) 0)
        (chainPortField Reg.FLK_CP_RETRY_CNT.downs port.val) 0 1))) ∧
    (∀ (s : State) (port : Fin 8), flushing s = false → getF s Reg.FLK_CHAIN_STS.ports_up / 2 ^ port.val % 2 = 0 →
      exec (.chainPortUp port) s = .next (finished s (setF (setF
        (setF s Reg.FLK_CHAIN_STS.ports_up (getF s Reg.FLK_CHAIN_STS.ports_up + 2 ^ port.val))
        (chainPortField Reg.FLK_CP_STS.up port.val) 1) (chainPortField Reg.FLK_CP_STS.lanes port.val) 4))) ∧
    (∀ (s : State) (who : Accessor) (value : Word) (w : Window), isManager s who = true →
      windowAt s (selOf s who Reg.FLK_WIN_SEL.window) value = some w →
      (windowOverlaps s (selOf s who Reg.FLK_WIN_SEL.window) w = true →
        exec (.windowCommit who value) s = .next (finished s (setFlag s Reg.FLK_CHAIN_ERR.win_overlap))) ∧
      (windowOverlaps s (selOf s who Reg.FLK_WIN_SEL.window) w = false →
        exec (.windowCommit who value) s = .next (finished s { writeBits s 0x9000820 (selOf s who Reg.FLK_WIN_SEL.window) value 0 with
          chain.windows := sput none s.chain.windows (selOf s who Reg.FLK_WIN_SEL.window) (some w) }))) ∧
    (∀ (s : State) (who : Accessor) (value : Word), isManager s who = true → windowAt s (selOf s who Reg.FLK_WIN_SEL.window) value = none →
      exec (.windowCommit who value) s = .next (finished s { writeBits s 0x9000820 (selOf s who Reg.FLK_WIN_SEL.window) value 0 with
        chain.windows := sput none s.chain.windows (selOf s who Reg.FLK_WIN_SEL.window) none })) ∧
    (∀ (s u : State) (who : Accessor) (value : Word), isManager s who = true → writeBits s 0x9000800 0 value 0 = u →
      exec (.chainCfgWrite who value) s = .next (finished s { u with
        chain.nodeId := getF u Reg.FLK_CHAIN_CFG.node_id, chain.nodeEpoch := regAt u 0x9000804 0 })))

/-! ### Tier movement and Bedrock (08, 09) -/

/-- Lifts, evictions and frames (R253, R308, R310 to R313, R324, R326): a decay halves every cached heat; a lift whose sixteen grains have
come commits, counts and begins its hold, once its engine can reach the frames; a hold that lapses is over; a clean victim leaves at once
and a dirty one is queued for settling; with no resident victim a clod being lifted is to leave after its lift; a frame whose ordered reads
have ended joins the free pool, or its overlay the free overlays. Settling (R182, R314, R315, R319 to R322, R324, R329): the governor's
round queues what marked strata, back-pressure, hints and overlays ask for and offers it by class; a request whose clod is being lifted is
counted once and waits; a clod dirty for age_s is queued in class 4; a unit whose fill time is over is programmed as it stands; a minute's
end drops the bin that is 1,440 minutes old, offers refused clods again and lets a changed TMG_GOV_CFG act. A die's sequencer (R276, R277,
R278, R317): an idle die takes its operation of lowest rank among those whose data have their buffers; a busy program or erase is suspended
for such a read of rank 2 or 3 while its suspensions and the time since its last resume allow; a suspended one resumes when no read waits.
-/
def Obligations.TierMovement : Prop :=
  ((∀ s : State, exec .heatDecay s =
      .next (settled s ((mapCached s).foldl (fun s c => updEntry s c fun e => { e with heat := e.heat / 2 }) s))) ∧
    (∀ (s : State) (clod : ClodNo) (l : Lift), (s.tmg.lifts.find? fun l => l.clod = clod.val) = some l →
      frameHeld s l.frame = false → clodHeld s l.clod = false →
      (l.image = none → l.got = BitVec.allOnes 16 → (entryOf s l.clod).crcBad = false →
        exec (.liftCommit clod) s = .next (settled s (holdLift (incF (commitLift
          { s with tmg.lifts := s.tmg.lifts.filter fun x => x.clod ≠ l.clod } l) Reg.TMG_LIFT_CNT.lifts) l))) ∧
      (∀ im, l.image = some im →
        exec (.liftCommit clod) s = .next (settled s (holdLift (incF (commitFetched
          (engineFrame { s with tmg.lifts := s.tmg.lifts.filter fun x => x.clod ≠ l.clod } l.engine true l.frame 0 32) l.clod l.frame im)
          Reg.TMG_LIFT_CNT.lifts) l)))) ∧
    (∀ (s : State) (clod : ClodNo), s.tmg.evictAfter = [] → exec (.liftHoldExpiry clod) s =
      .next (settled s { s with tmg.liftHolds := s.tmg.liftHolds.erase clod.val })) ∧
    (∀ (s : State) (clod : Nat) (e : Entry), evicting s = true → freshVictim s = some (clod, e) →
      exec .evictionStart s = .next (settled s (if e.dirty then queueSettle s clod 3 .eviction else evictClod s clod))) ∧
    (∀ (s : State) (clod : Nat) (e : Entry), evicting s = true → freshVictim s = none → liftVictim s = some (clod, e) →
      exec .evictionStart s = .next (settled s
        { s with tmg.lifts := s.tmg.lifts.map fun l => if l.clod = clod then { l with evict := true } else l })) ∧
    (∀ s : State, evicting s = false → exec .evictionStart s = .next (settled s s)) ∧
    (∀ (s : State) (frame : Nat) (d : Nat × List Nat), (s.tmg.draining.find? fun d => d.1 = frame) = some d →
      (d.2.any fun id => (findRdRec s id).isSome) = false → s.lmc.retired.contains frame = false →
      (frame < overlayFrame s 0 → exec (.frameRelease frame) s = .next (settled s (resourceCheck { s with
        tmg.draining := s.tmg.draining.erase d
        tmg.freedFrames := s.tmg.freedFrames ++ [frame] }))) ∧
      (overlayFrame s 0 ≤ frame → exec (.frameRelease frame) s = .next (settled s (
        let u := setOverlay { s with tmg.draining := s.tmg.draining.erase d } (frame - overlayFrame s 0) { clod := 0, generation := 0, valid := 0 }
        resourceCheck { u with tmg.freedOverlays := s.tmg.freedOverlays ++ [frame - overlayFrame s 0] })))) ∧
    (∀ (s : State) (frame : Nat) (d : Nat × List Nat), (s.tmg.draining.find? fun d => d.1 = frame) = some d →
      (d.2.any fun id => (findRdRec s id).isSome) = true → exec (.frameRelease frame) s = .next (settled s s)) ∧
    (∀ (s : State) (overlay : Fin (2 ^ 21)), s.tmg.overlayFills.contains overlay.val = true →
      exec (.overlayRecordFill overlay false) s =
        .next (settled s (overlayInstall { s with tmg.overlayFills := s.tmg.overlayFills.erase overlay.val } overlay.val)) ∧
      exec (.overlayRecordFill overlay true) s = .next (settled s (
        let u := { s with tmg.overlayFills := s.tmg.overlayFills.erase overlay.val }
        let o := overlayOf u overlay.val
        loseEntry (setFlag (setOverlay u overlay.val { o with crcBad := true }) Reg.TMG_MIG_ERR.overlay_crc) o.clod)))) ∧
  ((∀ (s u : State) (q : SettleReq), tillAll (queueOverlays (queueHints (queuePressure (queueRelocations s)))) = u → u.tmg.queue = [q] →
      stillWanted u q = true → (u.tmg.lifts.any fun l => l.clod = q.clod) = false → q.refused = false → burstRoom u = true →
      (granted u q.cls = true → q.reason ≠ .override_ → ∀ t, startSettle u q = some t →
        exec .settleGrant s = .next (settled s (countGrant (dequeue t q.clod) q.cls))) ∧
      (granted u q.cls = false →
        exec .settleGrant s = .next (settled s (countRefused { u with tmg.queue := [{ q with refused := true }] } q.cls)))) ∧
    (∀ (s u : State) (q : SettleReq), tillAll (queueOverlays (queueHints (queuePressure (queueRelocations s)))) = u → u.tmg.queue = [q] →
      (stillWanted u q = false → exec .settleGrant s = .next (settled s (dequeue u q.clod))) ∧
      (stillWanted u q = true → (u.tmg.lifts.any fun l => l.clod = q.clod) = true → q.waits = false → (entryOf u q.clod).dirty = true →
        exec .settleGrant s = .next (settled s { incF u Reg.TMG_RACE_CNT.settle_cancel with tmg.queue := [{ q with waits := true }] }))) ∧
    (∀ (s : State) (unit : Nat) (u : ProgUnit), findUnit s unit = some u → (u.slots.isEmpty && u.segments.isEmpty) = false →
      exec (.unitFillTimeout unit) s = .next (settled s (startUnit s unit))) ∧
    (∀ (s : State) (clod : ClodNo), (entryOf s clod.val).dirty = true →
      exec (.settleAgeTrigger clod) s = .next (settled s (queueSettle s clod.val 4 .age))) ∧
    (∀ s : State, exec .governorMinute s = .next (settled s { s with
      tmg.minute := s.tmg.minute + 1
      tmg.bins := s.tmg.bins.filter fun b => decide (s.tmg.minute + 1 < b.1 + 1440)
      tmg.grantedSlow := 0
      tmg.refusedClass := 0
      tmg.govCfg := regAt s Reg.TMG_GOV_CFG.avg_mbps.addr 0
      tmg.queue := s.tmg.queue.map fun q => { q with refused := false } }))) ∧
  ((∀ (s : State) (die : Fin 1536) (op : DieOp), (bchan s (die.val / 16)).lost = false → (bchan s (die.val / 16)).zqUntil ≤ s.devTime →
      (dieAt s die.val).busy = none → (dieAt s die.val).held = none → nextOp (dieAt s die.val) (opStaged s) = some op →
      exec (.bfcSequencerIssue die) s = .next (settled s (issueOp s die.val op))) ∧
    (∀ (s : State) (die : Fin 1536) (op r : DieOp), (bchan s (die.val / 16)).lost = false → (bchan s (die.val / 16)).zqUntil ≤ s.devTime →
      (dieAt s die.val).busy = some op → (dieAt s die.val).held = none →
      nextOp (dieAt s die.val) (fun o => pressing o && opStaged s o) = some r →
      (suspendable s op = true → exec (.bfcSequencerIssue die) s = .next (settled s (issueOp
        (updDie s die.val fun x => { x with held := some { op with suspends := op.suspends + 1 } }) die.val r))) ∧
      (suspendable s op = false → exec (.bfcSequencerIssue die) s = .next (settled s s))) ∧
    (∀ (s : State) (die : Fin 1536) (op : DieOp), (bchan s (die.val / 16)).lost = false → (bchan s (die.val / 16)).zqUntil ≤ s.devTime →
      (dieAt s die.val).busy = none → (dieAt s die.val).held = some op → nextOp (dieAt s die.val) (fun o => o.kind = 0 && opStaged s o) = none →
      exec (.bfcSequencerIssue die) s = .next (settled s
        (updDie s die.val fun x => { x with busy := some { op with startedAt := s.devTime }, held := none }))) ∧
    (∀ (s : State) (die : Fin 1536), (bchan s (die.val / 16)).lost = true → exec (.bfcSequencerIssue die) s = .next (settled s s)) ∧
    (∀ (s : State) (op : DieOp), suspendable s op = true →
      op.kind ≠ 0 ∧ (op.kind = 1 → op.suspends < fieldOf op.cfg Reg.BFC_SUSPEND_CFG.prog_max.lo Reg.BFC_SUSPEND_CFG.prog_max.width) ∧
      (op.kind = 2 → op.suspends < fieldOf op.cfg Reg.BFC_SUSPEND_CFG.erase_max.lo Reg.BFC_SUSPEND_CFG.erase_max.width) ∧
      (op.suspends = 0 ∨
        op.startedAt + fieldOf op.cfg Reg.BFC_SUSPEND_CFG.suspend_min_us.lo Reg.BFC_SUSPEND_CFG.suspend_min_us.width * 1000 ≤ s.devTime)) ∧
    (∀ (x : Die) (ok : DieOp → Bool) (op : DieOp), nextOp x ok = some op →
      op ∈ x.queue ∧ ok op = true ∧ ∀ o ∈ x.queue, ok o = true → rankNow x op ≤ rankNow x o) ∧
    (∀ (s : State) (channel : Fin 96), (bchan s channel.val).lost = false → getF s (chField Reg.BFC_CH_STS.state channel.val) = 1 →
      (∀ i < 24, (bchan s (channel.val / 24 * 24 + i)).zqUntil ≤ s.devTime) →
      exec (.nandZqRecal channel) s = .next (settled s (updChan s channel.val fun c => { c with zqUntil := s.devTime + 5000 }))))

/-- Grain reads (R16, R278 to R290, R448, R450): a good read of a wanted grain ends it; a bad one starts or climbs the ladder, whether LDPC,
its header or its tag failed; a pair whose cores differ is replaced and the grain decrypted once more; a job refused is a tag failure; a
read that its die has not issued does not end; a hedge reads the rest of the row once, after its time; the ladder's time leads to rung 3; a
fetch unanswered in 2 ms has failed. Slow and failed dies, lost channels (R260, R279 to R282): the medians of every bed are taken over; a
die too slow is quarantined where its bed has fewer than four bad dies, and probed; it serves again once fast; a die that stays busy fails
with what it did; a channel that stops answering is lost. -/
def Obligations.BedrockReads : Prop :=
  ((∀ (s u : State) (id : Nat) (bits : Fin 256) (q : Fin 65536) (ok : Bool) (r : GrainRead), findRead s id = some r → r.purpose = .wanted →
      ((dieAt s r.die).busy.any fun op => op.kind = 0 && op.id = id) = true → gcmSubmit s r.job = u →
      exec (.grainReadComplete id .good bits q ok) s = .next (settled s (wantedGood (readEnds u r .good bits.val q.val) r)) ∧
      exec (.grainReadComplete id .tagFail bits q ok) s = .next (settled s (wantedFails (readEnds u r .tagFail bits.val q.val) r .tagFail)) ∧
      exec (.grainReadComplete id .ldpcFail bits q ok) s = .next (settled s (wantedFails (readEnds s r .ldpcFail bits.val q.val) r .ldpcFail)) ∧
      exec (.grainReadComplete id .headerBad bits q ok) s = .next (settled s (wantedFails (readEnds s r .headerBad bits.val q.val) r .headerBad)) ∧
      (∀ core, r.rechecked = false → exec (.grainReadComplete id (.noVerdict (.differs core)) bits q ok) s = .next (settled s (
        let v := (gcmEnds u (grainMid s r) (.differs core)).2
        updRead v id fun x => { x with rechecked := true, job := gcmAssign v }))) ∧
      exec (.grainReadComplete id (.noVerdict .refused) bits q ok) s = .next (settled s
        (wantedFails (readEnds (gcmEnds u (grainMid s r) .refused).2 r .tagFail bits.val q.val) r .tagFail))) ∧
    (∀ (s : State) (id : Nat) (o : GrainOutcome) (bits : Fin 256) (q : Fin 65536) (ok : Bool) (r : GrainRead), findRead s id = some r →
      ((dieAt s r.die).busy.any fun op => op.kind = 0 && op.id = id) = true →
      (r.purpose = .probe → exec (.grainReadComplete id o bits q ok) s = .next (settled s (dropRead (readEnds s r o bits.val q.val) id))) ∧
      (∀ p reread, r.purpose = .source p reread → exec (.grainReadComplete id o bits q ok) s = .next (settled s
        (sourceReturns (readEnds s r o bits.val q.val) r p reread (o ≠ .ldpcFail && o ≠ .headerBad) ok)))) ∧
    (∀ (s : State) (id : Nat) (o : GrainOutcome) (bits : Fin 256) (q : Fin 65536) (ok : Bool) (r : GrainRead), findRead s id = some r →
      ((dieAt s r.die).busy.any fun op => op.kind = 0 && op.id = id) = false →
      exec (.grainReadComplete id o bits q ok) s = .next (settled s s)) ∧
    (∀ (s : State) (id : Nat) (r : GrainRead), findRead s id = some r → r.purpose = .wanted → r.direct = true → r.hedged = false → r.ladder = none →
      (hedgeDue s r = true →
        exec (.hedgeTimer id) s = .next (settled s (startRebuild (incF (updRead s id fun x => { x with hedged := true }) Reg.BFC_HEDGE.hedges) id))) ∧
      (hedgeDue s r = false → exec (.hedgeTimer id) s = .next (settled s s))) ∧
    (∀ (s : State) (id : Nat) (r : GrainRead), findRead s id = some r → r.purpose = .wanted →
      (ladderDue s r = true → exec (.ladderTimer id) s = .next (settled s (startRung3 (stepRepairs s r) id))) ∧
      (ladderDue s r = false → exec (.ladderTimer id) s = .next (settled s (stepRepairs s r)))) ∧
    (∀ (s : State) (tag : Nat) (f : Nat × Nat), (s.bfc.fetches.find? fun f => f.1 = tag) = some f →
      exec (.clodFetchTimeout tag) s = .next (settled s (fetchFailed s f.2)))) ∧
  ((∀ s : State, exec .bedMedianRecompute s = .next (settled s ([0, 1, 2, 3].foldl (fun s bed => [false, true].foldl (fun s slc =>
      { s with bfc.bedMedian := sput 0 s.bfc.bedMedian (bed * 2 + if slc then 1 else 0) (medianOfBed s bed slc) }) s) s))) ∧
    (∀ (s : State) (die : Fin 1536), (dieAt s die.val).state = 0 → (tooSlow s die.val false || tooSlow s die.val true) = true →
      badDies s (bedOfDie die.val) < 4 →
      exec (.quarantineEntry die) s = .next (settled s (checkBadDies (raise (setFlag (updDie s die.val fun x => { x with state := 1 })
        Reg.BFC_ERR.quarantine) (channelSource (die.val / 16)) .quarantine 0xFFF [die.val / 16, die.val % 16]) (bedOfDie die.val)))) ∧
    (∀ (s : State) (die : Fin 1536), (dieAt s die.val).state = 0 → (tooSlow s die.val false || tooSlow s die.val true) = true →
      4 ≤ badDies s (bedOfDie die.val) →
      exec (.quarantineEntry die) s =
        .next (settled s (raise s (channelSource (die.val / 16)) .slowDie 0xFFF [die.val / 16, die.val % 16]))) ∧
    (∀ (s : State) (die : Fin 1536), (dieAt s die.val).state = 1 → fastAgain s die.val false = true → fastAgain s die.val true = true →
      exec (.quarantineExit die) s = .next (settled s (updDie s die.val fun x => { x with state := 0 }))) ∧
    (∀ (s : State) (die : Fin 1536), (dieAt s die.val).state = 1 →
      exec (.probeReadTimer die) s = .next (settled s (pushRead s {
        id := 0, purpose := .probe, clod := 0, grain := 0, bed := bedOfDie die.val, stratum := probeStratum s die.val
        row := 0, pos := die.val / 16 % 24, die := die.val, slc := (stratumAt s (bedOfDie die.val) (probeStratum s die.val)).slc } 5))) ∧
    (∀ (s : State) (die : Fin 1536) (op : DieOp), (dieAt s die.val).busy = some op → (dieAt s die.val).held = none → op.kind = 2 →
      exec (.dieBusyTimeout die) s = .next (settled s (queueRelocations (eraseFail (giveUpReads (failDie (updDie
        (setFlag s (chField Reg.BFC_CH_ERR.die_timeout (die.val / 16))) die.val fun x => { x with busy := none, held := none }) die.val) die.val)
        (op.id / 1048576) (op.id % 1048576) (die.val / 16))))) ∧
    (∀ (s : State) (channel : Fin 96), (bchan s channel.val).lost = false →
      exec (.channelLost channel) s = .next (settled s (
        let s1 := ((List.range 16).map fun i => channel.val * 16 + i).foldl giveUpReads (markLost s channel.val)
        relocateBed ((s1.bfc.units.filter fun u => u.bed = channel.val / 24).foldl moveUnit s1) (channel.val / 24)))) ∧
    (∀ (s : State) (channel : Fin 96), (bchan s channel.val).lost = true → exec (.channelLost channel) s = .next (settled s s)))

/-- Programs, erases and the retention scan (R263, R290, R292, R293, R295): a started unit's end seals its rows, and a failure moves its
stratum's units, on a channel or in its encryption, which is done once more (R448, R450); a STALE stratum that is not being read is erased
on all 24 channels; a failed erase retires its block pair; a scanned row counts its corrections and puts its stratum up for relocation where
one grain is over refresh_bits. The end of Bedrock training (R257 to R260, R271, R556): a population that no rule allows halts the start
with code 5; a good one is taken over with each channel's result, and the start goes on. -/
def Obligations.BedrockProgramsAndTraining : Prop :=
  ((∀ (s v : State) (unit : Nat) (u : ProgUnit), findUnit s unit = some u → u.started = true → gcmSubmit s u.job = v →
      exec (.programUnitDone unit none .good) s = .next (settled s (unitSealed v u)) ∧
      (∀ c : Fin 24, exec (.programUnitDone unit (some c) .good) s = .next (settled s (programFail v u (some (u.bed * 24 + c.val))))) ∧
      (∀ (c : Option (Fin 24)) (core : Fin 24), u.again = false → exec (.programUnitDone unit c (.differs core)) s = .next (settled s (
        let w := (gcmEnds v (unitMid u) (.differs core)).2
        updUnit w unit fun x => { x with again := true, job := gcmAssign w }))) ∧
      ∀ c : Option (Fin 24), exec (.programUnitDone unit c .refused) s =
        .next (settled s (programFail (gcmEnds v (unitMid u) .refused).2 u none))) ∧
    (∀ (s : State) (bed : Fin 4) (k : Fin (2 ^ 20)), (stratumAt s bed.val k.val).state = .stale → (stratumAt s bed.val k.val).reading = 0 →
      (stratumAt s bed.val k.val).erasing = false →
      exec (.staleStratumErase bed k) s = .next (settled s ((List.range 24).foldl (fun s' c => dieQueue s'
        ((bed.val * 24 + c) * 16 + dieIndex s' (bed.val * 24 + c) k.val) { rank := 6, kind := 2, id := stratumKey bed.val k.val, startedAt := s'.devTime })
        (updStratum s bed.val k.val fun x => { x with erasing := true })))) ∧
    (∀ (s : State) (bed : Fin 4) (k : Fin (2 ^ 20)), (stratumAt s bed.val k.val).reading ≠ 0 →
      exec (.staleStratumErase bed k) s = .next (settled s s)) ∧
    (∀ (s : State) (bed : Fin 4) (k : Fin (2 ^ 20)), (stratumAt s bed.val k.val).erasing = true → (stratumAt s bed.val k.val).badChannels = [] →
      exec (.eraseDone bed k none) s = .next (settled s (recountBedrock (updStratum (forgetStratum (countErase
        ((List.range 24).foldl (fun s' c => dieDone s' ((bed.val * 24 + c) * 16 + dieIndex s' (bed.val * 24 + c) k.val) 2 (stratumKey bed.val k.val)) s)
        bed.val k.val) bed.val k.val) bed.val k.val fun x => { state := .erased, eraseCount := x.eraseCount, gen := x.gen, reading := x.reading }))) ∧
      ∀ c : Fin 24, exec (.eraseDone bed k (some c)) s = .next (settled s (eraseFail s bed.val k.val (bed.val * 24 + c.val)))) ∧
    (∀ (s u : State) (bed : Fin 4) (k : Fin (2 ^ 20)) (row : Fin 16384) (bits : List (Fin 256)), (stratumAt s bed.val k.val).state = .sealed →
      rowScanned s bed.val k.val row.val bits = u →
      exec (.retentionScan bed k row bits) s = .next (settled s (
        if max 1 (getF u Reg.BFC_RETAIN_CFG.retain_days) * 86400000000000 ≤ mediaTime u - (stratumAt u bed.val k.val).sealTime ∨
            (bits.any fun n => decide (refreshBits (refreshNow u) < n.val)) = true then
          queueRelocations (updStratum u bed.val k.val fun x => { x with relocate := true })
        else u)))) ∧
  ((∀ (s : State) (channels : List (Option (Fin 5))) (page : DiePage) (bad : List (Fin 96 × Fin (2 ^ 20))),
      s.glb.bedrockReady = false → stage s ≠ stHalted → badPage page = true →
      exec (.bedrockTrainingDone channels page true bad) s = .next (settled s (haltStart (setFlag s Reg.BFC_POP.pop_err) 5))) ∧
    (∀ (s : State) (channels : List (Option (Fin 5))) (page : DiePage) (bad : List (Fin 96 × Fin (2 ^ 20))),
      s.glb.bedrockReady = false → stage s ≠ stHalted →
      exec (.bedrockTrainingDone channels page false bad) s = .next (settled s (haltStart (setFlag s Reg.BFC_POP.pop_err) 5))) ∧
    (∀ (s : State) (channels : List (Option (Fin 5))) (page : DiePage),
      s.glb.bedrockReady = false → stage s ≠ stHalted → badPage page = false →
      exec (.bedrockTrainingDone channels page true []) s = .next (settled s (
        let u := ((List.range channels.length).zip channels).foldl (fun s e => channelTrained s e.1 e.2)
          (takePage { s with glb.bedrockReady := true } page)
        trainingStep ((List.range 4).foldl checkBadDies (recountBedrock { u with bfc.marksRead := true }))))) ∧
    (∀ (s : State) (channels : List (Option (Fin 5))) (page : DiePage) (ok : Bool) (bad : List (Fin 96 × Fin (2 ^ 20))),
      s.glb.bedrockReady = true ∨ stage s = stHalted → exec (.bedrockTrainingDone channels page ok bad) s = .next (settled s s)))

/-! ### Loam and data integrity (07, 12) -/

/-- A subchannel's scheduler (R229 to R233, R242, R250): a training step that is due starts first unless a kiln flush's request waits; on a
channel that does not serve nothing issues; on a serving one post-package repairs that wait begin, then a kiln flush's request goes first,
then a due refresh, then what R230 picks. An activation that would bring RAA to RAAIMT is preceded by RFMsb and waits. Row disturbance,
refresh and the row timer (R227, R231, R233 to R236, R239): a window's end releases the throttles that have been quiet long enough and
restarts the counts; an alert issues the RFM commands it asks for, where the DIMMs advertise per-row activation counting and prac_en is set;
a write-CRC alert sends its write again; a refresh becomes due unless the channel refreshes itself; an idle row closes; a poll above 85 °C
doubles the refresh rate, one above the critical limit raises the event once, and a DIMM that has moved by 10 °C since the last centering
asks for a retraining (R243). -/
def Obligations.LoamScheduling : Prop :=
  ((∀ (s u : State) (sub : Fin 32),
      (if (waitingReqs (countMisses s sub.val) sub.val).any (fun r => r.mid = 0x31C) = true then countMisses s sub.val
        else startDue (countMisses s sub.val) (sub.val / 2)) = u →
      (loamState u (sub.val / 2) ≠ 1 → exec (.lmcCommandIssue sub) s = .next (ended s u)) ∧
      ∀ v d : State, loamState u (sub.val / 2) = 1 → startSpprs u sub.val = v →
        { v with lmc.draining := sput false v.lmc.draining sub.val (drainsNow v sub.val (waitingReqs v sub.val)) } = d →
        (∀ r, oldest (eligible v sub.val (waitingReqs v sub.val)) (fun r => r.mid = 0x31C) = some r →
          exec (.lmcCommandIssue sub) s = .next (ended s (issueRequest d sub.val r))) ∧
        (oldest (eligible v sub.val (waitingReqs v sub.val)) (fun r => r.mid = 0x31C) = none →
          (∀ k, dueBank v sub.val = some k → exec (.lmcCommandIssue sub) s = .next (ended s (issueRefresh d k))) ∧
          (dueBank v sub.val = none → ∀ r, pickRequest d sub.val (drainsNow v sub.val (waitingReqs v sub.val)) (waitingReqs v sub.val)
              (eligible v sub.val (waitingReqs v sub.val)) = some r →
            exec (.lmcCommandIssue sub) s = .next (ended s (issueRequest d sub.val r))))) ∧
    (∀ (s : State) (sub : Nat) (r : LmcReq), hitsRow s sub r = false →
      s.lmc.raaimt ≤ (loamBank s (sub * 512 + bankOf s r.lpa)).raa + 1 → issueRequest s sub r = issueRfm s (sub * 512 + bankOf s r.lpa)) ∧
    (∀ (s : State) (sub : Nat) (all q : List LmcReq) (r : LmcReq), (∃ x ∈ q, x.write = false ∧ levelOf s x = 3) →
      pickRequest s sub false all q = some r → r.write = false ∧ levelOf s r = 3)) ∧
  ((∀ s : State, s.lmc.throttles = [] → exec .actWindowEnd s = .next (finished s (setF { (s.lmc.banks.map (·.1)).foldl
      (fun s k => updBank s k fun b => { b with acts := 0, top := [], limited := false }) s with lmc.throttles := [] } Reg.LMC_THROTTLE_STS.active 0))) ∧
    (∀ (s : State) (sub : Fin 32) (bank : Fin 512) (rfms : Fin 16), flag s Reg.LMC_RD_CFG.prac_en = true → s.lmc.prac = true →
      exec (.alertBackoff sub bank rfms) s =
        .next (finished s ((List.range rfms.val).foldl (fun s _ => issueRfm s (sub.val * 512 + bank.val)) s))) ∧
    (∀ (s : State) (sub : Fin 32) (bank : Fin 512) (rfms : Fin 16), flag s Reg.LMC_RD_CFG.prac_en = false ∨ s.lmc.prac = false →
      exec (.alertBackoff sub bank rfms) s = .next (finished s s)) ∧
    (∀ (s : State) (sub : Fin 32) (id : Nat), flag s Reg.LMC_CFG.wcrc_en = true →
      ((sget [] s.lmc.queues sub.val).any fun r => r.id = id && r.write && r.issued) = true →
      exec (.writeCrcAlert sub id) s = .next (finished s (setFlag { s with
        lmc.queues := sput [] s.lmc.queues sub.val ((sget [] s.lmc.queues sub.val).map fun r => if r.id = id then { r with issued := false } else r) }
        (lmcField Reg.LMC_CH_ERR.wcrc (sub.val / 2))))) ∧
    (∀ (s : State) (sub : Fin 32) (bank : Fin 512), exec (.refreshDue sub bank) s = .next (finished s
      (if loamState s (sub.val / 2) = 3 then s else updBank s (sub.val * 512 + bank.val) fun b => { b with refreshDue := true }))) ∧
    (∀ (s : State) (sub : Fin 32) (bank : Fin 512), exec (.rowIdleClose sub bank) s = .next (finished s
      (if ((waitingReqs s sub.val).any fun r => bankOf s r.lpa = bank.val) = true then s
       else updBank s (sub.val * 512 + bank.val) fun b => { b with openRow := none, streak := 0 }))) ∧
    (∀ (s u : State) (channel : Fin 16) (d0 d1 : Fin 256) (t : Nat), flag s Reg.LMC_POP.dpc2 = true → max d0.val d1.val = t →
      updLoamChan (setF s (lmcField Reg.LMC_CH_STS.temp_max_c channel.val) t) channel.val
        (fun c => { c with refresh2x := decide (85 < t), temps := (d0.val, d1.val) }) = u → t ≤ s.lmc.critC →
      ((movedTen (loamChan u channel.val).tempAtCenter.1 d0.val || movedTen (loamChan u channel.val).tempAtCenter.2 d1.val) = false →
        exec (.thermalPoll channel d0 d1) s = .next (finished s u)) ∧
      ((movedTen (loamChan u channel.val).tempAtCenter.1 d0.val || movedTen (loamChan u channel.val).tempAtCenter.2 d1.val) = true →
        exec (.thermalPoll channel d0 d1) s = .next (finished s (startDue (askRetrain u channel.val false) channel.val)))) ∧
    (∀ (s u : State) (channel : Fin 16) (d0 d1 : Fin 256), flag s Reg.LMC_POP.dpc2 = false →
      updLoamChan (setF s (lmcField Reg.LMC_CH_STS.temp_max_c channel.val) d0.val) channel.val
        (fun c => { c with refresh2x := decide (85 < d0.val), temps := (d0.val, 0) }) = u → s.lmc.critC < d0.val →
      getF s (lmcField Reg.LMC_CH_STS.temp_max_c channel.val) ≤ s.lmc.critC →
      (movedTen (loamChan u channel.val).tempAtCenter.1 d0.val || movedTen (loamChan u channel.val).tempAtCenter.2 0) = false →
      exec (.thermalPoll channel d0 d1) s = .next (finished s (setFlag (raise u (loamSource channel.val) .overtemp 0xFFF [channel.val, d0.val])
        (lmcField Reg.LMC_CH_ERR.overtemp channel.val)))))

/-- Periodic training (R242, R243, R246, R248, R249): what falls due starts at once where it may; a step's end frees its channel; a
segment's end restarts the 500 µs of traffic; a parity error has its commands issued again, and the third within 1 ms asks for a retraining
with command and address training; an idle channel enters self-refresh. Speed changes (R244 to R247): a supported target starts a change and
an unsupported one is refused; the rows of the change follow each other; a step that stands in the way is aborted and counted; a channel
that fails goes on at the next lower speed. Loam's training and repair (R222, R240, R246, R250 to R252, R556): a population that no rule
allows, or a channel without a speed, halts the start with code 4; a trained one takes its pools' layout and the start goes on. A repair
gives its two buffers back; a repaired row joins the repair list for each of its devices and its hard log entries leave, and one without a
repair resource is given up. -/
def Obligations.LoamTrainingAndSpeed : Prop :=
  ((∀ (s : State) (channel : Fin 16), exec (.zqCalDue channel) s =
      .next (finished s (startDue (updLoamChan s channel.val fun c => { c with zqDue := true }) channel.val))) ∧
    (∀ (s : State) (channel : Fin 16) (drift : Fin 256), exec (.oscReadDue channel drift) s =
      .next (finished s (startDue (updLoamChan s channel.val fun c =>
        { c with oscDue := some drift.val, driftDue := c.driftNext, driftNext := getF s Reg.LMC_TRAIN_CFG.drift_ps }) channel.val))) ∧
    (∀ (s : State) (channel : Fin 16), exec (.centeringCheckDue channel) s =
      .next (finished s (startDue (updLoamChan s channel.val fun c => { c with centerDue := true }) channel.val))) ∧
    (∀ (s : State) (channel : Fin 16), (loamChan s channel.val).step ≠ 0 →
      exec (.trainingStepDone channel) s = .next (finished s (channelFree (updLoamChan s channel.val fun c => { c with
        step := 0
        tempAtCenter := if c.step = 3 then c.temps else c.tempAtCenter }) channel.val))) ∧
    (∀ (s u : State) (channel : Fin 16), (loamChan s channel.val).segment = true → (loamChan s channel.val).heldByPll = false →
      channelFree (updLoamChan s channel.val fun c => { c with
        segment := false, segmentAt := s.devTime + 500000, heldByPll := false, retrain := true }) channel.val = u → u.lmc.change = none →
      exec (.retrainSegmentEnd channel false) s = .next (finished s u)) ∧
    (∀ (s u : State) (channel : Fin 16) (affected : List Nat),
      (let again (q : List LmcReq) : List LmcReq := q.map fun r => if affected.contains r.id then { r with issued := false } else r
       setFlag { s with lmc.queues := supd [] (supd [] s.lmc.queues (channel.val * 2) again) (channel.val * 2 + 1) again }
         (lmcField Reg.LMC_CH_ERR.ca_par channel.val)) = u →
      ((loamChan s channel.val).caErrors = [] → exec (.caParityError channel affected) s = .next (finished s
        (updLoamChan u channel.val fun c => { c with caErrors := [s.devTime] }))) ∧
      (∀ t1 t2, (loamChan s channel.val).caErrors = [t1, t2] → s.devTime < t1 + 1000000 → s.devTime < t2 + 1000000 →
        exec (.caParityError channel affected) s = .next (finished s (startDue (askRetrain (updLoamChan u channel.val fun c =>
          { c with caErrors := [] }) channel.val true) channel.val)))) ∧
    (∀ (s : State) (channel : Fin 16), getF s Reg.LMC_SR_CFG.idle_us ≠ 0 → quiet s channel.val = true → loamState s channel.val = 1 →
      exec (.selfRefreshIdle channel) s = .next (finished s (closeRows (setLoamState s channel.val 3) channel.val)))) ∧
  ((∀ (s : State) (who : Accessor) (value : Word), isManager s who = true →
      (speedsOf s).contains (wr value Reg.LMC_SPEED_CTL.target) = true → wr value Reg.LMC_SPEED_CTL.change = 1 →
      exec (.speedChange who value) s = .next (finished s (startChange (setF s Reg.LMC_SPEED_CTL.target (wr value Reg.LMC_SPEED_CTL.target))
        (wr value Reg.LMC_SPEED_CTL.target)))) ∧
    (∀ (s : State) (who : Accessor) (value : Word), isManager s who = true →
      (speedsOf s).contains (wr value Reg.LMC_SPEED_CTL.target) = false →
      exec (.speedChange who value) s = .next (finished s (setFlag s Reg.LMC_SPEED_STS.refused))) ∧
    (∀ (s : State) (x : SpeedChange), s.lmc.change = some x → 1 ≤ x.step → x.step < 5 → x.channel ≠ 16 →
      exec (.speedChangeStepDone false) s = .next (settled s { s with lmc.change := some { x with step := x.step + 1 } })) ∧
    (∀ (s : State) (x : SpeedChange), s.lmc.change = some x → 5 ≤ x.step → x.channel ≠ 16 →
      exec (.speedChangeStepDone false) s = .next (settled s (finishChannel s x))) ∧
    (∀ (s : State) (x : SpeedChange) (v : Nat), s.lmc.change = some x → 3 ≤ x.step → x.channel ≠ 16 → lowerSpeed s x.trial = some v →
      exec (.speedChangeStepDone true) s = .next (settled s { raise (setFlag s (lmcField Reg.LMC_CH_ERR.fallback x.channel))
        (loamSource x.channel) .trainFail 0xFFF [x.channel, v] with lmc.change := some { x with trial := v, step := 3, fell := true } })) ∧
    (∀ (s : State) (channel : Fin 16) (x : SpeedChange), s.lmc.change = some x → x.channel = channel.val → x.step = 0 →
      (loamState s channel.val = 2 → (loamChan s channel.val).step = 1 →
        exec (.trainingStepAbort channel) s = .next (finished s (beginChange (incF (updLoamChan s channel.val fun c => { c with
          step := 0, segment := false, zqDue := c.zqDue || c.step = 1, oscDue := if c.step = 2 then some 0 else c.oscDue
          centerDue := c.centerDue || c.step = 3, again := false }) Reg.LMC_SPEED_STS.aborted_steps)))) ∧
      (loamState s channel.val = 0 →
        exec (.trainingStepAbort channel) s = .next (finished s (beginChange (incF (updLoamChan s channel.val fun c => { c with
          step := 0, segment := false, zqDue := c.zqDue || c.step = 1, oscDue := if c.step = 2 then some 0 else c.oscDue
          centerDue := c.centerDue || c.step = 3, again := true }) Reg.LMC_SPEED_STS.aborted_steps)))))) ∧
  ((∀ (s : State) (results : List (Option (Fin 8))) (p : LoamPopulation) (rows : List Nat), s.glb.loamReady = false → stage s ≠ stHalted →
      (loamPopOk p = false → exec (.loamTrainingDone results p true rows) s = .next (settledPools s (haltStart (setFlag s Reg.LMC_POP.pop_err) 4))) ∧
      exec (.loamTrainingDone results p false rows) s = .next (settledPools s (haltStart (setFlag s Reg.LMC_POP.pop_err) 4))) ∧
    (∀ (s u : State) (results : List (Option (Fin 8))) (p : LoamPopulation) (rows : List Nat), s.glb.loamReady = false → stage s ≠ stHalted →
      loamPopOk p = true →
      (let v := takePopulation s p
       let v := if v.lmc.held then { v with lmc.held := false } else hardRepairs { v with lmc.lines := [], lmc.retired := [] } rows
       waitingChange (((List.range results.length).zip results).foldl (fun s e => loamTrained s e.1 e.2) v)) = u →
      ((results.any (·.isNone)) = false → exec (.loamTrainingDone results p true rows) s = .next (settledPools s (
        let v := fillPools { u with glb.loamReady := true }
        trainingStep { v with plots.poolsMib := regionMib v }))) ∧
      ((results.any (·.isNone)) = true → exec (.loamTrainingDone results p true rows) s =
        .next (settledPools s (haltStart (fenceSelf u []) 4)))) ∧
    (∀ (s : State) (results : List (Option (Fin 8))) (p : LoamPopulation) (ok : Bool) (rows : List Nat),
      s.glb.loamReady = true ∨ stage s = stHalted → exec (.loamTrainingDone results p ok rows) s = .next (settledPools s s)) ∧
    (∀ (s u : State) (channel : Fin 16) (x : Sppr) (a b : Nat),
      (s.lmc.spprs.find? fun x => x.channel = channel.val && !x.buffers.isEmpty) = some x → x.buffers = [a, b] →
      (let o : Owner := { block := 5, mid := Fin.ofNat 4096 (0x310 + x.channel / 4) }
       let v := bufPut (bufPut { s with lmc.spprs := s.lmc.spprs.erase x } a o) b o
       { v with diu.ceLog := v.diu.ceLog.map fun e => e.filter fun e =>
          !(e.hard && subchannelOf e.lpa * 512 + bankOf v e.lpa = x.bank && rowOf v e.lpa = x.row) }) = u →
      exec (.spprDone channel true) s = .next (settledPools s (incF { u with
        lmc.repairs := u.lmc.repairs ++ (x.devices.map fun d => (x.bank, x.row, d)).filter fun r => !u.lmc.repairs.contains r }
        Reg.LMC_PPR_STS.sppr_done)) ∧
      exec (.spprDone channel false) s = .next (settledPools s
        (retireRow (adviseReplace (setFlag u (lmcField Reg.LMC_CH_ERR.ppr_exhausted channel.val)) 0) x.frame))) ∧
    (∀ (s : State) (channel : Fin 16) (ok : Bool), (s.lmc.spprs.find? fun x => x.channel = channel.val && !x.buffers.isEmpty) = none →
      exec (.spprDone channel ok) s = .next (settledPools s s)))

/-- Scrubbing and the correctable-error log (R413 to R417): a write-back that a newer write has overtaken is dropped and counted, else it is
issued; patrol scrub reads nothing while it is disabled or PHS flushes; an entry not hit for 24 h is freed; a second's end restarts every
channel's count. -/
def Obligations.Scrubbing : Prop :=
  (∀ (s : State) (engine : Fin 4) (w : ScrubWb) (rest : List ScrubWb), sget [] s.diu.scrubQueue engine.val = w :: rest → flushing s = false →
    w.stale = true → exec (.ceScrubWriteback engine) s = .next (finished s (incF { s with
      diu.scrubQueue := sput [] s.diu.scrubQueue engine.val rest } Reg.DIU_SCRUB_STS.dropped))) ∧
  (∀ (s : State) (engine : Fin 4) (w : ScrubWb) (rest : List ScrubWb), sget [] s.diu.scrubQueue engine.val = w :: rest → flushing s = false →
    w.stale = false → loamAt s w.lpa = w.val → exec (.ceScrubWriteback engine) s = .next (finished s (lmcRequest
      (ceUpd { s with diu.scrubQueue := sput [] s.diu.scrubQueue engine.val rest } w.lpa fun e => { e with writtenBack := true })
      (0x310 + engine.val) true w.lpa))) ∧
  (∀ (s : State) (engine : Fin 4) (d : LoamDecode), flag s Reg.DIU_SCRUB_CFG.enable = false ∨ flushing s = true →
    exec (.patrolScrubRead engine d) s = .next (settled s s)) ∧
  (∀ (s : State) (engine : Fin 4) (lpa ch : Nat), flag s Reg.DIU_SCRUB_CFG.enable = true → flushing s = false → passEnded s engine.val = false →
    scrubTargets s engine.val = [(lpa, ch)] →
    (let v := engineRow (checkPass { s with diu.scrubNext := sput 0 s.diu.scrubNext ch (lpa + 1) } engine.val) (0x310 + engine.val) false lpa 1
     exec (.patrolScrubRead engine .good) s = .next (settled s v) ∧
     (∀ d, exec (.patrolScrubRead engine (.corrected d)) s = .next (settled s (loamCorrected v lpa d.val (loamAt v lpa)))) ∧
     exec (.patrolScrubRead engine .uncorrectable) s = .next (settled s (scrubUe v lpa)))) ∧
  (∀ (s : State) (entry : Fin 64) (e : CeEntry), s.diu.ceLog[entry.val]? = some (some e) →
    (e.lastHit + 86400000000000 ≤ s.devTime →
      exec (.ceLogExpiry entry) s = .next (finished s { s with diu.ceLog := s.diu.ceLog.set entry.val none })) ∧
    (s.devTime < e.lastHit + 86400000000000 → exec (.ceLogExpiry entry) s = .next (finished s s))) ∧
  (∀ s : State, (∀ e ∈ s.diu.ceSecond, e.2 ≤ 64 ∧ e.2 ≤ max 1 (getF s Reg.DIU_CFG.ce_event_thresh)) →
    exec .ceSecondTimer s = .next (finished s { s with diu.ceSecond := [] }))

/-! ### Host ports and mailboxes (03) -/

/-- Links (R71 to R75, R94, R96, R98): PERST of a bond's lowest port takes its link down and ends its training, and only there; a flit's
fourth failed replay starts recovery; the end of recovery sends what was held, in order; viral is noted on the link it came on. Training and
LD resets (R71 to R75, R82, R95, R98): a result that R71 and the port's limits allow brings the link up with its status; any other leaves
the link as it was; an LD's reset is the same by the host and by the fabric manager. IDE (R87, R89, R442): once firmware runs, a programmed
key stands in its staged slot and the staged set becomes the active one with the mode it names, on a link that a secured session of its own
DOE may key; on any other nothing changes; and a failed MAC of a keyed stream takes the link down. -/
def Obligations.HostLinks : Prop :=
  ((∀ (s : State) (port : Port), isLowest s port.val = true → linkUp s port.val = true →
      linkUp (updLink s port.val fun l => { l with perst := true }) port.val = true →
      isLowest (updLink s port.val fun l => { l with perst := true }) port.val = true →
      exec (.perstAssert port) s = .next (settled s (updLink (linkDown (updLink s port.val fun l => { l with perst := true }) port.val) port.val
        fun l => { l with training := false }))) ∧
    (∀ (s : State) (port : Port), isLowest (updLink s port.val fun l => { l with perst := true }) port.val = false →
      exec (.perstAssert port) s = .next (settled s (updLink s port.val fun l => { l with perst := true }))) ∧
    (∀ (s : State) (port : Port), exec (.perstRelease port) s =
      .next (finished s (startTraining (updLink s port.val fun l => { l with perst := false }) port.val))) ∧
    (∀ (s : State) (port : Port) (again : Bool) (fec : Word), linkUp s port.val = true → (hostLink s port.val).recovery = false →
      (again = true → (hostLink s port.val).replays < 3) → exec (.flitCrcFail port again fec) s = .next (finished s
        (updLink (incFiBy s (portField Reg.HFP_PORT_CORR_CNT.corrected port.val) 0 (fec.toNat + 1)) port.val
        fun l => { l with replays := if again then (hostLink s port.val).replays + 1 else 0 }))) ∧
    (∀ (s : State) (port : Port) (fec : Word), linkUp s port.val = true → (hostLink s port.val).recovery = false →
      3 ≤ (hostLink s port.val).replays → exec (.flitCrcFail port true fec) s = .next (finished s (incF (setFlag
        (updLink (incFiBy s (portField Reg.HFP_PORT_CORR_CNT.corrected port.val) 0 (fec.toNat + 1)) port.val
          fun l => { l with replays := 0, recovery := true }) (portField Reg.HFP_PORT_ERR.recovery port.val))
        (portField Reg.HFP_PORT_RECOV_CNT.recoveries port.val)))) ∧
    (∀ (s : State) (port : Port) (again : Bool) (fec : Word), linkUp s port.val = false ∨ (hostLink s port.val).recovery = true →
      exec (.flitCrcFail port again fec) s = .next (finished s s)) ∧
    (∀ (s : State) (port : Port) (held : List Emit), (hostLink s port.val).recovery = true →
      (s.hfp.held.filter fun e => e.1 = port.val).map (·.2) = held →
      exec (.linkRecoveryDone port) s = .next (finished s (emitAll
        (updLink (held.foldl snoopSent { s with hfp.held := s.hfp.held.filter fun e => e.1 ≠ port.val }) port.val
          fun l => { l with recovery := false, replays := 0 }) held))) ∧
    (∀ (s : State) (port : Port), exec (.linkDown port) s = .next (settled s (dropLink s port.val))) ∧
    (∀ (s : State) (ld : Ld), linkUp s (ld.val / 16) = true → exec (.viralReceived ld) s = .next (finished s
      (setFlag (setFlag s (portField Reg.HFP_PORT_ERR.viral_rx (ld.val / 16))) (portField Reg.HFP_PORT_STS.viral (ld.val / 16)))))) ∧
  ((∀ (s u : State) (port : Port) (t : LinkTrained), (hostLink s port.val).training = true → (hostLink s port.val).perst = false →
      linkUp s port.val = false → trainedOk s port.val t = true →
      putFlag (putFlag (setFlag (setF (setF (setF (updLink s port.val fun l => { l with training := false, recovery := false, replays := 0 })
        (portField Reg.HFP_PORT_STS.speed port.val) t.speed.val) (portField Reg.HFP_PORT_STS.width port.val) t.width.val)
        (portField Reg.HFP_PORT_STS.mode port.val) t.mode.val) (portField Reg.HFP_PORT_STS.link_up port.val))
        (portField Reg.HFP_PORT_STS.lat_opt port.val) t.latOpt) (portField Reg.HFP_PORT_STS.mld port.val) t.mld = u →
      t.width.val = bondWidth u port.val →
      exec (.linkUp port t) s = .next (settled s ((ldsOf port.val).foldl (fun s ld =>
        flushMsix (if carriesMem s ld then flushExtents s ld else s) ld (List.range 64)) u))) ∧
    (∀ (s : State) (port : Port) (t : LinkTrained), trainedOk s port.val t = false → exec (.linkUp port t) s = .next (settled s s)) ∧
    (∀ (s : State) (ld : Ld) (byFm : Bool), isLowest s (ld.val / 16) = true → exec (.ldReset ld byFm) s = .next (settled s (ldReset s ld))) ∧
    (∀ (s : State) (ld : Ld), exec (.ldReset ld true) s = exec (.ldReset ld false) s)) ∧
  ((∀ (s : State) (port : Port) (slot : Fin 4) (key iv : List Word), s.mgc.booted = true → ideKmOpen s port.val = true →
      exec (.ideKeyProg port slot key iv) s = .next (finished s (ideStatus
        (updLink s port.val fun l => { l with staged := sput noKey l.staged slot.val { key := key, iv := iv } }) port.val))) ∧
    (∀ (s : State) (port : Port) (slot : Fin 4) (key iv : List Word), s.mgc.booted = false →
      exec (.ideKeyProg port slot key iv) s = .next (finished s { s with mgc.waiting := s.mgc.waiting ++ [.ideKeyProg port slot key iv] }) ∧
      ∀ skid : Bool, exec (.ideKeySetGo port skid) s = .next (finished s { s with mgc.waiting := s.mgc.waiting ++ [.ideKeySetGo port skid] })) ∧
    (∀ (s : State) (port : Port) (slot : Fin 4) (key iv : List Word) (skid : Bool), s.mgc.booted = true → ideKmOpen s port.val = false →
      exec (.ideKeyProg port slot key iv) s = .next (finished s s) ∧ exec (.ideKeySetGo port skid) s = .next (finished s s)) ∧
    (∀ (s : State) (port : Port) (skid : Bool), s.mgc.booted = true → ideKmOpen s port.val = true → (hostLink s port.val).staged ≠ [] →
      exec (.ideKeySetGo port skid) s = .next (finished s (ideStatus (updLink s port.val fun l =>
        { l with active := l.staged.foldl (fun a e => sput noKey a e.1 e.2) l.active, staged := [], skid := skid }) port.val))) ∧
    (∀ (s : State) (port : Port), (flag s (portField Reg.HFP_PORT_STS.ide_mem port.val) || flag s (portField Reg.HFP_PORT_STS.ide_io port.val)) = true →
      exec (.ideMacFail port) s = .next (settled s (dropLink (setFlag s (portField Reg.HFP_PORT_ERR.ide_fail port.val)) port.val))) ∧
    (∀ (s : State) (port : Port), flag s (portField Reg.HFP_PORT_STS.ide_mem port.val) = false →
      flag s (portField Reg.HFP_PORT_STS.ide_io port.val) = false → exec (.ideMacFail port) s = .next (settled s s)))

/-- The mailbox commands that only read (R76 to R78, R81, R428, R548, R552, R590): each answers its LD and changes nothing else. The mailbox
commands that set something (R76, R81, R82, R428, R549): each takes effect and answers Success, or answers Invalid Input and has none. A
mailbox command that comes before firmware runs waits for it, whichever it is, and one to an LD without a mailbox changes nothing (R523,
R590). -/
def Obligations.MailboxCommands : Prop :=
  (∀ (s : State) (ld : Ld), s.mgc.booted = true → carriesMem s ld = true →
      (exec (.cdatRead ld) s = .next (finished s (toHost s ld (.cdat ld 240 520 (linkPayload s (ld.val / 16)))))) ∧
      (∀ log : Fin 8, log.val < 5 → exec (.getEventRecords ld log) s = .next (finished s (reply s ld
        (.eventRecords log.val (hostLog s ld log.val) (sget 0 s.evr.overflow (ld.val * 8 + log.val)) false)))) ∧
      (exec (.getEventInterruptPolicy ld) s = .next (finished s (reply s ld
        (.eventPolicy ((List.range 5).map fun log => sget none s.evr.policy (ld.val * 8 + log)))))) ∧
      (exec (.getSupportedLogs ld) s = .next (finished s (reply s ld .supportedLogs))) ∧
      (exec (.getLog ld) s = .next (finished s (reply s ld .commandEffects))) ∧
      (exec (.getTimestamp ld) s = .next (finished s (reply s ld (.timestamp (((ldState s ld).timestamp.map fun t =>
        (t.1 + (s.devTime - t.2)) % 2 ^ 64).getD 0))))) ∧
      (exec (.identifyMemoryDevice ld) s = .next (finished s (reply s ld (.identify 0 (s.plots.maxCapacity * 268435456))))) ∧
      (exec (.getHealthInfo ld) s = .next (finished s (reply s ld
        (.health (getF s Reg.EVR_HEALTH.reasons ≠ 0) (lifeUsed s) (lifeStatus s ld) s.hfp.dirtyShutdowns)))) ∧
      (exec (.getAlertConfiguration ld) s = .next (finished s (reply s ld
        (.alertConfiguration (ldState s ld).alertWarn (ldState s ld).alertCrit)))) ∧
      (exec (.getDcConfiguration ld) s = .next (finished s (reply s ld (.dcConfiguration 0 (s.plots.maxCapacity * 268435456) 268435456)))) ∧
      (exec (.getDcExtentList ld) s = .next (finished s (reply s ld (.extents (heldExtents s ld))))) ∧
      (∀ opcode, exec (.mailboxUnsupported ld opcode) s = .next (finished s (reply s ld .unsupported))) ∧
      (∀ start length : DWord, exec (.getPoisonList ld start length) s = .next (finished s (
        let all := (readablePoison s ld).filter fun e => decide (start.toNat / 64 ≤ e.1) && decide (e.1 < start.toNat / 64 + length.toNat)
        reply s ld (.poisonList ((all.take 256).map fun e => (e.1 * 64, recordSource e.2)) (decide (256 < all.length))
          (poisonOverflow s)))))) ∧
  (∀ (s : State) (ld : Ld), s.mgc.booted = true → carriesMem s ld = true →
      (∀ (log : Fin 8) (count : Fin 256), 5 ≤ log.val ∨ (hostLog s ld log.val).length < count.val →
        exec (.clearEventRecords ld log count) s = .next (finished s (reply s ld .invalidInput))) ∧
      (∀ (log : Fin 8) (count : Fin 256), log.val < 5 → count.val ≤ (hostLog s ld log.val).length → (hostLog s ld log.val).length - count.val < 64 →
        exec (.clearEventRecords ld log count) s = .next (finished s (reply { s with
          evr.logs := sput [] s.evr.logs (ld.val * 8 + log.val) ((hostLog s ld log.val).drop count.val)
          evr.overflow := sput 0 s.evr.overflow (ld.val * 8 + log.val) 0 } ld .success))) ∧
      (∀ modes : List (Fin 4 × Fin 16), (∀ m ∈ modes, m.1.val ≤ 1) → exec (.setEventInterruptPolicy ld modes) s = .next (finished s (reply
        (((List.range modes.length).zip modes).foldl (fun s e => { s with
          evr.policy := sput none s.evr.policy (ld.val * 8 + e.1) (if e.2.1 = 1 then some e.2.2.val else none) }) s) ld .success))) ∧
      (∀ modes : List (Fin 4 × Fin 16), (∃ m ∈ modes, 2 ≤ m.1.val) →
        exec (.setEventInterruptPolicy ld modes) s = .next (finished s (reply s ld .invalidInput))) ∧
      (∀ time : DWord, exec (.setTimestamp ld time) s =
        .next (finished s (reply (updLd s ld fun l => { l with timestamp := some (time.toNat, s.devTime) }) ld .success))) ∧
      (∀ warn crit : Option (Fin 101), exec (.setAlertConfiguration ld warn crit) s = .next (finished s
        (reply (updLd s ld fun l => { l with alertWarn := warn.map (·.val), alertCrit := crit.map (·.val) }) ld .success))) ∧
      (∀ (plot : PlotId) (g : Fin 65536), extentOf s ld (extentKey plot.val g.val) = some .offered →
        exec (.addDcResponse ld plot g false) s =
          .next (finished s (reply (setExtent s ld (extentKey plot.val g.val) (some .rejected)) ld .success)) ∧
        ∀ t : State, reply (setExtent s ld (extentKey plot.val g.val) (some .held)) ld .success = t →
          exec (.addDcResponse ld plot g true) s = .next (finished s
            (if extentGranted t ld (extentKey plot.val g.val) then t else extentDue t ld (extentKey plot.val g.val) false))) ∧
      (∀ (plot : PlotId) (g : Fin 65536), extentOf s ld (extentKey plot.val g.val) = some .held ∨
          extentOf s ld (extentKey plot.val g.val) = some .releaseAsked →
        exec (.releaseDc ld plot g) s = .next (finished s (reply (setExtent s ld (extentKey plot.val g.val) none) ld .success))) ∧
      (∀ (plot : PlotId) (g : Fin 65536), extentOf s ld (extentKey plot.val g.val) ≠ some .held →
        extentOf s ld (extentKey plot.val g.val) ≠ some .releaseAsked →
        exec (.releaseDc ld plot g) s = .next (finished s (reply s ld .invalidInput))) ∧
      (∀ (plot : PlotId) (g : Fin 65536) (accept : Bool), extentOf s ld (extentKey plot.val g.val) ≠ some .offered →
        exec (.addDcResponse ld plot g accept) s = .next (finished s (reply s ld .invalidInput)))) ∧
  (∀ (s : State) (i : Instr) (ld : Ld),
      (i = .cdatRead ld ∨ (∃ log, i = .getEventRecords ld log) ∨ (∃ log n, i = .clearEventRecords ld log n) ∨ i = .getEventInterruptPolicy ld ∨
        (∃ m, i = .setEventInterruptPolicy ld m) ∨ i = .getSupportedLogs ld ∨ i = .getLog ld ∨ i = .getTimestamp ld ∨ (∃ t, i = .setTimestamp ld t) ∨
        i = .identifyMemoryDevice ld ∨ i = .getHealthInfo ld ∨ i = .getAlertConfiguration ld ∨ (∃ w c, i = .setAlertConfiguration ld w c) ∨
        (∃ a n, i = .getPoisonList ld a n) ∨ i = .getDcConfiguration ld ∨ i = .getDcExtentList ld ∨ (∃ p g a, i = .addDcResponse ld p g a) ∨
        (∃ p g, i = .releaseDc ld p g) ∨ (∃ o, i = .mailboxUnsupported ld o)) →
      (s.mgc.booted = false → exec i s = .next (finished s { s with mgc.waiting := s.mgc.waiting ++ [i] })) ∧
      (s.mgc.booted = true → carriesMem s ld = false → exec i s = .next (finished s s)))

/-- Inject Poison and Clear Poison are accepted as writes of the LD, with poison and with the data given; an address the LD may not write is
refused (R428). -/
def Obligations.PoisonCommands : Prop :=
  (∀ (s : State) (ld : Ld) (dpa : DWord) (p : Nat), s.mgc.booted = true → carriesMem s ld = true → reach s (dpa.toNat / 64) = some p →
    hasRights s p ld.val 3 = true → takesWrites (plotRec s p) = true →
    exec (.injectPoison ld dpa) s = .next (settled s (acceptWrite s (.mailbox ld) ld.val p (dpa.toNat / 64) 0 (BitVec.allOnes 64) true .invalid).2) ∧
    ∀ data : Line, exec (.clearPoison ld dpa data) s = .next (settled s (acceptWrite s (.mailbox ld) ld.val p (dpa.toNat / 64) data
      (BitVec.allOnes 64) false .invalid).2)) ∧
  (∀ (s : State) (ld : Ld) (dpa : DWord), s.mgc.booted = true → carriesMem s ld = true → reach s (dpa.toNat / 64) = none →
    exec (.injectPoison ld dpa) s = .next (settled s (reply s ld .invalidInput)) ∧
    ∀ data : Line, exec (.clearPoison ld dpa data) s = .next (settled s (reply s ld .invalidInput)))

/-! ### Plots (02) -/

/-- The admission engine (R51 to R53): a request joins its queue; the engine takes one job at a time, in order; alone it checks a request by
its own figures, beside a twin it asks the twin's first. The ends of a plot's steps (R40 to R42, R451): each happens once, only in its state
and when nothing of the plot stands in the way, tells the twin, and takes the plot as far as both controllers have come. -/
def Obligations.PlotAdministration : Prop :=
  ((∀ (s : State) (a : Admission), exec (.fmDcAdd a) s = .next (settled s (submitJob s .fabricManager a))) ∧
    (∀ (s : State) (o : AdmOrigin) (a : Admission) (t : List AdmJob), engineHere s = true → s.plots.admActive = none →
      s.plots.admQueue = .admitPlot o a :: t →
      exec .admissionEngineJob s = .next (settled s (takeAdmission { s with plots.admQueue := t } o a))) ∧
    (∀ (s : State) (p : PlotId) (t : List AdmJob), engineHere s = true → s.plots.admActive = none → s.plots.admQueue = .cleanup p :: t →
      (plotRec { s with plots.admQueue := t } p.val).state = .releasing →
      exec .admissionEngineJob s = .next (settled s { s with plots.admQueue := t, plots.admActive := some (.cleanup p) })) ∧
    (∀ (s : State) (p : PlotId) (t : List AdmJob), engineHere s = true → s.plots.admActive = none → s.plots.admQueue = .cleanup p :: t →
      (plotRec { s with plots.admQueue := t } p.val).state ≠ .releasing →
      exec .admissionEngineJob s = .next (settled s { s with plots.admQueue := t })) ∧
    (∀ s : State, s.plots.admQueue = [] → exec .admissionEngineJob s = .next (settled s s)) ∧
    (∀ (s : State) (o : AdmOrigin) (a : Admission), solo s = true → takeAdmission s o a = checkAdmission s o a (ownFigures s)) ∧
    (∀ (s : State) (o : AdmOrigin) (a : Admission), solo s = false → takeAdmission s o a =
      sendAdmin { s with plots.admActive := some (.admitPlot o a), plots.admPlot := none } .figuresReq) ∧
    (∀ s : State, s.plots.admActive ≠ none → exec .admissionEngineJob s = .next (settled s s)) ∧
    (∀ s : State, engineHere s = false → exec .admissionEngineJob s = .next (settled s s))) ∧
  ((∀ (s : State) (p : PlotId), (plotRec s p.val).state = .admitting → (plotRec s p.val).doneHere = false →
      exec (.admissionZeroingDone p) s = .next (settled s (plotStep (tellTwin (updPlot (clearEntries s (plotRec s p.val)) p.val
        fun r => { r with doneHere := true }) (.zeroed p)) p.val))) ∧
    (∀ (s : State) (p : PlotId), (plotRec s p.val).state ≠ .admitting → exec (.admissionZeroingDone p) s = .next (settled s s)) ∧
    (∀ (s : State) (p : PlotId), cleanupReady s p.val = true →
      exec (.releaseCleanupDone p) s = .next (settled s (plotStep (tellTwin (updPlot (clearPlot s (plotRec s p.val)) p.val
        fun r => { r with doneHere := true, cleanup := false }) (.released p)) p.val))) ∧
    (∀ (s : State) (p : PlotId), (plotRec s p.val).state ≠ .releasing → exec (.releaseCleanupDone p) s = .next (settled s s)) ∧
    (∀ (s : State) (p : PlotId), (plotRec s p.val).state = .loading → (plotRec s p.val).sealing = true → sealReady s p.val = true →
      (plotRec s p.val).doneHere = false → exec (.sealComplete p) s =
        .next (settled s (plotStep (tellTwin (updPlot s p.val fun r => { r with doneHere := true }) (.sealed p)) p.val))) ∧
    (∀ (s : State) (p : PlotId), (plotRec s p.val).sealing = false → exec (.sealComplete p) s = .next (settled s s)) ∧
    (∀ (s : State) (p : PlotId), (plotRec s p.val).erasing = true → (plotRec s p.val).tagWalk = false → plotQuiet s p.val = true →
      exec (.cryptoEraseDone p) s = .next (settled s (plotStep (tellTwin (eraseHolds s p.val) (.erased p)) p.val))) ∧
    (∀ (s : State) (p : PlotId), (plotRec s p.val).erasing = false → exec (.cryptoEraseDone p) s = .next (settled s s)))

/-- The access table (R63, R64, R69, R70, R82): a manager's write changes the selected entry and starts the drain of the requests that were
checked before it; the rule of private plots refuses an entry and leaves the table as it was; a drain's end on both controllers asks back
the extents of LDs without rights. -/
def Obligations.AccessTable : Prop :=
  (∀ (s u t : State) (who : Accessor) (value : Word) (p e : Nat), isManager s who = true → selOf s who Reg.POU_ACL_SEL.plot_id = p →
    selOf s who Reg.POU_ACL_SEL.entry = e → startDrain s p = u → breaksPrivate u p e (value &&& 0x83FFFFFF#32) = true →
    setFlagI u Reg.POU_ACL_SEL.acl_err (accessorIdx who) = t → exec (.aclWrite who value) s = .next (settled s
      (if (sget [] t.plots.aclDrain p).isEmpty && solo t then drainOver t p else t))) ∧
  (∀ (s u t x : State) (who : Accessor) (value : Word) (p e : Nat), isManager s who = true → selOf s who Reg.POU_ACL_SEL.plot_id = p →
    selOf s who Reg.POU_ACL_SEL.entry = e → startDrain s p = u → breaksPrivate u p e (value &&& 0x83FFFFFF#32) = false →
    setRegAt u Reg.POU_ACL_DATA.acl_entry.addr (p * 64 + e) (value &&& 0x83FFFFFF#32) = t →
    (if (plotRec t p).state = .free then t else plotChanged t p .nothing) = x → plotOpen (plotRec x p) = false →
    exec (.aclWrite who value) s = .next (settled s (if (sget [] x.plots.aclDrain p).isEmpty && solo x then drainOver x p else x))) ∧
  (∀ (s u t x y : State) (who : Accessor) (value : Word) (p e : Nat), isManager s who = true → selOf s who Reg.POU_ACL_SEL.plot_id = p →
    selOf s who Reg.POU_ACL_SEL.entry = e → startDrain s p = u → breaksPrivate u p e (value &&& 0x83FFFFFF#32) = false →
    setRegAt u Reg.POU_ACL_DATA.acl_entry.addr (p * 64 + e) (value &&& 0x83FFFFFF#32) = t → (plotRec t p).state ≠ .free →
    plotChanged t p .nothing = x → plotOpen (plotRec x p) = true → offerExtents x p = y →
    exec (.aclWrite who value) s = .next (settled s (if (sget [] y.plots.aclDrain p).isEmpty && solo y then drainOver y p else y))) ∧
  (∀ (s : State) (p e : Nat) (w : Word), (plotRec s p).state ≠ .free → (plotRec s p).mode = .private_ → fieldOf w 31 1 = 1 →
    (breaksPrivate s p e w = true ↔ (fieldOf w 12 12 ≠ 0xFFF ∨ 4 < validEntries s p e w))) ∧
  (∀ (s : State) (who : Accessor) (twin : Bool) (p : Nat), selOf s who Reg.POU_ACL_SEL.plot_id = p →
    (∀ i ∈ sget [] s.plots.aclDrain p, i ∉ plotInFlight s p) → twin = false ∨ solo s = true →
    exec (.aclDrainDone who twin) s = .next (finished s (drainOver { s with plots.aclDrain := sput [] s.plots.aclDrain p [] } p))) ∧
  (∀ (s : State) (who : Accessor) (twin : Bool) (p : Nat) (left : List Nat), selOf s who Reg.POU_ACL_SEL.plot_id = p →
    ((sget [] s.plots.aclDrain p).filter fun i => (plotInFlight s p).contains i) = left →
    left ≠ [] ∨ (twin = true ∧ solo s = false) →
    exec (.aclDrainDone who twin) s = .next (finished s { s with plots.aclDrain := sput [] s.plots.aclDrain p left })) ∧
  (∀ (s : State) (engine : Mid) (e : Word), reservedMid engine.val = false → 0x300 ≤ engine.val → engine.val ≤ 0x31D →
    exec (.engineAssignment engine e) s = .next (finished s { s with out := .assignment engine (e = epoch s) :: s.out })) ∧
  (∀ (s : State) (engine : Mid) (e : Word), reservedMid engine.val = true →
    exec (.engineAssignment engine e) s = .next (finished s (raise s 1280 .reservedMaster engine.val [engine.val])))

/-- The access table's rule (R61): the lowest-numbered valid entry whose masked bits match decides, and no match means rights 0; the
management cores have none whatever the table holds. An entry is valid and matches where every bit of the ID that its mask names equals its
own. -/
def Obligations.AclFirstMatch : Prop :=
  ∀ (s : State) (plot : Nat) (mid : Mid),
    (0x340 ≤ mid.val ∧ mid.val ≤ 0x345 → aclRights s plot mid.val = 0) ∧
    (¬ (0x340 ≤ mid.val ∧ mid.val ≤ 0x345) →
      (∀ i, i < 64 → aclMatches (aclWord s plot i) mid.val = true → (∀ j, j < i → aclMatches (aclWord s plot j) mid.val = false) →
        aclRights s plot mid.val = fieldOf (aclWord s plot i) 24 2) ∧
      ((∀ i, i < 64 → aclMatches (aclWord s plot i) mid.val = false) → aclRights s plot mid.val = 0)) ∧
    (∀ w : Word, aclMatches w mid.val = true ↔
      fieldOf w 31 1 = 1 ∧ ∀ b, b < 12 → fieldOf w (12 + b) 1 = 1 → mid.val / 2 ^ b % 2 = fieldOf w b 1)

/-! ### Command rings (04) -/

/-- Ring set-up (R108, R111 to R113): an enable of a DISABLED ring starts its checks; their end makes it ACTIVE with fresh pointers, or
leaves it DISABLED with NO_RING or BAD_SETUP; a write that meets running checks takes effect after them; set-up registers take values only
while the ring is DISABLED; a weight is always taken; an LD that its link does not carry has no rings to set up. Doorbells (R90, R114 to
R117): an ACTIVE ring takes a tail below its entries and a head within its unreleased entries, and goes to ERROR with BAD_DOORBELL on any
other; a doorbell of a ring that is not ACTIVE is dropped and counted, and so is one of a link without the IDE stream it requires, as a
denial too; an LD that its link does not carry has none. -/
def Obligations.RingSetupAndDoorbells : Prop :=
  ((∀ (s u v : State) (ld : Ld) (ring : RingNo) (value : Word), ldPresent s ld = true → endEnable s ld ring = u →
      setFi u Reg.CRE_RING_CTL.weight (ringIdx ld ring) (wr value Reg.CRE_RING_CTL.weight) = v →
      (wr value Reg.CRE_RING_CTL.enable = 1 → wr value Reg.CRE_RING_CTL.reset = 0 →
        ((ringAt v ld ring).state = .disabled → exec (.ringEnable ld ring value) s =
          .next (settledPools s (updRing v ld ring fun r => { r with enabling := true }))) ∧
        ((ringAt v ld ring).state = .active → exec (.ringEnable ld ring value) s = .next (settledPools s v)) ∧
        ((ringAt v ld ring).state = .error ∨ (ringAt v ld ring).state = .reset → exec (.ringEnable ld ring value) s =
          .next (settledPools s (setFlagI v Reg.CRE_RING_STS.setup_err (ringIdx ld ring))))) ∧
      (wr value Reg.CRE_RING_CTL.enable = 0 ∨ wr value Reg.CRE_RING_CTL.reset ≠ 0 →
        ((ringAt v ld ring).state = .disabled → exec (.ringEnable ld ring value) s = .next (settledPools s v)) ∧
        ((ringAt v ld ring).state ≠ .disabled → exec (.ringEnable ld ring value) s = .next (settledPools s (ringReset true v ld ring)))) ∧
      exec (.ringWeightSet ld ring value) s = exec (.ringEnable ld ring value) s ∧
      exec (.ringReset ld ring) s = .next (settledPools s (ringReset true u ld ring))) ∧
    (∀ (s u : State) (ld : Ld) (ring : RingNo), (ringAt s ld ring).enabling = true → updRing s ld ring (fun r => { r with enabling := false }) = u →
      ring.val < ringsAllowed u ld → ringsActive u < 4096 → sqBase u ld ring % 4096 = 0 → cqBase u ld ring % 4096 = 0 →
      4 ≤ getFi u Reg.CRE_SQ_SIZE.log2_entries (ringIdx ld ring) → getFi u Reg.CRE_SQ_SIZE.log2_entries (ringIdx ld ring) ≤ 16 →
      4 ≤ getFi u Reg.CRE_CQ_SIZE.log2_entries (ringIdx ld ring) → getFi u Reg.CRE_CQ_SIZE.log2_entries (ringIdx ld ring) ≤ 16 →
      exec (.ringEnableCheck ld ring) s = .next (finished s (updRing (setRingErr u ld ring 0) ld ring fun r => { r with
        state := .active, sqHead := 0, sqTail := 0, cqHead := 0, cqTail := 0, phase := true, unsignalled := 0, results := [] }))) ∧
    (∀ (s u : State) (ld : Ld) (ring : RingNo), (ringAt s ld ring).enabling = true → updRing s ld ring (fun r => { r with enabling := false }) = u →
      ringsAllowed u ld ≤ ring.val ∨ 4096 ≤ ringsActive u →
      exec (.ringEnableCheck ld ring) s = .next (finished s (setRingErr u ld ring errNoRing))) ∧
    (∀ (s u : State) (ld : Ld) (ring : RingNo) (sq cq : Nat), (ringAt s ld ring).enabling = true →
      updRing s ld ring (fun r => { r with enabling := false }) = u → ring.val < ringsAllowed u ld → ringsActive u < 4096 →
      getFi u Reg.CRE_SQ_SIZE.log2_entries (ringIdx ld ring) = sq → getFi u Reg.CRE_CQ_SIZE.log2_entries (ringIdx ld ring) = cq →
      sqBase u ld ring % 4096 ≠ 0 ∨ cqBase u ld ring % 4096 ≠ 0 ∨ sq < 4 ∨ 16 < sq ∨ cq < 4 ∨ 16 < cq →
      exec (.ringEnableCheck ld ring) s = .next (finished s (setRingErr u ld ring errBadSetup))) ∧
    (∀ (s u : State) (ld : Ld) (ring : RingNo) (reg : SetupReg) (value : Word), ldPresent s ld = true → endEnable s ld ring = u →
      (ringAt u ld ring).state ≠ .disabled → ∀ v, setFlagI u Reg.CRE_RING_STS.setup_err (ringIdx ld ring) = v →
      exec (.ringSetupWrite ld ring reg value) s = .next (finished s (
        if reg = .sqBaseHi then dropLo v Reg.CRE_SQ_BASE_LO.base_lo.addr ld.val
        else if reg = .cqBaseHi then dropLo v Reg.CRE_CQ_BASE_LO.base_lo.addr ld.val else v))) ∧
    (∀ (s u : State) (ld : Ld) (ring : RingNo) (value : Word), ldPresent s ld = true → endEnable s ld ring = u → (ringAt u ld ring).state = .disabled →
      exec (.ringSetupWrite ld ring .sqSize value) s =
        .next (finished s (writeBits u Reg.CRE_SQ_SIZE.log2_entries.addr (ringIdx ld ring) value 0)) ∧
      exec (.ringSetupWrite ld ring .cqSize value) s =
        .next (finished s (writeBits u Reg.CRE_CQ_SIZE.log2_entries.addr (ringIdx ld ring) value 0)) ∧
      exec (.ringSetupWrite ld ring .irq value) s =
        .next (finished s (writeBits u Reg.CRE_RING_IRQ.vector.addr (ringIdx ld ring) value 0)) ∧
      exec (.ringSetupWrite ld ring .sqBaseLo value) s = .next (finished s (pendLo u Reg.CRE_SQ_BASE_LO.base_lo.addr ld.val value)) ∧
      exec (.ringSetupWrite ld ring .cqBaseLo value) s = .next (finished s (pendLo u Reg.CRE_CQ_BASE_LO.base_lo.addr ld.val value)) ∧
      exec (.ringSetupWrite ld ring .sqBaseHi value) s =
        .next (finished s (writeBaseHi u ld ring Reg.CRE_SQ_BASE_LO.base_lo.addr Reg.CRE_SQ_BASE_HI.base_hi.addr value)) ∧
      exec (.ringSetupWrite ld ring .cqBaseHi value) s =
        .next (finished s (writeBaseHi u ld ring Reg.CRE_CQ_BASE_LO.base_lo.addr Reg.CRE_CQ_BASE_HI.base_hi.addr value))) ∧
    (∀ (s : State) (ld : Ld) (ring : RingNo) (value : Word), ldPresent s ld = false →
      exec (.ringEnable ld ring value) s = .next (settledPools s s) ∧ exec (.ringReset ld ring) s = .next (settledPools s s) ∧
      ∀ reg, exec (.ringSetupWrite ld ring reg value) s = .next (finished s s)) ∧
    (∀ (s : State) (ld : Ld) (ring : RingNo), (ringAt s ld ring).enabling = false →
      endEnable s ld ring = s ∧ exec (.ringEnableCheck ld ring) s = .next (finished s s))) ∧
  ((∀ (s : State) (ld : Ld) (ring : RingNo) (value : Word), ldPresent s ld = true → ideDenies s ld = false → (ringAt s ld ring).state = .active →
      (wr value Reg.CRE_SQ_TAIL.tail < sqEntries s ld ring → exec (.sqTailDoorbell ld ring value) s =
        .next (finished s (updRing s ld ring fun r => { r with sqTail := wr value Reg.CRE_SQ_TAIL.tail }))) ∧
      (sqEntries s ld ring ≤ wr value Reg.CRE_SQ_TAIL.tail → exec (.sqTailDoorbell ld ring value) s =
        .next (finished s (ringError s ld ring errBadDoorbell)))) ∧
    (∀ (s : State) (ld : Ld) (ring : RingNo) (value : Word), ldPresent s ld = true → ideDenies s ld = false → (ringAt s ld ring).state = .active →
      (wr value Reg.CRE_CQ_HEAD.head < cqEntries s ld ring →
        (wr value Reg.CRE_CQ_HEAD.head + cqEntries s ld ring - (ringAt s ld ring).cqHead) % cqEntries s ld ring ≤ cqUnreleased s ld ring →
        exec (.cqHeadDoorbell ld ring value) s = .next (finished s (updRing s ld ring fun r => { r with cqHead := wr value Reg.CRE_CQ_HEAD.head }))) ∧
      (cqEntries s ld ring ≤ wr value Reg.CRE_CQ_HEAD.head → exec (.cqHeadDoorbell ld ring value) s =
        .next (finished s (ringError s ld ring errBadDoorbell))) ∧
      (wr value Reg.CRE_CQ_HEAD.head < cqEntries s ld ring →
        cqUnreleased s ld ring < (wr value Reg.CRE_CQ_HEAD.head + cqEntries s ld ring - (ringAt s ld ring).cqHead) % cqEntries s ld ring →
        exec (.cqHeadDoorbell ld ring value) s = .next (finished s (ringError s ld ring errBadDoorbell)))) ∧
    (∀ (s : State) (ld : Ld) (ring : RingNo) (value : Word), ldPresent s ld = true → ideDenies s ld = false → (ringAt s ld ring).state ≠ .active →
      exec (.sqTailDoorbell ld ring value) s = .next (finished s (incF s Reg.CRE_DOORBELL_DROP_CNT.drops)) ∧
      exec (.cqHeadDoorbell ld ring value) s = .next (finished s (incF s Reg.CRE_DOORBELL_DROP_CNT.drops))) ∧
    (∀ (s : State) (ld : Ld) (ring : RingNo) (value : Word), ldPresent s ld = true → ideDenies s ld = true →
      exec (.sqTailDoorbell ld ring value) s = .next (finished s (countDenial (incF s Reg.CRE_DOORBELL_DROP_CNT.drops) ld.val 0xFFF 0)) ∧
      exec (.cqHeadDoorbell ld ring value) s = .next (finished s (countDenial (incF s Reg.CRE_DOORBELL_DROP_CNT.drops) ld.val 0xFFF 0))) ∧
    (∀ (s : State) (ld : Ld) (ring : RingNo) (value : Word), ldPresent s ld = false →
      exec (.sqTailDoorbell ld ring value) s = .next (finished s s) ∧ exec (.cqHeadDoorbell ld ring value) s = .next (finished s s)))

/-- A bad doorbell (R116): a value at or above the queue size, or a CQ head that would pass the CQ tail, puts an ACTIVE ring into ERROR with
err_code BAD_DOORBELL and the event of a ring in error, and does nothing else. -/
def Obligations.BadDoorbell : Prop :=
  ∀ (s : State) (ld : Ld) (ring : RingNo) (value : Word), ldPresent s ld = true → ideDenies s ld = false → (ringAt s ld ring).state = .active →
    (let t := raise (setRingErr (updRing s ld ring fun r => { r with state := .error }) ld ring errBadDoorbell) 1296 .ringError ld.val
       [ld.val, ring.val, errBadDoorbell]
     (sqEntries s ld ring ≤ wr value Reg.CRE_SQ_TAIL.tail → exec (.sqTailDoorbell ld ring value) s = .next (finished s t)) ∧
     (cqEntries s ld ring ≤ wr value Reg.CRE_CQ_HEAD.head → exec (.cqHeadDoorbell ld ring value) s = .next (finished s t)) ∧
     (cqUnreleased s ld ring < (wr value Reg.CRE_CQ_HEAD.head + cqEntries s ld ring - (ringAt s ld ring).cqHead) % cqEntries s ld ring →
       exec (.cqHeadDoorbell ld ring value) s = .next (finished s t)))

/-- Descriptor fetch (R119, R133, R138, R140, R153): one host read for the next LD and ring in turn, in two parts where it goes past the
queue's end, never of more than eight descriptors nor of more than the completion ring, the ring's 64 operations and the fetch queue's bank
have room for; what it brings enters the fetch queue in order; a failed read puts its ring into ERROR with SQ_FAULT. The ends of ring
operations (R122, R129, R134, R148, R149): host data go to the oldest read that asked for them; an ended operation writes its entry where
its ring still may, gives its buffers back and leaves; an entry that has waited coal_time_us interrupts; a queue whose pointers differ
resets and aborts what it held. -/
def Obligations.RingFetchAndEnds : Prop :=
  ((∀ (s u v : State) (l : Nat) (ld : Ld) (ring : RingNo) (used start k first : Nat), nextLd s = some l → Fin.ofNat 256 l = ld →
      nextRing s ld = some (ring, used) → { s with cre.lastLd := l, cre.turns := sput (0, 0) s.cre.turns l (ring.val, used) } = u →
      ((ringAt s ld ring).sqHead + asked (ringAt s ld ring)) % sqEntries s ld ring = start → fetchable s ld ring = k →
      min k (sqEntries s ld ring - start) = first →
      toHost (updRing u ld ring fun r => { r with sqReads := r.sqReads ++ [(start, k)] }) ld
        (.hostRead ld ring none (sqBase s ld ring + start * 64) (first * 64)) = v →
      exec .descriptorFetch s = .next (finished s (if first < k then toHost v ld (.hostRead ld ring none (sqBase s ld ring) ((k - first) * 64))
        else v))) ∧
    (∀ s : State, nextLd s = none → exec .descriptorFetch s = .next (finished s s)) ∧
    (∀ (s : State) (ld : Ld) (ring : RingNo), fetchable s ld ring ≤ 8 ∧ fetchable s ld ring ≤ fetchRoom s ∧
      (fetchable s ld ring ≠ 0 → fetchable s ld ring + (ringAt s ld ring).ops.length + asked (ringAt s ld ring) ≤ 64)) ∧
    (∀ (s u : State) (ld : Ld) (ring : RingNo) (start k : Nat) (t : List (Nat × Nat)) (ls : List Line),
      (ringAt s ld ring).sqReads = (start, k) :: t → updRing s ld ring (fun r => { r with sqReads := t }) = u → (ringAt u ld ring).state = .active →
      exec (.sqReadReturn ld ring (some ls)) s = .next (finished s ((ls.take k).foldl (fun s l => takeDesc s ld ring (descOf l))
        (updRing u ld ring fun r => { r with sqHead := (r.sqHead + k) % sqEntries u ld ring }))) ∧
      exec (.sqReadReturn ld ring none) s = .next (finished s (raise (ringError u ld ring errSqFault) 1296 .sqFault ld.val [ld.val, ring.val]))) ∧
    (∀ (s u : State) (ld : Ld) (ring : RingNo) (start k : Nat) (t : List (Nat × Nat)) (result : Option (List Line)),
      (ringAt s ld ring).sqReads = (start, k) :: t → updRing s ld ring (fun r => { r with sqReads := t }) = u → (ringAt u ld ring).state ≠ .active →
      exec (.sqReadReturn ld ring result) s = .next (finished s (ringResetDone u ld ring))) ∧
    (∀ (s : State) (ld : Ld) (ring : RingNo) (result : Option (List Line)), (ringAt s ld ring).sqReads = [] →
      exec (.sqReadReturn ld ring result) s = .next (finished s s))) ∧
  ((∀ (s : State) (ld : Ld) (ring : RingNo) (op k : Nat) (t : List Nat) (o : RingOp) (bs : List (BitVec 8)) (poison : Bool),
      findOp s ld ring op = some o → o.hostReads = k :: t → k ≤ bs.length →
      exec (.hostReadCompletion ld ring op (.bytes bs poison)) s = .next (settled s (updOp s ld ring op fun x => { x with
        hostReads := t, bytes := if x.faulted then [] else x.bytes ++ (bs.take k).map fun b => (b, poison) })) ∧
      exec (.hostReadCompletion ld ring op .failed) s = .next (settled s (updOp s ld ring op fun x => { x with
        hostReads := t, faulted := true, bytes := [] }))) ∧
    (∀ (s u v : State) (ld : Ld) (ring : RingNo) (op : Nat) (o : RingOp), findOp s ld ring op = some o → o.queued = true →
      (if writesEntries s ld ring then writeEntry s ld ring o else s) = u →
      putBuffers { u with cre.stageQ := queuePop stageBank u.cre.stageQ 1 } ld o = v →
      exec (.ringOperationDone ld ring op) s = .next (settledPools s (stageWaiting (ringResetDone
        (updRing v ld ring fun r => { r with ops := r.ops.filter fun x => x.num ≠ op }) ld ring)))) ∧
    (∀ (s : State) (ld : Ld) (ring : RingNo) (op : Nat) (o : RingOp), findOp s ld ring op = some o → o.queued = false →
      exec (.ringOperationDone ld ring op) s = .next (settledPools s s)) ∧
    (∀ (s : State) (ld : Ld) (ring : RingNo), (ringAt s ld ring).unsignalled ≠ 0 →
      getFi s Reg.CRE_RING_IRQ.coal_time_us (ringIdx ld ring) ≠ 0 →
      exec (.coalesceTimerExpiry ld ring) s = .next (finished s (ringInterrupt s ld ring))) ∧
    (∀ (s : State) (ld : Ld) (ring : RingNo), (ringAt s ld ring).unsignalled = 0 ∨
      getFi s Reg.CRE_RING_IRQ.coal_time_us (ringIdx ld ring) = 0 → exec (.coalesceTimerExpiry ld ring) s = .next (finished s s)) ∧
    (∀ s u : State, { incF (raise s 1296 .queueError 0xFFF [0]) Reg.CRE_QUEUE_ERR_CNT.resets with cre.fetchQ := {} } = u →
      exec (.queuePointerMismatch .fetch) s = .next (settledPools s ((opsAt u .fetched).foldl
        (fun s x => endOpFree s x.1 x.2.1 x.2.2.num stAborted) u))) ∧
    (∀ s u : State, { incF (raise s 1296 .queueError 0xFFF [1]) Reg.CRE_QUEUE_ERR_CNT.resets with cre.stageQ := {} } = u →
      exec (.queuePointerMismatch .staging) s = .next (settledPools s (stageWaiting (((opsAt u .ended).filter (·.2.2.queued)).foldl (fun s x =>
        ringResetDone (cqLost (updRing (putBuffers s x.1 x.2.2) x.1 x.2.1 fun r => { r with ops := r.ops.filter fun y => y.num ≠ x.2.2.num })
          x.1 x.2.1) x.1 x.2.1) u)))) ∧
    (∀ (s u : State) (who : Accessor), raise s 1504 .queueError 0xFFF [2, accessorIdx who] = u →
      exec (.queuePointerMismatch (.codeNormal who)) s =
        .next (settledPools s (csSettle (updQueues u (accessorIdx who) fun q => { q with normal := [], normalPtrs := {} })))) ∧
    (∀ (s u : State) (who : Accessor), raise s 1504 .queueError 0xFFF [3, accessorIdx who] = u →
      exec (.queuePointerMismatch (.codeUrgent who)) s =
        .next (settledPools s (csSettle (updQueues u (accessorIdx who) fun q => { q with urgent := [], urgentPtrs := {} })))) ∧
    (∀ (s u : State) (who : Accessor), raise s 1504 .queueError 0xFFF [4, accessorIdx who] = u →
      exec (.queuePointerMismatch (.codeCompletion who)) s =
        .next (settledPools s (csSettle (updQueues u (accessorIdx who) fun q => { q with cmpl := [] })))) ∧
    (∀ (s : State) (q : QueueName), q = .twinSend ∨ q = .twinReceive ∨ q = .eventDrain ∨ (∃ port, q = .chainForward port) →
      exec (.queuePointerMismatch q) s = .next (settledPools s (raise s (queueSource q) .queueError 0xFFF (queueCode q)))))

/-- The data operations (R120 to R123, R127, R136): an operation that may start leaves the fetch queue and, where its checks hold, a copy
and a digest take their buffers, a zeroing runs, and a NOP ends with success; where they fail it ends with that status; and with no
operation that may start, none of the rings' operations does anything. -/
def Obligations.DataOperations : Prop :=
  (∀ (s u : State) (ld : Ld) (ring : RingNo) (o : RingOp), startable s ld ring = some o → opStarted s ld ring o = u →
    (o.desc.opcode = 0x00 → reservedBits o.desc = false → plotless o.desc = true → paramsZero o.desc 0 = true →
      exec (.opNop ld ring) s = .next (settled s (endOp u ld ring o.num stSuccess 0))) ∧
    (o.desc.opcode = 0x00 → reservedBits o.desc = true ∨ plotless o.desc = false ∨ paramsZero o.desc 0 = false →
      exec (.opNop ld ring) s = .next (settled s (failOp u ld ring o stBadField))) ∧
    (o.desc.opcode = 0x01 → plotChecks u ld o.desc (paramsZero o.desc 0) 2 true anyState (upTo 268435456) = none →
      exec (.copyIn ld ring) s = .next (settledPools s (buffered u ld ring o))) ∧
    (o.desc.opcode = 0x02 → plotChecks u ld o.desc (paramsZero o.desc 0) 1 false anyState (upTo 268435456) = none →
      exec (.copyOut ld ring) s = .next (settledPools s (buffered u ld ring o))) ∧
    (o.desc.opcode = 0x03 →
      plotChecks u ld o.desc (paramsZero o.desc 0 && o.desc.hostAddr = 0 && wholeLines o.desc) 2 true anyState someBytes = none →
      exec (.zeroRange ld ring) s = .next (settled s u)) ∧
    (o.desc.opcode = 0x18 → plotChecks u ld o.desc (digestFields o.desc && !slotHeld u ld ring o) 1 false anyState
        (fun n => decide (64 ≤ n) && decide (n ≤ 1073741824)) = none →
      exec (.digestRange ld ring) s = .next (settledPools s (buffered u ld ring o))) ∧
    (∀ st, o.desc.opcode = 0x01 → plotChecks u ld o.desc (paramsZero o.desc 0) 2 true anyState (upTo 268435456) = some st →
      exec (.copyIn ld ring) s = .next (settledPools s (failOp u ld ring o st))) ∧
    (∀ st, o.desc.opcode = 0x02 → plotChecks u ld o.desc (paramsZero o.desc 0) 1 false anyState (upTo 268435456) = some st →
      exec (.copyOut ld ring) s = .next (settledPools s (failOp u ld ring o st))) ∧
    (∀ st, o.desc.opcode = 0x03 →
      plotChecks u ld o.desc (paramsZero o.desc 0 && o.desc.hostAddr = 0 && wholeLines o.desc) 2 true anyState someBytes = some st →
      exec (.zeroRange ld ring) s = .next (settled s (failOp u ld ring o st))) ∧
    (∀ st, o.desc.opcode = 0x18 → plotChecks u ld o.desc (digestFields o.desc && !slotHeld u ld ring o) 1 false anyState
        (fun n => decide (64 ≤ n) && decide (n ≤ 1073741824)) = some st →
      exec (.digestRange ld ring) s = .next (settledPools s (failOp u ld ring o st))) ∧
    (listedOpcode o.desc.opcode = false → exec (.badOpcode ld ring) s = .next (settled s (failOp u ld ring o stBadOpcode)))) ∧
  (∀ (s : State) (ld : Ld) (ring : RingNo), startable s ld ring = none →
    (∀ i ∈ [Instr.opNop ld ring, .zeroRange ld ring, .persistBarrier ld ring, .liftHint ld ring, .settleHint ld ring, .pin ld ring,
      .unpin ld ring, .plotAdmit ld ring, .plotRelease ld ring, .plotSeal ld ring, .cryptoErase ld ring, .badOpcode ld ring],
      exec i s = .next (settled s s)) ∧
    ∀ i ∈ [Instr.copyIn ld ring, .copyOut ld ring, .digestRange ld ring], exec i s = .next (settledPools s s))

/-- The operations that hint, pin and wait (R124, R125, R309, R314): a hint takes the clods that its queue has room for and ends with their
number; a pin raises every clod's count, an unpin lowers it, and each ends with an error and changes no count where one clod stands at the
limit; a barrier waits for the operations before it, or for its master's writes. -/
def Obligations.HintsPinsBarriers : Prop :=
  ∀ (s u : State) (ld : Ld) (ring : RingNo) (o : RingOp), startable s ld ring = some o → opStarted s ld ring o = u →
    (o.desc.opcode = 0x04 → reservedBits o.desc = false → plotless o.desc = true → paramsZero o.desc 1 = true → param o.desc 0 = 0 →
      exec (.persistBarrier ld ring) s = .next (settled s (updOp u ld ring o.num fun x => { x with
        waitsOps := ((ringAt u ld ring).ops.filter fun y => decide (y.num < o.num)).map (·.num) }))) ∧
    (o.desc.opcode = 0x04 → reservedBits o.desc = false → plotless o.desc = true → paramsZero o.desc 1 = true → param o.desc 0 = 1 →
      exec (.persistBarrier ld ring) s = .next (settled s (updOp u ld ring o.num fun x => { x with waits := masterWrites u ld.val }))) ∧
    (o.desc.opcode = 0x04 → reservedBits o.desc = true ∨ plotless o.desc = false ∨ paramsZero o.desc 1 = false ∨ 1 < (param o.desc 0).toNat →
      exec (.persistBarrier ld ring) s = .next (settled s (failOp u ld ring o stBadField))) ∧
    (∀ st, (o.desc.opcode = 0x08 → plotChecks u ld o.desc (rangeFields o.desc) 1 false anyState someBytes = some st →
        exec (.liftHint ld ring) s = .next (settled s (failOp u ld ring o st))) ∧
      (o.desc.opcode = 0x09 → plotChecks u ld o.desc (rangeFields o.desc) 2 false anyState someBytes = some st →
        exec (.settleHint ld ring) s = .next (settled s (failOp u ld ring o st))) ∧
      (plotChecks u ld o.desc (rangeFields o.desc) 3 false anyState (upTo 1073741824) = some st →
        (o.desc.opcode = 0x0A → exec (.pin ld ring) s = .next (settled s (failOp u ld ring o st))) ∧
        (o.desc.opcode = 0x0B → exec (.unpin ld ring) s = .next (settled s (failOp u ld ring o st))))) ∧
    (o.desc.opcode = 0x08 → plotChecks u ld o.desc (rangeFields o.desc) 1 false anyState someBytes = none →
      exec (.liftHint ld ring) s = .next (settled s (
        let new := ((touched u o).filter fun c => liftable u o.desc.plot.val c && !u.tmg.liftHints.contains c &&
          !(u.tmg.lifts.any fun l => l.clod = c)).take (65536 - u.tmg.liftHints.length)
        retryLifts (endOp { u with tmg.liftHints := u.tmg.liftHints ++ new } ld ring o.num stSuccess new.length)))) ∧
    (o.desc.opcode = 0x09 → plotChecks u ld o.desc (rangeFields o.desc) 2 false anyState someBytes = none →
      exec (.settleHint ld ring) s = .next (settled s (
        let new := ((touched u o).filter fun c => settleable u c && !u.tmg.settleHints.contains c &&
          !(u.tmg.queue.any fun q => q.clod = c)).take (65536 - u.tmg.settleHints.length)
        endOp { u with tmg.settleHints := u.tmg.settleHints ++ new } ld ring o.num stSuccess new.length))) ∧
    (o.desc.opcode = 0x0B → plotChecks u ld o.desc (rangeFields o.desc) 3 false anyState (upTo 1073741824) = none →
      (∀ c ∈ touched u o, (entryOf u c).pins ≠ 0) →
      exec (.unpin ld ring) s = .next (settled s (endOp ((touched u o).foldl (fun s c =>
        updEntry s c fun e => { e with pins := Fin.ofNat 16 (e.pins.val - 1) }) u) ld ring o.num stSuccess (touched u o).length))) ∧
    (o.desc.opcode = 0x0B → plotChecks u ld o.desc (rangeFields o.desc) 3 false anyState (upTo 1073741824) = none →
      (∃ c ∈ touched u o, (entryOf u c).pins = 0) → exec (.unpin ld ring) s = .next (settled s (failOp u ld ring o stNotPinned))) ∧
    (o.desc.opcode = 0x0A → plotChecks u ld o.desc (rangeFields o.desc) 3 false anyState (upTo 1073741824) = none →
      (∃ c ∈ touched u o, (entryOf u c).pins = 15) → exec (.pin ld ring) s = .next (settled s (failOp u ld ring o stPinLimit))) ∧
    (o.desc.opcode = 0x0A → plotChecks u ld o.desc (rangeFields o.desc) 3 false anyState (upTo 1073741824) = none →
      (∀ c ∈ touched u o, (entryOf u c).pins ≠ 15) → ∀ v, (touched u o).foldl (fun s c =>
        updEntry s c fun e => { e with pins := Fin.ofNat 16 (e.pins.val + 1) }) u = v →
      exec (.pin ld ring) s = .next (settled s (retryLifts (updOp { v with
        tmg.pinWaits := v.tmg.pinWaits ++ (touched u o).filter fun c => !pinHolds v c && !v.tmg.pinWaits.contains c } ld ring o.num
        fun x => { x with pins := touched u o, result := (touched u o).length }))))

/-- Ends of the pin count (R45): a PIN of a range with a count at 15 ends with PIN_LIMIT, and an UNPIN of a range with a count at 0 with
NOT_PINNED; the operation's own effect leaves every translation entry as it was. -/
def Obligations.PinCountEnds : Prop :=
  ∀ (s u : State) (ld : Ld) (ring : RingNo) (o : RingOp), startable s ld ring = some o → opStarted s ld ring o = u →
    plotChecks u ld o.desc (rangeFields o.desc) 3 false anyState (upTo 1073741824) = none →
    (o.desc.opcode = 0x0A → (∃ c ∈ touched u o, (entryOf u c).pins = 15) →
      exec (.pin ld ring) s = .next (settled s (failOp u ld ring o stPinLimit))) ∧
    (o.desc.opcode = 0x0B → (∃ c ∈ touched u o, (entryOf u c).pins = 0) →
      exec (.unpin ld ring) s = .next (settled s (failOp u ld ring o stNotPinned))) ∧
    (∀ clod, entryOf (failOp u ld ring o stPinLimit) clod = entryOf s clod ∧ entryOf (failOp u ld ring o stNotPinned) clod = entryOf s clod)

/-- The operations on plots (R41, R42, R126, R451, R452): an admission is submitted where the LD may ask for one and denied where it may
not; release, seal and erase are ordered at the plot's home, by it or by the twin it is asked of. -/
def Obligations.PlotOperations : Prop :=
  ∀ (s u : State) (ld : Ld) (ring : RingNo) (o : RingOp), startable s ld ring = some o → opStarted s ld ring o = u →
    (o.desc.opcode = 0x10 → reservedBits o.desc = false → admitFields o.desc = true → flagI u Reg.CRE_LD_PRIV.admit_allow ld.val = true →
      exec (.plotAdmit ld ring) s = .next (settled s (submitJob u (.ring ld ring o.num) (admissionOf o.desc)))) ∧
    (o.desc.opcode = 0x10 → reservedBits o.desc = false → admitFields o.desc = true → flagI u Reg.CRE_LD_PRIV.admit_allow ld.val = false →
      exec (.plotAdmit ld ring) s = .next (settled s (endOpFree (countDenial u ld.val 0xFFF 0) ld ring o.num stAccessDenied))) ∧
    (o.desc.opcode = 0x11 → orderWaits s o = false → plotChecks u ld o.desc (wholeFields o.desc) 3 false anyState (wholeRange o.desc) = none →
      exec (.plotRelease ld ring) s =
        .next (settled s (orderAtHome u o.desc.plot.val (fun v => enterReleasing v o.desc.plot.val) (.release o.desc.plot)))) ∧
    (o.desc.opcode = 0x12 → orderWaits s o = false → plotChecks u ld o.desc (wholeFields o.desc) 3 false sealState (wholeRange o.desc) = none →
      (plotRec u o.desc.plot.val).sealing = false → ∀ n, (plotRec u o.desc.plot.val).seq = n → exec (.plotSeal ld ring) s =
        .next (settled s (orderAtHome u o.desc.plot.val (fun v => queueSeal (orderSeal v o.desc.plot.val n) o.desc.plot.val)
          (.seal o.desc.plot n)))) ∧
    (o.desc.opcode = 0x12 → orderWaits s o = false → plotChecks u ld o.desc (wholeFields o.desc) 3 false sealState (wholeRange o.desc) = none →
      (plotRec u o.desc.plot.val).sealing = true → exec (.plotSeal ld ring) s = .next (settled s u)) ∧
    (∀ st, o.desc.opcode = 0x12 → orderWaits s o = false →
      plotChecks u ld o.desc (wholeFields o.desc) 3 false sealState (wholeRange o.desc) = some st →
      exec (.plotSeal ld ring) s = .next (settled s (failOp u ld ring o st))) ∧
    (∀ st, o.desc.opcode = 0x11 → orderWaits s o = false →
      plotChecks u ld o.desc (wholeFields o.desc) 3 false anyState (wholeRange o.desc) = some st →
      exec (.plotRelease ld ring) s = .next (settled s (failOp u ld ring o st))) ∧
    (o.desc.opcode = 0x12 → orderWaits s o = true → exec (.plotSeal ld ring) s = .next (settled s s)) ∧
    (o.desc.opcode = 0x10 → reservedBits o.desc = true ∨ admitFields o.desc = false →
      exec (.plotAdmit ld ring) s = .next (settled s (failOp u ld ring o stBadField))) ∧
    (o.desc.opcode = 0x13 → eraseWaits s o = false → plotChecks u ld o.desc (wholeFields o.desc) 3 false eraseState (wholeRange o.desc) = none →
      exec (.cryptoErase ld ring) s =
        .next (settled s (orderAtHome u o.desc.plot.val (fun v => orderErase v o.desc.plot.val) (.erase o.desc.plot)))) ∧
    (o.desc.opcode = 0x11 → orderWaits s o = true → exec (.plotRelease ld ring) s = .next (settled s s)) ∧
    (∀ st, o.desc.opcode = 0x13 → eraseWaits s o = false →
      plotChecks u ld o.desc (wholeFields o.desc) 3 false eraseState (wholeRange o.desc) = some st →
      exec (.cryptoErase ld ring) s = .next (settled s (failOp u ld ring o st))) ∧
    (o.desc.opcode = 0x13 → eraseWaits s o = true → exec (.cryptoErase ld ring) s = .next (settled s s))

/-! ### Buffers and keys (13, 14) -/

/-- A requester's buffer (R459, R465, R471): the one whose turn it is gets the handle on top of the cache; with the cache empty each that
asks gets POOL_EMPTY, which is counted; a size that no pool serves gets BAD_SIZE; nothing is accepted while a flush runs. Sharing and giving
back (R467 to R469): a listed owner adds another, up to eight; the last owner's PUT frees the buffer to its pool's cache, any other owner's
removes its name; what is not the owner's to give is rejected with its reason. Lines of a buffer, the refill engine, the rebuild, and what
no owner can have (R461, R463, R464, R469 to R471): a handle of no usable buffer is rejected; a buffer whose record cannot be read is
quarantined, once, and its PUTs and SHAREs do nothing; nothing is accepted while a flush runs; only a listed owner under the handle's tag
reaches a line; below 256 handles the cache takes up to 512 from the ring, and above 896 it gives 512 back; a pool whose pointers disagree
is rebuilt from its records, and the PUTs that waited are then done. -/
def Obligations.BufferCommands : Prop :=
  ((∀ (s t : State) (bytes pool h : Nat) (owners : List Owner) (o : Owner), s.phs.flushStart = none → poolFor bytes = some pool →
      nextOwner (poolAt s pool).lastGrant owners = some o → bufGrant s pool o = some (h, t) →
      ((poolAt t pool).cache ≠ [] → exec (.bufferGet bytes owners) s = .next (ended s (emit t (.bufGrant o h)))) ∧
      ((poolAt t pool).cache = [] → exec (.bufferGet bytes owners) s =
        .next (ended s ((owners.erase o).foldl (fun s x => emit (poolEmpty s pool) (.bufEmpty x)) (emit t (.bufGrant o h)))))) ∧
    (∀ (s : State) (bytes pool : Nat) (owners : List Owner), s.phs.flushStart = none → poolFor bytes = some pool →
      (poolAt s pool).cache = [] ∨ (poolAt s pool).rebuilding = true →
      exec (.bufferGet bytes owners) s = .next (ended s (owners.foldl (fun s x => emit (poolEmpty s pool) (.bufEmpty x)) s))) ∧
    (∀ (s : State) (bytes : Nat) (owners : List Owner), s.phs.flushStart = none → bytes = 0 ∨ 65536 < bytes →
      exec (.bufferGet bytes owners) s = .next (ended s (owners.foldl (fun s x => emit s (.bufBadSize x)) s))) ∧
    (∀ (s : State) (bytes : Nat) (owners : List Owner), s.phs.flushStart ≠ none → exec (.bufferGet bytes owners) s = .next (ended s s))) ∧
  (∀ (s : State) (handle : Word) (owner : Owner) (r : BufRec) (pool i tag : Nat), s.phs.flushStart = none →
      handlePool handle.toNat = pool → handleIndex handle.toNat = i → handleTag handle.toNat = tag → badHandle s handle.toNat = false →
      bufAt s pool i = r → r.quarantined = false →
      (∀ adds, freeReason r tag owner = none → r.owners.contains adds = false → r.owners.length < 8 →
        exec (.bufferShare handle owner adds false) s = .next (ended s (setBuf s pool i { r with owners := r.owners ++ [adds] }))) ∧
      (∀ adds, freeReason r tag owner = none → r.owners.contains adds = false → 8 ≤ r.owners.length →
        exec (.bufferShare handle owner adds false) s =
          .next (ended s (incF (setFlag s Reg.BPM_ERR.share_full) Reg.BPM_BAD_FREE_CNT.share_full))) ∧
      (∀ adds reason, freeReason r tag owner = some reason →
        exec (.bufferShare handle owner adds false) s = .next (ended s (rejectBuf s handle.toNat owner reason))) ∧
      (∀ adds, freeReason r tag owner = none → r.owners.contains adds = true →
        exec (.bufferShare handle owner adds false) s = .next (ended s s)) ∧
      (∀ reason, freeReason r tag owner = some reason → (poolAt s pool).rebuilding = false →
        exec (.bufferPut handle owner false) s = .next (settledPools s (rejectBuf s handle.toNat owner reason))) ∧
      (freeReason r tag owner = none → (poolAt s pool).rebuilding = false → r.owners.filter (fun o => o ≠ owner) = [] →
        exec (.bufferPut handle owner false) s = .next (settledPools s (checkLow (updPool
          (setBuf s pool i { r with held := false, untrusted := false, owners := [] }) pool fun p => { p with cache := i :: p.cache }) pool))) ∧
      (freeReason r tag owner = none → (poolAt s pool).rebuilding = false → r.owners.filter (fun o => o ≠ owner) ≠ [] →
        exec (.bufferPut handle owner false) s =
          .next (settledPools s (setBuf s pool i { r with owners := r.owners.filter fun o => o ≠ owner }))) ∧
      ((poolAt s pool).rebuilding = true → exec (.bufferPut handle owner false) s =
        .next (settledPools s (updPool s pool fun p => { p with waitingPuts := p.waitingPuts ++ [(i, tag, owner)] })))) ∧
  ((∀ (s : State) (handle : Word) (owner : Owner) (line : Fin 1024), s.phs.flushStart = none → badHandle s handle.toNat = false →
      freeReason (bufAt s (handlePool handle.toNat) (handleIndex handle.toNat)) (handleTag handle.toNat) owner = none →
      line.val < poolLines (handlePool handle.toNat) →
      (∀ bad, exec (.bufferLineAccess handle owner line (.read bad)) s =
        .next (ended s (readBufLine s (handlePool handle.toNat) (handleIndex handle.toNat) line.val owner bad))) ∧
      (∀ be data poison untrusted, exec (.bufferLineAccess handle owner line (.write be data poison untrusted)) s =
        .next (ended s (writeBufLine s (handlePool handle.toNat) (handleIndex handle.toNat) line.val be data poison untrusted)))) ∧
    (∀ (s : State) (handle : Word) (owner : Owner) (line : Fin 1024) (access : BufAccess), s.phs.flushStart = none →
      freeReason (bufAt s (handlePool handle.toNat) (handleIndex handle.toNat)) (handleTag handle.toNat) owner ≠ none →
      exec (.bufferLineAccess handle owner line access) s = .next (ended s (rejectBuf s handle.toNat owner 3))) ∧
    (∀ (s : State) (handle : Word) (owner : Owner) (line : Fin 1024) (access : BufAccess), s.phs.flushStart = none → badHandle s handle.toNat = false →
      freeReason (bufAt s (handlePool handle.toNat) (handleIndex handle.toNat)) (handleTag handle.toNat) owner = none →
      poolLines (handlePool handle.toNat) ≤ line.val → exec (.bufferLineAccess handle owner line access) s = .next (ended s s)) ∧
    (∀ (s : State) (pool : Fin 3) (p : Pool), s.phs.flushStart = none → poolAt s pool.val = p → p.rebuilding = false →
      (p.cache.length < 256 → exec (.poolRefill pool false) s = .next (settledPools s (updPool s pool.val fun p => { p with
        cache := (takeRuns 512 p.ring).1.reverse ++ p.cache, ring := (takeRuns 512 p.ring).2 }))) ∧
      (256 ≤ p.cache.length → p.cache.length ≤ 896 → exec (.poolRefill pool false) s = .next (settledPools s s)) ∧
      (896 < p.cache.length → exec (.poolRefill pool false) s = .next (settledPools s (updPool s pool.val fun p => { p with
        cache := p.cache.take (p.cache.length - 512)
        ring := p.ring ++ ((p.cache.drop (p.cache.length - 512)).reverse.map fun i => (i, 1)) }))) ∧
      exec (.poolRefill pool true) s = .next (settledPools s (raise (setFlag (updPool s pool.val fun p => { p with
        cache := [], ring := [], rebuilding := true }) Reg.BPM_ERR.ptr_mismatch) 1440 .poolRebuild 0xFFF [pool.val]))) ∧
    (∀ (s : State) (pool : Fin 3) (bad : Bool), s.phs.flushStart ≠ none ∨ (poolAt s pool.val).rebuilding = true →
      exec (.poolRefill pool bad) s = .next (settledPools s s)) ∧
    (∀ (s : State) (pool : Fin 3) (p : Pool), poolAt s pool.val = p → p.rebuilding = true →
      exec (.poolRebuildDone pool) s = .next (settledPools s (p.waitingPuts.foldl (fun s w => bufPut s (handleOf pool.val w.1 w.2.1) w.2.2)
        (updPool s pool.val fun q => { q with
          ring := (takenIndices s pool.val).foldl (fun runs i => cutRun i runs) (if p.usable = 0 then [] else [(0, p.usable)])
          rebuilding := false, waitingPuts := [] })))) ∧
    (∀ (s : State) (pool : Fin 3), (poolAt s pool.val).rebuilding = false → exec (.poolRebuildDone pool) s = .next (settledPools s s)) ∧
    (∀ (s : State) (handle : Word) (owner adds : Owner) (bad : Bool), s.phs.flushStart = none → badHandle s handle.toNat = true →
      exec (.bufferShare handle owner adds bad) s = .next (ended s (rejectBuf s handle.toNat owner 2)) ∧
      exec (.bufferPut handle owner bad) s = .next (settledPools s (rejectBuf s handle.toNat owner 2)) ∧
      ∀ line access, exec (.bufferLineAccess handle owner line access) s = .next (ended s (rejectBuf s handle.toNat owner 3))) ∧
    (∀ (s : State) (handle : Word) (owner adds : Owner), BpmInv s.bpm → s.phs.flushStart = none → badHandle s handle.toNat = false →
      exec (.bufferShare handle owner adds true) s =
        .next (ended s (quarantineBuf s (handlePool handle.toNat) (handleIndex handle.toNat))) ∧
      exec (.bufferPut handle owner true) s =
        .next (settledPools s (quarantineBuf s (handlePool handle.toNat) (handleIndex handle.toNat)))) ∧
    (∀ (s : State) (handle : Word) (owner adds : Owner), s.phs.flushStart = none → badHandle s handle.toNat = false →
      (bufAt s (handlePool handle.toNat) (handleIndex handle.toNat)).quarantined = true → ∀ bad,
      exec (.bufferShare handle owner adds bad) s = .next (ended s s) ∧ exec (.bufferPut handle owner bad) s = .next (settledPools s s)) ∧
    (∀ (s : State) (handle : Word) (owner adds : Owner) (bad : Bool), s.phs.flushStart ≠ none →
      exec (.bufferShare handle owner adds bad) s = .next (ended s s) ∧ exec (.bufferPut handle owner bad) s = .next (settledPools s s) ∧
      ∀ line access, exec (.bufferLineAccess handle owner line access) s = .next (ended s s)))

/-- After a PUT that is accepted, the same PUT again is rejected: no buffer can be given back twice by one owner, whatever else holds it
(R468, R469). -/
def Obligations.SecondPutRejected : Prop :=
  ∀ (s : State) (handle : Word) (owner : Owner), BpmInv s.bpm → s.phs.flushStart = none → badHandle s handle.toNat = false →
    (bufAt s (handlePool handle.toNat) (handleIndex handle.toNat)).quarantined = false →
    (poolAt s (handlePool handle.toNat)).rebuilding = false →
    freeReason (bufAt s (handlePool handle.toNat) (handleIndex handle.toNat)) (handleTag handle.toNat) owner = none →
    exec (.bufferPut handle owner false) s = .next (settledPools s (bufPut s handle.toNat owner)) ∧
    ∃ reason, bufPut (bufPut s handle.toNat owner) handle.toNat owner = rejectBuf (bufPut s handle.toNat owner) handle.toNat owner reason

/-- A buffer that is granted was neither held nor quarantined, and its only owner is then the requester, under the next tag (R461, R463,
R465). -/
def Obligations.GrantIsFresh : Prop :=
  ∀ (s t : State) (pool h : Nat) (o : Owner), BpmInv s.bpm → pool < 3 → bufGrant s pool o = some (h, t) →
    handlePool h = pool ∧ badHandle s h = false ∧
    (bufAt s pool (handleIndex h)).held = false ∧ (bufAt s pool (handleIndex h)).quarantined = false ∧
    bufAt t pool (handleIndex h) = { held := true, owners := [o], tag := ((bufAt s pool (handleIndex h)).tag + 1) % 128 } ∧
    handleTag h = ((bufAt s pool (handleIndex h)).tag + 1) % 128 ∧
    ∀ j, j ≠ handleIndex h → j < 8388608 → bufAt t pool j = bufAt s pool j

/-- Keys (R439, R441, R443, R445, R456, R457): a load by the lockstep pair moves the window's key to the selected slot, derives a session
secret's two keys and zeroes the window; a clear empties the slot; any other master's write is denied; a role goes to a pair in service
only; a link's rekeying keeps its old keys until they retire, and then the next secret becomes the current one. -/
def Obligations.KeysAndSecrets : Prop :=
  (∀ (s : State) (who : Accessor) (value : Word) (kind slot : Nat), isLockstep who = true → wr value Reg.CKU_KEYWIN_CTL.kind = kind →
    wr value Reg.CKU_KEYWIN_CTL.slot = slot →
    ∀ k : KeySet, { key := windowSecret s, iv := (List.range 3).map fun i => sget 0 s.cku.window (8 + i) } = k →
    (wr value Reg.CKU_KEYWIN_CTL.load = 1 → wr value Reg.CKU_KEYWIN_CTL.clear = 0 →
      (∀ i, kind ≠ 2 → secretSlot kind slot = some i → exec (.keywinLoad who value) s = .next (finished s
        { incFiBy { s with cku.secrets := sput [] s.cku.secrets i (windowSecret s) } Reg.CKU_KEY_CACHE.kdf_runs 0 2 with cku.window := [] })) ∧
      (kind ≠ 2 → secretSlot kind slot = none → exec (.keywinLoad who value) s = .next (finished s { s with cku.window := [] })) ∧
      (kind = 2 → slot < 128 → exec (.keywinLoad who value) s = .next (finished s
        { loadIdeKey s (slot / 8) (slot / 4 % 2 * 2 + slot / 2 % 2) (slot % 2 = 1) k with cku.window := [] })) ∧
      (kind = 2 → 128 ≤ slot → exec (.keywinLoad who value) s = .next (finished s { s with cku.window := [] }))) ∧
    (wr value Reg.CKU_KEYWIN_CTL.load = 0 → wr value Reg.CKU_KEYWIN_CTL.clear = 1 →
      (∀ i, kind ≠ 2 → secretSlot kind slot = some i →
        exec (.keywinClear who value) s = .next (finished s { s with cku.secrets := sput [] s.cku.secrets i [] })) ∧
      (kind = 2 → slot < 128 → exec (.keywinClear who value) s = .next (finished s
        (loadIdeKey s (slot / 8) (slot / 4 % 2 * 2 + slot / 2 % 2) (slot % 2 = 1) noKey)))) ∧
    (wr value Reg.CKU_KEYWIN_CTL.load = 0 → wr value Reg.CKU_KEYWIN_CTL.clear = 0 → exec (.keywinLoad who value) s = .next (finished s s)) ∧
    exec (.keywinClear who value) s = exec (.keywinLoad who value) s) ∧
  (∀ (s : State) (who : Accessor) (value : Word), isLockstep who = false →
    exec (.keywinLoad who value) s = .next (finished s (denyKeyWrite s who)) ∧
    exec (.keywinClear who value) s = .next (finished s (denyKeyWrite s who))) ∧
  (∀ (s : State) (who : Accessor) (value : Word) (pair : Nat), isManager s who = true → selOf s who Reg.CKU_GCM_SEL.pair = pair →
    (pair < 24 → gcmIn s pair = true →
      exec (.gcmRoleWrite who value) s = .next (finished s (giveRole s pair (wr value Reg.CKU_GCM_ROLE.role)))) ∧
    (24 ≤ pair ∨ gcmIn s pair = false → exec (.gcmRoleWrite who value) s = .next (finished s s))) ∧
  (∀ (s : State) (link : Fin 9), linkSecret s link.val ≠ [] → sget none s.cku.rekeys link.val = none →
    exec (.linkRekeyTimer link) s = .next (finished s (emit (startRekey s link.val (nextCounters s link.val).1 (nextCounters s link.val).2)
      (.keyUpdate link.val (nextCounters s link.val).1 (nextCounters s link.val).2)))) ∧
  (∀ (s : State) (link : Fin 9), linkSecret s link.val = [] ∨ sget none s.cku.rekeys link.val ≠ none →
    exec (.linkRekeyTimer link) s = .next (finished s s)) ∧
  (∀ (s u : State) (link : Fin 9) (k : Rekey), sget none s.cku.rekeys link.val = some k →
    { s with cku.old := sput [] s.cku.old link.val [], cku.rekeys := sput none s.cku.rekeys link.val none } = u →
    (sget [] s.cku.secrets (linkSlot link.val + 1) = [] → exec (.oldKeyRetire link) s = .next (finished s u)) ∧
    ∀ next, sget [] s.cku.secrets (linkSlot link.val + 1) = next → next ≠ [] → exec (.oldKeyRetire link) s = .next (finished s { u with
      cku.secrets := sput [] (sput [] u.cku.secrets (linkSlot link.val) next) (linkSlot link.val + 1) [] })) ∧
  (∀ (s : State) (link : Fin 9), sget none s.cku.rekeys link.val = none → exec (.oldKeyRetire link) s = .next (finished s s))

/-! ### Power, hold-up and clocks (15, 20) -/

/-- Power-up and power-down (R475 to R481, R496, R616): a rail's step leads to the next rail, and the last one to RUNNING with the die's
reset released; a step that does not pass in time latches the failure and turns back; rails fall in order, and one that does not fall is
marked failed and passed over; after OFF_HOLD comes OFF. What asks for power (R475, R478, R491): PWR_REQ that rises may power up, and one
that falls ends the run, with the flush first where it is armed; so do an off request, a cycle request and a written flush in RUNNING; a
power-up under way turns back at its step's end. -/
def Obligations.PowerStates : Prop :=
  ((∀ (s : State) (b : BootReport) (k : Fin 7), s.phs.step = some k → phsState s = phsUp → s.phs.turnBack = none → k.val < 6 →
      exec (.railStepPass b) s = .next (ended s (startStep { s with
        phs.railsUp := bitOn s.phs.railsUp k.val, phs.pg := bitOn s.phs.pg k.val, phs.step := none } (k.val + 1)))) ∧
    (∀ (s : State) (b : BootReport), s.phs.step = some 6 → phsState s = phsUp → s.phs.turnBack = none →
      exec (.railStepPass b) s = .next (ended s (enterRunning { s with
        phs.railsUp := bitOn s.phs.railsUp 6, phs.pg := bitOn s.phs.pg 6, phs.step := none } b))) ∧
    (∀ (s : State) (k : Fin 7), s.phs.step = some k → phsState s = phsUp →
      exec .pgTimeout s = .next (ended s (failStep s k.val 1 Reg.PHS_ERR.pg_timeout))) ∧
    (∀ (s : State) (k : Fin 7), s.phs.step = some k → phsState s = phsDown →
      exec .railFallStep s = .next (finished s (downFrom { s with
        phs.step := none, phs.railsUp := bitOff s.phs.railsUp k.val, phs.pg := bitOff s.phs.pg k.val } k.val))) ∧
    (∀ (s u : State) (k : Fin 7), s.phs.step = some k → phsState s = phsDown →
      markFailed (setFlag (takeSnapshot s (k.val + 1) 2) Reg.PHS_ERR.off_timeout) (k.val + 1) = u →
      exec .offTimeout s = .next (finished s (downFrom { u with phs.step := none, phs.railsUp := bitOff u.phs.railsUp k.val } k.val))) ∧
    (∀ s : State, phsState s = phsHold → exec .offHoldEnd s = .next (ended s (tryPowerUp (setPhs s phsOff)))) ∧
    (∀ (s u : State) (b : BootReport) (k : Fin 7) (t : Nat × Nat), s.phs.step = some k → phsState s = phsUp → s.phs.turnBack = some t →
      { s with phs.railsUp := bitOn s.phs.railsUp k.val, phs.pg := bitOn s.phs.pg k.val, phs.step := none } = u →
      exec (.railStepPass b) s = .next (ended s (powerDown (notePhs u (if t.1 < 32 then some t.1 else none) t.2)))) ∧
    (∀ (s : State) (b : BootReport), phsState s ≠ phsUp → exec (.railStepPass b) s = .next (ended s s) ∧ exec .pgTimeout s = .next (ended s s)) ∧
    (∀ s : State, phsState s ≠ phsDown → exec .railFallStep s = .next (finished s s) ∧ exec .offTimeout s = .next (finished s s)) ∧
    (∀ s : State, phsState s ≠ phsHold → exec .offHoldEnd s = .next (ended s s)) ∧
    (∀ (s : State) (b : BootReport), s.phs.step = none → exec (.railStepPass b) s = .next (ended s s) ∧ exec .pgTimeout s = .next (ended s s) ∧
      exec .railFallStep s = .next (finished s s) ∧ exec .offTimeout s = .next (finished s s))) ∧
  ((∀ (s u : State) (high good : Bool), (if good then { s with phs.v12Run := 100 } else s) = u →
      (flag u Reg.PHS_STATE.pwr_req = high → exec (.pwrReqChange high good) s = .next (ended s (tryPowerUp u))) ∧
      (flag u Reg.PHS_STATE.pwr_req = false → high = true → ∀ v,
        (if lowLongEnough u then putFlag u Reg.PHS_STATE.fail_latched false else u) = v →
        exec (.pwrReqChange high good) s = .next (ended s (tryPowerUp (putFlag { v with phs.stayOff := false } Reg.PHS_STATE.pwr_req true)))) ∧
      (flag u Reg.PHS_STATE.pwr_req = true → high = false → exec (.pwrReqChange high good) s =
        .next (ended s (offRequest (putFlag { u with phs.lowSince := u.devTime, phs.stayOff := false } Reg.PHS_STATE.pwr_req false) 1)))) ∧
    (∀ (s : State) (who : Accessor), isManager s who = true →
      exec (.cycleRequest who) s = .next (ended s (offRequest s 4)) ∧
      (phsState s ≠ phsOff → phsState s ≠ phsHold →
        exec (.offRequest who) s = .next (ended s (offRequest { s with phs.stayOff := flag s Reg.PHS_STATE.pwr_req } 1))) ∧
      (phsState s = phsOff ∨ phsState s = phsHold → exec (.offRequest who) s = .next (ended s s)) ∧
      (phsState s = phsRunning → exec (.flushNow who) s = .next (ended s (stopRun s none 5))) ∧
      (phsState s ≠ phsRunning → exec (.flushNow who) s = .next (ended s s))) ∧
    (∀ (s : State) (kind : Nat), (phsState s = phsUp → offRequest s kind = { s with phs.turnBack := some (32, kind) }) ∧
      (phsState s = phsRunning → offRequest s kind = stopRun s none kind) ∧
      (phsState s ≠ phsUp → phsState s ≠ phsRunning → offRequest s kind = s)) ∧
    (∀ (s : State) (channel : Option Nat) (kind : Nat), stopRun s channel kind =
      if armed (notePhs s channel kind) then enterFlush (notePhs s channel kind) channel
      else powerDown (setF (notePhs s channel kind) Reg.PHS_KILN_STS.last_result 3)) ∧
    (∀ s : State, phsState s = phsFlushing → exec .kilnFlushEnd s = .next (ended s (flushDone s))) ∧
    (∀ s : State, phsState s ≠ phsFlushing → exec .kilnFlushEnd s = .next (ended s s)))

/-- Resets, snapshots and arming (R482, R486, R490): an output's stretch ends unless software holds it; the flush is armed in RUNNING with a
ready kiln and a valid budget, and refused otherwise; it is disarmed only while nothing is dirty; a clear empties the snapshots. Sense
channels, the hold-up store and its budget (R475, R480, R483, R485, R487, R488, R491, R496): a fault acts by its action in RUNNING, at the
step's end in power-up, at once in a flush that cannot go on, and as a failed rail in power-down, and a power failure ends the run whatever
its action (that action 2 comes before a power failure's flush is the model's choice, log entry 52); a test starts once, in RUNNING and with
a load; an end whose fall is below half a per cent is invalid, and a valid one sets the capacitance, raising it by at most 2 %; the
published figure is the lesser of cover and kiln space, and one below 1,024 MiB raises its event; a sample that changes nothing leaves only
its readings. -/
def Obligations.ArmingAndHoldup : Prop :=
  ((∀ (s : State) (output : Fin 12), s.phs.stretching.contains output.val = true → output.val < 8 →
      exec (.resetStretchExpiry output) s = .next (finished s (putFlagI { s with
        phs.stretching := s.phs.stretching.filter fun x => x ≠ output.val } Reg.PHS_RST_CFG.asserted output.val false))) ∧
    (∀ (s : State) (output : Fin 12), s.phs.stretching.contains output.val = false → exec (.resetStretchExpiry output) s = .next (finished s s)) ∧
    (∀ (s u : State) (output : Fin 12), s.phs.stretching.contains output.val = true →
      { s with phs.stretching := s.phs.stretching.filter fun x => x ≠ output.val } = u →
      exec (.resetStretchExpiry output) s = .next (finished s (if swAsserted u output.val then u
        else putFlagI u Reg.PHS_RST_CFG.asserted output.val false))) ∧
    (∀ (s : State) (who : Accessor) (value : Word) (o : Nat), isManager s who = true → selOf s who Reg.PHS_RST_SEL.output = o →
      (12 ≤ o → exec (.resetSwAssert who value) s = .next (finished s s)) ∧
      (o < 12 → ∀ u, writeBits s Reg.PHS_RST_CFG.sw_assert.addr o value 0 = u →
        (swAsserted u o = true → exec (.resetSwAssert who value) s = .next (finished s (assertOutput u o))) ∧
        (swAsserted u o = false → swAsserted s o = true → phsState u = phsRunning →
          exec (.resetSwAssert who value) s = .next (finished s { u with phs.stretching := u.phs.stretching ++ [o] })) ∧
        (swAsserted u o = false → swAsserted s o = false ∨ phsState u ≠ phsRunning →
          exec (.resetSwAssert who value) s = .next (finished s u)))) ∧
    (∀ (s u v : State) (who : Accessor), isManager s who = true →
      (phsState s = phsRunning ∧ kilnReady s = true ∧ flag s Reg.PHS_BUDGET_PUB.valid = true) → armed s = false →
      setFlag (setFlag s Reg.PHS_KILN_STS.armed) Reg.PHS_KILN_CTL.arm = u → (if mirrored u || solo u then u else sendHello u) = v →
      exec (.kilnArm who) s = .next (settled s (checkServing (tryPairRestart v)))) ∧
    (∀ (s : State) (who : Accessor), isManager s who = true →
      (phsState s = phsRunning ∧ kilnReady s = true ∧ flag s Reg.PHS_BUDGET_PUB.valid = true) → armed s = true →
      exec (.kilnArm who) s = .next (settled s s)) ∧
    (∀ (s : State) (who : Accessor), isManager s who = true →
      ¬ (phsState s = phsRunning ∧ kilnReady s = true ∧ flag s Reg.PHS_BUDGET_PUB.valid = true) →
      exec (.kilnArm who) s = .next (settled s (setFlag s Reg.PHS_ERR.arm_refused))) ∧
    (∀ (s : State) (who : Accessor), isManager s who = true → dirtyGrains s = 0 → exec (.kilnDisarm who) s =
      .next (finished s (putFlag (putFlag s Reg.PHS_KILN_STS.armed false) Reg.PHS_KILN_CTL.arm false))) ∧
    (∀ (s : State) (who : Accessor), isManager s who = true → dirtyGrains s ≠ 0 → exec (.kilnDisarm who) s = .next (finished s s)) ∧
    (∀ (s : State) (who : Accessor), isManager s who = true → exec (.snapshotClear who) s =
      .next (finished s { s with phs.snapFirst := none, phs.snapRest := [], phs.snapNext := 0 }))) ∧
  ((∀ s : State, phsState s = phsRunning → senseValue s 19 ≠ 0 → s.phs.capTest = none → exec .capTestStart s =
      .next (finished s (setFlag { s with phs.capTest := some { vStart := storeVoltage s } } Reg.PHS_HOLDUP_CAP.test_busy))) ∧
    (∀ s : State, s.phs.capTest ≠ none ∨ phsState s ≠ phsRunning ∨ senseValue s 19 = 0 → exec .capTestStart s = .next (finished s s)) ∧
    (∀ (s : State) (charge : Nat) (v : Fin 65536), s.phs.capTest = none → exec (.capTestEnd charge v) s = .next (finished s s)) ∧
    (∀ (s u : State) (charge : Nat) (v : Fin 65536) (t : CapTest), s.phs.capTest = some t →
      putFlag { s with phs.capTest := none } Reg.PHS_HOLDUP_CAP.test_busy false = u →
      ((t.vStart - v.val) * 200 < t.vStart ∨ t.vStart ≤ v.val →
        exec (.capTestEnd charge v) s = .next (finished s (setFlag u Reg.PHS_ERR.cap_test_invalid))) ∧
      (v.val < t.vStart → t.vStart ≤ (t.vStart - v.val) * 200 →
        exec (.capTestEnd charge v) s = .next (finished s (setFlag (setFlag (setF u Reg.PHS_HOLDUP_CAP.cap_mf
          (nextCap u (measuredCap charge (t.vStart - v.val)))) Reg.PHS_HOLDUP_CAP.valid) Reg.PHS_BUDGET_PUB.valid)))) ∧
    (∀ (s : State) (m : Nat), nextCap s m = m ∨ (nextCap s m ≤ m ∧ nextCap s m ≤ getF s Reg.PHS_HOLDUP_CAP.cap_mf * 102 / 100)) ∧
    (∀ (s u : State), phsState s = phsRunning → setF (setF s Reg.PHS_HOLDUP_E.e_use_j (min 0xFFFF (useUnits s / 20000000)))
        Reg.PHS_HOLDUP_E.e_net_j (min 0xFFFF (netUnits s / 200000000000)) = u → flag u Reg.PHS_BUDGET_PUB.valid = false →
      exec .budgetPublish s = .next (finished s (setF u Reg.PHS_BUDGET_PUB.pub_mib 0))) ∧
    (∀ (s u : State) (pub : Nat), phsState s = phsRunning → setF (setF s Reg.PHS_HOLDUP_E.e_use_j (min 0xFFFF (useUnits s / 20000000)))
        Reg.PHS_HOLDUP_E.e_net_j (min 0xFFFF (netUnits s / 200000000000)) = u → flag u Reg.PHS_BUDGET_PUB.valid = true →
      pub = min (min (coverBytes u) (kilnSpace u - imageMeta u) / 1048576) (2 ^ 21 - 1) →
      ∀ v, putFlag (setF u Reg.PHS_BUDGET_PUB.pub_mib pub) Reg.PHS_BUDGET_PUB.kiln_capped
        (decide (kilnSpace u - imageMeta u < coverBytes u)) = v →
      (1024 ≤ pub → exec .budgetPublish s = .next (finished s v)) ∧
      (pub < 1024 → exec .budgetPublish s = .next (finished s (raise (setFlag v Reg.PHS_ERR.holdup_low) 1482 .holdupLow 0xFFF [pub])))) ∧
    (∀ s : State, phsState s ≠ phsRunning → exec .budgetPublish s = .next (finished s s)) ∧
    (∀ (s u t v w : State) (values : List (BitVec 16)) (pg : BitVec 7), s.phs.running = true →
      ((List.range 24).zip values).foldl (fun s e => sampleChannel s e.1 e.2) { s with phs.pg := pg } = u →
      { u with
         phs.v12Run := if getFi u Reg.PHS_MON_WARN.warn_lo 9 < senseValue u 9 then min 100 (u.phs.v12Run + 1) else 0
         phs.holdup := (senseValue u 10 :: u.phs.holdup).take 100 } = t →
      (newlyHeld s t Reg.PHS_MON_VAL.fault).foldl senseFaults ((newlyHeld s t Reg.PHS_MON_VAL.warn).foldl senseWarns t) = v →
      (if phsState v = phsFlushing ∧ senseValue v 10 < getF v Reg.PHS_HOLDUP_CFG2.vmin_10mv then flushStops v 10 (mayClose v) else v) = w →
      exec (.senseSample values pg) s = .next (ended s (tryPowerUp w))) ∧
    (∀ (s : State) (values : List (BitVec 16)) (pg : BitVec 7), s.phs.running = false →
      exec (.senseSample values pg) s = .next (ended s s)) ∧
    (∀ (s : State) (ch : Nat) (action : Nat),
      (if powerFails s ch then max 1 (min 2 (getFi s Reg.PHS_MON_CTL.action ch)) else min 2 (getFi s Reg.PHS_MON_CTL.action ch)) = action →
      (phsState s = phsRunning → action = 0 → faultActs s ch = s) ∧
      (phsState s = phsRunning → action = 1 → faultActs s ch = stopRun s (some ch) 2) ∧
      (phsState s = phsRunning → action = 2 → faultActs s ch = powerDown (notePhs s (some ch) 2)) ∧
      (phsState s = phsUp → action ≠ 0 → faultActs s ch = { s with phs.turnBack := some (ch, 2) }) ∧
      (phsState s = phsFlushing → ∀ u, (if ch ≤ 8 then markFailed s ch else s) = u →
        (stopsFlush ch = true → faultActs s ch = flushStops u ch (mayClose u)) ∧ (stopsFlush ch = false → faultActs s ch = u)) ∧
      (phsState s = phsDown → ch ≤ 8 → faultActs s ch = markFailed s ch)))

/-- The always-on domain and the clocks (R477, R588, R617): its reset leaves PHS's state and registers as they are at reset and device time
at 0; its release starts PHS in OFF; a lost reference or PLL sets its flag, raises its event and takes down what it clocks. -/
def Obligations.ClocksAndReset : Prop :=
  (∀ s : State, ∃ t, exec .aonPowerOnReset s = .next t ∧ t.pending = s.pending ∧ t.phs = {} ∧ t.devTime = 0 ∧
    (∀ e ∈ t.regs, e.1 / 1048576 / 16777216 ≠ 12) ∧ t.pou.dirty = []) ∧
  (∀ s : State, s.phs.running = false → exec .aonResetRelease s = .next (finished s { s with phs.running := true })) ∧
  (∀ s : State, s.phs.running = true → exec .aonResetRelease s = .next (finished s s)) ∧
  (∀ s u : State, s.phs.dieReset = false →
    setFlag (putFlag (putFlag (clockFault s Reg.GLB_CLK_ERR.refclk_b_loss [31]) Reg.GLB_CLK_STS.refclk_b_ok false)
      Reg.GLB_CLK_STS.root_lock false) Reg.GLB_CLK_STS.holdover = u →
    exec (.refclkBLoss true) s = .next (ended s (if phsState u = phsRunning then stopRun u (some 31) 2 else u))) ∧
  (∀ (s u : State), s.phs.dieReset = false →
    setFlag (putFlag (clockFault s Reg.GLB_CLK_ERR.root_unlock [31]) Reg.GLB_CLK_STS.root_lock false) Reg.GLB_CLK_STS.holdover = u →
    exec (.refclkBLoss false) s = .next (ended s (if phsState u = phsRunning then stopRun u (some 31) 2 else u))) ∧
  (∀ (s : State) (lost : Bool) (channel : Fin 16) (pll : Fin 8), s.phs.dieReset = true → exec (.refclkBLoss lost) s = .next (ended s s) ∧
    exec .refclkALoss s = .next (settled s s) ∧ exec .refclkAReturn s = .next (finished s s) ∧
    exec (.ddrPllUnlock channel) s = .next (finished s s) ∧ exec (.serdesPllUnlock pll) s = .next (settled s s) ∧
    exec (.serdesPllRelock pll) s = .next (finished s s)) ∧
  (∀ s : State, s.phs.dieReset = false → exec .refclkALoss s = .next (settled s (stopLinks
    (putFlag (clockFault s Reg.GLB_CLK_ERR.refclk_a_loss [0]) Reg.GLB_CLK_STS.refclk_a_ok false) (List.range 16)))) ∧
  (∀ s : State, s.phs.dieReset = false → exec .refclkAReturn s = .next (finished s (startAllTraining (putFlag s Reg.GLB_CLK_STS.refclk_a_ok true)))) ∧
  (∀ (s u v w : State) (channel : Fin 16), s.phs.dieReset = false → clockFault s Reg.GLB_CLK_ERR.ddr_unlock [channel.val] = u →
    setF u Reg.GLB_CLK_STS.ddr_lock (clearBit (getF u Reg.GLB_CLK_STS.ddr_lock) channel.val) = v →
    askRetrain (updLoamChan v channel.val fun c => { c with heldByPll := true }) channel.val false = w →
    (loamState w channel.val = 1 ∨ loamState w channel.val = 3 → exec (.ddrPllUnlock channel) s = .next (finished s
      (closeRows (setLoamState (updLoamChan w channel.val fun c => { c with segment := true }) channel.val 2) channel.val))) ∧
    (loamState w channel.val = 0 ∨ loamState w channel.val = 2 → exec (.ddrPllUnlock channel) s = .next (finished s w))) ∧
  (∀ (s u : State) (pll : Fin 8), s.phs.dieReset = false → clockFault s Reg.GLB_CLK_ERR.sd_unlock [pll.val] = u →
    (pll.val < 4 → exec (.serdesPllUnlock pll) s = .next (settled s (stopLinks (setF u Reg.GLB_CLK_STS.host_sd_lock
      (clearBit (getF s Reg.GLB_CLK_STS.host_sd_lock) pll.val)) (pllPorts pll.val)))) ∧
    (4 ≤ pll.val → pll.val < 6 → exec (.serdesPllUnlock pll) s = .next (settled s ((pllPorts pll.val).foldl
      (fun s p => doTwinPortDown (Fin.ofNat 8 p) s) (setF u Reg.GLB_CLK_STS.twin_sd_lock
      (clearBit (getF s Reg.GLB_CLK_STS.twin_sd_lock) (pll.val - 4)))))) ∧
    (6 ≤ pll.val → exec (.serdesPllUnlock pll) s = .next (settled s ((pllPorts pll.val).foldl
      (fun s p => doChainPortDown (Fin.ofNat 8 p) none s) (setF u Reg.GLB_CLK_STS.chain_sd_lock
      (clearBit (getF s Reg.GLB_CLK_STS.chain_sd_lock) (pll.val - 6))))))) ∧
  (∀ (s : State) (pll : Fin 8), s.phs.dieReset = false → pll.val < 4 →
    exec (.serdesPllRelock pll) s = .next (finished s ((pllPorts pll.val).foldl startTraining (setF s Reg.GLB_CLK_STS.host_sd_lock
      (clearBit (getF s Reg.GLB_CLK_STS.host_sd_lock) pll.val + 2 ^ pll.val))))) ∧
  (∀ (s : State) (pll : Fin 8), s.phs.dieReset = false → 6 ≤ pll.val →
    exec (.serdesPllRelock pll) s = .next (finished s (setF s Reg.GLB_CLK_STS.chain_sd_lock
      (clearBit (getF s Reg.GLB_CLK_STS.chain_sd_lock) (pll.val - 6) + 2 ^ (pll.val - 6))))) ∧
  (∀ (s : State) (pll : Fin 8), s.phs.dieReset = false → 4 ≤ pll.val → pll.val < 6 →
    exec (.serdesPllRelock pll) s = .next (finished s (setF s Reg.GLB_CLK_STS.twin_sd_lock
      (clearBit (getF s Reg.GLB_CLK_STS.twin_sd_lock) (pll.val - 4) + 2 ^ (pll.val - 4)))))

/-! ### Management and events (16, 17) -/

/-- The code store's queues (R506, R508, R509): DESC0 opens a descriptor and DESC3 commits it, into the urgent or normal queue; DESC3 with
none open sets desc_err (one that finds the bank full is dropped and sets it too: the model's choice); a read of CMPL_LO takes the head
completion, or the idle item; a flush empties the core's queues. The code store's engine (R505, R507, R508, R510, R512, R513): with nothing
in progress the next descriptor starts, and a normal operation gives way to an urgent one or to the crash flush; an erase makes the sectors
of its run read erased, one after another; a program stores its words up to one already programmed; the completion carries the status. -/
def Obligations.CodeStore : Prop :=
  ((∀ (s : State) (who : Accessor) (value : Word), isManager s who = true → exec (.csDescOpen who value) s =
      .next (finished s (updQueues s (accessorIdx who) fun q => { q with opened := some { w0 := value } }))) ∧
    (∀ (s : State) (who : Accessor) (value : Word), isManager s who = true → (csQueues s (accessorIdx who)).opened = none →
      exec (.csDescCommit who value) s = .next (finished s (setFlag s Reg.MGC_CS_ERR.desc_err))) ∧
    (∀ (s u : State) (who : Accessor) (value : Word) (o : CsOpen) (d : CsDesc), isManager s who = true →
      (csQueues s (accessorIdx who)).opened = some o → { w0 := o.w0, w1 := o.w1, w2 := o.w2, w3 := value } = d →
      updQueues s (accessorIdx who) (fun q => { q with opened := none }) = u →
      (fieldOf o.w0 4 1 = 0 → 0 < queueRoom 16 (csQueues s (accessorIdx who)).normalPtrs → exec (.csDescCommit who value) s =
        .next (finished s (csSettle (updQueues u (accessorIdx who) fun q => { q with
          normal := q.normal ++ [d], normalPtrs := queuePush 16 q.normalPtrs 1 })))) ∧
      (fieldOf o.w0 4 1 = 1 → 0 < queueRoom 2 (csQueues s (accessorIdx who)).urgentPtrs → exec (.csDescCommit who value) s =
        .next (finished s (csSettle (updQueues u (accessorIdx who) fun q => { q with
          urgent := q.urgent ++ [d], urgentPtrs := queuePush 2 q.urgentPtrs 1 })))) ∧
      (queueRoom (csBank (csUrgent d)) (if csUrgent d then (csQueues s (accessorIdx who)).urgentPtrs
          else (csQueues s (accessorIdx who)).normalPtrs) = 0 →
        exec (.csDescCommit who value) s = .next (finished s (setFlag u Reg.MGC_CS_ERR.desc_err)))) ∧
    (∀ (s : State) (who : Accessor), isManager s who = true → (csQueues s (accessorIdx who)).cmpl = [] →
      exec (.csCmplRead who) s = .next (finished s (csSettle (emit (updQueues s (accessorIdx who) fun q => { q with
        cmpl := q.cmpl.drop 1, latchedHi := 0xFFFFFFFF }) (.regData who .mgmt Reg.MGC_CS_CMPL_LO.cmpl_lo.addr 0xFFFFFFFF))))) ∧
    (∀ (s : State) (who : Accessor) (lo hi : Word) (t : List (Word × Word)), isManager s who = true →
      (csQueues s (accessorIdx who)).cmpl = (lo, hi) :: t →
      exec (.csCmplRead who) s = .next (finished s (csSettle (emit (updQueues s (accessorIdx who) fun q => { q with
        cmpl := q.cmpl.drop 1, latchedHi := hi }) (.regData who .mgmt Reg.MGC_CS_CMPL_LO.cmpl_lo.addr lo))))) ∧
    (∀ (s : State) (who : Accessor) (value : Word), isManager s who = true → wr value Reg.MGC_CS_CTL.flush = 1 →
      exec (.csFlush who value) s = .next (finished s (csSettle (updQueues s (accessorIdx who) fun q => { q with
        opened := none, normal := [], urgent := []
        normalPtrs := queuePop 16 q.normalPtrs q.normal.length, urgentPtrs := queuePop 2 q.urgentPtrs q.urgent.length })))) ∧
    (∀ (s : State) (who : Accessor) (value : Word), isManager s who = true → wr value Reg.MGC_CS_CTL.flush = 0 →
      exec (.csFlush who value) s = .next (finished s s)) ∧
    (∀ (s : State) (core : Fin 5) (addr : BitVec 36), (∀ cause, cause = .unmapped ∨ cause = .denied →
      exec (.coreAccessFault core addr cause) s =
        .next (finished s (raise s 1504 .coreFault (if core.val = 0 then 0x340 else 0x341 + core.val) [addr.toNat]))) ∧
      exec (.coreAccessFault core addr .uncorrectable) s = .next (finished s (raise
        (setF (setFlag s Reg.MGC_CS_ERR.uncorr) Reg.MGC_CS_FAULT_ADDR.addr (addr.toNat % 67108864)) 1504 .coreFault
        (if core.val = 0 then 0x340 else 0x341 + core.val) [addr.toNat])) ∧
      exec (.coreAccessFault core addr .busyBank) s = .next (finished s (raise
        (setF (setFlag s Reg.MGC_CS_ERR.busy_fault) Reg.MGC_CS_FAULT_ADDR.addr (addr.toNat % 67108864)) 1504 .coreFault
        (if core.val = 0 then 0x340 else 0x341 + core.val) [addr.toNat])))) ∧
  ((∀ s : State, (csSettle s).mgc.op = none → (csSettle s).evr.crash = none → exec .csOpStart s = .next (finished s (csStartNext (csSettle s)))) ∧
    (∀ s : State, (csSettle s).mgc.op = none → (csSettle s).evr.crash ≠ none → exec .csOpStart s = .next (finished s (csSettle s))) ∧
    (∀ (s u : State) (o : CsOp), csSettle s = u → u.mgc.op = some o → csMaySuspend u o = true →
      (u.evr.crash ≠ none → exec .csOpStart s = .next (finished s (csSuspend u o))) ∧
      (u.evr.crash = none → csNext u true ≠ none → exec .csOpStart s = .next (finished s (csStartNext (csSuspend u o)))) ∧
      (u.evr.crash = none → csNext u true = none → exec .csOpStart s = .next (finished s u))) ∧
    (∀ (s u : State) (o : CsOp), csSettle s = u → u.mgc.op = some o → csMaySuspend u o = false → exec .csOpStart s = .next (finished s u)) ∧
    (∀ (s u : State) (o : CsOp) (n : Nat) (run : List Nat), s.mgc.op = some o → csOp o.desc = 1 → ((csSectors o.desc).drop o.done).take n = run →
      run.foldl eraseSector s = u → exec (.csErase n) s = .next (finished s { u with
        mgc.op := some { o with done := o.done + run.length, suspends := if run.isEmpty then o.suspends else 0 } })) ∧
    (∀ (s : State) (n : Nat) (data : List Word), s.mgc.op = none → exec (.csErase n) s = .next (finished s s) ∧
      exec (.csProgram data) s = .next (finished s s) ∧ ∀ f, exec (.csOpDone f) s = .next (finished s s)) ∧
    (∀ (s : State) (o : CsOp) (n : Nat) (data : List Word), s.mgc.op = some o →
      (csOp o.desc ≠ 1 → exec (.csErase n) s = .next (finished s s)) ∧ (csOp o.desc ≠ 2 → exec (.csProgram data) s = .next (finished s s))) ∧
    (∀ (s u v : State) (o : CsOp) (data words : List Word) (n : Nat), s.mgc.op = some o → csOp o.desc = 2 →
      data.take (csCount o.desc - o.done) = words → ((List.range words.length).zip words).foldl (fun s e =>
        { s with mgc.sram := sput 0 s.mgc.sram (sramKey o.master (csSram o.desc) (o.done + e.1)) e.2 }) s = u →
      programWords u (csAddr o.desc / 4 + o.done) words = (n, v) →
      exec (.csProgram data) s = .next (finished s { readContents v (csAddr o.desc / 4096) with mgc.op := some { o with done := o.done + n } })) ∧
    (∀ (s : State) (a : Nat) (words : List Word), (programWords s a words).1 ≤ words.length ∧
      ((programWords s a words).1 < words.length → wordProgrammed (programWords s a words).2 (a + (programWords s a words).1) = true)) ∧
    (∀ (s : State) (o : CsOp), s.mgc.op = some o → o.done = csCount o.desc → exec (.csOpDone none) s = .next (finished s (csSettle
      (csComplete { s with mgc.op := none } o.master 0 (csTag o.desc) (csAddrOf o.desc o.done))))) ∧
    (∀ (s : State) (o : CsOp) (f : Option (Fin 8192)), s.mgc.op = some o → o.done ≠ csCount o.desc → (∀ i, f = some i → o.done ≤ i.val) →
      (csOp o.desc ≠ 1 → wordProgrammed s (csAddr o.desc / 4 + o.done) = true → exec (.csOpDone f) s = .next (finished s (csSettle
        (csComplete { s with mgc.op := none } o.master 3 (csTag o.desc) (csAddrOf o.desc o.done))))) ∧
      (csOp o.desc = 1 ∨ wordProgrammed s (csAddr o.desc / 4 + o.done) = false → exec (.csOpDone f) s = .next (finished s s))) ∧
    (∀ (s u : State) (o : CsOp) (i : Fin 8192), s.mgc.op = some o → i.val < o.done → abortOp s (some { o with done := i.val }) = u →
      exec (.csOpDone (some i)) s = .next (finished s (csSettle (csComplete { (if csOp o.desc = 1 then setFlag u Reg.MGC_CS_ERR.erase_fail
        else setFlag u Reg.MGC_CS_ERR.verify_fail) with mgc.op := none } o.master (if csOp o.desc = 1 then 5 else 4) (csTag o.desc)
        (csAddrOf o.desc i.val))))))

/-- Resets, the watchdog and boot_ok (R500, R521 to R526): a lockstep mismatch and an expired watchdog are counted and reset the complex;
0x5A5A restarts the watchdog and any other value is counted; only the lockstep pair may ask for the reset; boot_ok serves what waited. -/
def Obligations.ManagementResets : Prop :=
  (∀ (s u v : State) (b : BootReport) (times : List Nat), raise (incF s Reg.MGC_RST_CAUSE.lockstep_cnt) 1504 .lockstep 0xFFF [] = u →
    (u.mgc.lockstepTimes.filter fun t => u.devTime < t + 86400000000000) ++ [u.devTime] = times → { u with mgc.lockstepTimes := times } = v →
    exec (.lockstepMismatch b) s = .next (finished s (mgmtReset (if 3 ≤ times.length then adviseReplace v 9 else v) 2 b))) ∧
  (∀ (s : State) (m : Mid) (value : Word), isManager s (.mid m) = true →
    exec (.wdtKick (.mid m) value) s = .next (finished s
      (if wr value Reg.MGC_WDT_KICK.kick = 0x5A5A then restartWdt s else incF s Reg.MGC_WDT_STS.bad_kicks))) ∧
  (∀ (s : State) (value : Word), isManager s .jtag = true → exec (.wdtKick .jtag value) s = .next (finished s s)) ∧
  (∀ s : State, wdtRuns s = true → flag s Reg.MGC_WDT_STS.warned = true → exec .wdtWarning s = .next (finished s s)) ∧
  (∀ s : State, wdtRuns s = true → flag s Reg.MGC_WDT_STS.warned = false → exec .wdtWarning s =
    .next (finished s (emit (raise (setFlag s Reg.MGC_WDT_STS.warned) 1504 .wdtWarn 0xFFF []) (.coreIrq 0x3F)))) ∧
  (∀ (s : State) (b : BootReport), wdtRuns s = true → exec (.wdtExpiry b) s =
    .next (finished s (mgmtReset (raise (incF s Reg.MGC_RST_CAUSE.wdt_cnt) 1504 .wdtExpiry 0xFFF []) 1 b))) ∧
  (∀ (s : State) (b : BootReport), wdtRuns s = false → exec (.wdtExpiry b) s = .next (finished s s) ∧ exec .wdtWarning s = .next (finished s s)) ∧
  (∀ (s : State) (m : Mid) (b : BootReport), m.val = 0x340 ∨ m.val = 0x341 → exec (.mgmtReset (.mid m) b) s = .next (finished s (mgmtReset s 4 b))) ∧
  (∀ (s : State) (m : Mid) (b : BootReport), m.val ≠ 0x340 → m.val ≠ 0x341 →
    exec (.mgmtReset (.mid m) b) s = .next (finished s (denySetup s (.mid m) Reg.MGC_RST_CTL.mgmt_reset.addr))) ∧
  (∀ (s : State) (b : BootReport), (s.mgc.debugClosed = true →
      exec (.mgmtReset .jtag b) s = .next (finished s (denySetup s .jtag Reg.MGC_RST_CTL.mgmt_reset.addr))) ∧
    (s.mgc.debugClosed = false → exec (.mgmtReset .jtag b) s = .next (finished s (mgmtReset s 5 b)))) ∧
  (∀ (s u : State) (who : Accessor), isManager s who = true →
    setF (setFlag s Reg.MGC_BOOT_CTL.boot_ok) (bootCount (getF (setFlag s Reg.MGC_BOOT_CTL.boot_ok) Reg.MGC_BOOT_STS.bank)) 0 = u →
    exec (.bootOk who) s = .next (settled s (u.mgc.waiting.foldl (fun s i => serveMailbox i s)
      { u with mgc.booted := true, mgc.waiting := [] }))) ∧
  (∀ s : State, exec (.jtagFuseClose true) s = .next (finished s (setFlag { s with mgc.debugClosed := true } Reg.MGC_FUSE_STS.debug_closed)) ∧
    exec (.jtagFuseClose false) s = .next (finished s s)) ∧
  (∀ s : State, exec .smbusBlockRead s = .next (finished s (emit s (.sideband (if s.mgc.booted then
    .smbusBlock (sideFlags s) (phsState s) (senseValue s 20) (BitVec.ofNat 32 s.mgc.eventsRaised) else .smbusBusy))))) ∧
  (∀ (s : State) (a : Fin 128), exec (.i3cAddressAssign a) s =
    .next (finished s (emit { s with mgc.i3cDynamic := some a.val } (.sideband (.addressAssigned a.val)))))

/-- MCTP and PLDM once firmware runs (R514 to R520, R527, R528): an assigned endpoint ID is kept; a whole message of a taken type counts and
a first packet starts its reassembly; sensors answer their values; an update goes through its phases in order. SPDM once firmware runs
(R439, R441, R529): a version request starts the negotiation afresh; what needs it is refused before it; a session is opened, established,
used and ended, 32 at most; a key update of a link starts its rekeying. A sideband request that comes before firmware runs waits for it,
whichever it is (R523); a firmware update is served all the same when no image runs (R518). -/
def Obligations.SidebandProtocols : Prop :=
  (∀ s : State, s.mgc.booted = true →
      (∀ eid : Fin 256, 8 ≤ eid.val → eid.val < 255 → exec (.setEndpointId eid) s = .next (finished s
        (emit (setFlag (setF s Reg.MGC_MCTP_STS.eid eid.val) Reg.MGC_MCTP_STS.eid_valid) (.sideband (.endpointId eid.val true))))) ∧
      (∀ eid : Fin 256, eid.val < 8 ∨ eid.val = 255 →
        exec (.setEndpointId eid) s = .next (finished s (emit s (.sideband (.endpointId eid.val false))))) ∧
      (∀ (p : MctpPacket) (others : List Reassembly), mctpMine s p.dest.val = true → p.bytes.val ≤ 256 → 64 ≤ p.bytes.val ∨ p.eom = true →
        (s.mgc.reassembly.filter fun x => !(x.source = p.src.val && x.tag = p.tag.val)) = others →
        (p.som = true → p.eom = true →
          exec (.mctpPacket p) s = .next (finished s (mctpWhole { s with mgc.reassembly := others } p.msgType.val))) ∧
        (p.som = true → p.eom = false → 8 ≤ others.length → exec (.mctpPacket p) s = .next (finished s { s with mgc.reassembly := others })) ∧
        (p.som = true → p.eom = false → others.length < 8 → exec (.mctpPacket p) s = .next (finished s { s with mgc.reassembly := others ++
          [{ source := p.src.val, tag := p.tag.val, msgType := p.msgType.val, bytes := p.bytes.val, nextSeq := (p.seq.val + 1) % 4 }] })) ∧
        (p.som = false → (s.mgc.reassembly.find? fun x => x.source = p.src.val && x.tag = p.tag.val) = none →
          exec (.mctpPacket p) s = .next (finished s s)) ∧
        ∀ x, p.som = false → (s.mgc.reassembly.find? fun x => x.source = p.src.val && x.tag = p.tag.val) = some x →
          (x.nextSeq ≠ p.seq.val ∨ 65536 < x.bytes + p.bytes.val →
            exec (.mctpPacket p) s = .next (finished s { s with mgc.reassembly := others })) ∧
          (x.nextSeq = p.seq.val → x.bytes + p.bytes.val ≤ 65536 → p.eom = true →
            exec (.mctpPacket p) s = .next (finished s (mctpWhole { s with mgc.reassembly := others } x.msgType))) ∧
          (x.nextSeq = p.seq.val → x.bytes + p.bytes.val ≤ 65536 → p.eom = false → exec (.mctpPacket p) s = .next (finished s
            { s with mgc.reassembly := others ++ [{ x with bytes := x.bytes + p.bytes.val, nextSeq := (x.nextSeq + 1) % 4 }] }))) ∧
      (∀ p : MctpPacket, mctpMine s p.dest.val = false ∨ 256 < p.bytes.val ∨ (p.bytes.val < 64 ∧ p.eom = false) →
        exec (.mctpPacket p) s = .next (finished s s)) ∧
      (∀ cmd, exec (.pldmBase cmd) s = .next (finished s (side s (.pldmBase cmd.val)))) ∧
      (∀ cmd sensor, sensor.val ≤ 20 → exec (.pldmPlatform cmd sensor) s =
        .next (finished s (side s (.pldmPlatform cmd.val sensor.val (senseValue s sensor.val) [])))) ∧
      (∀ cmd sensor, 24 < sensor.val → exec (.pldmPlatform cmd sensor) s = .next (finished s (side s (.pldmError 0x80)))) ∧
      (∀ (path : Fin 3) (component : Fin 4) (i : ImageHeader) (o : Option OptionArea),
        exec (.pldmFirmwareUpdate (.begin path component i o)) s = .next (finished s (
          if getF s Reg.MGC_SB_CFG.update_paths / 2 ^ path.val % 2 = 1 ∧ s.mgc.update = none ∧
            ((component.val = 1 ∧ imageAllowed s i = true) ∨ (component.val = 2 ∧ o ≠ none))
          then updateReply { eraseForUpdate s component.val i with
            mgc.update := some { component := component.val, image := i, option := o, phase := 0 } } 1 0
          else updateReply s 1 1))) ∧
      (∀ u : Update, s.mgc.update = some u → u.phase = 1 → exec (.pldmFirmwareUpdate (.verify true)) s =
        .next (finished s (updateReply { s with mgc.update := some { u with phase := 2 } } 3 0))) ∧
      (∀ (u : Update) (b : BootReport), s.mgc.update = some u → u.phase = 3 → exec (.pldmFirmwareUpdate (.activate b)) s =
        .next (finished s (mgmtReset (updateReply { s with mgc.update := some { u with phase := 4 } } 5 0) 3 b))) ∧
      (exec (.pldmFirmwareUpdate .cancel) s = .next (finished s (updateReply { s with mgc.update := none } 6 0))) ∧
      (s.mgc.update = none → exec (.pldmFirmwareUpdate .transfer) s = .next (finished s (updateReply s 2 1)) ∧
        (∀ ok, exec (.pldmFirmwareUpdate (.verify ok)) s = .next (finished s (updateReply s 3 1))) ∧
        exec (.pldmFirmwareUpdate .apply) s = .next (finished s (updateReply s 4 1)) ∧
        ∀ b, exec (.pldmFirmwareUpdate (.activate b)) s = .next (finished s (updateReply s 5 1))) ∧
      (∀ cmd, exec (.pldmFru cmd) s = .next (finished s (side s (.pldmFru cmd.val)))) ∧
      (∀ u : Update, s.mgc.update = some u → u.phase = 0 → exec (.pldmFirmwareUpdate .transfer) s =
        .next (finished s (updateReply { s with mgc.update := some { u with phase := 1 } } 2 0))) ∧
      (∀ u : Update, s.mgc.update = some u → u.phase = 1 → exec (.pldmFirmwareUpdate (.verify false)) s = .next (finished s (updateReply
        (raise { s with mgc.update := none } 1504 .authFail 0xFFF []) 3 1))) ∧
      (∀ u : Update, s.mgc.update = some u → u.phase = 2 → exec (.pldmFirmwareUpdate .apply) s =
        .next (finished s (updateReply (applyUpdate { s with mgc.update := some { u with phase := 3 } } u) 4 0))) ∧
      (∀ u : Update, s.mgc.update = some u → u.phase ≠ 2 → exec (.pldmFirmwareUpdate .apply) s = .next (finished s (updateReply s 4 1)))) ∧
  (∀ s : State, s.mgc.booted = true →
      (exec .spdmGetVersion s = .next (finished s (side { s with mgc.negotiated := false } (.spdmVersion 0x13)))) ∧
      (exec .spdmGetCapabilities s = .next (finished s (side s .spdmCapabilities))) ∧
      (exec (.spdmNegotiateAlgorithms true) s = .next (finished s (side { s with mgc.negotiated := true } (.spdmAlgorithms true)))) ∧
      (exec (.spdmNegotiateAlgorithms false) s = .next (finished s (side s (.spdmAlgorithms false)))) ∧
      (s.mgc.negotiated = true →
        exec .spdmGetDigests s = .next (finished s (side s (.spdmDigests (sha384 (wordBytes (identityWords s)))))) ∧
        (∀ o l, exec (.spdmGetCertificate o l) s = .next (finished s (side s (.spdmCertificate o.val l.val
          (((wordBytes (identityWords s)).drop o.val).take l.val))))) ∧
        (∀ n, exec (.spdmChallenge n) s = .next (finished s (side s (.spdmChallengeAuth (Config.signature n))))) ∧
        (∀ i : Fin 256, 1 ≤ i.val → i.val ≤ 5 → ∀ n, exec (.spdmGetMeasurements i true n) s =
          .next (finished s (side s (.spdmMeasurements i.val [measurement s i.val] (some (Config.signature n)))))) ∧
        (∀ i : Fin 256, 6 ≤ i.val → i.val < 255 → ∀ g n,
          exec (.spdmGetMeasurements i g n) s = .next (finished s (side s (.spdmError spdmInvalid)))) ∧
        (∀ n, exec (.spdmGetMeasurements 0xFF false n) s = .next (finished s
          (side s (.spdmMeasurements 0xFF ((List.range 5).map fun i => measurement s (i + 1)) none)))) ∧
        (∀ m (path : SpdmPath) (doe : Option Nat), (path = .mctp ∧ doe = none) ∨ (∃ port : Port, path = .doe port ∧ doe = some port.val) →
          (s.mgc.sessions.length < 32 → exec (.spdmKeyExchange path m) s = .next (finished s (side { setSessions s
            (s.mgc.sessions ++ [{ id := s.mgc.nextSession, established := false, mutualAuth := m, doe := doe }]) with
            mgc.nextSession := s.mgc.nextSession + 1 } (.spdmKeyExchange s.mgc.nextSession)))) ∧
          (32 ≤ s.mgc.sessions.length →
            exec (.spdmKeyExchange path m) s = .next (finished s (side s (.spdmError spdmSessionLimit))))) ∧
        (∀ l, exec (.spdmKeyExchange (.link l) true) s = .next (finished s (side s (.spdmKeyExchange 0))) ∧
          exec (.spdmKeyExchange (.link l) false) s = .next (finished s (side (authFails s) (.spdmError spdmInvalid))))) ∧
      (s.mgc.negotiated = false → exec .spdmGetDigests s = .next (finished s (side s (.spdmError spdmUnexpected))) ∧
        (∀ o l, exec (.spdmGetCertificate o l) s = .next (finished s (side s (.spdmError spdmUnexpected)))) ∧
        (∀ n, exec (.spdmChallenge n) s = .next (finished s (side s (.spdmError spdmUnexpected)))) ∧
        (∀ i g n, exec (.spdmGetMeasurements i g n) s = .next (finished s (side s (.spdmError spdmUnexpected)))) ∧
        (∀ path m, exec (.spdmKeyExchange path m) s = .next (finished s (side s (.spdmError spdmUnexpected))))) ∧
      (∀ (x : Fin 65536), (findSession s x.val = none ∨ ∃ y, findSession s x.val = some y ∧ y.established = true) → ∀ ok,
        exec (.spdmFinish x ok) s = .next (finished s (side s (.spdmError spdmNoSession)))) ∧
      (∀ (x : Fin 65536), (findSession s x.val = none ∨ ∃ y, findSession s x.val = some y ∧ y.established = false) →
        exec (.spdmHeartbeat x) s = .next (finished s (side s (.spdmError spdmNoSession))) ∧
        exec (.spdmEndSession x) s = .next (finished s (side s (.spdmError spdmNoSession))) ∧
        ∀ a b, exec (.spdmKeyUpdate x none a b) s = .next (finished s (side s (.spdmError spdmNoSession)))) ∧
      (∀ (x : Fin 65536) (y : SpdmSession), findSession s x.val = some y → y.established = false →
        exec (.spdmFinish x false) s = .next (finished s (side
          (authFails (setSessions s (s.mgc.sessions.filter fun z => z.id ≠ y.id))) (.spdmError spdmInvalid)))) ∧
      (∀ (x : Fin 65536) (l : Fin 9) (a b : Nat), linkSecret s l.val = [] ∨ sget none s.cku.rekeys l.val ≠ none →
        exec (.spdmKeyUpdate x (some l) a b) s = .next (finished s (side s (.spdmError spdmUnexpected)))) ∧
      (∀ (x : Fin 65536) (y : SpdmSession), findSession s x.val = some y → y.established = false →
        exec (.spdmFinish x true) s = .next (finished s (side (setSessions s (s.mgc.sessions.map fun z =>
          if z.id = y.id then { z with established := true } else z)) (.spdmFinish x.val)))) ∧
      (∀ (x : Fin 65536) (y : SpdmSession), findSession s x.val = some y → y.established = true →
        exec (.spdmHeartbeat x) s = .next (finished s (side s (.spdmHeartbeat x.val))) ∧
        exec (.spdmEndSession x) s =
          .next (finished s (side (setSessions s (s.mgc.sessions.filter fun y => y.id ≠ x.val)) (.spdmEndSession x.val))) ∧
        ∀ a b, exec (.spdmKeyUpdate x none a b) s = .next (finished s (side s (.spdmKeyUpdate x.val)))) ∧
      (∀ (x : Fin 65536) (l : Fin 9) (a b : Nat), linkSecret s l.val ≠ [] → sget none s.cku.rekeys l.val = none →
        exec (.spdmKeyUpdate x (some l) a b) s = .next (finished s (side (startRekey s l.val a b) (.spdmKeyUpdate x.val))))) ∧
  ((∀ (s : State) (i : Instr), s.mgc.booted = false →
      ((∃ p, i = .mctpPacket p) ∨ (∃ e, i = .setEndpointId e) ∨ (∃ c, i = .pldmBase c) ∨ (∃ c n, i = .pldmPlatform c n) ∨ (∃ c, i = .pldmFru c) ∨
        i = .spdmGetVersion ∨ i = .spdmGetCapabilities ∨ (∃ o, i = .spdmNegotiateAlgorithms o) ∨ i = .spdmGetDigests ∨
        (∃ o l, i = .spdmGetCertificate o l) ∨ (∃ n, i = .spdmChallenge n) ∨ (∃ x g n, i = .spdmGetMeasurements x g n) ∨
        (∃ l m, i = .spdmKeyExchange l m) ∨ (∃ x ok, i = .spdmFinish x ok) ∨ (∃ x l a b, i = .spdmKeyUpdate x l a b) ∨
        (∃ x, i = .spdmHeartbeat x) ∨ (∃ x, i = .spdmEndSession x) ∨
        (∃ u, i = .pldmFirmwareUpdate u ∧ getF s Reg.MGC_CORE_STS.running ≠ 0)) →
      exec i s = .next (finished s { s with mgc.waiting := s.mgc.waiting ++ [i] })) ∧
    (∀ (s : State) (u : UpdateStep), getF s Reg.MGC_CORE_STS.running = 0 → s.phs.dieReset = false →
      exec (.pldmFirmwareUpdate u) s = .next (finished s (doPldmFirmwareUpdate u s))))

/-- The recorder (R532, R533, R541 to R546, R548 to R550, R553, R554): an event is raised from a source below 1,536; a drain copies what it
has not yet copied; a fetch ends with its block in the window or not found; only 0x340 arms the crash flush; an import that R534 does not
allow is refused; an unmasked vector sends what it held. The crash area, imports, MSI-X and source settings (R544 to R546, R549, R550, R553,
R554). -/
def Obligations.EventsAndCrash : Prop :=
  ((∀ (s : State) (source : Fin 2048) (k : EventKind) (sev : Fin 4) (mid : Mid) (d : List Nat), source.val < 1536 →
      exec (.eventRaise source k sev mid d) s = .next (finished s (raiseFull s source.val sev k mid.val d (concernOf source.val k none)))) ∧
    (∀ (s : State) (source : Fin 2048) (k : EventKind) (sev : Fin 4) (mid : Mid) (d : List Nat), 1536 ≤ source.val →
      exec (.eventRaise source k sev mid d) s = .next (finished s s)) ∧
    (∀ (s u v : State) (late : Bool), flag s Reg.EVR_CTL.drain_en = true → flushing s = false →
      (if late = true ∧ undrained s ≠ [] then setFlag s Reg.EVR_ERR.drain_abort else s) = u → addBlocks u (cutBlocks (undrained u) []) = v →
      exec (.drainTimer late) s = .next (finished s { v with evr.ring := v.evr.ring.map fun r => { r with drained := true } })) ∧
    (∀ (s : State) (late : Bool), flag s Reg.EVR_CTL.drain_en = false ∨ flushing s = true → exec (.drainTimer late) s = .next (finished s s)) ∧
    (∀ s : State, s.evr.blocks = [] ∨ flushing s = true → exec .segmentHandoff s = .next (finished s s)) ∧
    (∀ (s u v : State) (unit : Nat), s.evr.blocks ≠ [] → ((List.range 24).any fun c => (bchan s (s.evr.nextSegment % 4 * 24 + c)).lost) = false →
      flushing s = false → unitFor s (s.evr.nextSegment % 4) false 2 false = some (unit, u) →
      updUnit u unit (fun x => { x with segments := x.segments ++ [u.evr.nextSegment] }) = v →
      exec .segmentHandoff s = .next (finished s (startUnit { v with
        evr.handed := v.evr.handed ++ [(u.evr.nextSegment, v.evr.blocks.take 16)]
        evr.blocks := v.evr.blocks.drop 16
        evr.nextSegment := u.evr.nextSegment + 1
        evr.segmentSince := if (v.evr.blocks.drop 16).isEmpty then none else some v.devTime } unit))) ∧
    (∀ (s : State) (who : Accessor) (seq : Word), isManager s who = true → exec (.historyFetch who seq) s = .next (finished s
      (putFlag (putFlag (setFlag { s with evr.fetchSeq := some seq.toNat, evr.fetchBlock := none } Reg.EVR_FETCH_STS.busy)
        Reg.EVR_FETCH_STS.ready false) Reg.EVR_FETCH_STS.not_found false))) ∧
    (∀ (s u : State) (seq : Nat), s.evr.fetchSeq = some seq → putFlag { s with evr.fetchSeq := none } Reg.EVR_FETCH_STS.busy false = u →
      (∀ b, blockOf u seq = some b → exec (.historyFetchDone false) s =
        .next (finished s (setFlag { u with evr.fetchBlock := some b } Reg.EVR_FETCH_STS.ready))) ∧
      (∀ b, blockOf u seq = some b → exec (.historyFetchDone true) s =
        .next (finished s (setFlag (setFlag u Reg.EVR_FETCH_STS.not_found) Reg.EVR_FETCH_STS.ready))) ∧
      (blockOf u seq = none → ∀ poisoned, exec (.historyFetchDone poisoned) s = .next (finished s (raise
        (setFlag (setFlag u Reg.EVR_FETCH_STS.not_found) Reg.EVR_ERR.fetch_miss) 1496 .fetchMiss 0xFFF [seq])))) ∧
    (∀ (s : State) (poisoned : Bool), s.evr.fetchSeq = none → exec (.historyFetchDone poisoned) s = .next (finished s s))) ∧
  ((∀ (s : State) (value : Word), value.getLsbD 0 = true → exec (.crashReady (.mid 0x340) value) s =
      .next (finished s (setFlag (setFlag s Reg.EVR_CRASH_CTL.ready) Reg.EVR_CRASH_STS.ready))) ∧
    (∀ (s : State) (m : Mid) (value : Word), m.val ≠ 0x340 →
      exec (.crashReady (.mid m) value) s = .next (finished s (denySetup s (.mid m) Reg.EVR_CRASH_CTL.ready.addr))) ∧
    (∀ (s : State) (a : CrashArea), s.evr.crash = some a → exec (.crashFlushEnd false) s = .next (finished s (endCrash s a)) ∧
      exec (.crashFlushEnd true) s = .next (finished s (cutCrash s))) ∧
    (∀ s : State, s.evr.crash = none → ∀ cut, exec (.crashFlushEnd cut) s = .next (finished s s)) ∧
    (∀ (s : State) (who : Accessor), isManager s who = true → importRecord s = none →
      exec (.importCommit who) s = .next (finished s (raise (setFlag s Reg.EVR_ERR.import_bad) 1496 .importBad 0xFFF []))) ∧
    (∀ (s u : State) (who : Accessor) (r : Record), isManager s who = true → importRecord s = some r →
      incFi (notifyCores (writeRecord s r) r.source) Reg.EVR_SRC_CNT.raised r.source = u →
      exec (.importCommit who) s = .next (finished s (deliverNewest u (concernOf r.source r.code none)))) ∧
    (∀ (s : State) (who : Accessor) (value : Word), isManager s who = true → exec (.msixTrigger who value) s = .next (finished s
      (sendMsix s (Fin.ofNat 256 (wr value Reg.EVR_MSIX_TRIG.ld)) (wr value Reg.EVR_MSIX_TRIG.vector)))) ∧
    (∀ (s : State) (value : Word), value.getLsbD 0 = false → exec (.crashReady (.mid 0x340) value) s = .next (finished s s)) ∧
    (∀ (s : State) (value : Word), exec (.crashReady .jtag value) s = .next (finished s (denySetup s .jtag Reg.EVR_CRASH_CTL.ready.addr))) ∧
    (∀ (s : State) (ld : Ld) (v : Option (Fin 64)), ldPresent s ld = false → exec (.msixUnmask ld v) s = .next (finished s s)) ∧
    (∀ (s : State) (ld : Ld) (v : Fin 64), ldPresent s ld = true → exec (.msixUnmask ld (some v)) s = .next (finished s
      (flushMsix { s with evr.msixMask := sput true s.evr.msixMask (ld.val * 64 + v.val) false } ld [v.val])) ∧
      exec (.msixUnmask ld none) s = .next (finished s
        (flushMsix { s with evr.msixFnMask := sput false s.evr.msixFnMask ld.val false } ld (List.range 64)))) ∧
    (∀ (s u : State) (who : Accessor) (value : Word) (src : Nat), isManager s who = true → selOf s who Reg.EVR_SRC_SEL.source = src → src < 1536 →
      writeBits s Reg.EVR_SRC_CFG.enable.addr src value 0 = u →
      (getFi u Reg.EVR_SRC_CFG.max_per_ms src = getFi s Reg.EVR_SRC_CFG.max_per_ms src → exec (.srcCfgWrite who value) s = .next (finished s u)) ∧
      (getFi u Reg.EVR_SRC_CFG.max_per_ms src ≠ getFi s Reg.EVR_SRC_CFG.max_per_ms src → exec (.srcCfgWrite who value) s = .next (finished s
        { u with evr.rates := supd (0, 0, 0) u.evr.rates src fun r => (r.1, 0, r.2.2) }))) ∧
    (∀ (s : State) (who : Accessor) (value : Word), isManager s who = true → 1536 ≤ selOf s who Reg.EVR_SRC_SEL.source →
      exec (.srcCfgWrite who value) s = .next (finished s s)))

/-! ### The twin link (10) -/

/-- Ports and frames of the twin link (R333, R336, R342, R381, R439): a port that goes down leaves service, and the last one takes the link
with it; one that comes up brings it back; silence loses it; a frame whose tag or header fails, or whose epoch is another, has no effect but
its discard or its STALE_EPOCH answer, whichever kind of frame it is. -/
def Obligations.TwinPorts : Prop :=
  (∀ (s u : State) (port : Fin 8), getF s Reg.FLK_TWIN_STS.ports_up / 2 ^ port.val % 2 = 1 →
    incFiBy (setF (setF (setF s Reg.FLK_TWIN_STS.ports_up (clearBit (getF s Reg.FLK_TWIN_STS.ports_up) port.val))
      (twinPortField Reg.FLK_TP_STS.up port.val) 0) (twinPortField Reg.FLK_TP_STS.lanes port.val) 0)
      (twinPortField Reg.FLK_TP_RETRY_CNT.downs port.val) 0 1 = u →
    exec (.twinPortDown port) s = .next (settled s (if getF u Reg.FLK_TWIN_STS.ports_up = 0 then linkLost u else u))) ∧
  (∀ (s : State) (port : Fin 8), getF s Reg.FLK_TWIN_STS.ports_up / 2 ^ port.val % 2 = 0 → exec (.twinPortDown port) s = .next (settled s s)) ∧
  (∀ (s u : State) (port : Fin 8), flushing s = false → getF s Reg.FLK_TWIN_STS.ports_up / 2 ^ port.val % 2 = 0 →
    linkBack (setF (setF (setF s Reg.FLK_TWIN_STS.ports_up (getF s Reg.FLK_TWIN_STS.ports_up + 2 ^ port.val))
      (twinPortField Reg.FLK_TP_STS.up port.val) 1) (twinPortField Reg.FLK_TP_STS.lanes port.val) 4) = u →
    exec (.twinPortUp port) s = .next (settled s (if mirrored u then u else sendHello u))) ∧
  (∀ s : State, exec .twinLinkSilence s = .next (settled s (linkLost s))) ∧
  (∀ (s : State) (f : FrameIn), getF s Reg.FLK_TWIN_STS.ports_up / 2 ^ f.port.val % 2 = 1 → f.tagOk = false ∨ f.headerOk = false →
    ∀ i, (∃ a b c, i = .mirror f a b c) ∨ (∃ a, i = .mirrorAck f a) ∨ (∃ a b, i = .durableNotice f a b) ∨ (∃ a b c d e g h, i = .fwdWrite f a b c d e g h) ∨
      (∃ a b c d e, i = .fwdRead f a b c d e) ∨ (∃ a b c d e, i = .readData f a b c d e) ∨ (∃ a b, i = .fwdRefuse f a b) ∨ (∃ a, i = .lease f a) ∨
      (∃ a, i = .leaseAck f a) ∨ (∃ a, i = .nack f a) ∨ (∃ a b, i = .digestMarker f a b) ∨ (∃ a b, i = .digestReply f a b) ∨
      (∃ a b c d, i = .snoopReq f a b c d) ∨ (∃ a, i = .snoopRsp f a) ∨ (∃ a b c, i = .clodFetch f a b c) ∨ (∃ a b c d, i = .clodData f a b c d) ∨
      (∃ a b c, i = .resyncClod f a b c) ∨ (∃ a b c d, i = .sampleReq f a b c d) ∨ (∃ a b, i = .sampleRsp f a b) ∨ (∃ a, i = .health f a) ∨
      (∃ a, i = .admin f a) ∨ (∃ a b c, i = .roleChange f a b c) ∨ i = .fenceDemand f ∨ i = .fenceNotice f ∨ (∃ a b c, i = .staleEpoch f a b c) →
    exec i s = .next (settled s (discardFrame s f)))

/-- The mirror stream and forwarded requests (R12, R13, R31, R59, R65, R340 to R342, R344): ordered frames are taken in their stream, and
every 64th is acknowledged; an acknowledgement frees what it covers; a NACK sends it again; the home orders a forwarded write or read that
its check allows and refuses or poisons another; an answer reaches the request it names. -/
def Obligations.MirrorStream : Prop :=
  (∀ (s u : State) (f : FrameIn), receives u = true →
    (∀ plot seq records, frameTaken s f 1 = (true, u) → exec (.mirror f plot seq records) s = .next (settled s (
      let v := orderedIn u f.ctr (.mirror plot.val seq records)
      if (u.twin.rxExpected - 1) / 64 < (v.twin.rxExpected - 1) / 64 then sendAck v else v))) ∧
    (∀ period digests, frameTaken s f 9 = (true, u) → exec (.digestMarker f period digests) s = .next (settled s (
      let v := orderedIn u f.ctr (.digestMarker period digests)
      if (u.twin.rxExpected - 1) / 64 < (v.twin.rxExpected - 1) / 64 then sendAck v else v))) ∧
    (∀ clod half lines, frameTaken s f 0xF = (true, u) → exec (.resyncClod f clod half lines) s = .next (settled s (
      let v := orderedIn u f.ctr (.resyncClod clod.val half.val lines)
      if (u.twin.rxExpected - 1) / 64 < (v.twin.rxExpected - 1) / 64 then sendAck v else v)))) ∧
  (∀ (s u : State) (f : FrameIn) (ackCtr c : Nat), frameTaken s f 2 = (true, u) → min ackCtr u.twin.txOrdered = c →
    exec (.mirrorAck f ackCtr) s = .next (settled s (pairDrained (freeRetained (resyncAcked { u with
      twin.ackedCtr := max u.twin.ackedCtr c
      twin.retained := u.twin.retained.map fun r => if r.ctr ≤ c then { r with acked := true } else r
      pou.writes := u.pou.writes.map fun w => if w.frameCtr ≠ 0 && w.frameCtr ≤ c then { w with acked := true } else w } c))))) ∧
  (∀ s : State, s.twin.ackOwed = true → exec .mirrorAckTimer s = .next (settled s
    (sendFrame { s with twin.ackOwed := false } 2 (s.twin.rxExpected - 1) 0 (.mirrorAck (s.twin.rxExpected - 1))))) ∧
  (∀ (s u : State) (f : FrameIn) (plot : PlotId) (seq : Nat), frameTaken s f 3 = (true, u) →
    (u.pou.fwdWrites.any fun w => w.plot = plot.val && w.seq = some seq) = true →
    exec (.durableNotice f plot seq) s = .next (settled s { u with
      pou.fwdWrites := u.pou.fwdWrites.map fun w => if w.plot = plot.val && w.seq = some seq then { w with noticed := true } else w })) ∧
  (∀ (s u : State) (f : FrameIn) (plot : PlotId) (seq : Nat), frameTaken s f 3 = (true, u) →
    (u.pou.fwdWrites.any fun w => w.plot = plot.val && w.seq = some seq) = false →
    ((u.pou.fwdWrites.any fun w => w.plot = plot.val && w.seq.isNone) && !u.twin.notices.contains (plot.val, seq)) = true →
    exec (.durableNotice f plot seq) s = .next (settled s { u with twin.notices := u.twin.notices ++ [(plot.val, seq)] })) ∧
  (∀ (s u : State) (f : FrameIn) (mid : Mid) (tag : Fin 256) (line : LineNo) (data : Line) (be : ByteMask) (poison : Bool) (m : MetaValue),
    frameTaken s f 4 = (true, u) →
    (serving u = false → exec (.fwdWrite f mid tag line data be poison m) s = .next (settled s u)) ∧
    (serving u = true → reservedMid mid.val = true → exec (.fwdWrite f mid tag line data be poison m) s =
      .next (settled s (sendFrame (raise u 1312 .reservedMaster mid.val [mid.val]) 0x1A 0 0 (.fwdRefuse mid.val tag.val)))) ∧
    (∀ p, serving u = true → reservedMid mid.val = false → homeAllows u mid.val line.val 2 = some p →
      (writeAllowed u p = true → exec (.fwdWrite f mid tag line data be poison m) s =
        .next (settled s (acceptHostWrite u (.forwarded mid tag.val) mid.val p line.val data be poison m).2)) ∧
      (writeAllowed u p = false → exec (.fwdWrite f mid tag line data be poison m) s =
        .next (settled s (sendFrame (countDenial u mid.val p line.val) 0x1A 0 0 (.fwdRefuse mid.val tag.val))))) ∧
    (serving u = true → reservedMid mid.val = false → homeAllows u mid.val line.val 2 = none →
      exec (.fwdWrite f mid tag line data be poison m) s = .next (settled s (sendFrame
        (countDenial u mid.val ((reach u line.val).getD 0xFFF) line.val) 0x1A 0 0 (.fwdRefuse mid.val tag.val))))) ∧
  (∀ (s u : State) (f : FrameIn) (seq : Nat) (mid : Mid) (tag : Fin 256) (line : LineNo) (m : MetaValue), frameTaken s f 5 = (true, u) →
    (serving u = false → exec (.fwdRead f seq mid tag line m) s = .next (settled s u)) ∧
    (serving u = true → reservedMid mid.val = true → exec (.fwdRead f seq mid tag line m) s =
      .next (settled s (sendFrame (raise u 1312 .reservedMaster mid.val [mid.val]) 0x06 0 0 (.readData mid.val tag.val true 0 true)))) ∧
    (∀ c, serving u = true → reservedMid mid.val = false → plotRec u ((plotOfLine u line.val).getD 0) = c →
      (plotOpen c = true → isHome u c = false → exec (.fwdRead f seq mid tag line m) s =
        .next (settled s { u with twin.copyReads := u.twin.copyReads ++ [(mid.val, tag.val, line.val, seq)] })) ∧
      (plotOpen c = false ∨ isHome u c = true → (∀ p, homeAllows u mid.val line.val 1 = some p →
          exec (.fwdRead f seq mid tag line m) s = .next (settled s (acceptRead u (.forwarded mid tag.val) mid.val p line.val m).2)) ∧
        (homeAllows u mid.val line.val 1 = none → exec (.fwdRead f seq mid tag line m) s =
          .next (settled s (sendFrame (countDenial u mid.val ((reach u line.val).getD 0xFFF) line.val)
            0x06 0 0 (.readData mid.val tag.val true 0 true))))))) ∧
  (∀ (s u : State) (f : FrameIn) (mid : Mid) (tag : Fin 256) (r : FwdRead) (data : Line) (poison : Bool) (rd : ReadRec), frameTaken s f 6 = (true, u) →
    (u.pou.fwdReads.find? fun r => namesRequest mid tag r.mid r.tag) = some r →
    rd = { id := r.id, origin := r.origin, mid := r.mid, plot := r.plot, line := r.line, metaVal := r.metaVal } →
    ∀ v, { u with pou.fwdReads := u.pou.fwdReads.filter fun x => x.id ≠ r.id } = v →
      exec (.readData f mid tag poison data true) s = .next (settled s (refuseRead v rd)) ∧
      exec (.readData f mid tag poison data false) s = .next (settled s (answerRead
        (if coherent (plotRec v r.plot) = true ∧ r.metaVal ≠ .invalid then
          recordHolder v r.line { write := false, metaVal := r.metaVal, requester := requesterOf r.origin r.mid } else v)
        rd (if poison then poisonLine else { data := data, poison := false })))) ∧
  (∀ (s u : State) (f : FrameIn) (mid : Mid) (tag : Fin 256) (data : Line) (poison denied : Bool), frameTaken s f 6 = (true, u) →
    (u.pou.fwdReads.find? fun r => namesRequest mid tag r.mid r.tag) = none →
    (∀ r, (u.pou.reads.find? fun r => namesRequest mid tag r.mid (r.remoteTag.getD 256)) = some r →
      exec (.readData f mid tag poison data denied) s = .next (settled s (updRdRec u r.id fun r =>
        { r with val := some (if poison then poisonLine else { data := data, poison := false }), remoteTag := none }))) ∧
    ((u.pou.reads.find? fun r => namesRequest mid tag r.mid (r.remoteTag.getD 256)) = none →
      exec (.readData f mid tag poison data denied) s = .next (settled s u))) ∧
  (∀ (s u : State) (f : FrameIn) (mid : Mid) (tag : Fin 256) (w : FwdWrite), frameTaken s f 0x1A = (true, u) →
    (u.pou.fwdWrites.find? fun w => namesRequest mid tag w.mid w.tag && w.seq.isNone) = some w →
    exec (.fwdRefuse f mid tag) s = .next (settled s (
      let r : WriteRec := { id := w.id, origin := w.origin, mid := w.mid, plot := w.plot, line := w.line, data := w.data, be := w.be
                            poison := w.poison, metaVal := w.metaVal, acceptedAt := w.acceptedAt }
      refuseWrite { u with pou.fwdWrites := u.pou.fwdWrites.filter fun x => x.id ≠ w.id } r))) ∧
  (∀ s : State, gapOpen s = true → receives s = true → exec .gapTimeout s = .next (settled s
    (sendFrame (incF s Reg.FLK_MIRROR_STS.nacks) 0x0A s.twin.rxExpected 0 (.nack s.twin.rxExpected)))) ∧
  (∀ s : State, gapOpen s = false → exec .gapTimeout s = .next (settled s s)) ∧
  (∀ (s u : State) (f : FrameIn) (ctr : Nat), frameTaken s f 0x0A = (true, u) →
    exec (.nack f ctr) s = .next (settled s (resendFrom (incF u Reg.FLK_MIRROR_STS.nacks) ctr)))

/-- Leases (R343, R345, R346, R350, R362): a LEASE carries the marks that moved and starts the silence anew; its acknowledgement extends the
own lease to 50 µs after it was sent; a lease that lapses ends; 60 µs of silence demand the fence. -/
def Obligations.Leases : Prop :=
  (∀ s : State, exec .leaseSendTimer s = .next (settled s (sendTime (sendLease s)))) ∧
  (∀ s u : State, linkOk s = true →
    (movedMarks s).foldl (fun s m => updPlot s m.1 fun r => { r with markChanged := false }) s = u →
    ∀ v, sendFrame u 7 0 0 (.lease (u.twin.txOther + 1) (movedMarks s)) = v →
      sendLease s = { v with twin.leaseSent := v.twin.leaseSent ++ [(v.twin.txOther, v.devTime)] }) ∧
  (∀ s : State, linkOk s = false → sendLease s = s) ∧
  (∀ (s u v : State) (f : FrameIn) (marks : List (PlotId × Nat)), frameTaken s f 7 = (true, u) →
    sendFrame (marks.foldl (fun s m => takeMark s m.1.val m.2) { u with twin.leaseRxAt := u.devTime }) 8 f.ctr 0 (.leaseAck f.ctr) = v →
    exec (.lease f marks) s = .next (settled s (if mirrored v && aliveIn v ≠ 1 && !fenceIn v then
      raise (setFlag v Reg.FLK_TWIN_ERR.alive_fault) 1521 .aliveFault 0xFFF [aliveIn v] else v))) ∧
  (∀ (s u v : State) (f : FrameIn) (ctr sent : Nat), frameTaken s f 8 = (true, u) →
    (u.twin.leaseSent.find? fun l => l.1 = ctr) = some (ctr, sent) → { u with twin.leaseSent := u.twin.leaseSent.filter fun l => ctr < l.1 } = v →
    ∀ until_, max (sent + 50000) (v.twin.lease.getD 0) = until_ →
    (v.twin.twinLeaseAt ≤ sent → mirrored v = true → fenceOut v = false → fenceIn v = false ∨ v.twin.fenceLineIgnored = true →
      v.devTime < until_ → ∀ w, putFlag { v with twin.lease := some until_ } Reg.FLK_TWIN_STS.lease_valid true = w →
      exec (.leaseAck f ctr) s = .next (settled s (if twinMode w = mLapsed then setMode w mMirrored else w))) ∧
    (sent < v.twin.twinLeaseAt ∨ mirrored v = false ∨ fenceOut v = true ∨ fenceIn v = true ∧ v.twin.fenceLineIgnored = false ∨ until_ ≤ v.devTime →
      exec (.leaseAck f ctr) s = .next (settled s v))) ∧
  (∀ (s : State) (t : Nat), s.twin.lease = some t → t ≤ s.devTime → twinMode (incF (endLease s) Reg.FLK_LEASE_STS.lapses) = mMirrored →
    exec .leaseLapse s = .next (settled s (setMode (incF (endLease s) Reg.FLK_LEASE_STS.lapses) mLapsed))) ∧
  (∀ (s : State) (t : Nat), s.twin.lease = some t → s.devTime < t → exec .leaseLapse s = .next (settled s s)) ∧
  (∀ s : State, mirrored s = true → s.twin.leaseRxAt + 60000 ≤ s.devTime → fenceIn s = false →
    exec .twinSilenceTimeout s = .next (settled s (demandFence s))) ∧
  (∀ s : State, s.devTime < s.twin.leaseRxAt + 60000 → exec .twinSilenceTimeout s = .next (settled s s))

/-- Digests, samples and health (R364 to R370): a period's end sends its digests; the twin's values are compared with it; a check's result
is kept and sent; a sampled line's CRC goes out and is compared; a report is kept, and one missing for 3 s is noted; a self-test slice
begins on an idle engine, and one that fails fences a mirrored controller. -/
def Obligations.DigestsAndHealth : Prop :=
  (∀ s : State, mirrorsWrites s = true → ∀ u, sendOrdered { s with
      twin.txDigests := s.twin.txDigests ++ [(s.twin.txPeriod, digestList s.twin.txCrc)] } (.digestMarker s.twin.txPeriod (digestList s.twin.txCrc)) = u →
    exec .digestTimer s = .next (settled s { u with twin.txPeriod := s.twin.txPeriod + 1, twin.txCrc := [] })) ∧
  (∀ (s u : State) (f : FrameIn) (period : Nat), frameTaken s f 9 = (true, u) →
    (∀ ds, exec (.digestReply f period (.values ds)) s = .next (settled s (comparePeriod u period ds))) ∧
    ∀ g passed, exec (.digestReply f period (.result g passed)) s = .next (settled s (twinResult u g.val period passed))) ∧
  (∀ (s : State) (g : Fin 64) (ok : Bool) (d : Dispute), (s.twin.disputes.find? fun d => d.group = g.val && d.ownPassed.isNone) = some d →
    exec (.digestCheckDone g ok) s = .next (settled s (sendFrame { s with twin.disputes := s.twin.disputes.map fun d =>
      if d.group = g.val && d.ownPassed.isNone then { d with ownPassed := some ok } else d } 9 0 0 (.digestResult d.period g.val ok)))) ∧
  (∀ (s u : State) (line : LineNo) (p tag : Nat) (v : LineVal), reach s line.val = some p → getF s Reg.FLK_SAMPLE_CFG.rate_k ≠ 0 →
    mirrored s = true → canOrder s (plotRec s p) = true → linkOk s = true → (entryOf s (clodOf line.val)).tier ≠ 0 →
    orderedLine s line.val = some v → (s.twin.samples.foldl (fun n x => max n x.1) 0) + 1 = tag →
    { sampleRead s line.val with twin.samples := s.twin.samples ++ [(tag, line.val, p, (plotRec s p).seq, sampleCrc v)] } = u →
    exec (.sampleTimer line) s = .next (settled s (sendFrame u 0x10 (plotRec s p).seq p (.sampleReq tag line.val p (plotRec s p).seq)))) ∧
  (∀ (s u : State) (f : FrameIn) (tag : Nat) (line : LineNo) (plot : PlotId) (seq : Nat), frameTaken s f 0x10 = (true, u) →
    exec (.sampleReq f tag line plot seq) s =
      .next (settled s { u with twin.sampleWaits := u.twin.sampleWaits ++ [(tag, line.val, plot.val, seq)] })) ∧
  (∀ (s u : State) (f : FrameIn) (tag line plot seq : Nat) (own : DWord), frameTaken s f 0x11 = (true, u) →
    (u.twin.samples.find? fun x => x.1 = tag) = some (tag, line, plot, seq, own) →
    exec (.sampleRsp f tag (some own)) s = .next (settled s (incF { u with
      twin.samples := u.twin.samples.filter fun x => x.1 ≠ tag } Reg.FLK_SAMPLE_CNT.samples)) ∧
    exec (.sampleRsp f tag none) s = .next (settled s { u with twin.samples := u.twin.samples.filter fun x => x.1 ≠ tag }) ∧
    ∀ c v, c ≠ own → incF { u with twin.samples := u.twin.samples.filter fun x => x.1 ≠ tag } Reg.FLK_SAMPLE_CNT.samples = v →
      ∀ w, raise (incF (setFlag v Reg.FLK_TWIN_ERR.sample_mismatch) Reg.FLK_SAMPLE_CNT.mismatches) twinSource .sampleMismatch 0xFFF
        [plot, line * 64] = w →
      exec (.sampleRsp f tag (some c)) s = .next (settled s (startDispute w (groupOf plot) w.twin.txPeriod true [line]))) ∧
  (∀ s : State, exec .healthTimer s = .next (settled s (sendFrame s 0x12 0 0 (.health (sparePct s) (quarMax s) (lostLoam s) (lostBedrock s)
    (getF s Reg.FLK_SELFTEST_STS.coverage_pct) (flag s Reg.FLK_TWIN_ERR.selftest_fail) (ceLastSecond s) (ownLevel s)
    (flag s Reg.EVR_HEALTH.replace_advised))))) ∧
  (∀ (s u : State) (f : FrameIn) (r : HealthReport), frameTaken s f 0x12 = (true, u) →
    exec (.health f r) s = .next (settled s { putFlag (putFlag (setF (setF u Reg.FLK_TWIN_HEALTH.spare_pct r.sparePct.val)
      Reg.FLK_TWIN_HEALTH.quar_max (min 7 r.quarMax.val)) Reg.FLK_TWIN_HEALTH.replace_adv r.replaceAdvised) Reg.FLK_TWIN_HEALTH.selftest_fail
      r.selftestFail with twin.healthAt := u.devTime })) ∧
  (∀ s : State, linkOk s = true → s.twin.healthAt + 3000000000 ≤ s.devTime → exec .healthMissing s =
    .next (settled s (raise (setFlag s Reg.FLK_TWIN_ERR.health_missing) twinSource .healthMissing 0xFFF []))) ∧
  (∀ (s : State) (e : Mid), sliceEngines.contains e.val = true → engineBusy s e.val = false → s.twin.slices.contains e.val = false →
    s.twin.engineOut.contains e.val = false → exec (.selftestSliceStart e) s = .next (settled s { s with twin.slices := s.twin.slices ++ [e.val] })) ∧
  (∀ (s u : State) (e : Mid), s.twin.slices.contains e.val = true → { s with twin.slices := s.twin.slices.erase e.val } = u →
    exec (.selftestSliceDone e false) s = .next (settled s (sliceCovered u e.val)) ∧
    (∀ v, raise (adviseReplace (setFlag u Reg.FLK_TWIN_ERR.selftest_fail) 7) twinSource .selftestFail 0xFFF [e.val] = v →
      (mirrored v = true → exec (.selftestSliceDone e true) s = .next (settled s (fenceSelf v []))) ∧
      (mirrored v = false → ((likeEngines e.val).any fun x => x ≠ e.val && !v.twin.engineOut.contains x) = true →
        exec (.selftestSliceDone e true) s = .next (settled s (engineRetire v e.val))) ∧
      (mirrored v = false → ((likeEngines e.val).any fun x => x ≠ e.val && !v.twin.engineOut.contains x) = false →
        exec (.selftestSliceDone e true) s = .next (settled s v)))) ∧
  (∀ (s : State) (e : Mid) (failed : Bool), s.twin.slices.contains e.val = false → exec (.selftestSliceDone e failed) s = .next (settled s s))

/-- Snoops and fetches between the twins (R209, R210, R284, R288): a request waits to be served, once; an answer ends the snoop it names; a
fetch is served at the home, and at the partner once its writes are applied; a half that somebody awaits is applied, and one that nobody
awaits is discarded. -/
def Obligations.TwinSnoopsAndFetches : Prop :=
  (∀ (s u : State) (f : FrameIn) (tag : Nat) (line : LineNo) (inv : Bool) (ahead : List (Mid × Fin 256)), frameTaken s f 0x0B = (true, u) →
    (u.twin.snoopWaits.any fun w => w.1 = tag) = false → snoopsFor u (.twin tag) = [] →
    exec (.snoopReq f tag line inv ahead) s = .next (settled s { u with
      twin.snoopWaits := u.twin.snoopWaits ++ [(tag, line.val, inv, ahead.map fun a => (a.1.val, a.2.val))] })) ∧
  (∀ (s u : State) (f : FrameIn) (tag : Nat) (line : LineNo) (inv : Bool) (ahead : List (Mid × Fin 256)), frameTaken s f 0x0B = (true, u) →
    (u.twin.snoopWaits.any fun w => w.1 = tag) = true → exec (.snoopReq f tag line inv ahead) s = .next (settled s u)) ∧
  (∀ (s u : State) (f : FrameIn) (tag : Nat) (x : Snoop), frameTaken s f 0x0C = (true, u) →
    (u.fcd.snoops.find? fun x => x.id = tag && x.target = partnerTarget) = some x →
    exec (.snoopRsp f tag) s = .next (settled s (answerSnoop u x))) ∧
  (∀ (s u : State) (f : FrameIn) (tag : Nat) (clod : ClodNo) (seq : Nat), frameTaken s f 0x0D = (true, u) → serving u = true →
    seq ≤ (plotRec u ((plotOfClod u clod.val).getD 0)).mirrored →
    exec (.clodFetch f tag clod seq) s = .next (settled s (serveFetch u tag clod.val))) ∧
  (∀ (s u : State) (f : FrameIn) (tag : Nat) (clod : ClodNo) (seq : Nat), frameTaken s f 0x0D = (true, u) → serving u = true →
    isHome u (plotRec u ((plotOfClod u clod.val).getD 0)) = false → (plotRec u ((plotOfClod u clod.val).getD 0)).mirrored < seq →
    exec (.clodFetch f tag clod seq) s = .next (settled s { u with twin.fetchWaits := u.twin.fetchWaits ++ [(tag, clod.val, seq)] })) ∧
  (∀ (s u : State) (f : FrameIn) (tag : Nat) (clod : ClodNo) (half : Fin 2), frameTaken s f 0x0E = (true, u) →
    (u.bfc.fetches.any fun x => x.1 = tag && x.2 = clod.val) = true →
    exec (.clodData f tag clod half none) s = .next (settled s (fetchFailed u clod.val)) ∧
    ∀ ls, exec (.clodData f tag clod half (some ls)) s = .next (settled s (applyHalf u clod.val half.val ls).2)) ∧
  (∀ (s u : State) (f : FrameIn) (tag : Nat) (clod : ClodNo) (half : Fin 2) (lines : Option ClodImage), frameTaken s f 0x0E = (true, u) →
    (u.bfc.fetches.any fun x => x.1 = tag && x.2 = clod.val) = false → exec (.clodData f tag clod half lines) s = .next (settled s u))

/-- Roles, fences and takeback (R348 to R352, R356 to R363, R373, R377 to R381): each frame and line has its effect on the roles; a mirrored
controller takes over at the twin's notice, and fences on a demand that comes on both ways within 10 µs; a takeback stops the next group's
plots when its stable period has passed. -/
def Obligations.RolesAndFences : Prop :=
  (∀ (s u : State) (f : FrameIn), frameTaken s f 0x16 = (true, u) → mirrored u = true →
    exec (.fenceNotice f) s = .next (settled s (takeover u))) ∧
  (∀ (s u v : State) (f : FrameIn), frameTaken s f 0x16 = (true, u) → mirrored u = false →
    (twinMode u ≠ mSource → exec (.fenceNotice f) s = .next (settled s u)) ∧
    ((unacked u).foldl (fun s w => updWrite (markChanged s (clodOf w.line)) w.id fun w => { w with mapped := true }) u = v →
      twinMode u = mSource →
      exec (.fenceNotice f) s = .next (settled s (setMode (unpairTime (forgetPair { v with twin.resync := none }) true) mSolo)))) ∧
  (∀ (s u : State) (f : FrameIn) (t : Nat), frameTaken s f 0x15 = (true, u) → u.twin.fenceInAt = some t → fenceIn u = true →
    u.devTime ≤ t + 10000 → mirrored u = true ∨ solo u = true →
    exec (.fenceDemand f) s = .next (settled s (fenceSelf { u with twin.demandFrameAt := some u.devTime } []))) ∧
  (∀ (s u : State) (f : FrameIn), frameTaken s f 0x15 = (true, u) → 
    (∀ t, u.twin.fenceInAt = some t → fenceIn u = false ∨ t + 10000 < u.devTime ∨ mirrored u = false ∧ solo u = false) →
    exec (.fenceDemand f) s = .next (settled s { u with twin.demandFrameAt := some u.devTime })) ∧
  (∀ (s u : State) (f : FrameIn) (e : Word) (g : Fin 64) (plots : List (PlotId × Nat)), frameIn s f false = (true, u) →
    u.twin.takeback = none → u.twin.adopted.contains e = false → f.epoch = epoch u → mirrored u = true →
    exec (.roleChange f e g plots) s = .next (settled s (adoptRole u e plots))) ∧
  (∀ (s u : State) (f : FrameIn) (e : Word) (g : Fin 64) (plots : List (PlotId × Nat)), frameIn s f false = (true, u) →
    u.twin.takeback = none → u.twin.adopted.contains e = true →
    exec (.roleChange f e g plots) s = .next (settled s (sendFrame u 0x14 0 0 (.roleAck e)))) ∧
  (∀ s : State, exec .roleChangeRetry s = .next (settled s (if linkOk s then sendRoleChange s else s))) ∧
  (∀ (s u : State) (f : FrameIn) (e : Word) (ctr : Nat) (t : Fin 256) (x : TwinFrame), frameIn s f false = (true, u) →
    sentFrame (setTwinEpoch (incF u Reg.FLK_STALE_CNT.bounced) e) ctr t.val = some x →
    ∀ v, setTwinEpoch (incF u Reg.FLK_STALE_CNT.bounced) e = v → epoch v = e →
    exec (.staleEpoch f e ctr t) s =
      .next (settled s { v with twin.staleResends := v.twin.staleResends ++ [{ body := x.body, waitFor := none }] })) ∧
  (∀ s : State, exec .staleResendTimer s = .next (settled s ((s.twin.staleResends.filter (resendNow s)).foldl (fun s r => resendBody s r.body)
    { s with twin.staleResends := s.twin.staleResends.filter fun r => !resendNow s r }))) ∧
  (∀ (s u v : State), putFlag (restartStable s) Reg.FLK_TWIN_STS.fence_in true = v →
    { v with twin.fenceInAt := some v.devTime, twin.fenceLineIgnored := false } = u →
    (linkOk u = false → mirrored u = true ∨ solo u = true → exec .fenceInRise s = .next (settled s (judgeDemand u))) ∧
    (linkOk u = false → mirrored u = false → solo u = false → exec .fenceInRise s = .next (settled s u)) ∧
    (linkOk u = true → u.twin.demandFrameAt = none → exec .fenceInRise s = .next (settled s u)) ∧
    ∀ t, linkOk u = true → u.twin.demandFrameAt = some t → exec .fenceInRise s =
      .next (settled s (if within10us u t = true ∧ (mirrored u = true ∨ solo u = true) then fenceSelf u [] else u))) ∧
  (∀ (s u : State), { putFlag s Reg.FLK_TWIN_STS.fence_in false with twin.fenceInAt := none, twin.fenceLineIgnored := false } = u →
    exec .fenceInFall s = .next (settled s (if twinMode u = mTarget then endTarget u else u))) ∧
  (∀ s : State, fenceIn s = true → linkOk s = true → s.twin.fenceLineIgnored = false → exec .fenceLineFault s = .next (settled s
    (raise (setFlag { s with twin.fenceLineIgnored := true } Reg.FLK_TWIN_ERR.fence_line_fault) 1521 .fenceLineFault 0xFFF []))) ∧
  (∀ (s u : State) (l : AliveLevel), setF s Reg.FLK_TWIN_STS.alive_in (match l with | .absent => 0 | .toggling => 1 | .fenced => 2) = u →
    (twinMode u = mHandshake → exec (.aliveInChange l) s = .next (settled s (checkHandshake u))) ∧
    (l ≠ .fenced → twinMode u ≠ mHandshake → exec (.aliveInChange l) s = .next (settled s u)) ∧
    (l = .fenced → flag u Reg.FLK_TWIN_STS.link_lost = true → mirrored u = true → exec (.aliveInChange l) s = .next (settled s (takeover u))) ∧
    (l = .fenced → twinMode u = 0 → [stBoot, stTraining, stRecovery, stHalted].contains (stage u) = false → u.twin.helloSeen = false →
      u.glb.roleDecided = false → recordClass u.glb.record = 1 ∨ recordClass u.glb.record = 2 →
      exec (.aliveInChange l) s = .next (settled s (startSolo u)))) ∧
  (∀ s : State, exec .aliveReadbackFault s =
    .next (settled s (fenceSelf (raise (setFlag s Reg.FLK_TWIN_ERR.alive_fault) 1521 .aliveFault 0xFFF []) []))) ∧
  (∀ (s : State) (t : Nat), s.twin.fenceOutAt = some t → twinMode s = mHandshake → t + 1000000 ≤ s.devTime → s.twin.leaseRxAt ≤ t →
    exec .fenceHandshakeTimeout s = .next (settled s
      (takeover (raiseFull (setFlag s Reg.FLK_TWIN_ERR.fence_timeout) 1521 3 .fenceTimeout 0xFFF [] .everyone)))) ∧
  (∀ (s : State) (r : Resync), s.twin.resync = some r → twinMode s = mSource ∨ twinMode s = mMirrored →
    reached s.pou.partnerLevel (getF s Reg.POU_BP_CFG.soft_pct) = false → s.twin.copyNext ≤ s.devTime → retainFits s 65680 = true →
    (∀ c, (r.left.find? fun c => clodStable s c && (copyRead s c || !(s.twin.copies.any fun x => x.1 = c))) = some c →
      (copyRead s c = false → exec .resyncCopy s = .next (settled s (askCopy s c))) ∧
      (copyRead s c = true → ∀ u, sendClod s c = u → exec .resyncCopy s = .next (settled s { u with
        twin.copyNext := s.devTime + 65536 / resyncGbps s
        twin.resync := some { r with left := r.left.erase c, sent := r.sent ++ [(c, u.twin.txOrdered)] } }))) ∧
    ((r.left.find? fun c => clodStable s c && (copyRead s c || !(s.twin.copies.any fun x => x.1 = c))) = none →
      exec .resyncCopy s = .next (settled s (pairDrained s)))) ∧
  (∀ (s : State) (r : Resync), s.twin.resync = some r →
    (twinMode s ≠ mSource ∧ twinMode s ≠ mMirrored) ∨ reached s.pou.partnerLevel (getF s Reg.POU_BP_CFG.soft_pct) = true ∨
      s.devTime < s.twin.copyNext ∨ retainFits s 65680 = false → exec .resyncCopy s = .next (settled s s)) ∧
  (∀ s : State, twinMode s = mMirrored → flag s Reg.FLK_TWIN_CFG.takeback_en = true → linkOk s = true → s.twin.takeback = none →
    ((strayPlots s).map groupOf).eraseDups ≠ [] → s.twin.stableAt + s.twin.stableS * 1000000000 ≤ s.devTime → exec .takebackTimer s = .next (settled s { s with
      twin.takeback := some { groups := sortAsc ((strayPlots s).map groupOf).eraseDups, group := 0, plots := [], sent := none } })) ∧
  (∀ (s : State) (t : Takeback) (g : Nat) (rest : List Nat), s.twin.takeback = some t → t.plots = [] → t.groups = g :: rest →
    exec .takebackGroup s = .next (settled s { s with
      twin.takeback := some { groups := rest, group := g, plots := (strayPlots s).filter fun p => groupOf p = g, sent := none } }))

/-- Administration, HELLO and TIME (R21, R32, R52, R55, R70, R330, R331, R372, R373): an ADMIN frame has the effect of its order; HELLO
notes the twin, aligns time forward only, once a pairing, and decides the roles; TIME, which the reference sends, says how far the other
count is to slew. -/
def Obligations.HelloAdminTime : Prop :=
  (∀ (s u : State) (f : FrameIn), frameTaken s f 0x13 = (true, u) →
    (∀ tag a, exec (.admin f (.admitRequest tag a)) s =
      .next (settled s { u with plots.admQueue := u.plots.admQueue ++ [.admitPlot (.twin tag) a] })) ∧
    exec (.admin f .figuresReq) s =
      .next (settled s (sendAdmin u (.figures (ownFigures u).loam (ownFigures u).budget (ownFigures u).capacity))) ∧
    (∀ l b c, exec (.admin f (.figures l b c)) s = .next (settled s (figuresIn u { loam := l, budget := b, capacity := c }))) ∧
    (∀ p, proposalHolds u p = true →
      (∀ t v, { u with plots.admGiven := u.plots.admGiven ++ [(t, p.plot.val)] } = v →
        exec (.admin f (.admitPlot p (some t))) s = .next (settled s (sendAdmin (enterAdmitting v p) (.admitAnswer p.plot true)))) ∧
      exec (.admin f (.admitPlot p none)) s = .next (settled s (sendAdmin (enterAdmitting u p) (.admitAnswer p.plot true)))) ∧
    (∀ p t, proposalHolds u p = false → exec (.admin f (.admitPlot p t)) s = .next (settled s (sendAdmin u (.admitAnswer p.plot false)))) ∧
    (∀ p ok, exec (.admin f (.admitAnswer p ok)) s = .next (settled s (proposalAnswered u p.val ok))) ∧
    (∀ t st r, exec (.admin f (.admitResult t st r)) s = .next (settled s (requestAnswered u t st r))) ∧
    (∀ p, exec (.admin f (.zeroed p)) s = .next (settled s (twinDone u p.val)) ∧
      exec (.admin f (.released p)) s = .next (settled s (twinDone u p.val)) ∧
      exec (.admin f (.sealed p)) s = .next (settled s (twinDone u p.val)) ∧
      exec (.admin f (.unsealed p)) s = .next (settled s (updPlot u p.val fun r => { r with doneTwin := false })) ∧
      exec (.admin f (.erased p)) s = .next (settled s (plotStep (updPlot u p.val fun r => { r with eraseTwin := true }) p.val)) ∧
      exec (.admin f (.release p)) s = .next (settled s (orderPlot u p.val (fun s => enterReleasing s p.val) (.release p))) ∧
      exec (.admin f (.erase p)) s = .next (settled s (orderPlot u p.val (fun s => orderErase s p.val) (.erase p)))) ∧
    (∀ p n q, (if isHome u (plotRec u p.val) = true then (plotRec u p.val).seq else n) = q →
      exec (.admin f (.seal p n)) s = .next (settled s (orderPlot u p.val (fun s => orderSeal s p.val q) (.seal p q)))) ∧
    (∀ p, (twinMode u = mTarget → exec (.admin f (.replay p)) s = .next (settled s (replayPlot u p))) ∧
      (twinMode u ≠ mTarget → exec (.admin f (.replay p)) s = .next (settled s u))) ∧
    (∀ p e v, exec (.admin f (.aclEntry p e v)) s =
      .next (settled s (plotChanged (setRegAt u 0x3000204 (p.val * 64 + e.val) v) p.val .nothing)))) ∧
  (∀ (s u v w : State) (f : FrameIn) (h : Hello), frameIn s f true = (true, u) →
    checkPriority (alignTime (setTwinEpoch { u with twin.helloSeen := true } f.epoch) h) h = v →
    (if u.twin.helloSeen = true then v else sendHello v) = w →
    (h.sideB = sideB w → exec (.hello f h) s = .next (settledTimed s (sideConflict w h))) ∧
    (h.sideB ≠ sideB w → h.maxCapacity = w.plots.maxCapacity → exec (.hello f h) s = .next (settledTimed s (helloRoles w f h))) ∧
    (h.sideB ≠ sideB w → h.maxCapacity ≠ w.plots.maxCapacity → exec (.hello f h) s = .next (settledTimed s (capacityConflict w h)))) ∧
  (∀ (s : State) (h : Hello), s.twin.timePaired = false →
    (alignTime s h).devTime = max s.devTime h.deviceTime ∧ (alignTime s h).twin.timePaired = true ∧ (alignTime s h).twin.slew = 0) ∧
  (∀ (s : State) (h : Hello), s.twin.timePaired = true → alignTime s h = s) ∧
  (∀ (s u : State) (f : FrameIn) (t : Nat), frameIn s f false = (true, u) → flag u Reg.GLB_TIME_ALIGN.reference = true ∨ u.twin.timePaired = false →
    exec (.time f t) s = .next (settled s u)) ∧
  (∀ (s u v : State) (f : FrameIn) (t : Nat), frameIn s f false = (true, u) → flag u Reg.GLB_TIME_ALIGN.reference = false → u.twin.timePaired = true →
    putFlag (setF u Reg.GLB_TIME_ALIGN.offset_ns ((if u.devTime ≤ t then 65536 - min 32768 (t - u.devTime) else min 32767 (u.devTime - t)) % 65536))
      Reg.GLB_TIME_ALIGN.aligned (decide (t ≤ u.devTime + 20) && decide (u.devTime ≤ t + 20)) = v →
    exec (.time f t) s = .next (settled s { v with twin.slew := (t : Int) - (v.devTime : Int) })) ∧
  (∀ s : State, s.twin.timePaired = true → flag s Reg.GLB_TIME_ALIGN.reference = true → sendTime s = sendFrame s 0x19 0 0 (.time s.devTime))

/-! ### Start-up, restore and shutdown (18) -/

/-- Journal and checkpoint (R559, R560): a unit timeout with nothing packed does nothing, and otherwise the packed records leave for the
unit that takes them; a pass writes its grains in turn, never before recovery is done nor during the flush, and its last one makes it the
pass that recovery reads and drops the journal records older than its oldest grain. A start after recovery (R561 to R567): recovery rebuilds
the table and classifies the image, and the restore stage begins; a complete or incomplete image is applied, and then settled where there
was one, or else erased; when nothing is dirty any more its number is sealed as consumed and the erase begins; the erase leaves every kiln
stratum that is not RETIRED ERASED, and the twin's stage follows. In any other stage none of these reports changes anything. -/
def Obligations.StartAndRestore : Prop :=
  ((∀ s : State, s.glb.packing = [] → exec .journalUnitTimeout s = .next (finished s s)) ∧
    (∀ s : State, flushing s = true → exec .journalUnitTimeout s = .next (finished s s) ∧ exec .checkpointWrite s = .next (finished s s)) ∧
    (∀ (s u : State) (unit : Nat), s.glb.packing ≠ [] → flushing s = false →
      ((List.range 4).map fun i => (s.glb.journalSeq + i) % 4).findSome? (fun b => unitFor s b false 2 false) = some (unit, u) →
      exec .journalUnitTimeout s = .next (finished s (startUnit { u with
        glb.journalUnits := u.glb.journalUnits ++ [(unit, u.glb.packing)], glb.packing := [] } unit))) ∧
    (∀ (s : State) (k : Nat) (left : List Nat), stage s ≠ stBoot → stage s ≠ stTraining → stage s ≠ stRecovery → flushing s = false →
      (ckptKeys s).filter (fun k => decide (s.glb.ckptNext ≤ k)) = k :: left →
      exec .checkpointWrite s = .next (finished s (
        let u := { s with glb.ckptNow := sput none s.glb.ckptNow k (some (ckptGrain s k)), glb.ckptNext := k + 1 }
        if left = [] then endPass u else u))) ∧
    (∀ s : State, (endPass s).glb.ckptDone = s.glb.ckptNow ∧ (endPass s).glb.ckptValid = true ∧ (endPass s).glb.ckptNow = [] ∧
      (endPass s).glb.ckptNext = 0)) ∧
  ((∀ (s u v : State) (readable stateBad known : Bool) (unplaced : List ClodNo), stage s = stRecovery → (readable && (s.glb.ckptValid || !plotsNamed s)) = known →
      classifyImage (if known then unplace (rebuildTable (resumeMedia s)) (unplaced.map (·.val)) else newDevice (resumeMedia s)) stateBad = u →
      markPoisoned (adoptRecord { u with glb.record := if known then stopRecord u else none }) = v →
      exec (.translationRecoveryDone readable stateBad unplaced) s = .next (finished s (startIfFenced (sendHello (setStage v stRestore))))) ∧
    (∀ (s : State) (lost : List (ClodNo × Fin 16)), stage s = stRestore → goodImage s = none →
      (let u := sendHello (setStage (settleEvery (checkLost (deriveKeys (closeOpen { s with glb.restored := true })))) stErase)
       exec (.restoreDone lost) s = .next (settled s (if kilnReady u = true then afterErase u else u)))) ∧
    (∀ (s : State) (lost : List (ClodNo × Fin 16)) (k : KilnImage), stage s = stRestore → goodImage s = some k →
      exec (.restoreDone lost) s = .next (settled s (sendHello (setStage (settleEvery (checkLost (deriveKeys (closeOpen
        { applyImage s k lost with glb.restored := true })))) stSettle)))) ∧
    (∀ (s : State) (n : Nat), stage s = stSettle → dirtyGrains s = 0 →
      (match s.glb.kiln.bind fun k => k.closing.head? with | some c => c.image | none => (latestConsumed s).getD 0) = n →
      exec .restoreSettleDone s = .next (settled s (setStage (sealRecord s (.imageConsumed n)) stErase))) ∧
    (∀ s : State, stage s = stSettle → dirtyGrains s ≠ 0 → exec .restoreSettleDone s = .next (settled s s)) ∧
    (∀ s : State, stage s = stErase → exec .kilnEraseDone s = .next (finished s (afterErase ((usedStrata s).foldl (fun s e =>
        if stratumUse s e.2.1 = .kiln && e.2.2.state ≠ .retired && e.2.2.state ≠ .erased then
          updStratum s e.1 e.2.1 fun x => { x with
            state := .erased, eraseCount := x.eraseCount + 1, readCounts := [], nextUnit := 0, sealedRows := 0, erasing := false }
        else s) { s with glb.kiln := none })))) ∧
    (∀ (s : State) (readable stateBad : Bool) (unplaced : List ClodNo), stage s ≠ stRecovery →
      exec (.translationRecoveryDone readable stateBad unplaced) s = .next (finished s s)) ∧
    (∀ (s : State) (lost : List (ClodNo × Fin 16)), stage s ≠ stRestore → exec (.restoreDone lost) s = .next (settled s s)) ∧
    (∀ s : State, stage s ≠ stErase → exec .kilnEraseDone s = .next (finished s s)))

/-- The twin at start (R573): data this side knows to be current start solo when the twin stays absent, or when a pair restart waits too
long for it; only master 0x340 may force a start that is halted for its twin. Orderly shutdown and warm reset (R574, R576): hosts move away
and every dirty clod settles; with nothing dirty the flush is disarmed and the record of side, mode and epoch is sealed; a warm reset then
leaves the always-on domain, the recorder's ring, the sealed journal and the poison list as they are and no write, ring or lift under way,
with Loam held until it is released; it is refused alone in a pair and to any master but 0x340. -/
def Obligations.SoloStartAndShutdown : Prop :=
  ((∀ s : State, [stBoot, stTraining, stRecovery, stHalted].contains (stage s) = false → aliveIn s = 0 → twinMode s = 0 → s.twin.helloSeen = false → s.glb.roleDecided = false →
      (recordClass s.glb.record = 1 ∨ recordClass s.glb.record = 2) → exec .helloWaitTimeout s = .next (settled s (startSolo s))) ∧
    (∀ s : State, (aliveIn s ≠ 0 ∨ twinMode s ≠ 0 ∨ s.twin.helloSeen = true) → exec .helloWaitTimeout s = .next (settled s s)) ∧
    (∀ (s : State), getF s Reg.GLB_START_STS.pair = 1 → twinMode s = 0 → armed s = true →
      (s.glb.twinStart = none → exec .pairWaitTimeout s = .next (settled s (startSolo s))) ∧
      ∀ h, s.glb.twinStart = some h → exec .pairWaitTimeout s = .next (settled s (if h.restored = true then s else startSolo s))) ∧
    (∀ s : State, getF s Reg.GLB_START_STS.pair ≠ 1 → exec .pairWaitTimeout s = .next (settled s s)) ∧
    (∀ (s : State) (m : Mid), m.val = 0x340 → (getF s Reg.GLB_START_STS.halt = 7 ∨ getF s Reg.GLB_START_STS.halt = 8) →
      exec (.forceSolo (.mid m)) s = .next (settled s (startSolo (setStage (setF (setFlag s Reg.GLB_START_CTL.force_solo)
        Reg.GLB_START_STS.halt 0) (resumeStage s))))) ∧
    (∀ (s : State) (m : Mid), m.val = 0x340 → getF s Reg.GLB_START_STS.halt ≠ 7 → getF s Reg.GLB_START_STS.halt ≠ 8 →
      exec (.forceSolo (.mid m)) s = .next (settled s s)) ∧
    (∀ (s : State) (w : Accessor), (∀ m : Mid, w = .mid m → m.val ≠ 0x340) →
      exec (.forceSolo w) s = .next (settled s (denySetup s w Reg.GLB_START_CTL.force_solo.addr)))) ∧
  ((∀ s : State, s.glb.shutdown = .none → flushing s = false →
      exec .orderlyShutdown s = .next (settled s (raise (beginShutdown s .orderly) 1280 .shutdown 0xFFF []))) ∧
    (∀ s : State, s.glb.shutdown ≠ .none → exec .orderlyShutdown s = .next (settled s s)) ∧
    (∀ s : State, s.glb.shutdown = .orderly → dirtyGrains s = 0 → exec .shutdownDirtyZero s = .next (settled s
      (sealRecord { disarm s with glb.shutdown := .none } (.shutdown (sideB s) (twinMode s) (epoch s))))) ∧
    (∀ s : State, s.glb.shutdown ≠ .orderly → exec .shutdownDirtyZero s = .next (settled s s)) ∧
    (∀ (s : State) (m : Mid), m.val = 0x340 → solo s = true → s.twin.helloSeen = true →
      exec (.warmResetRequest (.mid m)) s = .next (settled s (setFlag s Reg.GLB_START_STS.warm_refused))) ∧
    (∀ (s : State) (m : Mid), m.val = 0x340 → (solo s = false ∨ s.twin.helloSeen = false) → s.glb.shutdown = .none → flushing s = false →
      exec (.warmResetRequest (.mid m)) s = .next (settled s (raise (beginShutdown s .warm) 1280 .warmReset 0xFFF []))) ∧
    (∀ (s : State) (w : Accessor), (∀ m : Mid, w = .mid m → m.val ≠ 0x340) →
      exec (.warmResetRequest w) s = .next (settled s (denySetup s w Reg.GLB_RESET_CTL.warm_req.addr))) ∧
    (∀ s : State, s.glb.shutdown = .warm → dirtyGrains s = 0 → s.phs.dieReset = false → (∀ ch, ch < 16 → loamState s ch ≠ 2) →
      exec .warmResetDirtyZero s =
      .next (ended s (warmState (sealRecord (disarm s) (.shutdown (sideB s) (8 + twinMode s) (epoch s)))))) ∧
    (∀ s : State, (warmState s).phs = { s.phs with dieReset := true } ∧ (warmState s).evr = warmEvr s ∧ (warmState s).evr.ring = s.evr.ring ∧ (warmState s).glb.journal = s.glb.journal ∧
      (warmState s).diu.poison = s.diu.poison ∧ (warmState s).pou.dirty = [] ∧ (warmState s).cre.rings = [] ∧ (warmState s).lmc.held = true) ∧
    (∀ (s u : State) (b : BootReport), s.glb.shutdown = .warm → s.phs.dieReset = true →
      resumeMedia (setF { s with phs.dieReset := false, glb.shutdown := .none, glb.runningAt := s.devTime } Reg.GLB_START_STS.kind 1) = u →
      ∀ v, (match u.glb.record with | some r => setEpoch u r.epoch | none => u) = v →
      exec (.warmResetRelease b) s = .next (finished s (dieBoot
        (if v.cku.xtsSlots.isEmpty = true then v else setFlag v Reg.CKU_STS.keys_ready) b false))) ∧
    (∀ (s : State) (b : BootReport), s.phs.dieReset = false → exec (.warmResetRelease b) s = .next (finished s s)))
end

