-- ==== Sys2Proof/Laws/State.lean ====
section
/-! SUPPORT. Which field of the state each named update touches: one lemma per update and field it leaves. -/

namespace Sys2Proof.Machine

@[simp] theorem setRegAt_glb (s : State) (addr idx : Nat) (v : Word) : (setRegAt s addr idx v).glb = s.glb := rfl
@[simp] theorem setRegAt_hfp (s : State) (addr idx : Nat) (v : Word) : (setRegAt s addr idx v).hfp = s.hfp := rfl
@[simp] theorem setRegAt_cre (s : State) (addr idx : Nat) (v : Word) : (setRegAt s addr idx v).cre = s.cre := rfl
@[simp] theorem setRegAt_plots (s : State) (addr idx : Nat) (v : Word) : (setRegAt s addr idx v).plots = s.plots := rfl
@[simp] theorem setRegAt_pou (s : State) (addr idx : Nat) (v : Word) : (setRegAt s addr idx v).pou = s.pou := rfl
@[simp] theorem setRegAt_fcd (s : State) (addr idx : Nat) (v : Word) : (setRegAt s addr idx v).fcd = s.fcd := rfl
@[simp] theorem setRegAt_lmc (s : State) (addr idx : Nat) (v : Word) : (setRegAt s addr idx v).lmc = s.lmc := rfl
@[simp] theorem setRegAt_diu (s : State) (addr idx : Nat) (v : Word) : (setRegAt s addr idx v).diu = s.diu := rfl
@[simp] theorem setRegAt_bfc (s : State) (addr idx : Nat) (v : Word) : (setRegAt s addr idx v).bfc = s.bfc := rfl
@[simp] theorem setRegAt_tmg (s : State) (addr idx : Nat) (v : Word) : (setRegAt s addr idx v).tmg = s.tmg := rfl
@[simp] theorem setRegAt_twin (s : State) (addr idx : Nat) (v : Word) : (setRegAt s addr idx v).twin = s.twin := rfl
@[simp] theorem setRegAt_chain (s : State) (addr idx : Nat) (v : Word) : (setRegAt s addr idx v).chain = s.chain := rfl
@[simp] theorem setRegAt_bpm (s : State) (addr idx : Nat) (v : Word) : (setRegAt s addr idx v).bpm = s.bpm := rfl
@[simp] theorem setRegAt_cku (s : State) (addr idx : Nat) (v : Word) : (setRegAt s addr idx v).cku = s.cku := rfl
@[simp] theorem setRegAt_phs (s : State) (addr idx : Nat) (v : Word) : (setRegAt s addr idx v).phs = s.phs := rfl
@[simp] theorem setRegAt_evr (s : State) (addr idx : Nat) (v : Word) : (setRegAt s addr idx v).evr = s.evr := rfl
@[simp] theorem setRegAt_mgc (s : State) (addr idx : Nat) (v : Word) : (setRegAt s addr idx v).mgc = s.mgc := rfl
@[simp] theorem setRegAt_pairPend (s : State) (addr idx : Nat) (v : Word) : (setRegAt s addr idx v).pairPend = s.pairPend := rfl
@[simp] theorem setRegAt_pairLatch (s : State) (addr idx : Nat) (v : Word) : (setRegAt s addr idx v).pairLatch = s.pairLatch := rfl
@[simp] theorem setRegAt_pending (s : State) (addr idx : Nat) (v : Word) : (setRegAt s addr idx v).pending = s.pending := rfl
@[simp] theorem setRegAt_out (s : State) (addr idx : Nat) (v : Word) : (setRegAt s addr idx v).out = s.out := rfl
@[simp] theorem setRegAt_freeCount (s : State) (addr idx : Nat) (v : Word) : (setRegAt s addr idx v).freeCount = s.freeCount := rfl
@[simp] theorem setRegAt_devTime (s : State) (addr idx : Nat) (v : Word) : (setRegAt s addr idx v).devTime = s.devTime := rfl

@[simp] theorem setFi_glb (s : State) (f : Field) (i v : Nat) : (setFi s f i v).glb = s.glb := rfl
@[simp] theorem setFi_hfp (s : State) (f : Field) (i v : Nat) : (setFi s f i v).hfp = s.hfp := rfl
@[simp] theorem setFi_cre (s : State) (f : Field) (i v : Nat) : (setFi s f i v).cre = s.cre := rfl
@[simp] theorem setFi_plots (s : State) (f : Field) (i v : Nat) : (setFi s f i v).plots = s.plots := rfl
@[simp] theorem setFi_pou (s : State) (f : Field) (i v : Nat) : (setFi s f i v).pou = s.pou := rfl
@[simp] theorem setFi_fcd (s : State) (f : Field) (i v : Nat) : (setFi s f i v).fcd = s.fcd := rfl
@[simp] theorem setFi_lmc (s : State) (f : Field) (i v : Nat) : (setFi s f i v).lmc = s.lmc := rfl
@[simp] theorem setFi_diu (s : State) (f : Field) (i v : Nat) : (setFi s f i v).diu = s.diu := rfl
@[simp] theorem setFi_bfc (s : State) (f : Field) (i v : Nat) : (setFi s f i v).bfc = s.bfc := rfl
@[simp] theorem setFi_tmg (s : State) (f : Field) (i v : Nat) : (setFi s f i v).tmg = s.tmg := rfl
@[simp] theorem setFi_twin (s : State) (f : Field) (i v : Nat) : (setFi s f i v).twin = s.twin := rfl
@[simp] theorem setFi_chain (s : State) (f : Field) (i v : Nat) : (setFi s f i v).chain = s.chain := rfl
@[simp] theorem setFi_bpm (s : State) (f : Field) (i v : Nat) : (setFi s f i v).bpm = s.bpm := rfl
@[simp] theorem setFi_cku (s : State) (f : Field) (i v : Nat) : (setFi s f i v).cku = s.cku := rfl
@[simp] theorem setFi_phs (s : State) (f : Field) (i v : Nat) : (setFi s f i v).phs = s.phs := rfl
@[simp] theorem setFi_evr (s : State) (f : Field) (i v : Nat) : (setFi s f i v).evr = s.evr := rfl
@[simp] theorem setFi_mgc (s : State) (f : Field) (i v : Nat) : (setFi s f i v).mgc = s.mgc := rfl
@[simp] theorem setFi_pairPend (s : State) (f : Field) (i v : Nat) : (setFi s f i v).pairPend = s.pairPend := rfl
@[simp] theorem setFi_pairLatch (s : State) (f : Field) (i v : Nat) : (setFi s f i v).pairLatch = s.pairLatch := rfl
@[simp] theorem setFi_pending (s : State) (f : Field) (i v : Nat) : (setFi s f i v).pending = s.pending := rfl
@[simp] theorem setFi_out (s : State) (f : Field) (i v : Nat) : (setFi s f i v).out = s.out := rfl
@[simp] theorem setFi_freeCount (s : State) (f : Field) (i v : Nat) : (setFi s f i v).freeCount = s.freeCount := rfl
@[simp] theorem setFi_devTime (s : State) (f : Field) (i v : Nat) : (setFi s f i v).devTime = s.devTime := rfl

@[simp] theorem setF_glb (s : State) (f : Field) (v : Nat) : (setF s f v).glb = s.glb := rfl
@[simp] theorem setF_hfp (s : State) (f : Field) (v : Nat) : (setF s f v).hfp = s.hfp := rfl
@[simp] theorem setF_cre (s : State) (f : Field) (v : Nat) : (setF s f v).cre = s.cre := rfl
@[simp] theorem setF_plots (s : State) (f : Field) (v : Nat) : (setF s f v).plots = s.plots := rfl
@[simp] theorem setF_pou (s : State) (f : Field) (v : Nat) : (setF s f v).pou = s.pou := rfl
@[simp] theorem setF_fcd (s : State) (f : Field) (v : Nat) : (setF s f v).fcd = s.fcd := rfl
@[simp] theorem setF_lmc (s : State) (f : Field) (v : Nat) : (setF s f v).lmc = s.lmc := rfl
@[simp] theorem setF_diu (s : State) (f : Field) (v : Nat) : (setF s f v).diu = s.diu := rfl
@[simp] theorem setF_bfc (s : State) (f : Field) (v : Nat) : (setF s f v).bfc = s.bfc := rfl
@[simp] theorem setF_tmg (s : State) (f : Field) (v : Nat) : (setF s f v).tmg = s.tmg := rfl
@[simp] theorem setF_twin (s : State) (f : Field) (v : Nat) : (setF s f v).twin = s.twin := rfl
@[simp] theorem setF_chain (s : State) (f : Field) (v : Nat) : (setF s f v).chain = s.chain := rfl
@[simp] theorem setF_bpm (s : State) (f : Field) (v : Nat) : (setF s f v).bpm = s.bpm := rfl
@[simp] theorem setF_cku (s : State) (f : Field) (v : Nat) : (setF s f v).cku = s.cku := rfl
@[simp] theorem setF_phs (s : State) (f : Field) (v : Nat) : (setF s f v).phs = s.phs := rfl
@[simp] theorem setF_evr (s : State) (f : Field) (v : Nat) : (setF s f v).evr = s.evr := rfl
@[simp] theorem setF_mgc (s : State) (f : Field) (v : Nat) : (setF s f v).mgc = s.mgc := rfl
@[simp] theorem setF_pairPend (s : State) (f : Field) (v : Nat) : (setF s f v).pairPend = s.pairPend := rfl
@[simp] theorem setF_pairLatch (s : State) (f : Field) (v : Nat) : (setF s f v).pairLatch = s.pairLatch := rfl
@[simp] theorem setF_pending (s : State) (f : Field) (v : Nat) : (setF s f v).pending = s.pending := rfl
@[simp] theorem setF_out (s : State) (f : Field) (v : Nat) : (setF s f v).out = s.out := rfl
@[simp] theorem setF_freeCount (s : State) (f : Field) (v : Nat) : (setF s f v).freeCount = s.freeCount := rfl
@[simp] theorem setF_devTime (s : State) (f : Field) (v : Nat) : (setF s f v).devTime = s.devTime := rfl

@[simp] theorem incFiBy_glb (s : State) (f : Field) (i n : Nat) : (incFiBy s f i n).glb = s.glb := rfl
@[simp] theorem incFiBy_hfp (s : State) (f : Field) (i n : Nat) : (incFiBy s f i n).hfp = s.hfp := rfl
@[simp] theorem incFiBy_cre (s : State) (f : Field) (i n : Nat) : (incFiBy s f i n).cre = s.cre := rfl
@[simp] theorem incFiBy_plots (s : State) (f : Field) (i n : Nat) : (incFiBy s f i n).plots = s.plots := rfl
@[simp] theorem incFiBy_pou (s : State) (f : Field) (i n : Nat) : (incFiBy s f i n).pou = s.pou := rfl
@[simp] theorem incFiBy_fcd (s : State) (f : Field) (i n : Nat) : (incFiBy s f i n).fcd = s.fcd := rfl
@[simp] theorem incFiBy_lmc (s : State) (f : Field) (i n : Nat) : (incFiBy s f i n).lmc = s.lmc := rfl
@[simp] theorem incFiBy_diu (s : State) (f : Field) (i n : Nat) : (incFiBy s f i n).diu = s.diu := rfl
@[simp] theorem incFiBy_bfc (s : State) (f : Field) (i n : Nat) : (incFiBy s f i n).bfc = s.bfc := rfl
@[simp] theorem incFiBy_tmg (s : State) (f : Field) (i n : Nat) : (incFiBy s f i n).tmg = s.tmg := rfl
@[simp] theorem incFiBy_twin (s : State) (f : Field) (i n : Nat) : (incFiBy s f i n).twin = s.twin := rfl
@[simp] theorem incFiBy_chain (s : State) (f : Field) (i n : Nat) : (incFiBy s f i n).chain = s.chain := rfl
@[simp] theorem incFiBy_bpm (s : State) (f : Field) (i n : Nat) : (incFiBy s f i n).bpm = s.bpm := rfl
@[simp] theorem incFiBy_cku (s : State) (f : Field) (i n : Nat) : (incFiBy s f i n).cku = s.cku := rfl
@[simp] theorem incFiBy_phs (s : State) (f : Field) (i n : Nat) : (incFiBy s f i n).phs = s.phs := rfl
@[simp] theorem incFiBy_evr (s : State) (f : Field) (i n : Nat) : (incFiBy s f i n).evr = s.evr := rfl
@[simp] theorem incFiBy_mgc (s : State) (f : Field) (i n : Nat) : (incFiBy s f i n).mgc = s.mgc := rfl
@[simp] theorem incFiBy_pairPend (s : State) (f : Field) (i n : Nat) : (incFiBy s f i n).pairPend = s.pairPend := rfl
@[simp] theorem incFiBy_pairLatch (s : State) (f : Field) (i n : Nat) : (incFiBy s f i n).pairLatch = s.pairLatch := rfl
@[simp] theorem incFiBy_pending (s : State) (f : Field) (i n : Nat) : (incFiBy s f i n).pending = s.pending := rfl
@[simp] theorem incFiBy_out (s : State) (f : Field) (i n : Nat) : (incFiBy s f i n).out = s.out := rfl
@[simp] theorem incFiBy_freeCount (s : State) (f : Field) (i n : Nat) : (incFiBy s f i n).freeCount = s.freeCount := rfl
@[simp] theorem incFiBy_devTime (s : State) (f : Field) (i n : Nat) : (incFiBy s f i n).devTime = s.devTime := rfl

@[simp] theorem incF_glb (s : State) (f : Field) : (incF s f).glb = s.glb := rfl
@[simp] theorem incF_hfp (s : State) (f : Field) : (incF s f).hfp = s.hfp := rfl
@[simp] theorem incF_cre (s : State) (f : Field) : (incF s f).cre = s.cre := rfl
@[simp] theorem incF_plots (s : State) (f : Field) : (incF s f).plots = s.plots := rfl
@[simp] theorem incF_pou (s : State) (f : Field) : (incF s f).pou = s.pou := rfl
@[simp] theorem incF_fcd (s : State) (f : Field) : (incF s f).fcd = s.fcd := rfl
@[simp] theorem incF_lmc (s : State) (f : Field) : (incF s f).lmc = s.lmc := rfl
@[simp] theorem incF_diu (s : State) (f : Field) : (incF s f).diu = s.diu := rfl
@[simp] theorem incF_bfc (s : State) (f : Field) : (incF s f).bfc = s.bfc := rfl
@[simp] theorem incF_tmg (s : State) (f : Field) : (incF s f).tmg = s.tmg := rfl
@[simp] theorem incF_twin (s : State) (f : Field) : (incF s f).twin = s.twin := rfl
@[simp] theorem incF_chain (s : State) (f : Field) : (incF s f).chain = s.chain := rfl
@[simp] theorem incF_bpm (s : State) (f : Field) : (incF s f).bpm = s.bpm := rfl
@[simp] theorem incF_cku (s : State) (f : Field) : (incF s f).cku = s.cku := rfl
@[simp] theorem incF_phs (s : State) (f : Field) : (incF s f).phs = s.phs := rfl
@[simp] theorem incF_evr (s : State) (f : Field) : (incF s f).evr = s.evr := rfl
@[simp] theorem incF_mgc (s : State) (f : Field) : (incF s f).mgc = s.mgc := rfl
@[simp] theorem incF_pairPend (s : State) (f : Field) : (incF s f).pairPend = s.pairPend := rfl
@[simp] theorem incF_pairLatch (s : State) (f : Field) : (incF s f).pairLatch = s.pairLatch := rfl
@[simp] theorem incF_pending (s : State) (f : Field) : (incF s f).pending = s.pending := rfl
@[simp] theorem incF_out (s : State) (f : Field) : (incF s f).out = s.out := rfl
@[simp] theorem incF_freeCount (s : State) (f : Field) : (incF s f).freeCount = s.freeCount := rfl
@[simp] theorem incF_devTime (s : State) (f : Field) : (incF s f).devTime = s.devTime := rfl

@[simp] theorem incFi_glb (s : State) (f : Field) (i : Nat) : (incFi s f i).glb = s.glb := rfl
@[simp] theorem incFi_hfp (s : State) (f : Field) (i : Nat) : (incFi s f i).hfp = s.hfp := rfl
@[simp] theorem incFi_cre (s : State) (f : Field) (i : Nat) : (incFi s f i).cre = s.cre := rfl
@[simp] theorem incFi_plots (s : State) (f : Field) (i : Nat) : (incFi s f i).plots = s.plots := rfl
@[simp] theorem incFi_pou (s : State) (f : Field) (i : Nat) : (incFi s f i).pou = s.pou := rfl
@[simp] theorem incFi_fcd (s : State) (f : Field) (i : Nat) : (incFi s f i).fcd = s.fcd := rfl
@[simp] theorem incFi_lmc (s : State) (f : Field) (i : Nat) : (incFi s f i).lmc = s.lmc := rfl
@[simp] theorem incFi_diu (s : State) (f : Field) (i : Nat) : (incFi s f i).diu = s.diu := rfl
@[simp] theorem incFi_bfc (s : State) (f : Field) (i : Nat) : (incFi s f i).bfc = s.bfc := rfl
@[simp] theorem incFi_tmg (s : State) (f : Field) (i : Nat) : (incFi s f i).tmg = s.tmg := rfl
@[simp] theorem incFi_twin (s : State) (f : Field) (i : Nat) : (incFi s f i).twin = s.twin := rfl
@[simp] theorem incFi_chain (s : State) (f : Field) (i : Nat) : (incFi s f i).chain = s.chain := rfl
@[simp] theorem incFi_bpm (s : State) (f : Field) (i : Nat) : (incFi s f i).bpm = s.bpm := rfl
@[simp] theorem incFi_cku (s : State) (f : Field) (i : Nat) : (incFi s f i).cku = s.cku := rfl
@[simp] theorem incFi_phs (s : State) (f : Field) (i : Nat) : (incFi s f i).phs = s.phs := rfl
@[simp] theorem incFi_evr (s : State) (f : Field) (i : Nat) : (incFi s f i).evr = s.evr := rfl
@[simp] theorem incFi_mgc (s : State) (f : Field) (i : Nat) : (incFi s f i).mgc = s.mgc := rfl
@[simp] theorem incFi_pairPend (s : State) (f : Field) (i : Nat) : (incFi s f i).pairPend = s.pairPend := rfl
@[simp] theorem incFi_pairLatch (s : State) (f : Field) (i : Nat) : (incFi s f i).pairLatch = s.pairLatch := rfl
@[simp] theorem incFi_pending (s : State) (f : Field) (i : Nat) : (incFi s f i).pending = s.pending := rfl
@[simp] theorem incFi_out (s : State) (f : Field) (i : Nat) : (incFi s f i).out = s.out := rfl
@[simp] theorem incFi_freeCount (s : State) (f : Field) (i : Nat) : (incFi s f i).freeCount = s.freeCount := rfl
@[simp] theorem incFi_devTime (s : State) (f : Field) (i : Nat) : (incFi s f i).devTime = s.devTime := rfl

@[simp] theorem setFlag_glb (s : State) (f : Field) : (setFlag s f).glb = s.glb := rfl
@[simp] theorem setFlag_hfp (s : State) (f : Field) : (setFlag s f).hfp = s.hfp := rfl
@[simp] theorem setFlag_cre (s : State) (f : Field) : (setFlag s f).cre = s.cre := rfl
@[simp] theorem setFlag_plots (s : State) (f : Field) : (setFlag s f).plots = s.plots := rfl
@[simp] theorem setFlag_pou (s : State) (f : Field) : (setFlag s f).pou = s.pou := rfl
@[simp] theorem setFlag_fcd (s : State) (f : Field) : (setFlag s f).fcd = s.fcd := rfl
@[simp] theorem setFlag_lmc (s : State) (f : Field) : (setFlag s f).lmc = s.lmc := rfl
@[simp] theorem setFlag_diu (s : State) (f : Field) : (setFlag s f).diu = s.diu := rfl
@[simp] theorem setFlag_bfc (s : State) (f : Field) : (setFlag s f).bfc = s.bfc := rfl
@[simp] theorem setFlag_tmg (s : State) (f : Field) : (setFlag s f).tmg = s.tmg := rfl
@[simp] theorem setFlag_twin (s : State) (f : Field) : (setFlag s f).twin = s.twin := rfl
@[simp] theorem setFlag_chain (s : State) (f : Field) : (setFlag s f).chain = s.chain := rfl
@[simp] theorem setFlag_bpm (s : State) (f : Field) : (setFlag s f).bpm = s.bpm := rfl
@[simp] theorem setFlag_cku (s : State) (f : Field) : (setFlag s f).cku = s.cku := rfl
@[simp] theorem setFlag_phs (s : State) (f : Field) : (setFlag s f).phs = s.phs := rfl
@[simp] theorem setFlag_evr (s : State) (f : Field) : (setFlag s f).evr = s.evr := rfl
@[simp] theorem setFlag_mgc (s : State) (f : Field) : (setFlag s f).mgc = s.mgc := rfl
@[simp] theorem setFlag_pairPend (s : State) (f : Field) : (setFlag s f).pairPend = s.pairPend := rfl
@[simp] theorem setFlag_pairLatch (s : State) (f : Field) : (setFlag s f).pairLatch = s.pairLatch := rfl
@[simp] theorem setFlag_pending (s : State) (f : Field) : (setFlag s f).pending = s.pending := rfl
@[simp] theorem setFlag_out (s : State) (f : Field) : (setFlag s f).out = s.out := rfl
@[simp] theorem setFlag_freeCount (s : State) (f : Field) : (setFlag s f).freeCount = s.freeCount := rfl
@[simp] theorem setFlag_devTime (s : State) (f : Field) : (setFlag s f).devTime = s.devTime := rfl

@[simp] theorem setFlagI_glb (s : State) (f : Field) (i : Nat) : (setFlagI s f i).glb = s.glb := rfl
@[simp] theorem setFlagI_hfp (s : State) (f : Field) (i : Nat) : (setFlagI s f i).hfp = s.hfp := rfl
@[simp] theorem setFlagI_cre (s : State) (f : Field) (i : Nat) : (setFlagI s f i).cre = s.cre := rfl
@[simp] theorem setFlagI_plots (s : State) (f : Field) (i : Nat) : (setFlagI s f i).plots = s.plots := rfl
@[simp] theorem setFlagI_pou (s : State) (f : Field) (i : Nat) : (setFlagI s f i).pou = s.pou := rfl
@[simp] theorem setFlagI_fcd (s : State) (f : Field) (i : Nat) : (setFlagI s f i).fcd = s.fcd := rfl
@[simp] theorem setFlagI_lmc (s : State) (f : Field) (i : Nat) : (setFlagI s f i).lmc = s.lmc := rfl
@[simp] theorem setFlagI_diu (s : State) (f : Field) (i : Nat) : (setFlagI s f i).diu = s.diu := rfl
@[simp] theorem setFlagI_bfc (s : State) (f : Field) (i : Nat) : (setFlagI s f i).bfc = s.bfc := rfl
@[simp] theorem setFlagI_tmg (s : State) (f : Field) (i : Nat) : (setFlagI s f i).tmg = s.tmg := rfl
@[simp] theorem setFlagI_twin (s : State) (f : Field) (i : Nat) : (setFlagI s f i).twin = s.twin := rfl
@[simp] theorem setFlagI_chain (s : State) (f : Field) (i : Nat) : (setFlagI s f i).chain = s.chain := rfl
@[simp] theorem setFlagI_bpm (s : State) (f : Field) (i : Nat) : (setFlagI s f i).bpm = s.bpm := rfl
@[simp] theorem setFlagI_cku (s : State) (f : Field) (i : Nat) : (setFlagI s f i).cku = s.cku := rfl
@[simp] theorem setFlagI_phs (s : State) (f : Field) (i : Nat) : (setFlagI s f i).phs = s.phs := rfl
@[simp] theorem setFlagI_evr (s : State) (f : Field) (i : Nat) : (setFlagI s f i).evr = s.evr := rfl
@[simp] theorem setFlagI_mgc (s : State) (f : Field) (i : Nat) : (setFlagI s f i).mgc = s.mgc := rfl
@[simp] theorem setFlagI_pairPend (s : State) (f : Field) (i : Nat) : (setFlagI s f i).pairPend = s.pairPend := rfl
@[simp] theorem setFlagI_pairLatch (s : State) (f : Field) (i : Nat) : (setFlagI s f i).pairLatch = s.pairLatch := rfl
@[simp] theorem setFlagI_pending (s : State) (f : Field) (i : Nat) : (setFlagI s f i).pending = s.pending := rfl
@[simp] theorem setFlagI_out (s : State) (f : Field) (i : Nat) : (setFlagI s f i).out = s.out := rfl
@[simp] theorem setFlagI_freeCount (s : State) (f : Field) (i : Nat) : (setFlagI s f i).freeCount = s.freeCount := rfl
@[simp] theorem setFlagI_devTime (s : State) (f : Field) (i : Nat) : (setFlagI s f i).devTime = s.devTime := rfl

@[simp] theorem putFlag_glb (s : State) (f : Field) (b : Bool) : (putFlag s f b).glb = s.glb := rfl
@[simp] theorem putFlag_hfp (s : State) (f : Field) (b : Bool) : (putFlag s f b).hfp = s.hfp := rfl
@[simp] theorem putFlag_cre (s : State) (f : Field) (b : Bool) : (putFlag s f b).cre = s.cre := rfl
@[simp] theorem putFlag_plots (s : State) (f : Field) (b : Bool) : (putFlag s f b).plots = s.plots := rfl
@[simp] theorem putFlag_pou (s : State) (f : Field) (b : Bool) : (putFlag s f b).pou = s.pou := rfl
@[simp] theorem putFlag_fcd (s : State) (f : Field) (b : Bool) : (putFlag s f b).fcd = s.fcd := rfl
@[simp] theorem putFlag_lmc (s : State) (f : Field) (b : Bool) : (putFlag s f b).lmc = s.lmc := rfl
@[simp] theorem putFlag_diu (s : State) (f : Field) (b : Bool) : (putFlag s f b).diu = s.diu := rfl
@[simp] theorem putFlag_bfc (s : State) (f : Field) (b : Bool) : (putFlag s f b).bfc = s.bfc := rfl
@[simp] theorem putFlag_tmg (s : State) (f : Field) (b : Bool) : (putFlag s f b).tmg = s.tmg := rfl
@[simp] theorem putFlag_twin (s : State) (f : Field) (b : Bool) : (putFlag s f b).twin = s.twin := rfl
@[simp] theorem putFlag_chain (s : State) (f : Field) (b : Bool) : (putFlag s f b).chain = s.chain := rfl
@[simp] theorem putFlag_bpm (s : State) (f : Field) (b : Bool) : (putFlag s f b).bpm = s.bpm := rfl
@[simp] theorem putFlag_cku (s : State) (f : Field) (b : Bool) : (putFlag s f b).cku = s.cku := rfl
@[simp] theorem putFlag_phs (s : State) (f : Field) (b : Bool) : (putFlag s f b).phs = s.phs := rfl
@[simp] theorem putFlag_evr (s : State) (f : Field) (b : Bool) : (putFlag s f b).evr = s.evr := rfl
@[simp] theorem putFlag_mgc (s : State) (f : Field) (b : Bool) : (putFlag s f b).mgc = s.mgc := rfl
@[simp] theorem putFlag_pairPend (s : State) (f : Field) (b : Bool) : (putFlag s f b).pairPend = s.pairPend := rfl
@[simp] theorem putFlag_pairLatch (s : State) (f : Field) (b : Bool) : (putFlag s f b).pairLatch = s.pairLatch := rfl
@[simp] theorem putFlag_pending (s : State) (f : Field) (b : Bool) : (putFlag s f b).pending = s.pending := rfl
@[simp] theorem putFlag_out (s : State) (f : Field) (b : Bool) : (putFlag s f b).out = s.out := rfl
@[simp] theorem putFlag_freeCount (s : State) (f : Field) (b : Bool) : (putFlag s f b).freeCount = s.freeCount := rfl
@[simp] theorem putFlag_devTime (s : State) (f : Field) (b : Bool) : (putFlag s f b).devTime = s.devTime := rfl

@[simp] theorem putFlagI_glb (s : State) (f : Field) (i : Nat) (b : Bool) : (putFlagI s f i b).glb = s.glb := rfl
@[simp] theorem putFlagI_hfp (s : State) (f : Field) (i : Nat) (b : Bool) : (putFlagI s f i b).hfp = s.hfp := rfl
@[simp] theorem putFlagI_cre (s : State) (f : Field) (i : Nat) (b : Bool) : (putFlagI s f i b).cre = s.cre := rfl
@[simp] theorem putFlagI_plots (s : State) (f : Field) (i : Nat) (b : Bool) : (putFlagI s f i b).plots = s.plots := rfl
@[simp] theorem putFlagI_pou (s : State) (f : Field) (i : Nat) (b : Bool) : (putFlagI s f i b).pou = s.pou := rfl
@[simp] theorem putFlagI_fcd (s : State) (f : Field) (i : Nat) (b : Bool) : (putFlagI s f i b).fcd = s.fcd := rfl
@[simp] theorem putFlagI_lmc (s : State) (f : Field) (i : Nat) (b : Bool) : (putFlagI s f i b).lmc = s.lmc := rfl
@[simp] theorem putFlagI_diu (s : State) (f : Field) (i : Nat) (b : Bool) : (putFlagI s f i b).diu = s.diu := rfl
@[simp] theorem putFlagI_bfc (s : State) (f : Field) (i : Nat) (b : Bool) : (putFlagI s f i b).bfc = s.bfc := rfl
@[simp] theorem putFlagI_tmg (s : State) (f : Field) (i : Nat) (b : Bool) : (putFlagI s f i b).tmg = s.tmg := rfl
@[simp] theorem putFlagI_twin (s : State) (f : Field) (i : Nat) (b : Bool) : (putFlagI s f i b).twin = s.twin := rfl
@[simp] theorem putFlagI_chain (s : State) (f : Field) (i : Nat) (b : Bool) : (putFlagI s f i b).chain = s.chain := rfl
@[simp] theorem putFlagI_bpm (s : State) (f : Field) (i : Nat) (b : Bool) : (putFlagI s f i b).bpm = s.bpm := rfl
@[simp] theorem putFlagI_cku (s : State) (f : Field) (i : Nat) (b : Bool) : (putFlagI s f i b).cku = s.cku := rfl
@[simp] theorem putFlagI_phs (s : State) (f : Field) (i : Nat) (b : Bool) : (putFlagI s f i b).phs = s.phs := rfl
@[simp] theorem putFlagI_evr (s : State) (f : Field) (i : Nat) (b : Bool) : (putFlagI s f i b).evr = s.evr := rfl
@[simp] theorem putFlagI_mgc (s : State) (f : Field) (i : Nat) (b : Bool) : (putFlagI s f i b).mgc = s.mgc := rfl
@[simp] theorem putFlagI_pairPend (s : State) (f : Field) (i : Nat) (b : Bool) : (putFlagI s f i b).pairPend = s.pairPend := rfl
@[simp] theorem putFlagI_pairLatch (s : State) (f : Field) (i : Nat) (b : Bool) : (putFlagI s f i b).pairLatch = s.pairLatch := rfl
@[simp] theorem putFlagI_pending (s : State) (f : Field) (i : Nat) (b : Bool) : (putFlagI s f i b).pending = s.pending := rfl
@[simp] theorem putFlagI_out (s : State) (f : Field) (i : Nat) (b : Bool) : (putFlagI s f i b).out = s.out := rfl
@[simp] theorem putFlagI_freeCount (s : State) (f : Field) (i : Nat) (b : Bool) : (putFlagI s f i b).freeCount = s.freeCount := rfl
@[simp] theorem putFlagI_devTime (s : State) (f : Field) (i : Nat) (b : Bool) : (putFlagI s f i b).devTime = s.devTime := rfl

@[simp] theorem emit_glb (s : State) (e : Emit) : (emit s e).glb = s.glb := rfl
@[simp] theorem emit_hfp (s : State) (e : Emit) : (emit s e).hfp = s.hfp := rfl
@[simp] theorem emit_cre (s : State) (e : Emit) : (emit s e).cre = s.cre := rfl
@[simp] theorem emit_plots (s : State) (e : Emit) : (emit s e).plots = s.plots := rfl
@[simp] theorem emit_pou (s : State) (e : Emit) : (emit s e).pou = s.pou := rfl
@[simp] theorem emit_fcd (s : State) (e : Emit) : (emit s e).fcd = s.fcd := rfl
@[simp] theorem emit_lmc (s : State) (e : Emit) : (emit s e).lmc = s.lmc := rfl
@[simp] theorem emit_diu (s : State) (e : Emit) : (emit s e).diu = s.diu := rfl
@[simp] theorem emit_bfc (s : State) (e : Emit) : (emit s e).bfc = s.bfc := rfl
@[simp] theorem emit_tmg (s : State) (e : Emit) : (emit s e).tmg = s.tmg := rfl
@[simp] theorem emit_twin (s : State) (e : Emit) : (emit s e).twin = s.twin := rfl
@[simp] theorem emit_chain (s : State) (e : Emit) : (emit s e).chain = s.chain := rfl
@[simp] theorem emit_bpm (s : State) (e : Emit) : (emit s e).bpm = s.bpm := rfl
@[simp] theorem emit_cku (s : State) (e : Emit) : (emit s e).cku = s.cku := rfl
@[simp] theorem emit_phs (s : State) (e : Emit) : (emit s e).phs = s.phs := rfl
@[simp] theorem emit_evr (s : State) (e : Emit) : (emit s e).evr = s.evr := rfl
@[simp] theorem emit_mgc (s : State) (e : Emit) : (emit s e).mgc = s.mgc := rfl
@[simp] theorem emit_regs (s : State) (e : Emit) : (emit s e).regs = s.regs := rfl
@[simp] theorem emit_pairPend (s : State) (e : Emit) : (emit s e).pairPend = s.pairPend := rfl
@[simp] theorem emit_pairLatch (s : State) (e : Emit) : (emit s e).pairLatch = s.pairLatch := rfl
@[simp] theorem emit_pending (s : State) (e : Emit) : (emit s e).pending = s.pending := rfl
@[simp] theorem emit_freeCount (s : State) (e : Emit) : (emit s e).freeCount = s.freeCount := rfl
@[simp] theorem emit_devTime (s : State) (e : Emit) : (emit s e).devTime = s.devTime := rfl

@[simp] theorem emitAll_glb (s : State) (es : List Emit) : (emitAll s es).glb = s.glb := rfl
@[simp] theorem emitAll_hfp (s : State) (es : List Emit) : (emitAll s es).hfp = s.hfp := rfl
@[simp] theorem emitAll_cre (s : State) (es : List Emit) : (emitAll s es).cre = s.cre := rfl
@[simp] theorem emitAll_plots (s : State) (es : List Emit) : (emitAll s es).plots = s.plots := rfl
@[simp] theorem emitAll_pou (s : State) (es : List Emit) : (emitAll s es).pou = s.pou := rfl
@[simp] theorem emitAll_fcd (s : State) (es : List Emit) : (emitAll s es).fcd = s.fcd := rfl
@[simp] theorem emitAll_lmc (s : State) (es : List Emit) : (emitAll s es).lmc = s.lmc := rfl
@[simp] theorem emitAll_diu (s : State) (es : List Emit) : (emitAll s es).diu = s.diu := rfl
@[simp] theorem emitAll_bfc (s : State) (es : List Emit) : (emitAll s es).bfc = s.bfc := rfl
@[simp] theorem emitAll_tmg (s : State) (es : List Emit) : (emitAll s es).tmg = s.tmg := rfl
@[simp] theorem emitAll_twin (s : State) (es : List Emit) : (emitAll s es).twin = s.twin := rfl
@[simp] theorem emitAll_chain (s : State) (es : List Emit) : (emitAll s es).chain = s.chain := rfl
@[simp] theorem emitAll_bpm (s : State) (es : List Emit) : (emitAll s es).bpm = s.bpm := rfl
@[simp] theorem emitAll_cku (s : State) (es : List Emit) : (emitAll s es).cku = s.cku := rfl
@[simp] theorem emitAll_phs (s : State) (es : List Emit) : (emitAll s es).phs = s.phs := rfl
@[simp] theorem emitAll_evr (s : State) (es : List Emit) : (emitAll s es).evr = s.evr := rfl
@[simp] theorem emitAll_mgc (s : State) (es : List Emit) : (emitAll s es).mgc = s.mgc := rfl
@[simp] theorem emitAll_regs (s : State) (es : List Emit) : (emitAll s es).regs = s.regs := rfl
@[simp] theorem emitAll_pairPend (s : State) (es : List Emit) : (emitAll s es).pairPend = s.pairPend := rfl
@[simp] theorem emitAll_pairLatch (s : State) (es : List Emit) : (emitAll s es).pairLatch = s.pairLatch := rfl
@[simp] theorem emitAll_pending (s : State) (es : List Emit) : (emitAll s es).pending = s.pending := rfl
@[simp] theorem emitAll_freeCount (s : State) (es : List Emit) : (emitAll s es).freeCount = s.freeCount := rfl
@[simp] theorem emitAll_devTime (s : State) (es : List Emit) : (emitAll s es).devTime = s.devTime := rfl

@[simp] theorem takeFree_glb (s : State) : (takeFree s).2.glb = s.glb := rfl
@[simp] theorem takeFree_hfp (s : State) : (takeFree s).2.hfp = s.hfp := rfl
@[simp] theorem takeFree_cre (s : State) : (takeFree s).2.cre = s.cre := rfl
@[simp] theorem takeFree_plots (s : State) : (takeFree s).2.plots = s.plots := rfl
@[simp] theorem takeFree_pou (s : State) : (takeFree s).2.pou = s.pou := rfl
@[simp] theorem takeFree_fcd (s : State) : (takeFree s).2.fcd = s.fcd := rfl
@[simp] theorem takeFree_lmc (s : State) : (takeFree s).2.lmc = s.lmc := rfl
@[simp] theorem takeFree_diu (s : State) : (takeFree s).2.diu = s.diu := rfl
@[simp] theorem takeFree_bfc (s : State) : (takeFree s).2.bfc = s.bfc := rfl
@[simp] theorem takeFree_tmg (s : State) : (takeFree s).2.tmg = s.tmg := rfl
@[simp] theorem takeFree_twin (s : State) : (takeFree s).2.twin = s.twin := rfl
@[simp] theorem takeFree_chain (s : State) : (takeFree s).2.chain = s.chain := rfl
@[simp] theorem takeFree_bpm (s : State) : (takeFree s).2.bpm = s.bpm := rfl
@[simp] theorem takeFree_cku (s : State) : (takeFree s).2.cku = s.cku := rfl
@[simp] theorem takeFree_phs (s : State) : (takeFree s).2.phs = s.phs := rfl
@[simp] theorem takeFree_evr (s : State) : (takeFree s).2.evr = s.evr := rfl
@[simp] theorem takeFree_mgc (s : State) : (takeFree s).2.mgc = s.mgc := rfl
@[simp] theorem takeFree_regs (s : State) : (takeFree s).2.regs = s.regs := rfl
@[simp] theorem takeFree_pairPend (s : State) : (takeFree s).2.pairPend = s.pairPend := rfl
@[simp] theorem takeFree_pairLatch (s : State) : (takeFree s).2.pairLatch = s.pairLatch := rfl
@[simp] theorem takeFree_pending (s : State) : (takeFree s).2.pending = s.pending := rfl
@[simp] theorem takeFree_out (s : State) : (takeFree s).2.out = s.out := rfl
@[simp] theorem takeFree_devTime (s : State) : (takeFree s).2.devTime = s.devTime := rfl

@[simp] theorem emit_out (s : State) (e : Emit) : (emit s e).out = e :: s.out := rfl
@[simp] theorem emitAll_out (s : State) (es : List Emit) : (emitAll s es).out = es.reverse ++ s.out := rfl
@[simp] theorem takeFree_freeCount (s : State) : (takeFree s).2.freeCount = s.freeCount + 1 := rfl

end Sys2Proof.Machine
end

