-- ==== Sys2Proof/Laws/Events.lean ====
section
/-! SUPPORT. What raising an event touches: the recorder, registers, the output, the count of events raised and the messages a
link in recovery holds. Everything else stays. -/

namespace Sys2Proof.Machine

/-- From `s` to `t`, only what an event touches has changed. -/
def OnlyEvents (s t : State) : Prop :=
  t = { s with evr := t.evr, regs := t.regs, out := t.out, mgc.eventsRaised := t.mgc.eventsRaised, hfp.held := t.hfp.held }

theorem OnlyEvents.refl (s : State) : OnlyEvents s s := rfl

theorem OnlyEvents.trans {s t u : State} (h : OnlyEvents s t) (k : OnlyEvents t u) : OnlyEvents s u := by
  unfold OnlyEvents at *
  generalize u.evr = e at k; generalize u.regs = r at k; generalize u.out = o at k
  generalize u.mgc.eventsRaised = n at k; generalize u.hfp.held = x at k
  rw [h] at k; subst k; rfl

theorem onlyEvents_foldl {β : Type} {f : State → β → State} (h : ∀ s b, OnlyEvents s (f s b)) (l : List β) (s : State) :
    OnlyEvents s (l.foldl f s) := by
  induction l generalizing s with
  | nil => exact .refl s
  | cons b l ih => exact (h s b).trans (ih (f s b))

theorem onlyEvents_setFi (s : State) (f : Field) (i v : Nat) : OnlyEvents s (setFi s f i v) := rfl
theorem OnlyEvents.setFi {s t : State} (h : OnlyEvents s t) (f : Field) (i v : Nat) : OnlyEvents s (setFi t f i v) := h.trans rfl
theorem OnlyEvents.setF {s t : State} (h : OnlyEvents s t) (f : Field) (v : Nat) : OnlyEvents s (setF t f v) := h.trans rfl
theorem OnlyEvents.setFlag {s t : State} (h : OnlyEvents s t) (f : Field) : OnlyEvents s (setFlag t f) := h.trans rfl
theorem OnlyEvents.incFiBy {s t : State} (h : OnlyEvents s t) (f : Field) (i n : Nat) : OnlyEvents s (incFiBy t f i n) := h.trans rfl
theorem OnlyEvents.incFi {s t : State} (h : OnlyEvents s t) (f : Field) (i : Nat) : OnlyEvents s (incFi t f i) := h.trans rfl
theorem OnlyEvents.incF {s t : State} (h : OnlyEvents s t) (f : Field) : OnlyEvents s (incF t f) := h.trans rfl
theorem OnlyEvents.emit {s t : State} (h : OnlyEvents s t) (e : Emit) : OnlyEvents s (emit t e) := h.trans rfl
theorem onlyEvents_count (s : State) (e : Evr) (n : Nat) : OnlyEvents s { s with evr := e, mgc.eventsRaised := n } := rfl
theorem onlyEvents_evr (s : State) (e : Evr) : OnlyEvents s { s with evr := e } := rfl
theorem onlyEvents_emit (s : State) (e : Emit) : OnlyEvents s (emit s e) := rfl

theorem onlyEvents_sendMsix (s : State) (ld : Ld) (v : Nat) : OnlyEvents s (sendMsix s ld v) := by
  unfold sendMsix; dsimp only; split
  · rfl
  · unfold toHost toPort; split
    · rfl
    · split <;> rfl

theorem onlyEvents_deliverLog (s : State) (ld : Ld) (log : Nat) (e : HostLogEntry) : OnlyEvents s (deliverLog s ld log e) := by
  unfold deliverLog; dsimp only; split
  · split
    · exact (onlyEvents_evr s _).trans (onlyEvents_sendMsix _ _ _)
    · rfl
  · rfl

theorem onlyEvents_deliver (s : State) (c : Concern) (sev : Fin 4) (e : HostLogEntry) : OnlyEvents s (deliver s c sev e) := by
  unfold deliver; split
  · exact .refl s
  · exact onlyEvents_foldl (fun s ld => onlyEvents_deliverLog s ld _ e) _ s

theorem onlyEvents_placeRecord (s : State) (r : Record) : OnlyEvents s (placeRecord s r) := by
  unfold placeRecord; dsimp only; split <;> rfl

theorem onlyEvents_writeRecord (s : State) (r : Record) : OnlyEvents s (writeRecord s r) := by
  unfold writeRecord; dsimp only; split
  · exact onlyEvents_placeRecord _ _
  · exact (onlyEvents_placeRecord _ _).trans (onlyEvents_placeRecord _ _)

theorem onlyEvents_notifyCores (s : State) (src : Nat) : OnlyEvents s (notifyCores s src) := by
  unfold notifyCores; dsimp only; split <;> split <;> rfl

/-- Raising an event touches nothing but what events touch. -/
theorem onlyEvents_deliverNewest (s : State) (c : Concern) : OnlyEvents s (deliverNewest s c) := by
  unfold deliverNewest; split
  · split
    · exact onlyEvents_deliver ..
    · exact .refl s
  · exact .refl s

theorem onlyEvents_raiseFull (s : State) (src : Nat) (sev : Fin 4) (k : EventKind) (mid : Nat) (d : List Nat) (c : Concern) :
    OnlyEvents s (raiseFull s src sev k mid d c) := by
  unfold raiseFull
  split
  · exact .refl s
  · dsimp only
    generalize (if (sget (0, 0, 0) s.evr.rates src).1 = s.devTime / 1000000 then (sget (0, 0, 0) s.evr.rates src).2.1 else 0) = n
    split
    · rfl
    · have recorded (e : Evr) (m : Nat) (r : Record) :
          OnlyEvents s (notifyCores (Sys2Proof.Machine.incFi (writeRecord { s with evr := e, mgc.eventsRaised := m } r)
            Reg.EVR_SRC_CNT.raised src) src) :=
        (((onlyEvents_count s e m).trans (onlyEvents_writeRecord _ r)).incFi Reg.EVR_SRC_CNT.raised src).trans (onlyEvents_notifyCores _ src)
      exact (recorded _ _ _).trans (onlyEvents_deliverNewest _ _)

theorem onlyEvents_raise (s : State) (src : Nat) (k : EventKind) (mid : Nat) (d : List Nat) (p : Option Nat) :
    OnlyEvents s (raise s src k mid d p) := onlyEvents_raiseFull ..

theorem onlyEvents_adviseReplace (s : State) (bit : Nat) : OnlyEvents s (adviseReplace s bit) := by
  unfold adviseReplace; dsimp only; split
  · exact .refl s
  · exact (((OnlyEvents.refl s).setF _ _).setFlag _).trans (onlyEvents_raiseFull ..)

/-! ### The fields an event leaves -/

variable {s t : State}

theorem OnlyEvents.bpm (h : OnlyEvents s t) : t.bpm = s.bpm := by rw [h]
theorem OnlyEvents.pending (h : OnlyEvents s t) : t.pending = s.pending := by rw [h]
theorem OnlyEvents.devTime (h : OnlyEvents s t) : t.devTime = s.devTime := by rw [h]
theorem OnlyEvents.phs (h : OnlyEvents s t) : t.phs = s.phs := by rw [h]
theorem OnlyEvents.plots (h : OnlyEvents s t) : t.plots = s.plots := by rw [h]
theorem OnlyEvents.pou (h : OnlyEvents s t) : t.pou = s.pou := by rw [h]
theorem OnlyEvents.cre (h : OnlyEvents s t) : t.cre = s.cre := by rw [h]
theorem OnlyEvents.fcd (h : OnlyEvents s t) : t.fcd = s.fcd := by rw [h]
theorem OnlyEvents.lmc (h : OnlyEvents s t) : t.lmc = s.lmc := by rw [h]
theorem OnlyEvents.diu (h : OnlyEvents s t) : t.diu = s.diu := by rw [h]
theorem OnlyEvents.bfc (h : OnlyEvents s t) : t.bfc = s.bfc := by rw [h]
theorem OnlyEvents.tmg (h : OnlyEvents s t) : t.tmg = s.tmg := by rw [h]
theorem OnlyEvents.twin (h : OnlyEvents s t) : t.twin = s.twin := by rw [h]
theorem OnlyEvents.chain (h : OnlyEvents s t) : t.chain = s.chain := by rw [h]
theorem OnlyEvents.cku (h : OnlyEvents s t) : t.cku = s.cku := by rw [h]
theorem OnlyEvents.glb (h : OnlyEvents s t) : t.glb = s.glb := by rw [h]

@[simp] theorem raise_bpm (s : State) (src : Nat) (k : EventKind) (mid : Nat) (d : List Nat) (p : Option Nat) :
    (raise s src k mid d p).bpm = s.bpm := (onlyEvents_raise ..).bpm
@[simp] theorem raise_pending (s : State) (src : Nat) (k : EventKind) (mid : Nat) (d : List Nat) (p : Option Nat) :
    (raise s src k mid d p).pending = s.pending := (onlyEvents_raise ..).pending
@[simp] theorem raise_devTime (s : State) (src : Nat) (k : EventKind) (mid : Nat) (d : List Nat) (p : Option Nat) :
    (raise s src k mid d p).devTime = s.devTime := (onlyEvents_raise ..).devTime

end Sys2Proof.Machine
end

