-- ==== Sys2Proof/Laws/Registers.lean ====
section
/-! SUPPORT. Reads of registers and fields after writes of them. -/

namespace Sys2Proof.Machine

/-! ### Fields of a word -/

/-- A word with a field replaced, as a number. -/
theorem withField_toNat {w : Word} {lo width v : Nat} (h : lo + width ≤ 32) :
    (withField w lo width v).toNat = w.toNat - fieldOf w lo width * 2 ^ lo + v % 2 ^ width * 2 ^ lo := by
  have hle : fieldOf w lo width * 2 ^ lo ≤ w.toNat := by
    unfold fieldOf
    exact Nat.le_trans (Nat.mul_le_mul_right _ (Nat.mod_le _ _)) (Nat.div_mul_le_self _ _)
  have hw : w.toNat < 2 ^ 32 := w.isLt
  have split32 : (2 : Nat) ^ 32 = 2 ^ lo * 2 ^ width * 2 ^ (32 - lo - width) := by
    rw [← Nat.pow_add, ← Nat.pow_add]; congr 1; omega
  have key : w.toNat - fieldOf w lo width * 2 ^ lo + v % 2 ^ width * 2 ^ lo < 2 ^ 32 := by
    have hP : 0 < 2 ^ lo := Nat.two_pow_pos _
    have hW : 0 < 2 ^ width := Nat.two_pow_pos _
    generalize hp : 2 ^ lo = p at *
    generalize hq : 2 ^ width = q at *
    generalize hr : 2 ^ (32 - lo - width) = r at *
    have e1 : w.toNat = w.toNat % p + p * (w.toNat / p % q + q * (w.toNat / p / q)) := by
      rw [Nat.mod_add_div (w.toNat / p) q, Nat.mod_add_div]
    have hdiv : w.toNat / p / q < r := by
      rw [Nat.div_div_eq_div_mul]
      exact Nat.div_lt_of_lt_mul (by omega)
    have hm : w.toNat % p < p := Nat.mod_lt _ hP
    have hv : v % q < q := Nat.mod_lt _ hW
    have hf : fieldOf w lo width = w.toNat / p % q := by unfold fieldOf; rw [hp, hq]
    rw [hf]
    have e2 : w.toNat - w.toNat / p % q * p = w.toNat % p + p * q * (w.toNat / p / q) := by
      rw [Nat.mul_comm (w.toNat / p % q) p]
      have : p * (w.toNat / p % q + q * (w.toNat / p / q)) = p * (w.toNat / p % q) + p * q * (w.toNat / p / q) := by
        rw [Nat.mul_add, Nat.mul_assoc]
      omega
    rw [e2, split32]
    have b1 : p * q * (w.toNat / p / q) + p * q ≤ p * q * r := by
      rw [← Nat.mul_succ]; exact Nat.mul_le_mul_left _ hdiv
    have b2 : w.toNat % p + v % q * p < p * q := by
      have : v % q * p + p ≤ p * q := by
        rw [← Nat.succ_mul, Nat.mul_comm p q]; exact Nat.mul_le_mul_right _ hv
      omega
    omega
  unfold withField
  rw [BitVec.toNat_ofNat]
  exact Nat.mod_eq_of_lt key

/-- A field just written reads as the value written, modulo its width. -/
theorem fieldOf_withField_same {w : Word} {lo width v : Nat} (h : lo + width ≤ 32) :
    fieldOf (withField w lo width v) lo width = v % 2 ^ width := by
  have hP : 0 < 2 ^ lo := Nat.two_pow_pos _
  have hn := withField_toNat (w := w) (v := v) h
  unfold fieldOf at *
  rw [hn]
  generalize 2 ^ lo = p at *
  generalize 2 ^ width = q at *
  have e1 : w.toNat = w.toNat % p + p * (w.toNat / p % q) + p * (q * (w.toNat / p / q)) := by
    conv => lhs; rw [← Nat.mod_add_div w.toNat p, ← Nat.mod_add_div (w.toNat / p) q]
    rw [Nat.mul_add]; omega
  have e2 : w.toNat - w.toNat / p % q * p + v % q * p = w.toNat % p + p * (v % q + q * (w.toNat / p / q)) := by
    rw [Nat.mul_comm (w.toNat / p % q) p, Nat.mul_comm (v % q) p, Nat.mul_add]; omega
  rw [e2, Nat.add_mul_div_left _ _ hP, Nat.div_eq_of_lt (Nat.mod_lt _ hP), Nat.zero_add, Nat.add_mul_mod_self_left, Nat.mod_mod]

/-! ### The register table -/

/-- The key of a register names its address and index. -/
theorem regKey_div {addr idx : Nat} (h : idx < 1048576) : regKey addr idx / 1048576 = addr := by unfold regKey; omega

/-- The index part of a key. -/
theorem regKey_mod {addr idx : Nat} (h : idx < 1048576) : regKey addr idx % 1048576 = idx := by unfold regKey; omega

/-- Two registers have two keys. -/
theorem regKey_inj {a i b j : Nat} (hi : i < 1048576) (hj : j < 1048576) (h : regKey a i = regKey b j) : a = b ∧ i = j :=
  ⟨by have := congrArg (· / 1048576) h; simpa only [regKey_div hi, regKey_div hj] using this,
   by have := congrArg (· % 1048576) h; simpa only [regKey_mod hi, regKey_mod hj] using this⟩

/-- A table whose keys all lie above a key does not list it. -/
theorem slook_none_of_above {t : Sparse Word} {k : Nat} (h : ∀ e ∈ t, k < e.1) : slook t k = none := by
  induction t with
  | nil => rfl
  | cons e t ih =>
    obtain ⟨a, v⟩ := e
    have ha : k < a := h _ (List.mem_cons_self ..)
    have hne : ¬ a = k := by omega
    simp [slook, hne, ih fun e he => h e (List.mem_cons_of_mem _ he)]

/-- What a table lists at a key just written. -/
theorem slook_sput_same {t : Sparse Word} {k : Nat} {d v : Word} (h : t.Pairwise fun a b => a.1 < b.1) :
    slook (sput d t k v) k = if v = d then none else some v := by
  induction t with
  | nil => unfold sput; split <;> simp [slook]
  | cons e t ih =>
    obtain ⟨a, w⟩ := e
    obtain ⟨ha, ht⟩ := List.pairwise_cons.1 h
    unfold sput; split
    · rename_i hka
      have above : slook ((a, w) :: t) k = none := slook_none_of_above fun e he => by
        rcases List.mem_cons.1 he with rfl | he
        · exact hka
        · exact Nat.lt_trans hka (ha e he)
      split
      · exact above
      · simp [slook]
    · split
      · rename_i hka
        split
        · rw [hka]; exact slook_none_of_above ha
        · simp [slook, hka]
      · rename_i hka
        have hne : ¬ a = k := fun h => hka h.symm
        simp [slook, hne, ih ht]

/-- What a table lists at every other key stays. -/
theorem slook_sput_ne {t : Sparse Word} {k j : Nat} {d v : Word} (hj : j ≠ k) : slook (sput d t k v) j = slook t j := by
  induction t with
  | nil =>
    unfold sput; split
    · rfl
    · simp [slook, Ne.symm hj]
  | cons e t ih =>
    obtain ⟨a, w⟩ := e
    unfold sput; split
    · split
      · rfl
      · simp [slook, Ne.symm hj]
    · split
      · rename_i hka
        have hne : ¬ a = j := by omega
        split
        · simp [slook, hne]
        · simp [slook, hne]
      · by_cases haj : a = j
        · simp [slook, haj]
        · simp [slook, haj, ih]

/-- A register just written reads as the value written. -/
theorem regAt_setRegAt_same {s : State} {addr idx : Nat} {v : Word} (h : regsWf s.regs) : regAt (setRegAt s addr idx v) addr idx = v := by
  have l := slook_sput_same (k := regKey addr idx) (d := resetAt addr idx) (v := v) h.1
  unfold regAt setRegAt
  rw [l]
  split
  · rename_i hv
    split at hv
    · cases hv
    · exact (Option.some.inj hv).symm
  · rename_i hv
    split at hv
    · rename_i hd; exact hd.symm
    · cases hv

/-- Every other register stays. -/
theorem regAt_setRegAt_ne {s : State} {addr idx a i : Nat} {v : Word} (hn : regKey a i ≠ regKey addr idx) :
    regAt (setRegAt s addr idx v) a i = regAt s a i := by
  unfold regAt setRegAt
  rw [slook_sput_ne hn]

/-- Keys of a table after a write. -/
theorem mem_sput {t : Sparse Word} {k : Nat} {d v : Word} {e : Nat × Word} (he : e ∈ sput d t k v) :
    (e = (k, v) ∧ v ≠ d) ∨ e ∈ t := by
  induction t with
  | nil =>
    unfold sput at he
    split at he
    · simp at he
    · rename_i hv; exact .inl ⟨by simpa using he, hv⟩
  | cons x t ih =>
    obtain ⟨a, w⟩ := x
    unfold sput at he
    split at he
    · split at he
      · exact .inr he
      · rename_i hv
        rcases List.mem_cons.1 he with h | h
        · exact .inl ⟨h, hv⟩
        · exact .inr h
    · split at he
      · rename_i hka
        split at he
        · exact .inr (List.mem_cons_of_mem _ he)
        · rename_i hv
          rcases List.mem_cons.1 he with h | h
          · exact .inl ⟨by rw [h, hka], hv⟩
          · exact .inr (List.mem_cons_of_mem _ h)
      · rcases List.mem_cons.1 he with h | h
        · exact .inr (h ▸ List.mem_cons_self ..)
        · rcases ih h with h | h
          · exact .inl h
          · exact .inr (List.mem_cons_of_mem _ h)

/-- Keys stay strictly rising. -/
theorem sput_rising {t : Sparse Word} {k : Nat} {d v : Word} (h : t.Pairwise fun a b => a.1 < b.1) :
    (sput d t k v).Pairwise fun a b => a.1 < b.1 := by
  induction t with
  | nil => unfold sput; split <;> simp
  | cons x t ih =>
    obtain ⟨a, w⟩ := x
    obtain ⟨ha, ht⟩ := List.pairwise_cons.1 h
    unfold sput; split
    · rename_i hka
      split
      · exact h
      · refine List.pairwise_cons.2 ⟨fun e he => ?_, h⟩
        rcases List.mem_cons.1 he with rfl | he
        · exact hka
        · exact Nat.lt_trans hka (ha e he)
    · split
      · split
        · exact ht
        · exact List.pairwise_cons.2 ⟨ha, ht⟩
      · rename_i h1 h2
        refine List.pairwise_cons.2 ⟨fun e he => ?_, ih ht⟩
        rcases mem_sput he with ⟨rfl, -⟩ | he
        · show a < k; omega
        · exact ha e he

/-- A register write keeps the table's form. -/
theorem setRegAt_wf {s : State} {addr idx : Nat} {v : Word} (hi : idx < 1048576) (h : regsWf s.regs) : regsWf (setRegAt s addr idx v).regs := by
  refine ⟨sput_rising h.1, fun e he => ?_⟩
  rcases mem_sput he with ⟨rfl, hv⟩ | he
  · show v ≠ resetAt (regKey addr idx / 1048576) (regKey addr idx % 1048576)
    rw [regKey_div hi, regKey_mod hi]; exact hv
  · exact h.2 e he

/-- A field just written reads as the value written, modulo its width. -/
theorem getFi_setFi_same {s : State} {f : Field} {i v : Nat} (h : regsWf s.regs) (hw : f.lo + f.width ≤ 32) :
    getFi (setFi s f i v) f i = v % 2 ^ f.width := by
  unfold getFi setFi
  rw [regAt_setRegAt_same h, fieldOf_withField_same hw]

/-- A field of another register stays. -/
theorem getFi_setFi_ne {s : State} {f g : Field} {i j v : Nat} (hn : regKey g.addr j ≠ regKey f.addr i) :
    getFi (setFi s f i v) g j = getFi s g j := by
  unfold getFi setFi
  rw [regAt_setRegAt_ne hn]

end Sys2Proof.Machine
end

