-- ==== Sys2Proof/Laws/Sparse.lean ====
section
/-! SUPPORT. What the operations over sparse tables do: reads after writes, and the canonical form they keep. -/

namespace Sys2Proof.Machine

variable {α : Type} [DecidableEq α] {d : α}

/-- A bound below every key of a table. -/
def sparseAbove (n : Nat) (t : Sparse α) : Prop := ∀ e ∈ t, n < e.1

/-- The canonical form, entry by entry: no default value, and every later key above. -/
theorem sparseWf_cons {a : Nat} {v : α} {t : Sparse α} :
    sparseWf d ((a, v) :: t) = true ↔ v ≠ d ∧ sparseAbove a t ∧ sparseWf d t = true := by
  induction t generalizing a v with
  | nil => simp [sparseWf, sparseAbove]
  | cons e t ih =>
    obtain ⟨b, w⟩ := e
    have unfolds : sparseWf d ((a, v) :: (b, w) :: t) = (decide (v ≠ d) && decide (a < b) && sparseWf d ((b, w) :: t)) := rfl
    rw [unfolds]
    simp only [Bool.and_eq_true, decide_eq_true_eq]
    constructor
    · rintro ⟨⟨hv, hab⟩, hw⟩
      refine ⟨hv, fun e he => ?_, hw⟩
      rcases List.mem_cons.1 he with rfl | he
      · exact hab
      · exact Nat.lt_trans hab ((ih.1 hw).2.1 e he)
    · rintro ⟨hv, hab, hw⟩
      exact ⟨⟨hv, hab _ (List.mem_cons_self ..)⟩, hw⟩

omit [DecidableEq α] in
/-- A key below every key of a table reads the default. -/
theorem sget_of_above {k n : Nat} {t : Sparse α} (h : sparseAbove n t) (hk : k ≤ n) : sget d t k = d := by
  induction t with
  | nil => rfl
  | cons e t ih =>
    obtain ⟨a, v⟩ := e
    have ha : n < a := h _ (List.mem_cons_self ..)
    have hne : ¬ a = k := by omega
    simp [sget, hne, ih fun e he => h e (List.mem_cons_of_mem _ he)]

/-- A write keeps a bound below both the table and the key. -/
theorem sput_above {k n : Nat} {v : α} {t : Sparse α} (h : sparseAbove n t) (hk : n < k) : sparseAbove n (sput d t k v) := by
  induction t with
  | nil =>
    unfold sput; split
    · exact h
    · intro e he; obtain rfl := List.mem_singleton.1 he; exact hk
  | cons e t ih =>
    obtain ⟨a, w⟩ := e
    have ht : sparseAbove n t := fun e he => h e (List.mem_cons_of_mem _ he)
    have ha : n < a := h _ (List.mem_cons_self ..)
    unfold sput; split
    · split
      · exact h
      · intro e he
        rcases List.mem_cons.1 he with rfl | he
        · exact hk
        · exact h e he
    · split
      · split
        · exact ht
        · intro e he
          rcases List.mem_cons.1 he with rfl | he
          · exact ha
          · exact ht e he
      · intro e he
        rcases List.mem_cons.1 he with rfl | he
        · exact ha
        · exact ih ht e he

/-- A write keeps the canonical form. -/
theorem sput_wf {k : Nat} {v : α} {t : Sparse α} (h : sparseWf d t = true) : sparseWf d (sput d t k v) = true := by
  induction t with
  | nil => unfold sput; split <;> simp_all [sparseWf]
  | cons e t ih =>
    obtain ⟨a, w⟩ := e
    obtain ⟨hw, ha, ht⟩ := sparseWf_cons.1 h
    unfold sput; split
    · rename_i hka
      split
      · exact h
      · rename_i hv
        refine sparseWf_cons.2 ⟨hv, fun e he => ?_, h⟩
        rcases List.mem_cons.1 he with rfl | he
        · exact hka
        · exact Nat.lt_trans hka (ha e he)
    · split
      · split
        · exact ht
        · rename_i hv; exact sparseWf_cons.2 ⟨hv, ha, ht⟩
      · rename_i h1 h2
        exact sparseWf_cons.2 ⟨hw, sput_above ha (by omega), ih ht⟩

/-- A write, then a read of the same key. -/
theorem sget_sput_same {k : Nat} {v : α} {t : Sparse α} (h : sparseWf d t = true) : sget d (sput d t k v) k = v := by
  induction t with
  | nil =>
    unfold sput; split
    · rename_i hv; simp [sget, hv]
    · simp [sget]
  | cons e t ih =>
    obtain ⟨a, w⟩ := e
    obtain ⟨-, ha, ht⟩ := sparseWf_cons.1 h
    unfold sput; split
    · rename_i hka
      split
      · rename_i hv
        rw [hv]
        exact sget_of_above (n := k) (fun e he => by
          rcases List.mem_cons.1 he with rfl | he
          · exact hka
          · exact Nat.lt_trans hka (ha e he)) (Nat.le_refl _)
      · simp [sget]
    · split
      · rename_i hka
        split
        · rename_i hv; rw [hv]; exact sget_of_above ha (by omega)
        · simp [sget, hka]
      · rename_i hka
        have hne : ¬ a = k := fun h => hka h.symm
        simp [sget, hne, ih ht]

/-- A write leaves every other key. -/
theorem sget_sput_ne {k j : Nat} {v : α} {t : Sparse α} (h : sparseWf d t = true) (hj : j ≠ k) :
    sget d (sput d t k v) j = sget d t j := by
  induction t with
  | nil =>
    unfold sput; split
    · rfl
    · simp [sget, Ne.symm hj]
  | cons e t ih =>
    obtain ⟨a, w⟩ := e
    obtain ⟨-, ha, ht⟩ := sparseWf_cons.1 h
    unfold sput; split
    · split
      · rfl
      · simp [sget, Ne.symm hj]
    · split
      · rename_i hka
        have hne : ¬ a = j := by omega
        split
        · simp [sget, hne]
        · simp [sget, hne]
      · by_cases haj : a = j
        · simp [sget, haj]
        · simp [sget, haj, ih ht]

/-- An update keeps the canonical form. -/
theorem supd_wf {k : Nat} {f : α → α} {t : Sparse α} (h : sparseWf d t = true) : sparseWf d (supd d t k f) = true := sput_wf h

/-- An update, then a read of the same key. -/
theorem sget_supd_same {k : Nat} {f : α → α} {t : Sparse α} (h : sparseWf d t = true) :
    sget d (supd d t k f) k = f (sget d t k) := sget_sput_same h

/-- An update leaves every other key. -/
theorem sget_supd_ne {k j : Nat} {f : α → α} {t : Sparse α} (h : sparseWf d t = true) (hj : j ≠ k) :
    sget d (supd d t k f) j = sget d t j := sget_sput_ne h hj

end Sys2Proof.Machine
end

