-- ==== Sys2Proof/Machine/Layouts.lean ====
section
/-! DEFINITION. Records bit by bit as the die, Bedrock and the code store hold them: tag and directory entries (R188, R207), poison-list
entries (R426), buffer records (R462), grain codewords (R265), chain prefixes (R390), closing grains (R494) and the crash area's header
(R544). State holds their fields. -/

namespace Sys2Proof.Machine

/-- Even parity over the bits of a number from `lo` up to and with `hi`: 1 when it makes their count even. -/
def evenParity (v lo hi : Nat) : Nat := setBits (v / 2 ^ lo) (hi + 1 - lo) % 2

/-! ### The front cache and the directory (R188, R207) -/

/-- Bits 45 to 0 of a way's tag entry. -/
def tagBits (w : FcWay) : Nat := packFields [(0, 42, w.line), (42, 2, w.state.val), (44, 1, w.poison.toNat), (45, 1, w.hard.toNat)]

/-- A tag entry with its parity. -/
def tagEntry (w : FcWay) : BitVec 48 := BitVec.ofNat 48 (tagBits w + evenParity (tagBits w) 0 45 * 2 ^ 46)

/-- The holders field: four pointers with their valid bits, or the group vector. -/
def holdersField (e : DirEntry) : Nat :=
  if e.coarse then e.vector.toNat else packFields ((List.range 4).map fun i => (13 * i, 13, (e.ptrs[i]?.map (4096 + ·)).getD 0))

/-- Bits 108 to 0 of a directory entry. -/
def dirBits (e : DirEntry) : Nat := packFields [(0, 42, e.line), (42, 2, e.state.val), (44, 1, e.coarse.toNat), (45, 64, holdersField e)]

/-- A directory entry with its two parities. -/
def dirWord (e : DirEntry) : BitVec 112 :=
  BitVec.ofNat 112 (dirBits e + evenParity (dirBits e) 0 54 * 2 ^ 109 + evenParity (dirBits e) 55 108 * 2 ^ 110)

/-! ### Poison and buffers (R426, R462) -/

/-- The poison list's entry of a line. -/
def poisonWord (line : Nat) (p : PoisonEntry) : BitVec 64 :=
  BitVec.ofNat 64 (packFields [(0, 42, line), (42, 16, p.generation), (58, 3, p.source.val), (61, 1, p.base.toNat), (63, 1, 1)])

/-- Bytes 0 to 3 of a buffer's record. -/
def bufferState (b : BufRec) : Nat :=
  packFields [(0, 2, b.held.toNat), (2, 1, b.untrusted.toNat), (3, 1, b.quarantined.toNat), (4, 4, b.owners.length), (8, 7, b.tag)]

/-- An owner slot of a buffer's record. -/
def ownerWord (o : Owner) : Nat := packFields [(0, 12, o.mid.val), (12, 4, o.block.val)]

/-- A buffer's poison bits from line 0 on. -/
def poisonBits (b : BufRec) (lines : Nat) : Nat := (List.range lines).foldl (fun n i => n + (sget false b.poison i).toNat * 2 ^ i) 0

/-- A buffer's record: silt (0) and sand (1) in 32 bytes, gravel (2) in 160. -/
def bufferBytes (pool : Nat) (b : BufRec) : List (BitVec 8) :=
  lowBytes 4 (bufferState b) ++ ((List.range 8).flatMap fun i => lowBytes 2 ((b.owners[i]?.map ownerWord).getD 0)) ++
    lowBytes 8 (if pool = 0 then poisonBits b 4 else if pool = 1 then poisonBits b 64 else 0) ++ lowBytes 4 0 ++
    if pool = 2 then lowBytes 128 (poisonBits b 1024) else []

/-! ### Grains in Bedrock (R265, R494) -/

/-- A grain's codeword in its plane page: header, contents, tag (0 for parity grains) and 440 bytes of LDPC parity. -/
def grainCodeword (header : BitVec 128) (contents tag parity : List (BitVec 8)) : List (BitVec 8) := lowBytes 16 header.toNat ++ contents ++ tag ++ parity

/-- The 4,096 bytes of a closing grain. With no clod wholly sealed its field reads all ones (log entry 44). -/
def closingBytes (c : ClosingGrain) : List (BitVec 8) :=
  lowBytes 8 c.image ++ lowBytes 8 c.startTime ++ lowBytes 8 c.closeTime ++ lowBytes 1 c.cause ++ lowBytes 1 c.complete.toNat ++ lowBytes 1 c.bed ++
    lowBytes 1 (packFields [(0, 1, c.side.toNat), (1, 3, c.mode)]) ++ lowBytes 4 c.epoch.toNat ++ lowBytes 4 (c.lastClod.getD 0xFFFFFFFF) ++
    lowBytes 8 c.dataGrains ++ lowBytes 8 c.sectionGrains ++ lowBytes 4 c.walk ++ lowBytes 8 c.mediaTime ++ List.replicate 4032 0

/-! ### Chain frames (R390) -/

/-- The 16-byte prefix of a chain frame's payload. -/
def prefixBytes (p : ChainPrefix) : List (BitVec 8) :=
  lowBytes 2 p.srcNode.val ++ lowBytes 1 p.cls.val ++ lowBytes 1 p.poison.toNat ++ lowBytes 4 p.srcEpoch.toNat ++ lowBytes 4 p.tag.toNat ++
    lowBytes 4 p.lowTag.toNat

/-- What follows the prefix for the bodies whose bytes R390 gives. -/
def chainPayload : ChainBody → Option (List (BitVec 8))
  | .read dpa _ => some (lowBytes 8 dpa.toNat)
  | .write dpa be data _ => some (lowBytes 8 dpa.toNat ++ lowBytes 8 be.toNat ++ lineBytes data)
  | .data l => some (lineBytes l)
  | .cmpl => some []
  | .refuse => some []
  | .abort => some []
  | .unreach => some []
  | .stale node epoch => some (lowBytes 4 node.val ++ lowBytes 4 epoch.toNat)
  | .snoopReq _ _ _ => none
  | .snoopRsp _ => none
  | .hello _ _ => none

/-! ### The crash area (R544) -/

/-- The sixteen words at the start of a crash area. -/
def crashHeader (c : CrashArea) : List Word :=
  [0x48535243, c.boot, BitVec.ofNat 32 c.start, BitVec.ofNat 32 (c.start / 2 ^ 32), BitVec.ofNat 32 (c.cause % 32), BitVec.ofNat 32 c.firstSeq] ++
    List.replicate 9 0xFFFFFFFF ++ [if c.ended then BitVec.ofNat 32 c.records.length else 0xFFFFFFFF]

end Sys2Proof.Machine
end

