-- ==== Sys2Proof/Machine/Package.lean ====
section
/-! DEFINITION. The package (20): what every ball carries (R11, R596 to R601), and the level each output of the always-on domain drives
(R602, R603). -/

namespace Sys2Proof.Machine

/-! ### Balls (R11, R596) -/

/-- The letters of ball rows, in order. -/
def rowLetters : List Char := ['A', 'B', 'C', 'D', 'E', 'F', 'G', 'H', 'J', 'K', 'L', 'M', 'N', 'P', 'T', 'U', 'V', 'W', 'Y']

/-- The name of row 1 to 89. -/
def rowName (r : Nat) : List Char :=
  let c (n : Nat) : List Char := [rowLetters.getD n 'A']
  if r ≤ 19 then c (r - 1) else c ((r - 20) / 19) ++ c ((r - 20) % 19)

/-- The supply rails. -/
inductive Rail where
  | aon | core | sram | sda | sdh | lmq | bdq | io | vpp
  deriving DecidableEq, Repr

/-- Whose SerDes lanes. -/
inductive LaneGroup where
  | host | twin | chain
  deriving DecidableEq, Repr

/-- Signals of a Loam subchannel. -/
inductive LoamSignal where
  | dq (n : Nat) | dqsT (n : Nat) | dqsC (n : Nat) | dca (n : Nat) | dpar | dckT | dckC | dcsN (n : Nat) | alertN | zq
  deriving DecidableEq, Repr

/-- Signals of a Bedrock channel. -/
inductive BedSignal where
  | dq (n : Nat) | dqsT | dqsC | reT | reC | weN | cle | ale | ceN (n : Nat) | rbN
  deriving DecidableEq, Repr

/-- Signals of the core region; numbered ones by their index, rails in up order, resets HRT, TRT, CRT, AUX. -/
inductive CoreSignal where
  | perstN (port : Nat) | en (rail : Nat) | pg (rail : Nat) | fenceOut | fenceIn | aliveOut | aliveIn | replaceN | pwrReq | holdupTest
  | rstN (n : Nat) | sense (channel : Nat) | i3cScl | i3cSda | smbClk | smbDat | tck | tms | tdi | tdo | trstN | testMode | tdiodeP | tdiodeN
  deriving DecidableEq, Repr

/-- What a ball carries. -/
inductive Ball where
  | lane (group : LaneGroup) (port lane : Nat) (tx positive : Bool)
  | refclk (b positive : Bool)
  | loam (channel : Nat) (subB : Bool) (signal : LoamSignal)
  | dimmRstN (k : Nat)
  | dimmBus (k : Nat) (data : Bool)
  | bedrock (channel : Nat) (signal : BedSignal)
  | bedZq (bed : Nat)
  | bedWpN (bed : Nat)
  | core (signal : CoreSignal)
  | rail (r : Rail)
  | vss
  | reserved
  deriving DecidableEq, Repr

/-! ### The SerDes regions (R597) -/

/-- The ball at a host row (1 to 9) and column; `far` is the twin and chain region, whose rows run from the other edge. -/
def serdesBall (far : Bool) (r c : Nat) : Ball :=
  let p := (c - 3) / 5
  let inLane := decide (3 ≤ c) && decide (c ≤ 82) && decide ((c - 3) % 5 ≤ 3)
  let group : LaneGroup := if !far then .host else if p < 8 then .twin else .chain
  let lane (tx positive : Bool) : Ball := .lane group (if far then p % 8 else p) ((c - 3) % 5) tx positive
  if inLane then
    match r with
    | 2 => lane true true
    | 3 => lane true false
    | 4 => .rail .sdh
    | 5 => .rail .sda
    | 6 => lane false false
    | 7 => lane false true
    | 8 => .rail .sda
    | _ => .vss
  else if c = 42 ∧ r = 4 then .refclk far true
  else if c = 42 ∧ r = 5 then .refclk far false
  else .vss

/-! ### Loam (R598) -/

/-- The ball in a channel's band: subchannel, band row and band column. -/
def loamBall (ch : Nat) (subB : Bool) (r k : Nat) : Ball :=
  let sig (x : LoamSignal) : Ball := .loam ch subB x
  if r ≤ 4 then (if k ≤ 10 then sig (.dq (10 * (r - 1) + k - 1)) else .vss)
  else match r with
    | 5 => if k ≤ 10 then sig (.dqsT (k - 1)) else .rail .lmq
    | 6 => if k ≤ 10 then sig (.dqsC (k - 1)) else .rail .lmq
    | 7 =>
      if k ≤ 7 then sig (.dca (k - 1))
      else match k with
        | 8 => sig .dpar
        | 9 => sig .dckT
        | 10 => sig .dckC
        | _ => .vss
    | 8 =>
      if k ≤ 4 then sig (.dcsN (k - 1))
      else if 8 ≤ k then .rail .lmq
      else match subB, k with
        | false, 5 => sig .alertN
        | false, 6 => sig .zq
        | false, _ => if ch % 4 = 0 then .dimmRstN (ch / 4) else .vss
        | true, 7 => .vss
        | true, k => if ch % 4 = 0 then .dimmBus (ch / 4) (k = 6) else .vss
    | _ => .vss

/-! ### Bedrock (R599) -/

/-- The signal in a channel's block of 4 rows by 5 columns, counted from 0. -/
def bedSignal (r c : Nat) : BedSignal :=
  match r, c with
  | 0, n => .dq n
  | 1, 3 => .dqsT
  | 1, 4 => .dqsC
  | 1, n => .dq (5 + n)
  | 2, 0 => .reT
  | 2, 1 => .reC
  | 2, 2 => .weN
  | 2, 3 => .cle
  | 2, _ => .ale
  | _, 4 => .rbN
  | _, n => .ceN n

/-- The signal ball at a row and column of a Bedrock region that starts at row `top`; none: it is a power ball. -/
def bedBall (top r c : Nat) : Option Ball :=
  let half := if top = 10 then 0 else 1
  let i := (r - top) / 4 * 9 + (c - 23) / 5
  let special := if half = 0 then 34 else 80
  if i < 48 ∧ r - top < 24 then some (.bedrock (48 * half + i) (bedSignal ((r - top) % 4) ((c - 23) % 5)))
  else if r = special ∧ c ≤ 24 then some (.bedZq (2 * half + (c - 23)))
  else if r = special ∧ c ≤ 26 then some (.bedWpN (2 * half + (c - 25)))
  else none

/-- Power balls of a Bedrock region before a row and column, in row-major order. -/
def bedPowerBefore (top r c : Nat) : Nat :=
  (List.range ((r - top) * 45 + (c - 23))).countP fun n => (bedBall top (top + n / 45) (23 + n % 45)).isNone

/-! ### The core region (R600) -/

/-- A run of balls in one row from a column on. -/
def inRun (c from_ n : Nat) : Option Nat := if from_ ≤ c ∧ c < from_ + n then some (c - from_) else none

/-- The ball at a row and column of the core region. -/
def coreBall (r c : Nat) : Ball :=
  let fill : Ball :=
    if (r + c) % 2 = 0 then .rail .core else if r ≤ 47 ∧ 41 ≤ c then .rail .sram else .vss
  let run (l : List (Nat × Nat × (Nat → Ball))) : Ball :=
    (l.findSome? fun x => (inRun c x.1 x.2.1).map x.2.2).getD fill
  match r with
  | 37 => run [(25, 16, fun n => .core (.perstN n))]
  | 38 => run [(25, 7, fun n => .core (.en n)), (33, 7, fun n => .core (.pg n))]
  | 39 => run [(25, 4, fun n => .core (([.fenceOut, .fenceIn, .aliveOut, .aliveIn] : List CoreSignal).getD n .fenceOut)),
      (30, 3, fun n => .core (([.replaceN, .pwrReq, .holdupTest] : List CoreSignal).getD n .replaceN)), (34, 4, fun n => .core (.rstN n))]
  | 41 => run [(25, 15, fun n => .core (.sense (9 + n)))]
  | 43 => run [(25, 2, fun n => .core (if n = 0 then .i3cScl else .i3cSda)), (28, 2, fun n => .core (if n = 0 then .smbClk else .smbDat)),
      (31, 5, fun n => .core (([.tck, .tms, .tdi, .tdo, .trstN] : List CoreSignal).getD n .tck)), (37, 1, fun _ => .core .testMode),
      (39, 2, fun n => .core (if n = 0 then .tdiodeP else .tdiodeN)), (41, 16, fun _ => .rail .io)]
  | 45 => run [(25, 1, fun _ => .rail .vpp), (27, 4, fun _ => .rail .aon)]
  | 47 => run [(25, 26, fun _ => .reserved)]
  | _ => fill

/-! ### Every ball -/

/-- The assignment of the ball at row 1 to 89 and column 1 to 89. -/
def ballAt (r c : Nat) : Ball :=
  if r ≤ 9 then serdesBall false r c
  else if 82 ≤ r then serdesBall true (90 - r) c
  else if c ≤ 22 then loamBall ((r - 10) / 9) (decide (12 ≤ c)) ((r - 10) % 9 + 1) (if c ≤ 11 then c else c - 11)
  else if 68 ≤ c then loamBall (8 + (r - 10) / 9) (decide (c ≤ 78)) ((r - 10) % 9 + 1) (if 79 ≤ c then 90 - c else 79 - c)
  else if 36 ≤ r ∧ r ≤ 55 then coreBall r c
  else
    let top := if r ≤ 35 then 10 else 56
    (bedBall top r c).getD (if bedPowerBefore top r c % 2 = 0 then .rail .bdq else .vss)

/-! ### The always-on domain's outputs (R347, R476, R482, R487, R552, R602, R603) -/

/-- An output of the always-on domain: an enable in up order, HOLDUP_TEST, a reset output of R482, the sideband lines, REPLACE_N. -/
inductive AonPin where
  | en (rail : Fin 7) | holdupTest | reset (output : Fin 12) | fenceOut | aliveOut | replaceN
  deriving DecidableEq, Repr

/-- What stands on a pin: a level, whether driven or pulled there by the board, or the 1 MHz square wave. -/
inductive PinLevel where
  | low | high | toggling
  deriving DecidableEq, Repr

/-- A driven level. -/
def logicLevel (b : Bool) : PinLevel := if b then .high else .low

/-- The level on a pin: while VDD_AON is absent or its reset asserted, every output is low, driven or by the board's pull-down, and REPLACE_N
is released and pulled high. -/
def pinLevel (s : State) (p : AonPin) : PinLevel :=
  match p with
  | .replaceN => logicLevel (!(s.phs.running && flag s Reg.EVR_HEALTH.replace_advised))
  | .en r => logicLevel (s.phs.running && s.phs.enables.getLsbD r.val)
  | .holdupTest => logicLevel (s.phs.running && s.phs.capTest.isSome)
  | .reset o => logicLevel (s.phs.running && !flagI s Reg.PHS_RST_CFG.asserted o.val)
  | .fenceOut => logicLevel (s.phs.running && fenceOut s)
  | .aliveOut => if !s.phs.running || s.twin.aliveOut = 0 then .low else if s.twin.aliveOut = 1 then .toggling else .high

/-! ### Limits (R605, R606, R618, R619, R621) -/

/-- A rail's operating range in mV; VPP_EFUSE is held low in service. -/
def railRange : Rail → Nat × Nat
  | .aon => (1746, 1854)
  | .core => (873, 927)
  | .sram => (922, 979)
  | .sda => (873, 927)
  | .sdh => (1164, 1236)
  | .lmq => (1067, 1133)
  | .bdq => (1164, 1236)
  | .io => (1746, 1854)
  | .vpp => (0, 200)

/-- A rail's absolute maximum in mV; each minimum is -300 mV. -/
def railMax : Rail → Nat
  | .aon => 1980
  | .core => 1000
  | .sram => 1050
  | .sda => 1000
  | .sdh => 1320
  | .lmq => 1260
  | .bdq => 1320
  | .io => 1980
  | .vpp => 1980

/-- A rail's typical and maximum current, and its maximum in a kiln flush, in mA. -/
def railCurrent : Rail → Nat × Nat × Nat
  | .aon => (200, 500, 500)
  | .core => (72000, 95000, 70000)
  | .sram => (22000, 30000, 20000)
  | .sda => (25000, 30000, 0)
  | .sdh => (10000, 12000, 0)
  | .lmq => (20000, 25000, 25000)
  | .bdq => (16000, 20000, 20000)
  | .io => (1000, 2000, 2000)
  | .vpp => (0, 0, 0)

/-- Junction temperature in m°C for an ambient in m°C, a power in mW and a lid-to-air resistance in m°C/W. -/
def junctionTemp (ambient power lidToAir : Nat) : Nat := ambient + power * (lidToAir + 60) / 1000

/-- Highest junction temperature of a variant in °C, extended or commercial (R4, R606). -/
def junctionLimit (extended : Bool) : Nat := if extended then 105 else 95

/-- The package: body, ball span and pitch in µm, and its lid's greatest load in N. -/
def packageBody : Nat × Nat × Nat × Nat := (75000, 70400, 800, 600)

end Sys2Proof.Machine
end

