-- ==== Sys2Proof/Tests/Slice0.lean ====
section
/-! SUPPORT. Tests: ill-formed terms that WellFormed refuses, small checks against figures that the spec gives, and, for the
statements, states and operands that meet their hypotheses. -/

namespace Sys2Proof.Tests

open Sys2Proof Sys2Proof.Machine

set_option maxRecDepth 40000
set_option Elab.async false
set_option exponentiation.threshold 600

/-! ### States -/

/-- The die is out of reset, firmware runs, and 4 GiB may be dirty. -/
def up : State :=
  setF { State.reset with phs.running := true, phs.dieReset := false, mgc.booted := true } Reg.TMG_BUDGET_EFF.eff_mib 4096

/-- Plot 1: the first granule. -/
def plotOne : Plot := { state := .active, size := 1, generation := 1 }

/-- Solo, with port 0 linked in CXL mode, LD 0 decoding the first granule, and plot 1 there, open to every master. -/
def mem : State :=
  let s := setF (setF (setF up Reg.HFP_PORT_STS.link_up 1) Reg.HFP_PORT_STS.mode 2) Reg.FLK_TWIN_STS.mode 4
  { setRegAt s 0x3000204 64 0x83000000 with
    hfp.lds := [(0, { memoryActive := true, decoders := [(0, { enabled := true, size := 268435456 })] })]
    plots.plots := [(1, plotOne)]
    plots.granules := [{ base := 0, size := 1, plot := 1 }] }

/-- Mirrored, with twin port 0 up, the link keyed, and plot 1 at home here. -/
def pair : State :=
  let s := setF (setF mem Reg.FLK_TWIN_STS.mode 1) Reg.FLK_TWIN_STS.ports_up 1
  { s with cku.secrets := [(0, [1, 2, 3, 4, 5, 6, 7, 8])] }

/-- A clod 0 in Loam frame 0. -/
def resident (s : State) : State := { s with plots.entries := [(0, { tier := 1, dirty := true })] }

/-- A frame of the twin whose checks are good. -/
def fr0 : FrameIn := ⟨0, true, true, .good, .good, 0, 0, 0, false⟩

/-- A write of LD 0 that waits for its order. -/
def waiting : WriteRec :=
  { id := 7, origin := .host 0 5, mid := 0, plot := 1, line := 1, data := 0, be := 0, poison := false, metaVal := .any, acceptedAt := 0 }

/-- The first policy core and lockstep master. -/
def mgr : Accessor := .mid 0x340

/-- A descriptor that names the whole first line of plot 1. -/
def desc (opcode : BitVec 8) (length : DWord) : Desc :=
  { opcode := opcode, fence := false, irqNow := false, cid := 9, plot := 1, generation := 1, offset := 0, hostAddr := 0, length := length
    params := List.replicate 8 0, reserved := false }

/-- A descriptor that names no plot. -/
def bare (opcode : BitVec 8) : Desc := { desc opcode 0 with plot := 0, generation := 0 }

/-- Ring 0 of LD 0, ACTIVE with one fetched operation. -/
def ringed (d : Desc) : State := { mem with cre.rings := [(0, { state := .active, ops := [{ num := 4, desc := d }] })] }

/-- That operation. -/
def theOp (d : Desc) : RingOp := { num := 4, desc := d }

/-- A ring of 16 entries each way. -/
def sized (s : State) : State := setFi (setFi s Reg.CRE_SQ_SIZE.log2_entries 0 4) Reg.CRE_CQ_SIZE.log2_entries 0 4

/-- A value of a field and nothing else. -/
def only (f : Field) (v : Nat) : Word := BitVec.ofNat 32 (v * 2 ^ f.lo)

/-! ### Ill-formed terms -/

theorem test_wf_access_as_own_ld : (Instr.registerWrite ⟨.mid 3, .bar0 4, 0, 4⟩ 0 0 0).wf = false := by decide +kernel
theorem test_wf_access_in_bar : (Instr.pairLoRead ⟨.mid 4, .bar0 4, 65536, 4⟩).wf = false := by decide +kernel
theorem test_wf_no_jtag_in_bar : (Instr.rcFieldRead ⟨.jtag, .bar2 4, 0, 4⟩ 0).wf = false := by decide +kernel
theorem test_wf_key_words : ∀ slot, (Instr.ideKeyProg 0 slot [1] [1, 2, 3]).wf = false := by decide +kernel
theorem test_wf_event_modes : (Instr.setEventInterruptPolicy 0 []).wf = false := by decide +kernel
theorem test_wf_supported_opcode : (Instr.mailboxUnsupported 0 0x4000).wf = false := by decide +kernel
theorem test_wf_descriptors : (Instr.sqReadReturn 0 0 (some [])).wf = false := by decide +kernel
theorem test_wf_loam_channels : (Instr.loamTrainingDone [] ⟨0, false, false, 0, 0, 0, 0, 0, false, 0, 0, 0, 0, false, 0⟩ true []).wf = false := by decide +kernel
theorem test_wf_bedrock_channels : (Instr.bedrockTrainingDone [] ⟨0, false, false, 0, 0, 0, 0, false, false, 0, 0, 0, none, none, 0, 0⟩ true []).wf = false := by decide +kernel
theorem test_wf_grain_bits : (Instr.retentionScan 0 0 0 []).wf = false := by decide +kernel
theorem test_wf_mirror_records : (Instr.mirror fr0 0 0 []).wf = false := by decide +kernel
theorem test_wf_digests : (Instr.digestMarker fr0 0 [0]).wf = false := by decide +kernel
theorem test_wf_reply_digests : (Instr.digestReply fr0 0 (.values [])).wf = false := by decide +kernel
theorem test_wf_half : (Instr.clodData fr0 0 0 1 (some [(0, { data := 0, poison := true })])).wf = false := by decide +kernel
theorem test_wf_half_order : (Instr.resyncClod fr0 0 0
    [(1, { data := 0, poison := true }), (1, { data := 0, poison := true })]).wf = false := by decide +kernel
theorem test_wf_chain_bodies : ∀ b ∈ [ChainBody.read 0 .any, .write 0 0 0 .any, .data 0, .cmpl, .refuse, .snoopReq 0 true [], .snoopRsp none,
      .abort, .unreach, .stale 0 0, .hello 0 0],
    let f : ChainFrame := { dst := 0, hops := 1, epoch := 0, pfx := ⟨0, 0, false, 0, 0, 0⟩, body := b }
    (([Instr.chRead 0 ⟨true, .good, .good⟩ f, .chWrite 0 ⟨true, .good, .good⟩ f, .chData 0 ⟨true, .good, .good⟩ f, .chCmpl 0 ⟨true, .good, .good⟩ f, .chRefuse 0 ⟨true, .good, .good⟩ f, .chSnoopReq 0 ⟨true, .good, .good⟩ f,
      .chSnoopRsp 0 ⟨true, .good, .good⟩ f, .chAbort 0 ⟨true, .good, .good⟩ f, .chUnreach 0 ⟨true, .good, .good⟩ f, .chStale 0 ⟨true, .good, .good⟩ f, .chHello 0 ⟨true, .good, .good⟩ f].filter (·.wf)).length = 1) := by decide +kernel
theorem test_wf_senses : (Instr.senseSample [1] 0).wf = false := by decide +kernel
theorem test_wf_program_words : (Instr.csProgram []).wf = false := by decide +kernel
theorem test_wf_owners : (Instr.bufferGet 0 []).wf = false := by decide +kernel
theorem test_wf_owner_block : (Instr.bufferPut 0 ⟨0, 0⟩ false).wf = false := by decide +kernel
theorem test_wf_share_owner : (Instr.bufferShare 0 ⟨1, 0⟩ ⟨8, 0⟩ false).wf = false := by decide +kernel
theorem test_wf_line_owner : (Instr.bufferLineAccess 0 ⟨0, 0⟩ 0 (.read false)).wf = false := by decide +kernel
theorem test_wf_event_source : (Instr.eventRaise 1536 .registerReject 0 0 []).wf = false := by decide +kernel

/-! ### Hypotheses met: the block and its registers -/

theorem witness_StepRunsFront : up.pending = [] ∧ up.phs.running = true ∧ State.reset.phs.running = false := by decide +kernel

/-- A read whose MAC epoch is open. -/
theorem witness_StepRunsFront_open :
    macWaits { up with pou.reads := [{ id := 1, origin := .host 0 1, mid := 0, plot := 1, line := 0, metaVal := .any, mac := 2 }] } = true ∧
    macWaits up = false ∧ up.twin.slew = 0 := by decide +kernel

theorem witness_QuietStaysStill : Quiet up := by
  constructor <;> first | rfl | (intro e h; cases h) | decide +kernel

theorem witness_DevTimeKept : ∃ t, exec .effectiveBudgetUpdate State.reset = .next t := ⟨_, rfl⟩

theorem witness_RegisterWriteTakesItsFields :
    regTarget up ⟨mgr, .mgmt, 0x8000154, 4⟩ = .mgmt 0x8000154 (some 0) ∧ isManager up mgr = true ∧
      (specialWrite up mgr 0x8000154 0).isNone = true := by decide +kernel

theorem witness_SetupWriteDenied : isManager up (.mid 0x300) = false ∧ isManager { up with mgc.debugClosed := true } .jtag = false := by decide +kernel

/-- What accesses reach: nothing of LD 1, which a link that is not MLD does not carry; no channel 96; a dword out of line; a doorbell
page, an LD's registers and a CXL range of LD 0. -/
theorem witness_RegisterAccess : regTarget up ⟨.mid 1, .bar0 1, 0, 4⟩ = .absent ∧
    regTarget (setFi up Reg.BFC_DIE_SEL.channel (accessorIdx mgr) 96) ⟨mgr, .mgmt, 0x700005C, 4⟩ = .mgmt 0x700005C none ∧
    regTarget up ⟨mgr, .mgmt, 2, 4⟩ = .rejected ∧ regTarget up ⟨.mid 0x300, .mgmt, 0, 4⟩ = .rejected ∧ isManager up (.mid 0x300) = false ∧
    regTarget up ⟨mgr, .mgmt, 8, 4⟩ = .mgmt 8 (some 0) ∧ regTarget up ⟨.mid 0, .bar2 0, 0xFF004, 4⟩ = .page 0 255 4 ∧
    regTarget mem ⟨.mid 0, .bar0 0, 0x1000, 4⟩ = .ldSpace 0 0x1000 ∧ regTarget mem ⟨.mid 0, .bar0 0, 0x3000, 8⟩ = .cxl 0 0x3000 := by decide +kernel

theorem witness_RegisterPairs : isManager up mgr = true ∧
    pairPlace up ⟨mgr, .mgmt, 8, 4⟩ = some (8, accessorIdx mgr) ∧ loHalf 8 = true ∧ pairPlace up ⟨mgr, .mgmt, 12, 4⟩ = some (8 + 4, accessorIdx mgr) ∧
    (sget none [(regKey 0x8 (accessorIdx mgr), some (7 : Word))] (regKey 0x8 (accessorIdx mgr))) = some 7 ∧
    up.pairLatch = [] ∧ regTarget up ⟨.mid 0, .bar0 0, 0x1010, 4⟩ = .ldSpace 0 0x1010 ∧ pairPlace up ⟨mgr, .mgmt, 0, 4⟩ = some (0, accessorIdx mgr) ∧
    loHalf 0 = false ∧ mediaWith up 0 0 = mediaTime up ∧
    mediaWith (setRegAt up 0x7000068 0 5) 4 0 < mediaTime (setRegAt up 0x7000068 0 5) := by decide +kernel

theorem witness_RcReadLosesNoCount : regTarget up ⟨mgr, .mgmt, Reg.FLK_STALE_CNT.rejected.addr, 4⟩ = .mgmt Reg.FLK_STALE_CNT.rejected.addr (some 0) ∧
    (regRow Reg.FLK_STALE_CNT.rejected.addr).isSome = true := by decide +kernel

theorem witness_PlotSnapshots : isManager mem mgr = true ∧ isManager mem (.mid 5) = false ∧ ldPresent mem 0 = true ∧ ldPresent mem 15 = false ∧
    visible mem 1 0 = true ∧ visible State.reset 1 0 = false := by decide +kernel

/-! ### Hypotheses met: host requests, persistence, the front cache -/

/-- Plot 1's second line, a chain window of LD 0 over the first granule, and the line that a snoop asks LD 0 for. -/
theorem witness_HostRequests_CxlMemAccepted : gate mem 0 64 false = .plot 1 1 false ∧ gate mem 0 64 true = .plot 1 1 false ∧
    answersSnoop { mem with fcd.snoops := [{ id := 3, target := 0, line := 1, inv := true, cause := .chain 2 9, sentAt := 0 }] } 0 1 .invalid = true ∧
    answersSnoop mem 0 1 .any = false ∧ creditLeft mem 0 = true ∧ arriving mem 0 = 0 ∧
    arriving (setF mem Reg.HFP_PORT_STS.ide_mem 1) 0 = 2 := by decide +kernel

theorem witness_HostRequests_CxlMemTurnedAway : gate mem 0 0x10000000 false = .denied 0xFFF 0 false ∧
    gate { mem with plots.plots := [(1, { plotOne with state := .admitting })] } 0 64 true = .denied 0xFFF 1 false ∧
    gate (setF mem Reg.HFP_PORT_STS.viral 1) 0 64 false = .viral ∧ gate (setF mem Reg.HFP_PORT_STS.viral 1) 0 64 true = .viral ∧
    carriesMem mem 1 = false ∧ carriesMem up 0 = false := by decide +kernel

theorem witness_GpfPhase1AtOnce : linkUp mem 0 = true ∧ (hostLink mem 0).recovery = false ∧
    (hostLink { mem with hfp.links := [(0, { recovery := true })] } 0).recovery = true := by decide +kernel

theorem witness_GpfAndWritePath_GpfPhase2Waits : linkUp mem 0 = true ∧ mem.hfp.gpfPhase2Us = 20 ∧
    [7].any (notDurable { mem with pou.writes := [waiting], pou.gpfs := [{ port := 0, start := 0, marked := [7] }] }) = true ∧
    [7].any (notDurable { mem with devTime := 20000, pou.gpfs := [{ port := 0, start := 0, marked := [7] }] }) = false ∧
    linkUp { mem with devTime := 20000, pou.gpfs := [{ port := 0, start := 0, marked := [7] }] } 0 = true := by decide +kernel

theorem witness_GpfAndWritePath_WritePathEvents :
    ([{ line := 1, plot := 1, ids := [7], asked := true }].find? fun m : Merge => m.line = (1 : LineNo).val).isSome = true ∧
    ([{ line := 1, val := zeroLine, lpa := 64, users := [.merge 1], startBeat := 0 }].find? fun f : Fill => f.line = (1 : LineNo).val).isSome = true ∧
    grainReadOf mem 0 0 = none := by
  decide +kernel

/-- 98 and 99 per cent with the longest delay, and 99 and 99. -/
theorem witness_GpfAndWritePath_BudgetSettings : isManager up mgr = true ∧
    (let v : Word := BitVec.ofNat 32 (98 + 99 * 2 ^ Reg.POU_BP_CFG.hard_pct.lo)
     wr v Reg.POU_BP_CFG.soft_pct < wr v Reg.POU_BP_CFG.hard_pct ∧ wr v Reg.POU_BP_CFG.hard_pct ≤ 99) ∧
    (let v : Word := BitVec.ofNat 32 (99 + 99 * 2 ^ Reg.POU_BP_CFG.hard_pct.lo)
     ¬ (wr v Reg.POU_BP_CFG.soft_pct < wr v Reg.POU_BP_CFG.hard_pct ∧ wr v Reg.POU_BP_CFG.hard_pct ≤ 99)) ∧
    allowSum State.reset = 0 ∧ State.reset.pou.dirty = [] := by decide +kernel

theorem witness_GpfAndWritePath_BudgetSettings_regs : regsWf State.reset.regs := ⟨List.Pairwise.nil, fun _ h => by cases h⟩

theorem witness_WriteDelayBounds : bpStage up = 0 ∧ bpStage (setF up Reg.POU_BP_CFG.soft_pct 0) = 1 ∧
    overAllowance (setF up Reg.POU_BP_CFG.soft_pct 0) plotOne = false ∧ bpStage (setF up Reg.POU_BP_CFG.hard_pct 0) = 2 := by decide +kernel

theorem witness_FrontCacheCommands_SnoopAnswers :
    ([{ id := 3, target := 5, line := 1, inv := true, cause := .chain 2 9, sentAt := 0 }].find? fun x : Snoop =>
      x.target = (5 : Ld).val && x.line = (1 : LineNo).val).isSome = true ∧
    ([{ id := 3, target := 255, line := 1, inv := true, cause := .read 1, sentAt := 0 }].find? fun x : Snoop =>
      x.id = 3 && decide (x.target < 0x100) && x.answer.isNone).isSome = true ∧ up.pou.writes = [] ∧ up.pou.reads = [] ∧
    ownEarlier { mem with pou.writes := [waiting] } 0 { id := 3, target := 0, line := 1, inv := true, cause := .evict 2, sentAt := 0, before := 8 } = some 7 ∧
    ownEarlier { mem with pou.writes := [waiting] } 0 { id := 3, target := 0, line := 1, inv := true, cause := .evict 2, sentAt := 0, before := 7 } = none :=
  by decide +kernel

/-- Line 1's read, number 9, and line 2's write, number 8, are out at LMC; line 2 is in the victim buffer. -/
def atLoam (issued : Bool) : State :=
  let read : LmcReq := { id := 9, mid := 0, write := false, lpa := 1, arrival := 0, target := 500, page := 0, wq := 0, rd := 0, issued := issued }
  let write : LmcReq := { id := 8, mid := 0x300, write := true, lpa := 2, arrival := 0, target := 500, page := 0, wq := 0, rd := 0, issued := issued }
  let fill : Fill := { line := 1, val := zeroLine, lpa := 1, req := 9, users := [.flush], startBeat := 0 }
  let victim : Victim := { line := 2, val := zeroLine, slice := 0, set := 0, way := 0, held := false, write := some 8, lpa := 2, mid := 0x300 }
  { resident mem with
    fcd.fills := [fill], fcd.victims := [victim]
    lmc.queues := sput [] (sput [] [] (subchannelOf 1) [read]) (subchannelOf 2) (sget [] (sput [] [] (subchannelOf 1) [read]) (subchannelOf 2) ++ [write]) }

theorem witness_FrontCacheCommands_LoamReturns : (issuedReq (atLoam true) 1 9).isSome = true ∧ (issuedReq (atLoam false) 1 9).isNone = true ∧
    ((lineWrite (atLoam true) 2).map fun r => (r.id, r.issued)) = some (8, true) ∧ ((lineWrite (atLoam false) 2).map (·.issued)) = some false ∧
    ((findVictim (lmcEnded (atLoam true) { id := 8, mid := 0x300, write := true, lpa := 2, arrival := 0, target := 500, page := 0, wq := 0, rd := 0
                                           issued := true }) 2).map fun v => (v.write, v.held, v.badChunks)) = some (some 8, false, 0) ∧
    ([(4, true)].find? fun f : Nat × Bool => f.1 = (4 : ClodNo).val) = some (4, true) ∧
    ([(4, false)].find? fun f : Nat × Bool => f.1 = (4 : ClodNo).val) = some (4, false) := by decide +kernel

theorem witness_FrontCacheCommands_CacheMaintenance : reach (resident mem) 1 = some 1 ∧ (resident mem).fcd.fills = [] ∧ (resident mem).fcd.maint = [] ∧
    plotOfLine mem 1 = some 1 ∧ (entryOf { mem with plots.entries := [(0, { tier := 3, dirty := true })] } (clodOf 1)).tier = 3 ∧
    (applyLine { mem with plots.entries := [(0, { tier := 3, dirty := true })] } 1 0x1FF zeroLine 0).1 = true ∧
    (plotRec { mem with plots.plots := [(1, { plotOne with tagWalk := true })] } 1).tagWalk = true ∧
    reservedMid 0x30F = false ∧ reservedMid 0x310 = false ∧ reservedMid 0x31D = false ∧ reservedMid 0x31E = true := by decide +kernel

theorem witness_FieldAfterWrite : (regTable.any fun d => d.fields.any fun f => f.access = .w1c) = true ∧
    (regTable.any fun d => d.fields.any fun f => f.access = .rc) = true ∧ (regTable.any fun d => d.fields.any fun f => f.access = .wo) = true := by decide +kernel

/-! ### Hypotheses met: the chain -/

/-- Node 5 of a chain under epoch 1, solo, with chain port 0 up and keyed, and neighbour 9 on it. -/
def node : State :=
  let s := setF (setFlag mem Reg.FLK_CHAIN_CFG.chain_en) Reg.FLK_CHAIN_STS.ports_up 1
  { s with
    cku.secrets := [(2, [1, 2, 3, 4, 5, 6, 7, 8])]
    chain.nodeId := 5
    chain.nodeEpoch := 1
    chain.neighbours := [(0, (9, 4))] }

/-- A frame of node 9 for node 5. -/
def toNode (b : ChainBody) : ChainFrame := { dst := 5, hops := 1, epoch := 1, pfx := ⟨9, 3, false, 4, 77, 0⟩, body := b }

/-- A window of one granule at granule 16, whose contents node 9 holds from granule 0 on. -/
def win : Window := { localBase := 16, size := 1, remoteBase := 0, priNode := 9, altNode := 0, altValid := false, priEpoch := 4, altEpoch := 0 }

/-- A chain request under tag 77. -/
def chainReq (write : Bool) : ChainReq :=
  { id := 1, tag := 77, origin := .host 0 5, mid := 0, cls := 3, window := 0, snap := win, write := write, dpa := 0, be := 0, data := 0
    poison := false, metaVal := .any, alt := false, resends := 0, unsure := false }

/-- A frame whose tag checks good. -/
def good : GcmCheck := { tagOk := true }

theorem witness_chain_taken (b : ChainBody) : ChainTaken node 0 good (toNode b) :=
  ⟨rfl, rfl, by decide +kernel, by decide +kernel, by decide +kernel, by decide +kernel, rfl, rfl⟩

theorem witness_ChainRequests_ChainAnswers : ∀ w, ChainTaken { node with chain.reqs := [chainReq w] } 0 good (toNode .cmpl) ∧
    findReq { node with chain.reqs := [chainReq w] } (toNode .cmpl).pfx.tag = some (chainReq w) ∧ (chainReq w).write = w := by
  intro w
  refine ⟨⟨rfl, rfl, ?_, ?_, ?_, ?_, rfl, rfl⟩, ?_, rfl⟩ <;> cases w <;> decide +kernel

theorem witness_ChainRequests_ChainStale :
    findReq (setFlag { node with chain.reqs := [chainReq true] } Reg.FLK_CHAIN_ERR.stale) 77 = some (chainReq true) ∧
    findReq (setFlag node Reg.FLK_CHAIN_ERR.stale) 77 = none := by decide +kernel

/-- Node 9's class 3 of port 0 is bound to it and may write plot 1. -/
def owner : State := setFi (setFi node Reg.FLK_CLASS_BIND.node 3 9) Reg.FLK_CLASS_BIND.valid 3 1

theorem witness_ChainRequests_ChainOwner : ∀ b, ChainTaken owner 0 good (toNode b) ∧ serving (readPrefix owner (toNode b).pfx) = true ∧
    classBound (readPrefix owner (toNode b).pfx) (toNode b).pfx = true ∧ classBound (readPrefix node (toNode b).pfx) (toNode b).pfx = false := by
  intro b
  refine ⟨⟨rfl, rfl, by decide +kernel, by decide +kernel, by decide +kernel, by decide +kernel, rfl, rfl⟩, ?_, ?_, ?_⟩
  · show serving (readPrefix owner (toNode .cmpl).pfx) = true; decide +kernel
  · show classBound (readPrefix owner (toNode .cmpl).pfx) (toNode .cmpl).pfx = true; decide +kernel
  · show classBound (readPrefix node (toNode .cmpl).pfx) (toNode .cmpl).pfx = false; decide +kernel

theorem witness_ChainRequests_ChainOwner_write :
    let u := readPrefix owner (toNode .cmpl).pfx
    chainAllows u (0x200 + 0 * 32 + 3) (chainLine 64) 1 = some 1 ∧ chainAllows u (0x200 + 0 * 32 + 3) (chainLine 64) 2 = some 1 ∧
    chainAllows u (0x200 + 0 * 32 + 3) (chainLine 0x10000000) 2 = none ∧ takesWrites (plotRec u 1) = true ∧
    takesWrites { plotOne with mode := .sharedReadOnly } = false ∧
    u.chain.done.contains (9, 77) = false ∧ chainUnderWay u (toNode .cmpl).pfx = false ∧ dedupUsed u < dedupCap ∧ u.chain.dedupWaits = [] ∧
    serving u = true ∧ (readPrefix { owner with chain.done := [(9, 77)] } (toNode .cmpl).pfx).chain.done.contains (9, 77) = true ∧
    serving (readPrefix (setF owner Reg.FLK_TWIN_STS.mode 0) (toNode .cmpl).pfx) = false := by decide +kernel

theorem witness_ChainFrames_ChainSnoops :
    node.chain.snoopWaits = [] ∧ snoopsFor (noteEpoch node (toNode .cmpl).pfx) (.chain 9 77) = [] ∧
    windowLine { node with chain.windows := [(0, some win)] } 9 (chainLine 64) = some (16 * 4194304 + 1) ∧
    ([{ id := 77, target := 0x205, line := 1, inv := true, cause := .read 1, sentAt := 0 }].find? fun x : Snoop =>
      x.id = (77 : Word).toNat && decide (0x200 ≤ x.target)).isSome = true ∧
    ([{ id := 77, target := 0x2FF, line := 1, inv := true, cause := .read 1, sentAt := 0 }].find? fun x : Snoop =>
      x.id = 77 && decide (0x200 ≤ x.target) && decide (x.target < 0x300)).isSome = true := by decide +kernel

/-- Node 7 is reached by port 0. -/
def routed : State := setFi (setFi (setFi node Reg.FLK_ROUTE_DATA.valid 0 1) Reg.FLK_ROUTE_DATA.prefix 0 7) Reg.FLK_ROUTE_DATA.prefix_len 0 12

theorem routed_regs : routed.regs = [(17596485206016, 0x00000101), (52777099198528, 0x83000000), (140737844871168, 0x00001000),
    (158329678594048, 0x00000004), (158331821883392, 0x001a1000), (158331834466304, 0x8000c007), (158331884797952, 0x00000001)] := by decide +kernel

theorem routed_other (e : Nat) (h : e ≠ 0) (hb : e < 256) : routeMatch routed e 7 = none := by
  have hr : resetAt Reg.FLK_ROUTE_DATA.valid.addr e = 0 := rfl
  have hs : slook routed.regs (regKey Reg.FLK_ROUTE_DATA.valid.addr e) = none := by
    have hk : regKey Reg.FLK_ROUTE_DATA.valid.addr e = 150997004 * 1048576 + e := rfl
    generalize regKey Reg.FLK_ROUTE_DATA.valid.addr e = k at hk ⊢
    rw [routed_regs]; simp only [slook]
    rw [if_neg (by omega), if_neg (by omega), if_neg (by omega), if_neg (by omega), if_neg (by omega), if_neg (by omega), if_neg (by omega)]
  unfold routeMatch getFi regAt
  rw [hs]; dsimp only; rw [hr]; rfl

theorem routed_port : routePort routed 7 = some 0 := by
  have keep : ∀ (l : List Nat) (b : Nat × Nat), (∀ e ∈ l, e ≠ 0 ∧ e < 256) → l.foldl (fun (best : Option (Nat × Nat)) e =>
      match routeMatch routed e 7 with
      | none => best
      | some len =>
        match best with
        | some b => if b.2 < len then some (e, len) else best
        | none => some (e, len)) (some b) = some b := by
    intro l; induction l with
    | nil => intro b _; rfl
    | cons e t ih =>
      intro b h; rw [List.foldl_cons, routed_other e (h e (List.mem_cons_self ..)).1 (h e (List.mem_cons_self ..)).2]
      exact ih b fun x hx => h x (List.mem_cons_of_mem _ hx)
  have h0 : routeMatch routed 0 7 = some 12 := by decide +kernel
  have he : routeEntry routed 7 = some 0 := by
    unfold routeEntry
    rw [show List.range 256 = 0 :: (List.range 255).map Nat.succ from List.range_succ_eq_map .., List.foldl_cons, h0]
    refine (congrArg (Option.map (·.1)) (keep ((List.range 255).map Nat.succ) (0, 12) ?_)).trans rfl
    intro e h; obtain ⟨n, hn, rfl⟩ := List.mem_map.1 h
    exact ⟨Nat.succ_ne_zero n, Nat.succ_lt_succ (List.mem_range.1 hn)⟩
  unfold routePort; rw [he]; dsimp only
  rw [show getFi routed Reg.FLK_ROUTE_DATA.port 0 = 0 by decide +kernel, if_pos (by decide +kernel)]

theorem witness_ChainFrames_ChainTransit : chainOn routed = true ∧ flushing routed = false ∧ chainPortUp routed 0 = true ∧ chainKeyed routed 0 = true ∧
    isSnoopFrame (toNode .cmpl) = false ∧ (toNode .cmpl).pfx.srcNode.val ≠ routed.chain.nodeId ∧ (toNode .cmpl).hops = 1 ∧
    chainOn up = false ∧ (toNode .cmpl).dst.val = node.chain.nodeId ∧ (List.range 8).filter (chainPortUp routed) = [0] := by decide +kernel

theorem witness_ChainFrames_ChainSettings : getF node Reg.FLK_CHAIN_STS.ports_up / 2 ^ 0 % 2 = 1 ∧ getF node Reg.FLK_CHAIN_STS.ports_up / 2 ^ 1 % 2 = 0 ∧
    flushing node = false ∧ isManager node mgr = true ∧
    (let s := setFi (setFi node Reg.FLK_WIN_DATA0.local_base 0 16) Reg.FLK_WIN_DATA1.size 0 1
     let v : Word := BitVec.ofNat 32 (2 ^ Reg.FLK_WIN_DATA3.valid.lo)
     (windowAt s (selOf s mgr Reg.FLK_WIN_SEL.window) v).isSome = true) ∧
    windowOverlaps node 0 win = false ∧ windowOverlaps node 0 { win with localBase := 0 } = true := by decide +kernel

/-! ### Hypotheses met: tier movement and Bedrock -/

theorem witness_TierMovement_LiftsAndEvictions :
    ([{ clod := 4, engine := 0, frame := 1, trigger := .hint, got := BitVec.allOnes 16 }].find? fun l : Lift => l.clod = (4 : ClodNo).val).isSome = true ∧
    (entryOf mem 4).crcBad = false ∧ frameHeld mem 1 = false ∧ clodHeld mem 4 = false ∧ mem.tmg.evictAfter = [] ∧
    (let s : State := { resident mem with plots.plots := [(1, { plotOne with deep := true })]
                                          tmg.queue := [{ clod := 0, cls := 3, reason := .eviction }]
                                          tmg.lifts := [{ clod := 4, engine := 0, frame := 1, trigger := .hint }] }
     freshVictim s = none ∧ (liftVictim s).map (·.1) = some 4) ∧
    evicting mem = true ∧ (freshVictim { resident mem with plots.plots := [(1, { plotOne with deep := true })] }).isSome = true ∧
    evicting { mem with plots.loamMib := 16 * 256 * 1024 } = false ∧
    ([(7, [3])].find? fun d : Nat × List Nat => d.1 = 7) = some (7, [3]) ∧ ([3].any fun id => (findRdRec mem id).isSome) = false ∧
    7 < overlayFrame { mem with plots.loamMib := 16 * 256 * 1024 } 0 ∧ mem.lmc.retired.contains 7 = false ∧
    ([3].any fun id => (findRdRec { mem with pou.reads := [{ id := 3, origin := .host 0 1, mid := 0, plot := 1, line := 1, metaVal := .any }] } id).isSome)
      = true ∧ [5].contains (5 : Fin (2 ^ 21)).val = true := by decide +kernel

theorem witness_TierMovement_SettleGrants_unit :
    (let u : ProgUnit := { id := 2, bed := 0, stratum := 0, number := 0, slc := false, purpose := 0, slots := [⟨4, 1, []⟩], segments := [], started := false }
     findUnit { mem with bfc.units := [u] } 2 = some u ∧ (u.slots.isEmpty && u.segments.isEmpty) = false) ∧
    (entryOf (resident mem) 0).dirty = true := by decide +kernel

/-- One dirty clod waits to be settled by class 4. -/
def settling (cls : Nat) : State := { resident mem with tmg.queue := [{ clod := 0, cls := cls, reason := .age }] }

theorem witness_TierMovement_SettleGrants_refused :
    tillAll (queueOverlays (queueHints (queuePressure (queueRelocations (settling 4))))) = settling 4 ∧
    stillWanted (settling 4) { clod := 0, cls := 4, reason := .age } = true ∧ (settling 4).tmg.lifts.any (fun l => l.clod = 0) = false ∧
    stillWanted mem { clod := 0, cls := 4, reason := .age } = false ∧ (entryOf (settling 4) 0).dirty = true ∧
    granted (settling 4) 0 = true := by decide +kernel

theorem witness_TierMovement_SequencerOrder :
    (let op : DieOp := { rank := 2, kind := 0, id := 1 }
     let er : DieOp := { rank := 6, kind := 2, id := 1, cfg := BitVec.ofNat 32 (2 ^ Reg.BFC_SUSPEND_CFG.erase_max.lo) }
     let s : State := { up with bfc.dies := [(0, { queue := [op] }), (1, { queue := [op], busy := some er }), (2, { held := some er })] }
     (bchan s 0).lost = false ∧ (bchan s 0).zqUntil ≤ s.devTime ∧
     (dieAt s 0).busy = none ∧ (dieAt s 0).held = none ∧ nextOp (dieAt s 0) (opStaged s) = some op ∧
     (dieAt s 1).busy = some er ∧ (dieAt s 1).held = none ∧ nextOp (dieAt s 1) (fun o => pressing o && opStaged s o) = some op ∧ suspendable s er = true ∧
     suspendable s { er with suspends := 1 } = false ∧
     (dieAt s 2).busy = none ∧ (dieAt s 2).held = some er ∧ nextOp (dieAt s 2) (fun o => o.kind = 0 && opStaged s o) = none) ∧
    (∀ i < 24, (bchan up (0 / 24 * 24 + i)).zqUntil ≤ up.devTime) ∧ (bchan { up with bfc.channels := [(0, { lost := true })] } 0).lost = true ∧
    getF (setF up (chField Reg.BFC_CH_STS.state 95) 1) (chField Reg.BFC_CH_STS.state 95) = 1 := by
  decide +kernel

/-- A grain read on die 0. -/
def grainRead (p : GrainPurpose) : GrainRead :=
  { id := 8, purpose := p, clod := 4, grain := 0, bed := 0, stratum := 0, row := 0, pos := 0, die := 0 }

theorem witness_BedrockReads_GrainReads : ∀ p ∈ [GrainPurpose.wanted, .probe],
    (let s : State := { up with bfc.reads := [grainRead p], bfc.dies := [(0, { busy := some { rank := 2, kind := 0, id := 8 } })] }
     findRead s 8 = some (grainRead p) ∧ ((dieAt s 0).busy.any fun op => op.kind = 0 && op.id = 8) = true) ∧
    ((dieAt up 0).busy.any fun op => op.kind = 0 && op.id = 8) = false ∧
    (grainRead p).direct = true ∧ (grainRead p).hedged = false ∧ (grainRead p).ladder = none ∧ (grainRead p).rechecked = false ∧
    hedgeDue up (grainRead p) = false ∧ hedgeDue { up with devTime := 10000000 } (grainRead p) = true ∧
    ladderDue { up with devTime := 3999 } (grainRead p) = false ∧ ladderDue { up with devTime := 4000 } (grainRead p) = true ∧
    ([(9, 4)].find? fun f : Nat × Nat => f.1 = 9) = some (9, 4) := by decide +kernel

theorem witness_BedrockReads_SlowAndFailedDies :
    (let s : State := { up with bfc.dies := [(0, { medTlc := some 400 }), (1, { state := 1, medTlc := some 50, medSlc := some 50 })]
                                bfc.bedMedian := [(0, 60), (1, 60)] }
     (dieAt s 0).state = 0 ∧ (tooSlow s 0 false || tooSlow s 0 true) = true ∧ badDies s (bedOfDie 0) < 4 ∧
     (dieAt s 1).state = 1 ∧ fastAgain s 1 false = true ∧ fastAgain s 1 true = true) ∧
    (let bad : Die := { state := 1 }
     let s : State := { up with bfc.dies := [(0, { medTlc := some 400 }), (1, bad), (2, bad), (3, bad), (4, bad)], bfc.bedMedian := [(0, 60), (1, 60)] }
     4 ≤ badDies s (bedOfDie 0)) ∧
    (let er : DieOp := { rank := 6, kind := 2, id := 1 }
     let s : State := { up with bfc.dies := [(0, { busy := some er })] }
     (dieAt s 0).busy = some er ∧ (dieAt s 0).held = none) ∧ (bchan up 0).lost = false ∧
    (bchan { up with bfc.channels := [(0, { lost := true })] } 0).lost = true := by decide +kernel

theorem witness_BedrockProgramsAndTraining_ProgramsAndErases :
    (let u : ProgUnit := { id := 2, bed := 0, stratum := 0, number := 0, slc := false, purpose := 0, slots := [], segments := [], started := true }
     findUnit { up with bfc.units := [u] } 2 = some u) ∧
    (let s : State := { up with bfc.strata := [(stratumKey 0 1, { state := .stale }), (stratumKey 0 2, { state := .stale, reading := 1 }),
       (stratumKey 0 3, { state := .stale, erasing := true }), (stratumKey 0 4, { state := .sealed })] }
     (stratumAt s 0 1).state = .stale ∧ (stratumAt s 0 1).reading = 0 ∧ (stratumAt s 0 1).erasing = false ∧ (stratumAt s 0 2).reading ≠ 0 ∧
     (stratumAt s 0 3).erasing = true ∧ (stratumAt s 0 3).badChannels = [] ∧ (stratumAt s 0 4).state = .sealed) := by decide +kernel

/-- The least parameter page that the rules allow (R258, R271, R274, R277, R286). -/
def page : DiePage := ⟨4, false, false, 1000, 16384, 40, 8, true, true, 16384, 1888, 200, some 15, some 1, 3000, 30000⟩

theorem witness_BedrockProgramsAndTraining_BedrockTraining : up.glb.bedrockReady = false ∧ stage up ≠ stHalted ∧ stage (setStage up stHalted) = stHalted ∧
    [badPage page, badPage { page with trTlc := 41 }, badPage { page with dies := 3 }, badPage { page with trSlc := 9 }, badPage { page with rowsTlc := 16385 },
     badPage { page with tlc := false }, badPage { page with oneShot := false }, badPage { page with spareBytes := 1887 },
     badPage { page with progSlcUs := 201 }, badPage { page with suspendUs := some 16 }, badPage { page with suspendUs := none },
     badPage { page with retrySets := none }, badPage { page with cyclesTlc := 2999 }, badPage { page with cyclesSlc := 29999 }] =
      false :: List.replicate 13 true := by decide +kernel

/-! ### Hypotheses met: Loam and line integrity -/

/-- Loam channel 0 serves, and one read waits on its first subchannel. -/
def serving0 (mid : Nat) : State :=
  { setF mem (lmcField Reg.LMC_CH_STS.state 0) 1 with
    lmc.queues := [(0, [{ id := 1, mid := mid, write := false, lpa := 0, arrival := 0, target := 1000, page := 0, wq := 0, rd := 0 }])]
    lmc.raaimt := 32 }

theorem witness_LoamScheduling_SchedulerIssues : loamState (serving0 0x31C) 0 = 1 ∧
    (let u := startDue (countMisses (serving0 0x31C) 0) 0
     loamState u 0 = 1 ∧ (oldest (eligible u 0 (waitingReqs u 0)) fun r => r.mid = 0x31C).isSome = true) ∧
    (let s : State := { serving0 0 with lmc.banks := [(3, { refreshDue := true })] }
     let u := startDue (countMisses s 0) 0
     loamState u 0 = 1 ∧ (oldest (eligible u 0 (waitingReqs u 0)) fun r => r.mid = 0x31C) = none ∧ dueBank u 0 = some 3) ∧
    (let s : State := updLoamChan (serving0 0) 0 fun c => { c with zqDue := true }
     loamState (startDue (countMisses s 0) 0) 0 ≠ 1) ∧
    (let r : LmcReq := { id := 1, mid := 0, write := false, lpa := 0, arrival := 0, target := 1000, page := 0, wq := 0, rd := 0 }
     let s : State := { serving0 0 with lmc.banks := [(bankOf (serving0 0) 0, { raa := 31 })] }
     hitsRow s 0 r = false ∧ s.lmc.raaimt ≤ (loamBank s (0 * 512 + bankOf s r.lpa)).raa + 1) ∧
    (let r : LmcReq := { id := 1, mid := 0, write := false, lpa := 0, arrival := 0, target := 0, page := 0, wq := 0, rd := 0 }
     levelOf up r = 3 ∧ pickRequest up 0 false [r] [r] = some r) := by decide +kernel

theorem witness_LoamScheduling_RowDisturbance : up.lmc.throttles = [] ∧ flag (setFlag up Reg.LMC_RD_CFG.prac_en) Reg.LMC_RD_CFG.prac_en = true ∧
    flag (putFlag up Reg.LMC_RD_CFG.prac_en false) Reg.LMC_RD_CFG.prac_en = false ∧
    flag (setFlag up Reg.LMC_CFG.wcrc_en) Reg.LMC_CFG.wcrc_en = true ∧
    ([{ id := 4, mid := 0, write := true, lpa := 0, arrival := 0, target := 0, page := 0, wq := 0, rd := 0, issued := true }].any fun r : LmcReq =>
      r.id = 4 && r.write && r.issued) = true ∧
    flag (setFlag up Reg.LMC_POP.dpc2) Reg.LMC_POP.dpc2 = true ∧ flag up Reg.LMC_POP.dpc2 = false ∧ up.lmc.prac = false ∧
    [movedTen 60 69, movedTen 60 70, movedTen 60 51, movedTen 60 50] = [false, true, false, true] ∧
    (let s : State := updLoamChan { up with lmc.critC := 95 } 0 fun c => { c with tempAtCenter := (60, 0) }
     let u := updLoamChan (setF s (lmcField Reg.LMC_CH_STS.temp_max_c 0) 69) 0 fun c => { c with refresh2x := decide (85 < 69), temps := (69, 0) }
     69 ≤ s.lmc.critC ∧ (movedTen (loamChan u 0).tempAtCenter.1 69 || movedTen (loamChan u 0).tempAtCenter.2 0) = false) ∧
    (let s : State := updLoamChan { up with lmc.critC := 68 } 0 fun c => { c with tempAtCenter := (60, 0) }
     s.lmc.critC < 69 ∧ getF s (lmcField Reg.LMC_CH_STS.temp_max_c 0) ≤ s.lmc.critC) := by decide +kernel

theorem witness_LoamTrainingAndSpeed_PeriodicTraining :
    (let s : State := { up with lmc.channels := [(0, { step := 1 }), (1, { segment := true }), (2, { caErrors := [1, 2] })] }
     (loamChan s 0).step ≠ 0 ∧ (loamChan s 1).segment = true ∧ (loamChan s 1).heldByPll = false ∧ (loamChan s 3).caErrors = [] ∧
     (loamChan s 2).caErrors = [1, 2] ∧ s.devTime < 1 + 1000000 ∧ s.devTime < 2 + 1000000) ∧
    (let s := setF (setF { mem with lmc.queues := [] } (lmcField Reg.LMC_CH_STS.state 0) 1) Reg.LMC_SR_CFG.idle_us 100
     getF s Reg.LMC_SR_CFG.idle_us ≠ 0 ∧ quiet s 0 = true ∧ loamState s 0 = 1) := by decide +kernel

theorem witness_LoamTrainingAndSpeed_SpeedChanges : isManager up mgr = true ∧
    speedsOf up = [0, 1, 2, 3, 4] ∧ lowerSpeed up 4 = some 3 ∧
    (let x : SpeedChange := { target := 1, channel := 0, trial := 1, step := 0, since := 0, fell := false, done := [], refining := [] }
     let s : State := setF { up with lmc.change := some x, lmc.channels := [(0, { step := 1 })] } (lmcField Reg.LMC_CH_STS.state 0) 2
     s.lmc.change = some x ∧ x.channel = (0 : Fin 16).val ∧ x.step = 0 ∧ loamState s 0 = 2 ∧ (loamChan s 0).step = 1) := by decide +kernel

/-- RDIMMs of 64 GiB, one a channel, of 16 Gb devices. -/
def dimms : LoamPopulation := ⟨1, false, false, 1, 0, 64, 16, 64, true, 32, 128, 1, 100, true, 95⟩

theorem witness_LoamTrainingAndSpeed_LoamTraining : up.glb.loamReady = false ∧ stage up ≠ stHalted ∧ stage (setStage up stHalted) = stHalted ∧
    [loamPopOk dimms, loamPopOk { dimms with dimmType := 3 }, loamPopOk { dimms with densityGb := 8 }, loamPopOk { dimms with dimmGib := 512 },
     loamPopOk { dimms with chanGib := 128 }, loamPopOk { dimms with ec8 := false }] = true :: List.replicate 5 false ∧
    (takePopulation up dimms).lmc.held = false ∧ (takePopulation { up with lmc.held := true } dimms).lmc.held = true ∧
    ((List.replicate 16 (some (2 : Fin 8))).any (·.isNone)) = false ∧ ([some (2 : Fin 8), none].any (·.isNone)) = true ∧
    ([{ channel := 3, bank := 0, row := 0, devices := [0], frame := 0, buffers := [0, 1] }].find? fun x : Sppr =>
      x.channel = (3 : Fin 16).val && !x.buffers.isEmpty).isSome = true ∧
    ([{ channel := 3, bank := 0, row := 0, devices := [0], frame := 0 }].find? fun x : Sppr => x.channel = (3 : Fin 16).val && !x.buffers.isEmpty) = none := by
  decide +kernel

theorem witness_Scrubbing : flushing up = false ∧ flag (putFlag up Reg.DIU_SCRUB_CFG.enable false) Reg.DIU_SCRUB_CFG.enable = false ∧
    (let w : ScrubWb := { lpa := 64, val := zeroLine, stale := false }
     let s : State := { up with diu.scrubQueue := [(0, [w, { w with stale := true }])] }
     sget [] s.diu.scrubQueue 0 = [w, { w with stale := true }] ∧ loamAt s w.lpa = w.val) ∧
    (∀ e ∈ up.diu.ceSecond, e.2 ≤ 64 ∧ e.2 ≤ max 1 (getF up Reg.DIU_CFG.ce_event_thresh)) ∧
    (let s : State := setF { up with plots.loamMib := 1 } (lmcField Reg.LMC_CH_STS.state 0) 1
     flag (setFlag s Reg.DIU_SCRUB_CFG.enable) Reg.DIU_SCRUB_CFG.enable = true ∧ passEnded s 0 = false ∧ scrubTargets s 0 = [(0, 0)]) := by
  decide +kernel

/-! ### Hypotheses met: host links and mailboxes -/

/-- Port 0 of `mem` as a link that trains. -/
def trains : State := { setF mem Reg.HFP_PORT_STS.link_up 0 with hfp.links := [(0, { perst := false, training := true })] }

theorem witness_HostLinks_LinkEvents : isLowest mem 0 = true ∧ linkUp mem 0 = true ∧ linkUp (updLink mem 0 fun l => { l with perst := true }) 0 = true ∧
    isLowest (updLink mem 0 fun l => { l with perst := true }) 0 = true ∧
    isLowest (updLink { mem with hfp.bondActive := 1 } 1 fun l => { l with perst := true }) 1 = false ∧
    linkUp up 0 = false ∧ (hostLink mem 0).recovery = false ∧
    (hostLink { mem with hfp.links := [(0, { replays := 2 })] } 0).replays < 3 ∧ (hostLink { mem with hfp.links := [(0, { replays := 3 })] } 0).replays = 3 ∧
    (hostLink { mem with hfp.links := [(0, { recovery := true })] } 0).recovery = true := by decide +kernel

theorem witness_HostLinks_LinkTraining : (hostLink trains 0).training = true ∧ (hostLink trains 0).perst = false ∧ linkUp trains 0 = false ∧
    trainedOk trains 0 ⟨2, 4, 3, false, false⟩ = true ∧ bondWidth trains 0 = 3 ∧ trainedOk trains 0 ⟨2, 5, 3, false, false⟩ = false ∧
    trainedOk trains 0 ⟨2, 4, 4, false, false⟩ = false ∧ isLowest trains 0 = true := by decide +kernel

theorem witness_HostLinks_IdeKeys : mem.mgc.booted = true ∧ State.reset.mgc.booted = false ∧ ideKmOpen mem 0 = false ∧
    ideKmOpen { mem with mgc.sessions := [{ id := 1, doe := some 0, established := true, mutualAuth := false }] } 0 = true ∧
    ideKmOpen { mem with mgc.sessions := [{ id := 1, doe := none, established := true, mutualAuth := false }] } 0 = false ∧
    (hostLink { mem with hfp.links := [(0, { staged := [(0, { key := [1], iv := [2] })] })] } 0).staged ≠ [] ∧
    flag (setFlag mem Reg.HFP_PORT_STS.ide_mem) (portField Reg.HFP_PORT_STS.ide_mem 0) = true ∧
    flag mem (portField Reg.HFP_PORT_STS.ide_mem 0) = false ∧ flag mem (portField Reg.HFP_PORT_STS.ide_io 0) = false := by decide +kernel

theorem witness_MailboxCommands_MailboxReads : mem.mgc.booted = true ∧ carriesMem mem 0 = true := by decide +kernel

theorem witness_MailboxCommands_MailboxSets : mem.mgc.booted = true ∧ carriesMem mem 0 = true ∧ (hostLog mem 0 0).length < (1 : Fin 256).val ∧
    (hostLog mem 0 4).length - 0 < 64 ∧
    extentOf (updLd mem 0 fun l => { l with extents := [(extentKey 1 1, some .offered)] }) 0 (extentKey 1 1) = some .offered ∧
    extentOf (updLd mem 0 fun l => { l with extents := [(extentKey 1 1, some .held)] }) 0 (extentKey 1 1) = some .held ∧
    extentOf (updLd mem 0 fun l => { l with extents := [(extentKey 1 1, some .releaseAsked)] }) 0 (extentKey 1 1) = some .releaseAsked ∧
    extentOf mem 0 (extentKey 1 1) = none ∧ (∀ m ∈ [((1, 7) : Fin 4 × Fin 16)], m.1.val ≤ 1) ∧ 2 ≤ (2 : Fin 4).val := by decide +kernel

theorem witness_PoisonCommands : reach mem 1 = some 1 ∧ hasRights mem 1 0 3 = true ∧ takesWrites (plotRec mem 1) = true ∧
    reach mem 4194304 = none := by decide +kernel

theorem witness_MailboxCommands_MailboxWaits : State.reset.mgc.booted = false ∧ up.mgc.booted = true ∧ carriesMem up 0 = false := by decide +kernel

/-! ### Hypotheses met: plots -/

/-- Plot 1 in another state. -/
def plotAs (p : Plot) : State := { mem with plots.plots := [(1, p)] }

theorem witness_PlotAdministration_AdmissionEngine : engineHere mem = true ∧ mem.plots.admActive = none ∧ (plotRec (plotAs { plotOne with state := .releasing }) 1).state = .releasing ∧
    engineHere (putFlag (setF mem Reg.FLK_TWIN_STS.mode 1) Reg.FLK_TWIN_CFG.side true) = false ∧
    solo mem = true ∧ solo (setF mem Reg.FLK_TWIN_STS.mode 1) = false ∧ (plotRec mem 1).state ≠ .releasing ∧ mem.plots.admQueue = [] := by decide +kernel

theorem witness_PlotAdministration_PlotSteps :
    (plotRec (plotAs { plotOne with state := .admitting }) 1).state = .admitting ∧
    cleanupReady { plotAs { plotOne with state := .releasing } with plots.admActive := some (.cleanup 1) } 1 = true ∧
    sealReady (plotAs { plotOne with state := .loading, sealing := true }) 1 = true ∧
    plotQuiet (plotAs { plotOne with erasing := true }) 1 = true ∧ (plotRec mem 1).sealing = false ∧ (plotRec mem 1).erasing = false ∧
    (plotRec mem 1).doneHere = false ∧ (plotRec mem 1).tagWalk = false := by decide +kernel

/-- Entry 1 of plot 1 is selected. -/
def aclAt1 (s : State) : State := setFi (setFi s Reg.POU_ACL_SEL.plot_id (accessorIdx mgr) 1) Reg.POU_ACL_SEL.entry (accessorIdx mgr) 1

theorem witness_AccessTable : isManager mem mgr = true ∧ selOf (aclAt1 mem) mgr Reg.POU_ACL_SEL.plot_id = 1 ∧ selOf (aclAt1 mem) mgr Reg.POU_ACL_SEL.entry = 1 ∧
    (let s := aclAt1 { mem with pou.writes := [waiting] }
     breaksPrivate (startDrain s 1) 1 1 (0x83000000 &&& 0x83FFFFFF#32) = true ∧ sget [] (startDrain s 1).plots.aclDrain 1 ≠ [] ∧
     sget [] (startDrain s 1).plots.aclDrain 1 = [7] ∧ 7 ∉ plotInFlight mem 1) ∧
    breaksPrivate (startDrain (plotAs {}) 1) 1 1 (0x83000000 &&& 0x83FFFFFF#32) = false ∧ (plotRec (startDrain (plotAs {}) 1) 1).state = .free ∧
    sget [] (startDrain (plotAs {}) 1).plots.aclDrain 1 = [] ∧
    breaksPrivate (startDrain mem 1) 1 1 (0x83FFF000 &&& 0x83FFFFFF#32) = false ∧ plotOpen (plotRec (startDrain mem 1) 1) = true ∧ fieldOf (0x83FFF000 : Word) 31 1 = 1 ∧
    reservedMid 0x300 = false ∧ reservedMid 0x31D = false ∧ reservedMid 0x31E = true := by decide +kernel

theorem witness_AclFirstMatch : aclMatches (aclWord mem 1 0) 5 = true ∧ aclMatches (aclWord mem 1 1) 5 = false ∧
    aclMatches (0x83FFF005 : Word) 5 = true ∧ aclMatches (0x83FFF005 : Word) 4 = false := by decide +kernel

/-! ### Hypotheses met: command rings -/

theorem witness_RingSetupAndDoorbells_RingSetup :
    ldPresent mem 0 = true ∧ ldPresent mem 1 = false ∧ (ringAt mem 0 0).enabling = false ∧ (ringAt mem 0 0).state = .disabled ∧
    (ringAt { mem with cre.rings := [(0, { state := .error })] } 0 0).state = .error ∧
    (ringAt { mem with cre.rings := [(0, { state := .reset })] } 0 0).state = .reset ∧
    (let s := { setFi mem Reg.CRE_LD_PRIV.rings_allowed 0 1 with cre.rings := [(0, { enabling := true })] }
     let u := updRing s 0 0 fun r => { r with enabling := false }
     (ringAt s 0 0).enabling = true ∧ 0 < ringsAllowed u 0 ∧ ringsAllowed u 0 ≤ (1 : RingNo).val ∧ ringsActive u < 4096 ∧
     getFi (setFi u Reg.CRE_SQ_SIZE.log2_entries 0 3) Reg.CRE_SQ_SIZE.log2_entries 0 < 4 ∧ 16 < getFi (setFi u Reg.CRE_CQ_SIZE.log2_entries 0 17) Reg.CRE_CQ_SIZE.log2_entries 0 ∧
     sqBase (setRegAt u Reg.CRE_SQ_BASE_LO.base_lo.addr 0 0x800) 0 0 % 4096 ≠ 0) ∧
    wr (BitVec.ofNat 32 (2 ^ Reg.CRE_RING_CTL.enable.lo)) Reg.CRE_RING_CTL.enable = 1 ∧
    wr (BitVec.ofNat 32 (2 ^ Reg.CRE_RING_CTL.enable.lo)) Reg.CRE_RING_CTL.reset = 0 ∧
    (let s := sized { setFi mem Reg.CRE_LD_PRIV.rings_allowed 0 1 with cre.rings := [(0, { enabling := true })] }
     let u := updRing s 0 0 fun r => { r with enabling := false }
     (ringAt s 0 0).enabling = true ∧ 0 < ringsAllowed u 0 ∧ ringsActive u < 4096 ∧ sqBase u 0 0 % 4096 = 0 ∧ cqBase u 0 0 % 4096 = 0 ∧
     4 ≤ getFi u Reg.CRE_SQ_SIZE.log2_entries 0 ∧ getFi u Reg.CRE_SQ_SIZE.log2_entries 0 ≤ 16 ∧
     4 ≤ getFi u Reg.CRE_CQ_SIZE.log2_entries 0 ∧ getFi u Reg.CRE_CQ_SIZE.log2_entries 0 ≤ 16 ∧ ringsAllowed u 0 ≤ 1) ∧
    (ringAt (ringed (bare 0)) 0 0).enabling = false ∧ (ringAt (ringed (bare 0)) 0 0).state = .active := by decide +kernel

theorem witness_RingSetupAndDoorbells_Doorbells : ldPresent (sized (ringed (bare 0))) 0 = true ∧ ldPresent mem 1 = false ∧ ideDenies mem 0 = false ∧ (ringAt (sized (ringed (bare 0))) 0 0).state = .active ∧
    wr (15 : Word) Reg.CRE_SQ_TAIL.tail < sqEntries (sized (ringed (bare 0))) 0 0 ∧ sqEntries (sized (ringed (bare 0))) 0 0 ≤ wr (16 : Word) Reg.CRE_SQ_TAIL.tail ∧
    (let s := sized { mem with cre.rings := [(0, { state := .active, cqTail := 3 })] }
     (wr (3 : Word) Reg.CRE_CQ_HEAD.head + cqEntries s 0 0 - (ringAt s 0 0).cqHead) % cqEntries s 0 0 ≤ cqUnreleased s 0 0 ∧
     cqUnreleased s 0 0 < (wr (4 : Word) Reg.CRE_CQ_HEAD.head + cqEntries s 0 0 - (ringAt s 0 0).cqHead) % cqEntries s 0 0 ∧
     cqEntries s 0 0 ≤ wr (16 : Word) Reg.CRE_CQ_HEAD.head) ∧
    (ringAt mem 0 0).state ≠ .active ∧ ideDenies (setFlag mem Reg.HFP_PORT_CTL.ide_required) 0 = true := by decide +kernel

theorem witness_BadDoorbell : ldPresent (sized (ringed (bare 0))) 0 = true ∧ ideDenies (sized (ringed (bare 0))) 0 = false ∧ (ringAt (sized (ringed (bare 0))) 0 0).state = .active := by decide +kernel

theorem witness_RingFetchAndEnds_DescriptorFetch : nextLd mem = none ∧
    (ringAt { mem with cre.rings := [(0, { state := .active, sqReads := [(0, 2)] })] } 0 0).sqReads = [(0, 2)] ∧
    (ringAt { mem with cre.rings := [(0, { state := .error, sqReads := [(0, 2)] })] } 0 0).state ≠ .active ∧ (ringAt mem 0 0).sqReads = [] := by
  decide +kernel

/-- One descriptor waits to be fetched. -/
def asking : State := sized { mem with cre.rings := [(0, { state := .active, sqTail := 1 })] }

theorem witness_RingFetchAndEnds_DescriptorFetch_turn : nextLd asking = some 0 ∧ nextRing asking (Fin.ofNat 256 0) = some (0, 1) ∧
    (let s := sized { mem with cre.rings := [(0, { state := .active, sqHead := 14, sqTail := 1 })] }
     fetchable s 0 0 = 3 ∧ min 3 (sqEntries s 0 0 - 14) = 2) := by decide +kernel

theorem witness_RingOps : ∀ c ∈ [(0x00 : BitVec 8), 0x01, 0x02, 0x03, 0x04, 0x08, 0x09, 0x0A, 0x0B, 0x10, 0x11, 0x12, 0x13, 0x18, 0x05],
    startable (ringed (desc c 64)) 0 0 = some (theOp (desc c 64)) := by decide +kernel

theorem witness_DataOperations : reservedBits (bare 0) = false ∧ plotless (bare 0) = true ∧ paramsZero (bare 0) 0 = true ∧
    reservedBits { bare 0 with reserved := true } = true ∧
    (let u := opStarted (ringed (desc 1 64)) 0 0 (theOp (desc 1 64))
     plotChecks u 0 (desc 1 64) (paramsZero (desc 1 64) 0) 2 true anyState (upTo 268435456) = none ∧
     plotChecks u 0 (desc 1 0) (paramsZero (desc 1 0) 0) 2 true anyState (upTo 268435456) = some stBadRange ∧
     plotChecks u 0 (desc 2 268435456) (paramsZero (desc 2 268435456) 0) 1 false anyState (upTo 268435456) = none ∧
     plotChecks u 0 (desc 3 64) (paramsZero (desc 3 64) 0 && (desc 3 64).hostAddr = 0 && wholeLines (desc 3 64)) 2 true anyState someBytes = none) ∧
    (let o : RingOp := theOp { desc 0x18 64 with params := [1, 0, 0, 0, 0, 0, 0, 0] }
     let u := opStarted (ringed o.desc) 0 0 o
     plotChecks u 0 o.desc (digestFields o.desc && !slotHeld u 0 0 o) 1 false anyState (fun n => decide (64 ≤ n) && decide (n ≤ 1073741824)) = none) ∧
    (let u := opStarted (ringed (desc 2 0)) 0 0 (theOp (desc 2 0))
     plotChecks u 0 (desc 2 0) (paramsZero (desc 2 0) 0) 1 false anyState (upTo 268435456) = some stBadRange ∧
     plotChecks u 0 (desc 3 0) (paramsZero (desc 3 0) 0 && (desc 3 0).hostAddr = 0 && wholeLines (desc 3 0)) 2 true anyState someBytes = some stBadRange ∧
     plotChecks u 0 (desc 0x18 0) (digestFields (desc 0x18 0) && !slotHeld u 0 0 (theOp (desc 0x18 0))) 1 false anyState
       (fun n => decide (64 ≤ n) && decide (n ≤ 1073741824)) = some stBadRange) ∧
    plotless (desc 0 64) = false ∧ startable mem 0 0 = none ∧ listedOpcode 0x05 = false := by decide +kernel

theorem witness_HintsPinsBarriers : paramsZero (bare 4) 1 = true ∧ param (bare 4) 0 = 0 ∧
    param { bare 4 with params := [1, 0, 0, 0, 0, 0, 0, 0] } 0 = 1 ∧ paramsZero { bare 4 with params := [1, 0, 0, 0, 0, 0, 0, 0] } 1 = true ∧
    (let d := desc 0x0A 64
     let u := opStarted (ringed d) 0 0 (theOp d)
     plotChecks u 0 d (rangeFields d) 1 false anyState someBytes = none ∧ plotChecks u 0 d (rangeFields d) 2 false anyState someBytes = none ∧
     plotChecks u 0 { d with length := 0 } (rangeFields d) 1 false anyState someBytes = some stBadRange ∧
     plotChecks u 0 { d with length := 0 } (rangeFields d) 2 false anyState someBytes = some stBadRange ∧
     plotChecks u 0 { d with length := 0 } (rangeFields d) 3 false anyState (upTo 1073741824) = some stBadRange ∧
     (param { d with params := [2, 0, 0, 0, 0, 0, 0, 0] } 0).toNat = 2 ∧
     plotChecks u 0 d (rangeFields d) 3 false anyState (upTo 1073741824) = none ∧
     touched u (theOp d) = [0] ∧ (entryOf u 0).pins = 0 ∧ (entryOf { u with plots.entries := [(0, { pins := 15 })] } 0).pins = 15) := by decide +kernel

theorem witness_PinCountEnds : startable (ringed (desc 0x0A 64)) 0 0 = some (theOp (desc 0x0A 64)) ∧
    (let u := opStarted (ringed (desc 0x0A 64)) 0 0 (theOp (desc 0x0A 64))
     plotChecks u 0 (desc 0x0A 64) (rangeFields (desc 0x0A 64)) 3 false anyState (upTo 1073741824) = none) := by decide +kernel

theorem witness_PlotOperations :
    (let d := desc 0x11 0
     let u := opStarted (ringed d) 0 0 (theOp d)
     orderWaits (ringed d) (theOp d) = false ∧ eraseWaits (ringed d) (theOp d) = false ∧
     plotChecks u 0 d (wholeFields d) 3 false anyState (wholeRange d) = none ∧ plotChecks u 0 d (wholeFields d) 3 false eraseState (wholeRange d) = none ∧
     flagI u Reg.CRE_LD_PRIV.admit_allow 0 = false ∧ flagI (setFi u Reg.CRE_LD_PRIV.admit_allow 0 1) Reg.CRE_LD_PRIV.admit_allow 0 = true) ∧
    (let d := desc 0x12 0
     let s : State := { ringed d with plots.plots := [(1, { plotOne with state := .loading, mode := .sharedReadOnly })] }
     let u := opStarted s 0 0 (theOp d)
     startable s 0 0 = some (theOp d) ∧ orderWaits s (theOp d) = false ∧
     plotChecks u 0 d (wholeFields d) 3 false sealState (wholeRange d) = none ∧ (plotRec u 1).sealing = false) ∧
    (let s : State := { ringed (desc 0x11 0) with pou.writes := [{ waiting with stage := .merging }], plots.plots := [(1, { plotOne with erasing := true })] }
     eraseWaits s (theOp (desc 0x13 0)) = true) ∧
    orderWaits { setF (ringed (desc 0x11 0)) Reg.FLK_TWIN_STS.mode 1 with plots.plots := [(1, { plotOne with curHome := true })] } (theOp (desc 0x11 0)) = true ∧
    admitFields { bare 0x10 with params := [1, 0, 1, 4, 0, 0, 0, 0] } = true ∧ admitFields (desc 0x10 0) = false ∧
    (let u := opStarted (ringed (desc 0x11 1)) 0 0 (theOp (desc 0x11 1))
     plotChecks u 0 { desc 0x11 1 with generation := 2 } true 3 false anyState (wholeRange (desc 0x11 1)) = some stGenMismatch ∧
     plotChecks u 0 (desc 0x12 0) (wholeFields (desc 0x12 0)) 3 false sealState (wholeRange (desc 0x12 0)) ≠ none ∧
     plotChecks (opStarted (plotAs { plotOne with state := .releasing }) 0 0 (theOp (desc 0x13 0))) 0 (desc 0x13 0) (wholeFields (desc 0x13 0)) 3 false
       eraseState (wholeRange (desc 0x13 0)) ≠ none) ∧
    (plotRec (plotAs { plotOne with state := .loading, mode := .sharedReadOnly, sealing := true }) 1).sealing = true := by decide +kernel

theorem witness_RingFetchAndEnds_RingCompletions :
    (let o : RingOp := { theOp (desc 1 64) with hostReads := [64], stage := .running }
     let s : State := { mem with cre.rings := [(0, { state := .active, ops := [o] })] }
     findOp s 0 0 4 = some o ∧ 64 ≤ (List.replicate 64 (0 : BitVec 8)).length ∧ o.stage ≠ .ended) ∧
    (let o : RingOp := { theOp (desc 1 64) with stage := .ended, queued := true }
     findOp { mem with cre.rings := [(0, { state := .active, ops := [o] })] } 0 0 4 = some o ∧ o.queued = true ∧
     findOp { mem with cre.rings := [(0, { state := .active, ops := [{ o with queued := false }] })] } 0 0 4 = some { o with queued := false } ∧
     writesEntries { mem with cre.rings := [(0, { state := .active, ops := [o] })] } 0 0 = true) ∧
    (ringAt mem 0 0).unsignalled = 0 ∧
    (let s := setFi { mem with cre.rings := [(0, { unsignalled := 1 })] } Reg.CRE_RING_IRQ.coal_time_us 0 5
     (ringAt s 0 0).unsignalled ≠ 0 ∧ getFi s Reg.CRE_RING_IRQ.coal_time_us (ringIdx 0 0) ≠ 0) := by decide +kernel

/-! ### Hypotheses met: buffers and keys -/

/-- One owner. -/
def ownerOne : Owner := ⟨1, 5⟩

/-- Pool 0 with ten usable buffers: buffer 2 is held by `ownerOne` under tag 1, buffer 1 can be issued. -/
def pooled : State := { up with
  bpm.pools := [(0, { usable := 10, cache := [1], ring := [(3, 7)] })], bpm.recs := [(2, { held := true, owners := [ownerOne], tag := 1 })] }

/-- The handle of that held buffer. -/
def heldHandle : Word := BitVec.ofNat 32 (handleOf 0 2 1)

theorem witness_BpmInvKept : BpmInv pooled.bpm where
  poolsWf := by decide +kernel
  recsWf := by decide +kernel
  linesWf := by decide +kernel
  pools k hk := by
    match k, hk with
    | 0, _ => exact ⟨by decide +kernel, by decide +kernel, by decide +kernel, by decide +kernel⟩
    | 1, _ => exact ⟨by decide +kernel, by decide +kernel, by decide +kernel, by decide +kernel⟩
    | 2, _ => exact ⟨by decide +kernel, by decide +kernel, by decide +kernel, by decide +kernel⟩
  recs k := by
    by_cases h : 2 = k
    · subst h; exact ⟨by decide +kernel, by decide +kernel, by decide +kernel, by decide +kernel, by decide +kernel⟩
    · have e : sget ({} : BufRec) pooled.bpm.recs k = {} := by simp [pooled, sget, h]
      rw [e]; exact ⟨by decide, by decide, by decide, by decide, by decide⟩

theorem witness_BufferCommands_BufferGet : pooled.phs.flushStart = none ∧ poolFor 256 = some 0 ∧ poolFor 257 = some 1 ∧ poolFor 65536 = some 2 ∧
    nextOwner (poolAt pooled 0).lastGrant [ownerOne] = some ownerOne ∧
    (bufGrant (updPool pooled 0 fun p => { p with cache := [1, 3] }) 0 ownerOne).map (fun r => (poolAt r.2 0).cache) = some [3] ∧
    (poolAt pooled 1).cache = [] ∧ { pooled with phs.flushStart := some 0 }.phs.flushStart ≠ none := by decide +kernel

theorem witness_BufferCommands_BufferShareAndPut : handlePool heldHandle.toNat = 0 ∧ handleIndex heldHandle.toNat = 2 ∧ handleTag heldHandle.toNat = 1 ∧
    badHandle pooled heldHandle.toNat = false ∧ (bufAt pooled 0 2).quarantined = false ∧ freeReason (bufAt pooled 0 2) 1 ownerOne = none ∧
    freeReason (bufAt pooled 0 2) 1 ⟨2, 6⟩ = some 1 ∧ (bufAt pooled 0 2).owners.contains ⟨2, 6⟩ = false ∧
    (bufAt pooled 0 2).owners.length < 8 ∧ (poolAt pooled 0).rebuilding = false ∧ (bufAt pooled 0 2).owners.filter (fun o => o ≠ ownerOne) = [] := by
  decide +kernel

theorem witness_BufferCommands_BufferShareAndPut_shared :
    let s := setBuf pooled 0 2 { held := true, tag := 1, owners := ownerOne :: ([0, 1, 2, 3, 4, 5, 6]).map fun (i : Mid) => ⟨2, i⟩ }
    badHandle s heldHandle.toNat = false ∧ freeReason (bufAt s 0 2) 1 ownerOne = none ∧ 8 ≤ (bufAt s 0 2).owners.length ∧
    (bufAt s 0 2).owners.filter (fun o => o ≠ ownerOne) ≠ [] ∧
    (poolAt (updPool pooled 0 fun p => { p with rebuilding := true }) 0).rebuilding = true := by decide +kernel

theorem witness_SecondPutRejected : BpmInv pooled.bpm ∧ pooled.phs.flushStart = none ∧ badHandle pooled heldHandle.toNat = false ∧
    freeReason (bufAt pooled (handlePool heldHandle.toNat) (handleIndex heldHandle.toNat)) (handleTag heldHandle.toNat) ownerOne = none ∧
    (bufAt pooled (handlePool heldHandle.toNat) (handleIndex heldHandle.toNat)).quarantined = false ∧ (poolAt pooled (handlePool heldHandle.toNat)).rebuilding = false :=
  ⟨witness_BpmInvKept, by decide +kernel, by decide +kernel, by decide +kernel, by decide +kernel, by decide +kernel⟩

theorem witness_GrantIsFresh : BpmInv pooled.bpm ∧ (bufGrant pooled 0 ownerOne).map (·.1) = some (handleOf 0 1 1) :=
  ⟨witness_BpmInvKept, by decide +kernel⟩

theorem witness_BufferCommands_BufferLines : pooled.phs.flushStart = none ∧ badHandle pooled heldHandle.toNat = false ∧
    (3 : Fin 1024).val < poolLines (handlePool heldHandle.toNat) ∧ poolLines (handlePool heldHandle.toNat) ≤ (4 : Fin 1024).val ∧
    freeReason (bufAt pooled (handlePool heldHandle.toNat) (handleIndex heldHandle.toNat)) (handleTag heldHandle.toNat) ownerOne = none ∧
    freeReason (bufAt pooled (handlePool heldHandle.toNat) (handleIndex heldHandle.toNat)) (handleTag heldHandle.toNat) ⟨2, 6⟩ ≠ none ∧
    badHandle pooled (handleOf 0 10 0) = true ∧ badHandle pooled (handleOf 0 9 0) = false ∧ badHandle pooled (handleOf 3 0 0) = true ∧
    (bufAt { pooled with bpm.recs := [(2, { quarantined := true })] } 0 2).quarantined = true ∧
    (poolAt pooled (0 : Fin 3).val).cache.length < 256 ∧
    ([256, 896, 897].map fun n => (poolAt (updPool pooled 0 fun p => { p with cache := List.replicate n 1 }) (0 : Fin 3).val).cache.length) = [256, 896, 897] ∧
    (poolAt (updPool pooled 0 fun p => { p with rebuilding := true }) (0 : Fin 3).val).rebuilding = true ∧
    (poolAt pooled (0 : Fin 3).val).rebuilding = false ∧ { pooled with phs.flushStart := some 0 }.phs.flushStart ≠ none := by decide +kernel

theorem witness_KeysAndSecrets : (0x340 : Mid).val = 0x340 ∧ wr (only Reg.CKU_KEYWIN_CTL.load 1) Reg.CKU_KEYWIN_CTL.load = 1 ∧
    wr (only Reg.CKU_KEYWIN_CTL.load 1) Reg.CKU_KEYWIN_CTL.clear = 0 ∧ wr (only Reg.CKU_KEYWIN_CTL.load 1) Reg.CKU_KEYWIN_CTL.kind ≠ 2 ∧
    wr (only Reg.CKU_KEYWIN_CTL.clear 1) Reg.CKU_KEYWIN_CTL.load = 0 ∧ wr (only Reg.CKU_KEYWIN_CTL.clear 1) Reg.CKU_KEYWIN_CTL.clear = 1 ∧
    wr (only Reg.CKU_KEYWIN_CTL.kind 2 ||| only Reg.CKU_KEYWIN_CTL.slot 127) Reg.CKU_KEYWIN_CTL.kind = 2 ∧
    wr (only Reg.CKU_KEYWIN_CTL.kind 2 ||| only Reg.CKU_KEYWIN_CTL.slot 127) Reg.CKU_KEYWIN_CTL.slot = 127 ∧
    wr (only Reg.CKU_KEYWIN_CTL.slot 128) Reg.CKU_KEYWIN_CTL.slot = 128 ∧ secretSlot 0 2 = none ∧ secretSlot 1 16 = none ∧ secretSlot 3 0 = none ∧
    isLockstep (.mid 0x340) = true ∧ selOf (setFi mem Reg.CKU_GCM_SEL.pair (accessorIdx mgr) 24) mgr Reg.CKU_GCM_SEL.pair = 24 ∧
    secretSlot 0 0 = some 0 ∧ secretSlot 0 1 = some 1 ∧ secretSlot 1 15 = some 17 ∧ isLockstep (.mid 0x342) = false ∧
    isManager mem mgr = true ∧ gcmIn mem 0 = true ∧ selOf mem mgr Reg.CKU_GCM_SEL.pair = 0 ∧
    gcmIn (setF mem Reg.CKU_GCM_STS.in_service 0) (selOf mem mgr Reg.CKU_GCM_SEL.pair) = false := by decide +kernel

theorem witness_KeysAndSecrets_links :
    let s : State := { mem with cku.secrets := [(0, [1]), (1, [2])] }
    linkSecret s (0 : Fin 9).val ≠ [] ∧ sget none s.cku.rekeys (0 : Fin 9).val = none ∧ sget [] s.cku.secrets (linkSlot (0 : Fin 9).val + 1) ≠ [] ∧
    linkSecret mem (0 : Fin 9).val = [] ∧ sget [] mem.cku.secrets (linkSlot (0 : Fin 9).val + 1) = [] ∧
    sget none (startRekey s (0 : Fin 9).val 5 6).cku.rekeys (0 : Fin 9).val ≠ none := by
  decide +kernel

/-! ### Hypotheses met: power, hold-up, clocks -/

/-- Firmware runs, PHS in a state. -/
def phased (st : Nat) : State := setF up Reg.PHS_STATE.state st

theorem witness_PowerStates_PowerSequence :
    (let s : State := { phased 1 with phs.step := some 6 }
     s.phs.step = some (6 : Fin 7) ∧ phsState s = phsUp ∧ s.phs.turnBack = none) ∧
    (let s : State := { phased 1 with phs.step := some 5 }
     s.phs.step = some (5 : Fin 7) ∧ phsState s = phsUp ∧ (5 : Fin 7).val < 6 ∧ { s with phs.turnBack := some (9, 2) }.phs.turnBack = some (9, 2)) ∧
    phsState (phased 2) ≠ phsUp ∧ phsState (phased 2) ≠ phsDown ∧ phsState (phased 2) ≠ phsHold ∧
    (let s : State := { phased 4 with phs.step := some 0 }
     s.phs.step = some (0 : Fin 7) ∧ phsState s = phsDown) ∧ phsState (phased 5) = phsHold ∧ up.phs.step = none := by decide +kernel

theorem witness_PowerStates_PowerRequests : flag up Reg.PHS_STATE.pwr_req = false ∧ lowLongEnough up = false ∧
    flag (setFlag up Reg.PHS_STATE.pwr_req) Reg.PHS_STATE.pwr_req = true ∧ isManager (phased 2) mgr = true ∧ phsState (phased 2) = phsRunning ∧
    phsState (phased 0) = phsOff ∧ isManager (phased 0) mgr = true ∧ phsState (phased 3) = phsFlushing := by decide +kernel

/-- RUNNING, with a valid budget. -/
def budgeted : State := setFlag (phased 2) Reg.PHS_BUDGET_PUB.valid

theorem witness_ArmingAndHoldup_ArmingAndResets : ({ up with phs.stretching := [7] }.phs.stretching.contains (7 : Fin 12).val) = true ∧
    (phsState budgeted = phsRunning ∧ kilnReady budgeted = true ∧ flag budgeted Reg.PHS_BUDGET_PUB.valid = true) ∧ isManager budgeted mgr = true ∧
    (12 ≤ selOf (setFi up Reg.PHS_RST_SEL.output (accessorIdx mgr) 12) mgr Reg.PHS_RST_SEL.output) ∧
    swAsserted (setFi up Reg.PHS_RST_CFG.sw_assert 8 1) 8 = true ∧ swAsserted (setFi up Reg.PHS_RST_CFG.sw_assert 7 1) 7 = false ∧
    armed (setFlag budgeted Reg.PHS_KILN_STS.armed) = true ∧ armed budgeted = false ∧ mirrored budgeted = false ∧ solo budgeted = false ∧
    ¬ (phsState up = phsRunning ∧ kilnReady up = true ∧ flag up Reg.PHS_BUDGET_PUB.valid = true) ∧ dirtyGrains budgeted = 0 ∧
    dirtyGrains { budgeted with pou.dirty := [(1, true)] } ≠ 0 ∧
    (let s := setFi up Reg.PHS_RST_SEL.output (accessorIdx mgr) 8
     selOf s mgr Reg.PHS_RST_SEL.output = 8 ∧
     swAsserted (writeBits s Reg.PHS_RST_CFG.sw_assert.addr 8 (only Reg.PHS_RST_CFG.sw_assert 1) 0) 8 = true) := by decide +kernel

theorem witness_ArmingAndHoldup_HoldupStore : phsState (setFi (phased 2) Reg.PHS_MON_VAL.value 19 7) = phsRunning ∧
    senseValue (setFi (phased 2) Reg.PHS_MON_VAL.value 19 7) 19 ≠ 0 ∧ (phased 2).phs.capTest = none ∧
    (((1000 : Nat) - 996) * 200 < 1000 ∧ (995 : Nat) < 1000 ∧ (1000 : Nat) ≤ (1000 - 995) * 200) ∧ up.phs.running = true := by decide +kernel

theorem witness_ArmingAndHoldup_HoldupStore_publish :
    let s := phased 2
    let u := setF (setF s Reg.PHS_HOLDUP_E.e_use_j (min 0xFFFF (useUnits s / 20000000))) Reg.PHS_HOLDUP_E.e_net_j (min 0xFFFF (netUnits s / 200000000000))
    phsState s = phsRunning ∧ flag u Reg.PHS_BUDGET_PUB.valid = false ∧ flag budgeted Reg.PHS_BUDGET_PUB.valid = true := by decide +kernel

/-- A store of so many mF at 48 V, four beds of 64 kiln strata. -/
def covered (cap : Nat) : State :=
  let s := setF (setF (setF budgeted Reg.PHS_HOLDUP_CAP.cap_mf cap) Reg.PHS_HOLDUP_CFG2.vmin_10mv 2000) Reg.BFC_LAYOUT.kiln_per_bed 64
  { setF (setF s Reg.BFC_POP.planes4 1) Reg.BFC_POP.dies_per_ch 8 with phs.holdup := [4800], bfc.rowsTlc := 1000 }

theorem witness_ArmingAndHoldup_HoldupStore_figures : [234, 235].map (fun c =>
    decide (1024 ≤ min (min (coverBytes (covered c)) (kilnSpace (covered c) - imageMeta (covered c)) / 1048576) (2 ^ 21 - 1))) = [false, true] := by
  decide +kernel

theorem witness_ArmingAndHoldup_HoldupStore_faults : powerFails (setFi (phased 2) Reg.PHS_MON_FAULT.fault_lo 9 1) 9 = true ∧ powerFails (phased 2) 8 = false ∧
    getFi (setFi (phased 2) Reg.PHS_MON_CTL.action 3 1) Reg.PHS_MON_CTL.action 3 = 1 ∧ phsState (phased 1) = phsUp ∧ phsState (phased 3) = phsFlushing ∧
    phsState (phased 4) = phsDown ∧ stopsFlush 12 = true ∧ stopsFlush 3 = false ∧ State.reset.phs.running = false := by decide +kernel

theorem witness_ClocksAndReset : up.phs.running = true ∧ up.phs.dieReset = false ∧ State.reset.phs.running = false ∧
    phsState (setFlag (putFlag (putFlag (clockFault budgeted Reg.GLB_CLK_ERR.refclk_b_loss [31]) Reg.GLB_CLK_STS.refclk_b_ok false)
      Reg.GLB_CLK_STS.root_lock false) Reg.GLB_CLK_STS.holdover) = phsRunning ∧
    (let u := setF (clockFault (setF up (lmcField Reg.LMC_CH_STS.state 3) 2) Reg.GLB_CLK_ERR.ddr_unlock [3]) Reg.GLB_CLK_STS.ddr_lock 0
     loamState (askRetrain (updLoamChan u 3 fun c => { c with heldByPll := true }) 3 false) 3 = 2) := by decide +kernel

/-! ### Hypotheses met: management -/

/-- An operation of `o` that master 0 started, with `done` of its words or sectors behind it. -/
def running (o : CsOp) : State := { up with mgc.op := some o }

/-- Master 0 has opened a descriptor whose first word is `w`. -/
def openedAs (w : Word) : State := updQueues up 0 fun q => { q with opened := some { w0 := w } }

theorem witness_CodeStore_CodeStoreQueues : isManager up mgr = true ∧ accessorIdx mgr = 0 ∧ (csQueues up 0).opened = none ∧
    (csQueues (openedAs 1) 0).opened = some { w0 := 1 } ∧ isManager (openedAs 1) mgr = true ∧ isManager (openedAs 0x11) mgr = true ∧
    fieldOf (1 : Word) 4 1 = 0 ∧ 0 < queueRoom 16 (csQueues (openedAs 1) 0).normalPtrs ∧
    fieldOf (0x11 : Word) 4 1 = 1 ∧ 0 < queueRoom 2 (csQueues (openedAs 0x11) 0).urgentPtrs ∧
    (let s := updQueues (openedAs 0x11) 0 fun q => { q with urgentPtrs := queuePush 2 (queuePush 2 q.urgentPtrs 2) 2 }
     isManager s mgr = true ∧ queueRoom (csBank (csUrgent ⟨0x11, 0, 0, 0⟩)) (if csUrgent ⟨0x11, 0, 0, 0⟩ then (csQueues s 0).urgentPtrs
       else (csQueues s 0).normalPtrs) = 0) ∧
    (csQueues up 0).cmpl = [] ∧ (csQueues (updQueues up 0 fun q => { q with cmpl := [(7, 0)] }) 0).cmpl = (7, 0) :: [] ∧
    wr (only Reg.MGC_CS_CTL.flush 1) Reg.MGC_CS_CTL.flush = 1 ∧ wr (0 : Word) Reg.MGC_CS_CTL.flush = 0 := by decide +kernel

/-- An erase of two sectors with one done, and a program of two words with one done. -/
def eraseOp : CsOp := { master := 0, desc := { w0 := 1, w1 := 0, w2 := 0, w3 := 2 }, done := 1, suspends := 0, urgent := false }
def programOp : CsOp := { eraseOp with desc := { w0 := 2, w1 := 0, w2 := 0, w3 := 2 } }

/-- A crash flush of no records is under way. -/
def crashing (s : State) : State :=
  { s with evr.crash := some { bank := false, boot := 1, start := 0, cause := 0, firstSeq := 0, records := [], ended := false } }

theorem witness_CodeStore_CodeStoreEngine : (csSettle up).mgc.op = none ∧ (csSettle up).evr.crash = none ∧
    (csSettle (crashing up)).mgc.op = none ∧ (csSettle (crashing up)).evr.crash ≠ none ∧
    (∀ s ∈ [running eraseOp, crashing (running eraseOp)], (csSettle s).mgc.op = some eraseOp ∧ csMaySuspend (csSettle s) eraseOp = true) ∧
    (csSettle (crashing (running eraseOp))).evr.crash ≠ none ∧ (csSettle (running eraseOp)).evr.crash = none ∧
    csNext (csSettle (running eraseOp)) true = none ∧
    (let s := updQueues (running eraseOp) 1 fun q => { q with urgent := [⟨0x10000012, 0x1D50000, 0, 1⟩], urgentPtrs := queuePush 2 q.urgentPtrs 1 }
     (csSettle s).mgc.op = some eraseOp ∧ csMaySuspend (csSettle s) eraseOp = true ∧ csNext (csSettle s) true ≠ none) ∧
    csMaySuspend (csSettle (running { eraseOp with suspends := 63 })) { eraseOp with suspends := 63 } = true ∧
    csMaySuspend (csSettle (running { eraseOp with suspends := 64 })) { eraseOp with suspends := 64 } = false ∧
    csOp eraseOp.desc = 1 ∧ csOp programOp.desc = 2 ∧ ((csSectors eraseOp.desc).drop eraseOp.done).take 3 = [1] := by decide +kernel

theorem witness_CodeStore_CodeStoreEngine_ends : (running programOp).mgc.op = some programOp ∧ csCount programOp.desc = 2 ∧
    ({ programOp with done := 2 } : CsOp).done = csCount programOp.desc ∧ programOp.done ≠ csCount programOp.desc ∧
    programOp.done ≤ (1 : Fin 8192).val ∧ (0 : Fin 8192).val < programOp.done ∧
    wordProgrammed (running programOp) (csAddr programOp.desc / 4 + programOp.done) = false ∧
    wordProgrammed { running programOp with mgc.store := [(1, some 5)] } (csAddr programOp.desc / 4 + programOp.done) = true := by decide +kernel

theorem witness_CodeStore_CodeStoreEngine_words :
    (programWords { up with mgc.store := [(1, some 5)] } 0 [9, 9]).1 = 1 ∧ (programWords up 0 [9, 9]).1 = 2 := by decide +kernel

theorem witness_ManagementResets : up.mgc.lockstepTimes = [] ∧ isManager up mgr = true ∧ isManager up .jtag = true ∧
    (let s := setF up Reg.MGC_CORE_STS.running 1
     wdtRuns s = true ∧ flag s Reg.MGC_WDT_STS.warned = false ∧
     wdtRuns (setFlag s Reg.MGC_WDT_STS.warned) = true ∧ flag (setFlag s Reg.MGC_WDT_STS.warned) Reg.MGC_WDT_STS.warned = true) ∧
    wdtRuns { up with mgc.wdtOn := false } = false ∧
    (0x340 : Mid).val = 0x340 ∧ (0x341 : Mid).val = 0x341 ∧ (0x342 : Mid).val ≠ 0x340 ∧ (0x342 : Mid).val ≠ 0x341 ∧
    up.mgc.debugClosed = false ∧ { up with mgc.debugClosed := true }.mgc.debugClosed = true := by decide +kernel

/-- A packet to endpoint 0 from endpoint 9. -/
def packet (som eom : Bool) (seq : Fin 4) (bytes : Fin 257) : MctpPacket := ⟨0, 9, som, eom, seq, 3, 1, bytes⟩

/-- Eight messages in reassembly, the first of them that of `packet`. -/
def parts : List Reassembly := (List.range 8).map fun i => ⟨9 + i, 3, 1, 65536 - 64 - i, 2⟩

theorem witness_SidebandProtocols_MctpAndPldm : up.mgc.booted = true ∧ (8 : Fin 256).val < 255 ∧ (254 : Fin 256).val < 255 ∧ (7 : Fin 256).val < 8 ∧ (255 : Fin 256).val = 255 ∧
    mctpMine up 0 = true ∧ mctpMine up 9 = false ∧
    (∀ p ∈ [packet true true 0 10, packet true false 0 64, packet false true 2 63, packet false false 2 256],
      mctpMine up p.dest.val = true ∧ p.bytes.val ≤ 256 ∧ (64 ≤ p.bytes.val ∨ p.eom = true)) ∧
    (63 < 64 ∧ (packet true false 0 63).eom = false) ∧
    (parts.filter fun x => !(x.source = (packet true false 0 64).src.val && x.tag = (packet true false 0 64).tag.val)).length = 7 ∧
    8 ≤ ((parts.map fun x => { x with tag := 4 }).filter fun x => !(x.source = 9 && x.tag = 3)).length ∧
    (parts.find? fun x => x.source = 9 && x.tag = 3) = some ⟨9, 3, 1, 65472, 2⟩ ∧ up.mgc.reassembly = [] ∧
    65472 + (packet false true 2 64).bytes.val ≤ 65536 ∧ 65536 < 65472 + (packet false true 2 65).bytes.val := by decide +kernel

theorem witness_SidebandProtocols_MctpAndPldm_pldm : getF up Reg.MGC_SB_CFG.update_paths / 2 ^ (0 : Fin 3).val % 2 = 1 ∧ up.mgc.update = none ∧
    (20 : Fin 256).val ≤ 20 ∧ 24 < (25 : Fin 256).val ∧
    ∀ n ∈ [0, 1, 2, 3], ∃ u : Update, { up with mgc.update := some u }.mgc.update = some u ∧ u.phase = n :=
  ⟨by decide +kernel, rfl, by decide, by decide, fun n _ => ⟨{ component := 0, image := {}, option := none, phase := n }, rfl, rfl⟩⟩

/-- Sessions with the given IDs, all in one state. -/
def sessions (ids : List Nat) (done : Bool) : State := { up with mgc.sessions := ids.map fun i => ⟨i, done, true, none⟩ }

theorem witness_SidebandProtocols_SpdmSessions : up.mgc.booted = true ∧ up.mgc.negotiated = false ∧ { up with mgc.negotiated := true }.mgc.negotiated = true ∧
    (sessions (List.range 31) true).mgc.sessions.length < 32 ∧ 32 ≤ (sessions (List.range 32) true).mgc.sessions.length ∧
    findSession (sessions [1] false) (1 : Fin 65536).val = some ⟨1, false, true, none⟩ ∧
    findSession (sessions [1] true) (1 : Fin 65536).val = some ⟨1, true, true, none⟩ ∧ findSession (sessions [1] true) (2 : Fin 65536).val = none ∧
    linkSecret mem (0 : Fin 9).val = [] ∧ linkSecret { up with cku.secrets := [(0, [1])] } (0 : Fin 9).val ≠ [] ∧
    sget none up.cku.rekeys (0 : Fin 9).val = none := by decide +kernel

theorem witness_SidebandProtocols_SidebandWaits : State.reset.mgc.booted = false ∧ getF State.reset Reg.MGC_CORE_STS.running = 0 ∧
    getF (setF State.reset Reg.MGC_CORE_STS.running 1) Reg.MGC_CORE_STS.running ≠ 0 ∧ up.phs.dieReset = false := by decide +kernel

/-! ### Hypotheses met: the event recorder -/

/-- A record as a host's write of the window brings one. -/
def importing : State := { setFi up Reg.EVR_SRC_CFG.host 0 0 with evr.importWin := [(0, BitVec.ofNat 32 (127 * 2 ^ 21 + 1 * 2 ^ 28))] }

/-- Two records wait for the drain, and a block of history holds the first. -/
def someRecord (n : Nat) : Record := {
  rtype := .event, imported := false, severity := 1, source := 7, len16 := 4, seq := n, offset := 0, time := 0, code := .registerReject, mid := 0xFFF
  suppressed := 0, detail := [], lost := 0 }
def history : State := { up with
  evr.ring := [someRecord 3, someRecord 4], evr.blocks := [{ number := 0, boot := 1, firstSeq := 3, records := [someRecord 3] }] }

theorem witness_EventsAndCrash_EventRecorder : (1535 : Fin 2048).val < 1536 ∧ 1536 ≤ (1536 : Fin 2048).val ∧
    flag (setFlag up Reg.EVR_CTL.drain_en) Reg.EVR_CTL.drain_en = true ∧ undrained history ≠ [] ∧
    flag (putFlag up Reg.EVR_CTL.drain_en false) Reg.EVR_CTL.drain_en = false ∧ flushing up = false ∧ up.evr.blocks = [] ∧ isManager up mgr = true ∧
    { up with evr.fetchSeq := some 3 }.evr.fetchSeq = some 3 ∧ blockOf up 3 = none ∧ (blockOf history 3).isSome = true := by decide +kernel

/-- A history segment's unit fills in bed 0. -/
def filling : State := { history with bfc.units := [
  { id := 4, bed := 0, stratum := 1, number := 0, slc := false, purpose := 2, slots := [], segments := [], started := false }] }

theorem witness_EventsAndCrash_EventRecorder_segment : filling.evr.blocks ≠ [] ∧ ((List.range 24).any fun c => (bchan filling (filling.evr.nextSegment % 4 * 24 + c)).lost) = false ∧
    flushing filling = false ∧ (unitFor filling (filling.evr.nextSegment % 4) false 2 false).map (·.1) = some 4 := by decide +kernel

theorem witness_EventsAndCrash_CrashImportMsix : (1 : Word).getLsbD 0 = true ∧ (2 : Word).getLsbD 0 = false ∧ up.evr.crash = none ∧ (crashing up).evr.crash ≠ none ∧
    importRecord up = none ∧ (importRecord importing).isSome = true ∧ isManager importing mgr = true ∧ isManager up mgr = true ∧
    ldPresent mem 0 = true ∧ ldPresent mem 1 = false ∧
    (let s := setFi up Reg.EVR_SRC_SEL.source (accessorIdx mgr) 1535
     selOf s mgr Reg.EVR_SRC_SEL.source = 1535 ∧
     getFi (writeBits s Reg.EVR_SRC_CFG.enable.addr 1535 0xFFFFFFFF 0) Reg.EVR_SRC_CFG.max_per_ms 1535 ≠ getFi s Reg.EVR_SRC_CFG.max_per_ms 1535) ∧
    1536 ≤ selOf (setFi up Reg.EVR_SRC_SEL.source (accessorIdx mgr) 1536) mgr Reg.EVR_SRC_SEL.source := by decide +kernel

/-! ### Figures of the spec's worked examples -/

/-- R264's example: data-grain position 7 of row 1,001 in bed 1 lies on channel 27; a clod that starts at position 16 of row 0 lies on
channels 16 to 19 and then 4 to 15. -/
theorem test_grain_channels : channelAt 1 1001 7 = 27 ∧ [16, 17, 18, 19].map (channelAt 0 0) = [16, 17, 18, 19] ∧
    (List.range 12).map (channelAt 0 1) = (List.range 12).map (· + 4) := by decide +kernel

/-- The population's example: 3,072 pSLC rows a stratum need 1,093 kiln strata a bed. -/
theorem test_kiln_strata : kilnNeeded 3072 = 1093 := by decide +kernel

/-- The Loam of the plots' example, in granules: 3,973.5 GiB. -/
theorem test_loam_available : loamAvail (setF { State.reset with
    plots.loamMib := 4194304, plots.maxCapacity := 786432, plots.poolsMib := 9216, plots.recordMib := 1024 } Reg.TMG_TD_CFG.topdress_gib 64) = 15894 := by
  decide +kernel

/-- The hold-up example's store: 40.50 V, C in mF, 16 dies on every channel. -/
def store (cap : Nat) : State :=
  setF (setF (setF { State.reset with phs.holdup := [4050] } Reg.PHS_HOLDUP_CAP.cap_mf cap) Reg.BFC_POP.dies_per_ch 16) Reg.BFC_POP.planes4 1

/-- Its usable and net energy in J, and its cover in MiB, for 3.30 F and for 2.20 F. -/
theorem test_holdup_cover : (useUnits (store 3300) / 20000000, netUnits (store 3300) / 200000000000, coverBytes (store 3300) / 1048576) = (2046, 1321, 157525) ∧
    (useUnits (store 2200) / 20000000, netUnits (store 2200) / 200000000000, coverBytes (store 2200) / 1048576) = (1364, 830, 98976) := by decide +kernel

/-- The access table's example (R61): mask 0xF00 takes the local LDs, 0xF0F LD 0 of every port, and 0x00F other IDs too. -/
theorem test_acl_masks : [0x000, 0x0FF, 0x100, 0x200, 0x300].map (aclMatches 0x81F00000) = [true, true, false, false, false] ∧
    [0x000, 0x0F0, 0x0F1, 0x100].map (aclMatches 0x81F0F000) = [true, true, false, false] ∧
    [0x100, 0x210, 0x300].map (aclMatches 0x8100F000) = [true, true, true] := by decide +kernel

/-- The chain's example (R61): mask 0xF1F ignores the arrival port. -/
theorem test_acl_chain_class : [0x205, 0x2E5, 0x206].map (aclMatches 0x81F1F205) = [true, true, false] := by decide +kernel

/-- The pool example's state: sand buffer 0x8A41, tag 4, is the only free one, and CRE was granted last. -/
def sand : State := { up with
  bpm.pools := [(1, { usable := 2097152, cache := [0x8A41], lastGrant := some ⟨1, 0x037⟩ })]
  bpm.recs := [(bufKey 1 0x8A41, { tag := 4 })] }

/-- The pool example's first two steps: BFC is granted handle 0x0A02_2905, and CRE gets POOL_EMPTY (R461, R465). -/
theorem test_pool_grant : (doBufferGet 4096 [⟨1, 0x037⟩, ⟨2, 0x194⟩] sand).out.take 2 = [.bufEmpty ⟨1, 0x037⟩, .bufGrant ⟨2, 0x194⟩ 0x0A022905] ∧
    (bufAt (doBufferGet 4096 [⟨1, 0x037⟩, ⟨2, 0x194⟩] sand) 1 0x8A41).tag = 5 := by decide +kernel

/-- A later request of CRE gets POOL_EMPTY too. -/
theorem test_pool_empty : (doBufferGet 3072 [⟨1, 0x037⟩] (doBufferGet 4096 [⟨2, 0x194⟩] sand)).out.head? = some (.bufEmpty ⟨1, 0x037⟩) := by
  decide +kernel

/-- The register map's example (R582): LO reads 0xFFFF_FFFA, and HI 20 ns later gives the half latched with it, to that master alone. -/
theorem test_device_time_pair :
    let s : State := { up with devTime := 0x12FFFFFFFA }
    let lo : Nat → Access := fun m => ⟨.mid (Fin.ofNat 4096 m), .mgmt, 0x8, 4⟩
    let hi : Nat → Access := fun m => ⟨.mid (Fin.ofNat 4096 m), .mgmt, 0xC, 4⟩
    let t := doPairLoRead (lo 0x342) s
    let u := doPairHiRead (hi 0x343) { t with devTime := 0x130000000E }
    (t.out, u.out, (doPairHiRead (hi 0x342) u).out.take 1) = ([.regData (.mid 0x342) .mgmt 0x8 0xFFFFFFFA],
      [.regData (.mid 0x343) .mgmt 0xC 0x13, .regData (.mid 0x342) .mgmt 0x8 0xFFFFFFFA], [.regData (.mid 0x342) .mgmt 0xC 0x12]) := by decide +kernel

/-- The doorbell of the rings' example: with a queue of 16 and head and tail at 14, value 1 is taken (R116). -/
theorem test_doorbell : (ringAt (doSqTailDoorbell 0 0 1 (sized { mem with cre.rings := [(0, { state := .active, sqHead := 14, sqTail := 14 })] })) 0 0).sqTail = 1 := by
  decide +kernel

/-- Reset values of the register map's list (R589). -/
theorem test_reset_values : ([(Reg.POU_BP_CFG.soft_pct.addr, 0x645F4B), (Reg.PHS_HOLDUP_CFG.eff_pct.addr, 0x3C17CA5A), (Reg.BFC_HEDGE_CFG.hedge_x4.addr, 0x64060C08),
    (Reg.TMG_GOV_CFG.avg_mbps.addr, 0xEA6005DC), (Reg.FLK_TWIN_CFG.side.addr, 0x280A04)] : List (Nat × Nat)).all (fun e => resetAt e.1 0 = BitVec.ofNat 32 e.2) = true := by
  decide +kernel

/-- The integrity of a word written over another (R6): a write of a w1c bit clears it, and other bits stay. -/
theorem test_w1c_clears : (let s := setFlag (setFlag up Reg.BPM_ERR.bad_free) Reg.BPM_ERR.share_full
    let t := doRegisterWrite ⟨mgr, .mgmt, BitVec.ofNat 32 Reg.BPM_ERR.bad_free.addr, 4⟩ 1 0 0 s
    (flag t Reg.BPM_ERR.bad_free, flag t Reg.BPM_ERR.share_full)) = (false, true) := by decide +kernel

/-- R438's example: the IV, and the first PRF input of the grain's key. -/
theorem test_grain_iv : grainIv 1 0x4A29 1001 7 = 0x825149C3E9 ∧
    prfInput (.grain 0x012 0x00010000 1 0x4A29 0x13) 1 = [0x01, 0x02, 0, 0, 0, 0, 0x12, 0, 0, 0, 1, 0, 1, 0, 0x29, 0x4A, 0, 0, 0x13, 0, 0, 0, 0, 1] := by
  decide +kernel

/-- The generator of R270, (x + 1)(x + α)(x + α²)(x + α³) = x⁴ + 15x³ + 54x² + 120x + 64 by hand, is a codeword; one wrong byte of it is not. -/
theorem test_row_code : rowByteGood (List.replicate 19 0 ++ [1, 15, 54, 120, 64]) = true ∧ rowByteGood (List.replicate 19 0 ++ [1, 15, 54, 121, 64]) = false := by
  decide +kernel

/-- Zeros are a line's codeword at LPA 0 and not at LPA 64: the address is part of the code (R407). -/
theorem test_line_address : lineGood 0 (List.replicate 40 0) = true ∧ lineGood 64 (List.replicate 40 0) = false := by decide +kernel

/-- R598's example and its Bedrock twin: ball CF47 holds BD61_RB_N, and ball BD71 the second subchannel's DQS_C[7] of Loam channel 11. -/
theorem test_balls : (rowName 63, rowName 42) = (['C', 'F'], ['B', 'D']) ∧ ballAt 63 47 = .bedrock 61 .rbN ∧ ballAt 42 71 = .loam 11 true (.dqsC 7) := by
  decide +kernel

/-- SHA-256 of "abc" (FIPS 180-4's own example). -/
theorem test_sha256 : sha256 [0x61, 0x62, 0x63] = 0xBA7816BF8F01CFEA414140DE5DAE2223B00361A396177A9CB410FF61F20015AD := by decide +kernel

/-- SHA-384 of "abc" (FIPS 180-4's own example). -/
theorem test_sha384 : sha384 [0x61, 0x62, 0x63] =
    0xCB00753F45A35E8BB5A03D699AC65007272C32AB0EDED1631A8B605A43FF5BED8086072BA1E7CC2358BAECA134C825A7 := by decide +kernel

/-- AES-256 of FIPS 197's example C.3. -/
theorem test_aes256 : aes256 (List.range 32) ((List.range 16).map (· * 17)) =
    [0x8E, 0xA2, 0xB7, 0xCA, 0x51, 0x67, 0x45, 0xBF, 0xEA, 0xFC, 0x49, 0x90, 0x4B, 0x49, 0x60, 0x89] := by decide +kernel

/-- The check values of CRC-32C (as its standard gives it) and of the CRC-64 (R127) for the bytes of "123456789". -/
theorem test_crc_checks : (crc32c ((List.range 9).map fun i => BitVec.ofNat 8 (0x31 + i)), crc64 ((List.range 9).map fun i => BitVec.ofNat 8 (0x31 + i))) =
    (0xE3069283, 0x995DC9BBDF1939FA) := by decide +kernel

/-- R119's layout: opcode, cid, plot, generation, offset and the first parameter of 64 bytes. -/
theorem test_descriptor : let d := descOf (BitVec.ofNat 512 (0x18 + 0xBEEF * 2 ^ 16 + 0x123 * 2 ^ 32 + 0x77 * 2 ^ 48 + 0x1000 * 2 ^ 64 + 5 * 2 ^ 256))
    d.opcode = 0x18 ∧ d.cid = 0xBEEF ∧ d.plot = 0x123 ∧ d.generation = 0x77 ∧ d.offset = 0x1000 ∧ d.params.head? = some 5 ∧ d.reserved = false := by
  decide +kernel

/-! ### Hypotheses met: the twin link -/

/-- A good frame of the twin on port 0. -/
def fr (ctr : Nat) : FrameIn := ⟨0, true, true, .good, .good, 0, ctr, 0, false⟩

/-- The same frame with a bad tag. -/
def badFr : FrameIn := { fr 1 with tagOk := false }

theorem witness_TwinPorts : getF pair Reg.FLK_TWIN_STS.ports_up / 2 ^ (0 : Fin 8).val % 2 = 1 ∧
    getF pair Reg.FLK_TWIN_STS.ports_up / 2 ^ (7 : Fin 8).val % 2 = 0 ∧ flushing pair = false ∧ badFr.tagOk = false := by decide +kernel

theorem witness_MirrorStream : receives pair = true ∧ receives (frameTaken pair (fr 1) 1).2 = true ∧
    (∀ k ∈ [1, 2, 3, 4, 5, 6, 9, 0xA, 0xF, 0x1A], (frameTaken pair (fr 1) k).1 = true) ∧ { pair with twin.ackOwed := true }.twin.ackOwed = true ∧
    (let s : State := { pair with twin.reorder := [(2, .resyncClod 0 0 [])] }
     gapOpen s = true ∧ receives s = true) ∧ gapOpen pair = false := by decide +kernel

/-- Plot 1 stands with a forwarded write and a forwarded read of its own, and a copy read that the twin answers under tag 6. -/
def forwarding : State := { pair with
  pou.fwdWrites := [{
    id := 1, tag := 4, origin := .host 0 5, mid := 0, plot := 1, line := 1, data := 0, be := 0, poison := false, metaVal := .any
    acceptedAt := 0 }]
  pou.fwdReads := [{ id := 2, tag := 5, origin := .host 0 6, mid := 0, plot := 1, line := 1, metaVal := .invalid }]
  pou.reads := [{ id := 3, origin := .host 0 7, mid := 0, plot := 1, line := 1, metaVal := .invalid, remoteTag := some 6 }] }

/-- Plot 1 is shared read-only. -/
def readOnly (s : State) : State := { s with plots.plots := [(1, { plotOne with mode := .sharedReadOnly })] }

/-- This side does not serve yet. -/
def idleTwin (s : State) : State := setF s Reg.FLK_TWIN_STS.mode 0

theorem witness_MirrorStream_forwarded : let u := (frameTaken forwarding (fr 1) 4).2
    serving u = true ∧ serving (frameTaken (idleTwin forwarding) (fr 1) 4).2 = false ∧ (frameTaken (idleTwin forwarding) (fr 1) 4).1 = true ∧
    reservedMid (0 : Mid).val = false ∧ reservedMid (0x31E : Mid).val = true ∧
    homeAllows u (0 : Mid).val (1 : LineNo).val 2 = some 1 ∧ writeAllowed u 1 = true ∧
    homeAllows (frameTaken (readOnly forwarding) (fr 1) 4).2 (0 : Mid).val (1 : LineNo).val 2 = some 1 ∧
    writeAllowed (frameTaken (readOnly forwarding) (fr 1) 4).2 1 = false ∧
    homeAllows u (0 : Mid).val (4194304 : LineNo).val 2 = none ∧ homeAllows u (0 : Mid).val (1 : LineNo).val 1 = some 1 ∧
    homeAllows u (0 : Mid).val (4194304 : LineNo).val 1 = none ∧
    isHome u (plotRec u ((plotOfLine u (1 : LineNo).val).getD 0)) = true ∧
    (let t := (frameTaken (putFlag forwarding Reg.FLK_TWIN_CFG.side true) (fr 1) 5).2
     let c := plotRec t ((plotOfLine t (1 : LineNo).val).getD 0)
     serving t = true ∧ plotOpen c = true ∧ isHome t c = false) := by decide +kernel

theorem witness_MirrorStream_answers : let u := (frameTaken forwarding (fr 1) 6).2
    (u.pou.fwdReads.find? fun r => namesRequest 0 5 r.mid r.tag).isSome = true ∧
    (u.pou.fwdReads.find? fun r => namesRequest 0 6 r.mid r.tag) = none ∧
    ((u.pou.reads.find? fun r => namesRequest 0 6 r.mid (r.remoteTag.getD 256)).map (·.id)) = some 3 ∧
    (u.pou.reads.find? fun r => namesRequest 0 7 r.mid (r.remoteTag.getD 256)) = none ∧
    (u.pou.fwdWrites.find? fun w => namesRequest 0 4 w.mid w.tag && w.seq.isNone).isSome = true := by decide +kernel

theorem witness_MirrorStream_notices :
    ((frameTaken { forwarding with pou.fwdWrites := forwarding.pou.fwdWrites.map fun w => { w with seq := some 8 } } (fr 1) 3).2.pou.fwdWrites.any fun w =>
      w.plot = (1 : PlotId).val && w.seq = some 8) = true ∧
    (let u := (frameTaken forwarding (fr 1) 3).2
     (u.pou.fwdWrites.any fun w => w.plot = (1 : PlotId).val && w.seq = some 8) = false ∧
     ((u.pou.fwdWrites.any fun w => w.plot = (1 : PlotId).val && w.seq.isNone) && !u.twin.notices.contains ((1 : PlotId).val, 8)) = true) := by decide +kernel

/-- A LEASE of counter 3 went out at 90 ns. -/
def leased : State := { pair with devTime := 100, twin.leaseSent := [(3, 90)] }

theorem witness_Leases : linkOk pair = true ∧ linkOk up = false ∧ (frameTaken pair (fr 1) 7).1 = true ∧
    (let u := (frameTaken leased (fr 1) 8).2
     (frameTaken leased (fr 1) 8).1 = true ∧ (u.twin.leaseSent.find? fun l => l.1 = 3) = some (3, 90) ∧ u.twin.twinLeaseAt ≤ 90 ∧ mirrored u = true ∧
     fenceOut u = false ∧ fenceIn u = false ∧ u.devTime < max (90 + 50000) (u.twin.lease.getD 0)) ∧
    (let u := (frameTaken { setFlag leased Reg.FLK_TWIN_STS.fence_in with twin.fenceLineIgnored := true } (fr 1) 8).2
     fenceIn u = true ∧ u.twin.fenceLineIgnored = true ∧ (u.twin.leaseSent.find? fun l => l.1 = 3) = some (3, 90)) ∧
    (let u := (frameTaken (setFlag leased Reg.FLK_TWIN_STS.fence_in) (fr 1) 8).2
     (frameTaken (setFlag leased Reg.FLK_TWIN_STS.fence_in) (fr 1) 8).1 = true ∧ fenceIn u = true ∧ u.twin.fenceLineIgnored = false) ∧
    (let u := (frameTaken { leased with devTime := 50090 } (fr 1) 8).2
     (u.twin.leaseSent.find? fun l => l.1 = 3) = some (3, 90) ∧ max (90 + 50000) (u.twin.lease.getD 0) ≤ u.devTime) := by decide +kernel

theorem witness_Leases_end :
    (let s : State := { pair with devTime := 60, twin.lease := some 60 }
     s.twin.lease = some 60 ∧ 60 ≤ s.devTime ∧ twinMode (incF (endLease s) Reg.FLK_LEASE_STS.lapses) = mMirrored) ∧
    (let s : State := { pair with devTime := 59, twin.lease := some 60 }
     s.twin.lease = some 60 ∧ s.devTime < 60) ∧
    mirrored pair = true ∧ fenceIn pair = false ∧ { pair with devTime := 60000 }.twin.leaseRxAt + 60000 ≤ { pair with devTime := 60000 }.devTime ∧
    { pair with devTime := 59999 }.devTime < { pair with devTime := 59999 }.twin.leaseRxAt + 60000 := by decide +kernel

/-- A self-test slice of engine 0x300 runs, and samples and a dispute are open. -/
def checking : State := { pair with
  twin.slices := [0x300], twin.samples := [(1, 1, 1, 0, 5)]
  twin.disputes := [{ group := 0, period := 2, mine := true, ownPassed := none, twinPassed := none, lines := [] }] }

theorem witness_DigestsAndHealth : mirrorsWrites pair = true ∧ (∀ k ∈ [9, 0x10, 0x11, 0x12], (frameTaken checking (fr 1) k).1 = true) ∧
    (checking.twin.disputes.find? fun d => d.group = (0 : Fin 64).val && d.ownPassed.isNone).isSome = true ∧
    ((frameTaken checking (fr 1) 0x11).2.twin.samples.find? fun x => x.1 = 1) = some (1, 1, 1, 0, 5) ∧
    { pair with devTime := 3000000000 }.twin.healthAt + 3000000000 ≤ { pair with devTime := 3000000000 }.devTime ∧ linkOk pair = true ∧
    sliceEngines.contains (0x300 : Mid).val = true ∧ engineBusy pair (0x300 : Mid).val = false ∧ pair.twin.slices.contains (0x300 : Mid).val = false ∧
    pair.twin.engineOut.contains (0x300 : Mid).val = false ∧ checking.twin.slices.contains (0x300 : Mid).val = true ∧
    engineBusy { checking with twin.slices := [] } (0x300 : Mid).val = false ∧
    mirrored { pair with twin.slices := [0x300] } = true ∧ mirrored { mem with twin.slices := [0x300] } = false ∧
    ((likeEngines 0x300).any fun x => x ≠ 0x300 && !(mem.twin.engineOut.contains x)) = true ∧
    (let s : State := { mem with twin.slices := [0x300], twin.engineOut := (likeEngines 0x300).filter (· ≠ 0x300) }
     ((likeEngines 0x300).any fun x => x ≠ 0x300 && !(s.twin.engineOut.contains x)) = false) := by
  decide +kernel

theorem witness_DigestsAndHealth_sample : let s := setF (putFlag (resident pair) Reg.FLK_TWIN_STS.lease_valid true) Reg.FLK_SAMPLE_CFG.rate_k 1
    reach s (1 : LineNo).val = some 1 ∧ getF s Reg.FLK_SAMPLE_CFG.rate_k ≠ 0 ∧ mirrored s = true ∧ canOrder s (plotRec s 1) = true ∧ linkOk s = true ∧
    (entryOf s (clodOf (1 : LineNo).val)).tier ≠ 0 ∧
    (orderedLine s (1 : LineNo).val).isSome = true := by decide +kernel

theorem witness_TwinSnoopsAndFetches : (∀ k ∈ [0xB, 0xC, 0xD, 0xE], (frameTaken pair (fr 1) k).1 = true) ∧
    ((frameTaken pair (fr 1) 0xB).2.twin.snoopWaits.any fun w => w.1 = 3) = false ∧ snoopsFor (frameTaken pair (fr 1) 0xB).2 (.twin 3) = [] ∧
    ((frameTaken { pair with twin.snoopWaits := [(3, 1, true, [])] } (fr 1) 0xB).2.twin.snoopWaits.any fun w => w.1 = 3) = true ∧
    ((frameTaken { pair with fcd.snoops := [{ id := 3, target := partnerTarget, line := 1, inv := true, cause := .read 1, sentAt := 0 }] } (fr 1) 0xC).2.fcd.snoops.find?
      fun x => x.id = 3 && x.target = partnerTarget).isSome = true ∧
    (let u := (frameTaken pair (fr 1) 0xD).2
     serving u = true ∧ 0 ≤ (plotRec u ((plotOfClod u (0 : ClodNo).val).getD 0)).mirrored) ∧
    (let u := (frameTaken (putFlag pair Reg.FLK_TWIN_CFG.side true) (fr 1) 0xD).2
     serving u = true ∧ isHome u (plotRec u ((plotOfClod u (0 : ClodNo).val).getD 0)) = false ∧ (plotRec u ((plotOfClod u (0 : ClodNo).val).getD 0)).mirrored < 5) ∧
    ((frameTaken { pair with bfc.fetches := [(3, 0)] } (fr 1) 0xE).2.bfc.fetches.any fun x => x.1 = 3 && x.2 = (0 : ClodNo).val) = true ∧
    ((frameTaken pair (fr 1) 0xE).2.bfc.fetches.any fun x => x.1 = 3 && x.2 = (0 : ClodNo).val) = false := by decide +kernel

theorem witness_RolesAndFences : (∀ k ∈ [0x15, 0x16], (frameTaken pair (fr 1) k).1 = true) ∧ mirrored (frameTaken pair (fr 1) 0x16).2 = true ∧
    (∀ m ∈ [mSource, mTarget], mirrored (frameTaken (setF pair Reg.FLK_TWIN_STS.mode m) (fr 1) 0x16).2 = false ∧
      twinMode (frameTaken (setF pair Reg.FLK_TWIN_STS.mode m) (fr 1) 0x16).2 = m ∧ (frameTaken (setF pair Reg.FLK_TWIN_STS.mode m) (fr 1) 0x16).1 = true) ∧
    (let u := (frameTaken { putFlag pair Reg.FLK_TWIN_STS.fence_in true with twin.fenceInAt := some 0, devTime := 10000 } (fr 1) 0x15).2
     u.twin.fenceInAt = some 0 ∧ fenceIn u = true ∧ u.devTime ≤ 0 + 10000 ∧ mirrored u = true) ∧
    (let u := (frameTaken { putFlag pair Reg.FLK_TWIN_STS.fence_in true with twin.fenceInAt := some 0, devTime := 10001 } (fr 1) 0x15).2
     u.twin.fenceInAt = some 0 ∧ 0 + 10000 < u.devTime) ∧
    (frameTaken pair (fr 1) 0x15).2.twin.fenceInAt = none ∧
    (let u := (frameIn pair (fr 1) false).2
     (frameIn pair (fr 1) false).1 = true ∧ u.twin.takeback = none ∧ u.twin.adopted.contains (1 : Word) = false ∧ (fr 1).epoch = epoch u ∧ mirrored u = true) ∧
    (frameIn { pair with twin.adopted := [1] } (fr 1) false).2.twin.adopted.contains (1 : Word) = true := by decide +kernel

/-- The fence line rises: the state after its own part of the effect. -/
def rising (s : State) : State :=
  let v := putFlag (restartStable s) Reg.FLK_TWIN_STS.fence_in true
  { v with twin.fenceInAt := some v.devTime, twin.fenceLineIgnored := false }

theorem witness_RolesAndFences_lines :
    (linkOk (rising (setFlag pair Reg.FLK_TWIN_STS.link_lost)) = false ∧ mirrored (rising (setFlag pair Reg.FLK_TWIN_STS.link_lost)) = true) ∧
    (let s := idleTwin (setFlag pair Reg.FLK_TWIN_STS.link_lost)
     linkOk (rising s) = false ∧ mirrored (rising s) = false ∧ solo (rising s) = false) ∧
    linkOk (rising pair) = true ∧ (rising pair).twin.demandFrameAt = none ∧
    (let s : State := { pair with twin.demandFrameAt := some 5, devTime := 10005 }
     linkOk (rising s) = true ∧ (rising s).twin.demandFrameAt = some 5 ∧ within10us (rising s) 5 = true ∧ within10us { s with devTime := 10006 } 5 = false) ∧
    (let s := setFlag pair Reg.FLK_TWIN_STS.fence_in
     fenceIn s = true ∧ linkOk s = true ∧ s.twin.fenceLineIgnored = false) ∧
    twinMode (setF (setF pair Reg.FLK_TWIN_STS.mode mHandshake) Reg.FLK_TWIN_STS.alive_in 2) = mHandshake ∧
    twinMode (setF pair Reg.FLK_TWIN_STS.alive_in 1) ≠ mHandshake ∧
    (let u := setF (setFlag pair Reg.FLK_TWIN_STS.link_lost) Reg.FLK_TWIN_STS.alive_in 2
     flag u Reg.FLK_TWIN_STS.link_lost = true ∧ mirrored u = true) ∧
    (let u := setF { setF (idleTwin up) Reg.GLB_START_STS.stage stTwin with glb.record := some { side := false, mode := 3, epoch := 0 } } Reg.FLK_TWIN_STS.alive_in 2
     twinMode u = 0 ∧ [stBoot, stTraining, stRecovery, stHalted].contains (stage u) = false ∧ u.twin.helloSeen = false ∧ u.glb.roleDecided = false ∧
     recordClass u.glb.record = 1) ∧
    (let s : State := { setF pair Reg.FLK_TWIN_STS.mode mHandshake with twin.fenceOutAt := some 0, devTime := 1000000 }
     s.twin.fenceOutAt = some 0 ∧ twinMode s = mHandshake ∧ 0 + 1000000 ≤ s.devTime ∧ s.twin.leaseRxAt ≤ 0) := by decide +kernel

/-- A resynchronisation with clod 0 still to send, and buffers for its frames. -/
def copying (r : Resync) : State := { setF (resident pair) Reg.FLK_TWIN_STS.mode mSource with
  twin.resync := some r, bpm.pools := [(1, { cache := List.range 17 })] }

theorem witness_RolesAndFences_copies :
    (let s := copying ⟨false, [0], []⟩
     s.twin.resync = some ⟨false, [0], []⟩ ∧ twinMode s = mSource ∧ reached s.pou.partnerLevel (getF s Reg.POU_BP_CFG.soft_pct) = false ∧
     s.twin.copyNext ≤ s.devTime ∧ retainFits s 65680 = true ∧
     ([0].find? fun c => clodStable s c && (copyRead s c || !(s.twin.copies.any fun x => x.1 = c))) = some 0 ∧ copyRead s 0 = true) ∧
    (let s : State := { copying ⟨false, [0], []⟩ with plots.entries := [(0, { tier := 2 })] }
     retainFits s 65680 = true ∧ ([0].find? fun c => clodStable s c && (copyRead s c || !(s.twin.copies.any fun x => x.1 = c))) = some 0 ∧ copyRead s 0 = false) ∧
    (let s := copying ⟨false, [], []⟩
     retainFits s 65680 = true ∧ (([] : List Nat).find? fun c => clodStable s c && (copyRead s c || !(s.twin.copies.any fun x => x.1 = c))) = none) ∧
    (let s : State := { copying ⟨false, [0], []⟩ with twin.copyNext := 1 }
     s.twin.resync = some ⟨false, [0], []⟩ ∧ s.devTime < s.twin.copyNext) := by decide +kernel

theorem witness_RolesAndFences_takeback :
    (let s : State := { setFlag { setF pair Reg.FLK_TWIN_STS.mode mMirrored with plots.plots := [(1, { plotOne with prefHome := true })] } Reg.FLK_TWIN_CFG.takeback_en with
       twin.stableS := 2, devTime := 2000000000 }
     twinMode s = mMirrored ∧ flag s Reg.FLK_TWIN_CFG.takeback_en = true ∧ linkOk s = true ∧ s.twin.takeback = none ∧
     ((strayPlots s).map groupOf).eraseDups ≠ [] ∧ s.twin.stableAt + s.twin.stableS * 1000000000 ≤ s.devTime) ∧
    { pair with twin.takeback := some { groups := [0], group := 0, plots := [], sent := none } }.twin.takeback =
      some { groups := 0 :: [], group := 0, plots := [], sent := none } ∧
    (let s : State := { pair with out := [.twin {
       ftype := 2, sideB := false, ordered := false, epoch := 0, ctr := 4, seq := 0, plot := 0
       level := 0, stop := false, body := .mirrorAck 3 }] }
     let u := (frameIn s (fr 1) false).2
     (frameIn s (fr 1) false).1 = true ∧ (sentFrame (setTwinEpoch (incF u Reg.FLK_STALE_CNT.bounced) 0) 4 2).isSome = true ∧
     epoch (setTwinEpoch (incF u Reg.FLK_STALE_CNT.bounced) 0) = 0) := by decide +kernel

/-- A HELLO of side B that agrees with the other fields of `u`. -/
def helloB (u : State) : Hello := {
  sideB := true, priority := false, maxCapacity := u.plots.maxCapacity, lastEpoch := 0, rejoin := [], rejoinIntact := true
  mode := 0, serving := false, image := 0, lostFrom := none, record := none, restored := false, deviceTime := 0 }

theorem witness_HelloAdminTime : (frameTaken pair (fr 1) 0x13).1 = true ∧ (frameIn pair (fr 1) true).1 = true ∧ (frameIn pair (fr 1) false).1 = true ∧
    flag (frameIn (setFlag pair Reg.GLB_TIME_ALIGN.reference) (fr 1) false).2 Reg.GLB_TIME_ALIGN.reference = true ∧
    (let u := (frameIn { putFlag pair Reg.GLB_TIME_ALIGN.reference false with twin.timePaired := true } (fr 1) false).2
     flag u Reg.GLB_TIME_ALIGN.reference = false ∧ u.twin.timePaired = true) ∧ up.twin.timePaired = false ∧
    (let s : State := setFlag { pair with twin.timePaired := true } Reg.GLB_TIME_ALIGN.reference
     s.twin.timePaired = true ∧ flag s Reg.GLB_TIME_ALIGN.reference = true) ∧
    proposalHolds (setF { up with plots.maxCapacity := 1000 } Reg.TMG_BEDROCK_AVAIL.avail 1000) ⟨2, { base := 5, size := 1 }, []⟩ = true ∧
    proposalHolds pair ⟨1, plotOne, []⟩ = false ∧
    twinMode (frameTaken (setF pair Reg.FLK_TWIN_STS.mode mTarget) (fr 1) 0x13).2 = mTarget ∧ twinMode (frameTaken pair (fr 1) 0x13).2 ≠ mTarget := by decide +kernel

theorem witness_HelloAdminTime_hello : ∀ seen ∈ [true, false],
    let u := (frameIn { pair with twin.helloSeen := seen, twin.optPriority := true } (fr 1) true).2
    let h := helloB u
    let v := checkPriority (alignTime (setTwinEpoch { u with twin.helloSeen := true } (fr 1).epoch) h) h
    let w := if u.twin.helloSeen = true then v else sendHello v
    u.twin.helloSeen = seen ∧ h.sideB ≠ sideB w ∧ h.maxCapacity = w.plots.maxCapacity ∧ h.maxCapacity + 1 ≠ w.plots.maxCapacity ∧
    ({ h with sideB := false }).sideB = sideB w := by decide +kernel

/-! ### Hypotheses met: start-up, restore, shutdown -/

/-- Firmware runs and the start stands at a stage. -/
def staged (n : Nat) : State := setF mem Reg.GLB_START_STS.stage n

/-- A kiln image with a closing grain. -/
def anImage : KilnImage := {
  sections := []
  lost := none
  closing := [{
    image := 1, startTime := 0, closeTime := 0, cause := 0, complete := true, bed := 0, side := false
    mode := 4, epoch := 0, lastClod := none, dataGrains := 0, sectionGrains := 0, walk := 0, mediaTime := 0 }] }

theorem witness_StartAndRestore_JournalAndCheckpoint : up.glb.packing = [] ∧ flushing { up with phs.flushStart := some 0 } = true ∧
    { up with glb.packing := [{ change := .imageConsumed 1, seq := 0, mediaTime := 0 }] }.glb.packing ≠ [] ∧ flushing up = false ∧
    (stage (staged stServing) ≠ stBoot ∧ stage (staged stServing) ≠ stTraining ∧ stage (staged stServing) ≠ stRecovery) ∧
    (ckptKeys (staged stServing)).filter (fun k => decide ((staged stServing).glb.ckptNext ≤ k)) = 0 :: ((List.range 15).map (· + 1)) := by decide +kernel

/-- A metadata unit fills in bed 0, and a record waits to be packed. -/
def packed : State := { up with
  glb.packing := [{ change := .imageConsumed 1, seq := 0, mediaTime := 0 }]
  bfc.units := [{ id := 4, bed := 0, stratum := 1, number := 0, slc := false, purpose := 2, slots := [], segments := [], started := false }] }

theorem witness_StartAndRestore_JournalAndCheckpoint_unit : packed.glb.packing ≠ [] ∧ flushing packed = false ∧
    (((List.range 4).map fun i => (packed.glb.journalSeq + i) % 4).findSome? (fun b => unitFor packed b false 2 false)).map (·.1) = some 4 := by decide +kernel

theorem witness_StartAndRestore_RestoreSequence : stage (staged stRecovery) = stRecovery ∧ stage (staged stRestore) = stRestore ∧ goodImage (staged stRestore) = none ∧
    goodImage (setF { staged stRestore with glb.kiln := some anImage } Reg.GLB_START_STS.image imComplete) = some anImage ∧
    stage (staged stSettle) = stSettle ∧ dirtyGrains (staged stSettle) = 0 ∧ anImage.closing ≠ [] ∧
    dirtyGrains { staged stSettle with pou.dirty := [(1, true)] } ≠ 0 ∧ stage (staged stErase) = stErase ∧ stage (staged stServing) ≠ stErase ∧
    stage (staged stServing) ≠ stRecovery ∧ stage (staged stServing) ≠ stRestore := by decide +kernel

theorem witness_SoloStartAndShutdown_SoloStart :
    (let s := setF (staged stTwin) Reg.FLK_TWIN_STS.mode 0
     let t : State := { s with glb.record := some { side := false, mode := 4, epoch := 0 } }
     [stBoot, stTraining, stRecovery, stHalted].contains (stage t) = false ∧ aliveIn t = 0 ∧ twinMode t = 0 ∧ t.twin.helloSeen = false ∧ t.glb.roleDecided = false ∧ recordClass t.glb.record = 2 ∧
     recordClass (some { side := false, mode := 3, epoch := 0 }) = 1) ∧
    (let s := setF (setF (setFlag mem Reg.PHS_KILN_STS.armed) Reg.GLB_START_STS.pair 1) Reg.FLK_TWIN_STS.mode 0
     getF s Reg.GLB_START_STS.pair = 1 ∧ twinMode s = 0 ∧ armed s = true ∧ s.glb.twinStart = none ∧ { s with twin.helloSeen := true }.twin.helloSeen = true) ∧ getF mem Reg.GLB_START_STS.pair ≠ 1 ∧
    getF (setF mem Reg.GLB_START_STS.halt 7) Reg.GLB_START_STS.halt = 7 ∧ getF (setF mem Reg.GLB_START_STS.halt 8) Reg.GLB_START_STS.halt = 8 := by decide +kernel

theorem witness_SoloStartAndShutdown_ShutdownAndWarmReset : mem.glb.shutdown = .none ∧ flushing mem = false ∧ dirtyGrains { mem with glb.shutdown := .orderly } = 0 ∧
    solo mem = true ∧ { mem with twin.helloSeen := true }.twin.helloSeen = true ∧ mem.twin.helloSeen = false ∧ solo pair = false ∧ pair.glb.shutdown = .none ∧
    dirtyGrains { mem with glb.shutdown := .warm } = 0 ∧ mem.phs.dieReset = false ∧ (∀ ch : Fin 16, loamState { mem with glb.shutdown := .warm } ch ≠ 2) ∧
    (∀ m : Mid, (.jtag : Accessor) = .mid m → m.val ≠ 0x340) ∧
    { State.reset with glb.shutdown := .warm }.phs.dieReset = true ∧
    (let s : State := { State.reset with glb.shutdown := .warm }
     let u := resumeMedia (setF { s with phs.dieReset := false, glb.shutdown := .none, glb.runningAt := s.devTime } Reg.GLB_START_STS.kind 1)
     u.glb.record = none ∧ u.cku.xtsSlots.isEmpty = true) := by
  refine ⟨by decide +kernel, by decide +kernel, by decide +kernel, by decide +kernel, by decide +kernel, by decide +kernel, by decide +kernel,
    by decide +kernel, by decide +kernel, by decide +kernel, by decide +kernel, ?_, by decide +kernel, by decide +kernel⟩
  intro m h
  cases h

end Sys2Proof.Tests
end

section
/-! PROOFS. Register accesses: the register commands through `registerWrite` and `registerRead`, one rule per kind of target, and
the statements about register writes, accesses and pairs. -/

namespace Sys2Proof.Machine

/-! ### The register commands as their effects -/

theorem exec_registerWrite (s : State) (a : Access) (value upper hwSet : Word) :
    exec (.registerWrite a value upper hwSet) s = .next (settledPools s (registerWrite s a value upper hwSet)) := rfl

theorem exec_rcFieldRead (s : State) (a : Access) (counted : Word) :
    exec (.rcFieldRead a counted) s = .next (finished s (registerRead s a counted)) := rfl

theorem exec_pairLoWrite (s : State) (a : Access) (value : Word) :
    exec (.pairLoWrite a value) s = .next (ended s (registerWrite s a value 0 0)) := rfl

theorem exec_pairHiWrite (s : State) (a : Access) (value : Word) :
    exec (.pairHiWrite a value) s = .next (ended s (registerWrite s a value 0 0)) := rfl

theorem exec_pairLoRead (s : State) (a : Access) : exec (.pairLoRead a) s = .next (finished s (doPairLoRead a s)) := rfl

theorem exec_pairHiRead (s : State) (a : Access) : exec (.pairHiRead a) s = .next (finished s (doPairHiRead a s)) := rfl

/-! ### What a management access reaches -/

@[simp] theorem setupWrite_of_isManager {s : State} {who : Accessor} (h : isManager s who = true) (addr : Nat) (act : State) :
    setupWrite s who addr act = act := by simp [setupWrite, h]

/-- A dword access of the management space by a manager, aligned and inside the space, reaches its register. -/
theorem regTarget_mgmt {s : State} {who : Accessor} {addr : Word} (h : isManager s who = true) (hal : addr.toNat % 4 = 0)
    (hin : addr.toNat < 0x0F000000) : regTarget s ⟨who, .mgmt, addr, 4⟩ = .mgmt addr.toNat (mgmtIndex s who addr.toNat) := by
  have hWord : wordAccess ⟨who, .mgmt, addr, 4⟩ = true := Bool.and_eq_true_iff.2 ⟨rfl, decide_eq_true hal⟩
  simp only [regTarget, h, hWord, hin, decide_true, Bool.and_self, if_true]

/-- Only a manager's access reaches a register of the management space (R14). -/
theorem isManager_of_regTarget_mgmt {s : State} {a : Access} {addr : Nat} {idx : Option Nat} (h : regTarget s a = .mgmt addr idx) :
    isManager s a.who = true := by
  cases hSpace : a.space with
  | mgmt =>
    simp only [regTarget, hSpace] at h
    split at h
    · rename_i hGuard
      simp only [Bool.and_eq_true] at hGuard
      exact hGuard.1.1
    · cases h
  | bar0 ld =>
    simp only [regTarget, hSpace] at h
    repeat' split at h
    all_goals cases h
  | bar2 ld =>
    simp only [regTarget, hSpace] at h
    repeat' split at h
    all_goals cases h

/-! ### Writes, by what the access reaches -/

section Writes
variable {s : State} {a : Access} {value upper hwSet : Word}

theorem registerWrite_absent (h : regTarget s a = .absent) : registerWrite s a value upper hwSet = s := by
  simp only [registerWrite, h]

theorem registerWrite_rejected (h : regTarget s a = .rejected) : registerWrite s a value upper hwSet = rejectWrite s a := by
  simp only [registerWrite, h]

/-- A selector that selects nothing: the write reaches no register. -/
theorem registerWrite_mgmt_none {addr : Nat} (h : regTarget s a = .mgmt addr none) : registerWrite s a value upper hwSet = s := by
  simp only [registerWrite, h, setupWrite_of_isManager (isManager_of_regTarget_mgmt h)]

theorem registerWrite_mgmt {addr idx : Nat} (h : regTarget s a = .mgmt addr (some idx)) :
    registerWrite s a value upper hwSet = writeMgmt s a addr idx value hwSet := by
  simp only [registerWrite, h]

theorem registerWrite_page {ld : Ld} {ring : RingNo} {off : Nat} (h : regTarget s a = .page ld ring off) :
    registerWrite s a value upper hwSet = writePage s ld ring off value := by
  simp only [registerWrite, h]

theorem registerWrite_ldSpace {ld : Ld} {off : Nat} (h : regTarget s a = .ldSpace ld off) :
    registerWrite s a value upper hwSet = writeLd s ld off value hwSet := by
  simp only [registerWrite, h]

theorem registerWrite_cxl {ld : Ld} {off : Nat} (h : regTarget s a = .cxl ld off) :
    registerWrite s a value upper hwSet =
      if a.bytes.val = 8 then writeCxl (writeCxl s ld off value) ld (off + 4) upper else writeCxl s ld off value := by
  simp only [registerWrite, h]

/-- A register whose write has an effect of its own takes that effect. -/
theorem writeMgmt_special {addr idx : Nat} {t : State} (h : specialWrite s a.who addr value = some t) :
    writeMgmt s a addr idx value hwSet = t := by
  simp only [writeMgmt, h]

/-- A plain register: no effect of its own, and outside the host links, the key window, the sense channels and the import window. -/
theorem writeMgmt_plain {addr idx : Nat} (h : specialWrite s a.who addr value = none)
    (hLink : ¬ (0x1001000 ≤ addr ∧ addr < 0x1002000)) (hKey : ¬ (0xB000044 ≤ addr ∧ addr ≤ 0xB000070))
    (hSense : ¬ (0xC00001C ≤ addr ∧ addr ≤ 0xC000028)) (hImport : ¬ (0xD002000 ≤ addr ∧ addr < 0xD002400)) :
    writeMgmt s a addr idx value hwSet = plainWrite s a addr idx value hwSet := by
  simp only [writeMgmt, h, if_neg hLink, if_neg hKey, if_neg hSense, if_neg hImport]

end Writes

/-! ### Reads, by what the access reaches -/

section Reads
variable {s : State} {a : Access} {counted : Word}

theorem registerRead_absent (h : regTarget s a = .absent) : registerRead s a counted = s := by
  simp only [registerRead, h]

theorem registerRead_rejected (h : regTarget s a = .rejected) : registerRead s a counted = rejectRead s a := by
  simp only [registerRead, h]

/-- A selector that selects nothing: the read answers 0; MGC_CS_CMPL_LO (0xE000034) alone has a read with an effect of its own. -/
theorem registerRead_mgmt_none {addr : Nat} (h : regTarget s a = .mgmt addr none) (hne : addr ≠ 0xE000034) :
    registerRead s a counted = sendValue s a 0 := by
  unfold registerRead
  rw [h]
  split <;> simp_all [readValue]

theorem registerRead_mgmt {addr idx : Nat} (h : regTarget s a = .mgmt addr (some idx)) (hne : addr ≠ 0xE000034) :
    registerRead s a counted = clearRc (sendValue s a (readValue s a.who (.mgmt addr (some idx)))) addr idx counted := by
  unfold registerRead
  rw [h]
  split <;> simp_all

theorem registerRead_page {ld : Ld} {ring : RingNo} {off : Nat} (h : regTarget s a = .page ld ring off) :
    registerRead s a counted = sendValue s a (viewPage s ld ring off) := by
  simp only [registerRead, h, readValue]

theorem registerRead_ldSpace {ld : Ld} {off : Nat} (h : regTarget s a = .ldSpace ld off) :
    registerRead s a counted = sendValue s a (readValue s a.who (.ldSpace ld off)) := by
  simp only [registerRead, h]

theorem registerRead_cxl {ld : Ld} {off : Nat} (h : regTarget s a = .cxl ld off) :
    registerRead s a counted =
      if a.bytes.val = 8 then readCxl (readCxl s a ld off) { a with addr := a.addr + 4 } ld (off + 4) else readCxl s a ld off := by
  simp only [registerRead, h]

/-- A read of a register without rc fields clears nothing (R583). -/
theorem clearRc_of_no_rc {addr idx : Nat} (h : (regRow addr).all (fun d => !d.fields.any fun f => f.access = .rc) = true) :
    clearRc s addr idx counted = s := by
  unfold clearRc
  split
  · rename_i d hd
    rw [hd] at h
    simp_all
  · rfl

/-- A read of the management space by a master that is no manager raises the event of R5, which names the master, and answers all ones
(R594). -/
theorem rejectRead_of_not_isManager {m : Mid} (h : isManager s (.mid m) = false) (addr : Word) :
    rejectRead s ⟨.mid m, .mgmt, addr, 4⟩ =
      emit (raise s (blockSource addr.toNat) .registerReject m.val [addr.toNat]) (.regReject (.mid m) .mgmt addr.toNat) := by
  have hcore : ¬ (0x340 ≤ m.val ∧ m.val ≤ 0x345) := by simpa [isManager] using h
  simp only [rejectRead, rejectAccess, if_neg hcore, accessorMid]

end Reads

/-! ### Register writes and accesses -/

/-- Settles O8: with no effect of its own and outside the windows, the write is `writeBits`, which a manager may make. -/
theorem registerWriteTakesItsFields : Obligations.RegisterWriteTakesItsFields := by
  intro s who addr value upper hwSet idx hTarget hMgr hSpecial hLink hKey hSense hImport
  rw [exec_registerWrite, registerWrite_mgmt hTarget, writeMgmt_plain hSpecial hLink hKey hSense hImport, plainWrite,
    setupWrite_of_isManager hMgr]

/-- Settles O11, by what the access reaches. -/
theorem registerAccess : Obligations.RegisterAccess := by
  refine ⟨fun s a value upper hwSet counted => ?_, fun s who m hwho hm addr => ?_⟩
  · simp only [exec_registerWrite, exec_rcFieldRead]
    refine ⟨fun h => ?absent, fun addr h => ?noIndex, fun h => ?rejected, fun addr idx h => ?mgmt, fun ld ring off h => ?page,
      fun ld off h => ?ldSpace, fun ld off h => ?cxl⟩
    case absent => rw [registerWrite_absent h, registerRead_absent h]; exact ⟨rfl, rfl⟩
    case noIndex =>
      rw [registerWrite_mgmt_none h]
      exact ⟨rfl, fun hne => by rw [registerRead_mgmt_none h hne, sendValue]⟩
    case rejected => rw [registerWrite_rejected h, registerRead_rejected h, rejectRead]; exact ⟨rfl, rfl⟩
    case mgmt => rw [registerWrite_mgmt h]
    case page => rw [registerWrite_page h, registerRead_page h, writePage, sendValue]; exact ⟨rfl, rfl⟩
    case ldSpace => rw [registerWrite_ldSpace h, registerRead_ldSpace h, sendValue]; exact ⟨rfl, rfl⟩
    case cxl => rw [registerWrite_cxl h, registerRead_cxl h]; exact ⟨rfl, rfl⟩
  · subst hwho
    exact rejectRead_of_not_isManager hm addr

/-! ### Register pairs (R6, R582) -/

section Pairs
variable {s : State}

/-- A manager's dword write of a register with an effect of its own, under no selector, is that effect. -/
theorem registerWrite_special {who : Accessor} {addr value upper hwSet : Word} {t : State} (hMgr : isManager s who = true)
    (hAl : addr.toNat % 4 = 0) (hIn : addr.toNat < 0x0F000000) (hIndex : mgmtIndex s who addr.toNat = some 0)
    (hSpecial : specialWrite s who addr.toNat value = some (setupWrite s who addr.toNat t)) :
    registerWrite s ⟨who, .mgmt, addr, 4⟩ value upper hwSet = t := by
  have hTarget := regTarget_mgmt hMgr hAl hIn
  rw [hIndex] at hTarget
  rw [registerWrite_mgmt hTarget, writeMgmt_special hSpecial, setupWrite_of_isManager hMgr]

/-- A manager's write of BFC_MEDIA_OFS_LO (0x7000068) or PHS_KILN_IMG_LO (0xC000054) waits for its HI half. -/
theorem registerWrite_rwLo {who : Accessor} {addr : Word} (value upper hwSet : Word) (hMgr : isManager s who = true)
    (hAddr : addr.toNat = 0x7000068 ∨ addr.toNat = 0xC000054) :
    registerWrite s ⟨who, .mgmt, addr, 4⟩ value upper hwSet = pendLo s addr.toNat (accessorIdx who) value := by
  refine registerWrite_special hMgr (by omega) (by omega) ?_ ?_ <;> rcases hAddr with h | h <;> rw [h] <;> rfl

/-- A manager's write of BFC_MEDIA_OFS_HI (0x700006C) or PHS_KILN_IMG_HI (0xC000058) is `writeHiHalf`. -/
theorem registerWrite_rwHi {who : Accessor} {addr : Word} (value upper hwSet : Word) (hMgr : isManager s who = true)
    (hAddr : addr.toNat = 0x700006C ∨ addr.toNat = 0xC000058) :
    registerWrite s ⟨who, .mgmt, addr, 4⟩ value upper hwSet = writeHiHalf s who addr.toNat value := by
  refine registerWrite_special hMgr (by omega) (by omega) ?_ ?_ <;> rcases hAddr with h | h <;> rw [h] <;> rfl

/-- A HI half that is written uses its waiting LO half up in either case. -/
theorem writeHiHalf_eq (who : Accessor) (addr : Nat) (value low : Word)
    (hLow : (pendingLo s (addr - 4) (accessorIdx who)).getD (regAt s (addr - 4) 0) = low) :
    writeHiHalf s who addr value = dropLo (if addr = 0x700006C ∧ mediaWith s low value < mediaTime s then s
      else setRegAt (setRegAt s (addr - 4) 0 low) addr 0 value) (addr - 4) (accessorIdx who) := by
  simp only [writeHiHalf, hLow]
  split <;> rfl

/-- A write at the offset of a set-up register of an LD's ring is one of the ring it selects (R110, R153). -/
theorem writeLd_setup {ld : Ld} {off : Nat} {reg : SetupReg} (value hwSet : Word) (h : setupRegAt off = some reg)
    (hlo : 0x1008 < off) (hhi : off < 0x2000) :
    writeLd s ld off value hwSet = doRingSetupWrite ld (selectedRing s ld) reg value s := by
  have h100 : off ≠ 0x100 := by omega
  have h1000 : off ≠ 0x1000 := by omega
  have h1004 : off ≠ 0x1004 := by omega
  have h1008 : off ≠ 0x1008 := by omega
  have hMsix : ¬ (0x2000 ≤ off ∧ off < 0x2400) := by omega
  simp only [writeLd, if_neg h100, if_neg h1000, if_neg h1004, if_neg h1008, if_neg hMsix, h]

/-- A LO read latches the HI half as it stands, for its reader, and answers. -/
theorem doPairLoRead_latches {a : Access} {addr i : Nat} (hPlace : pairPlace s a = some (addr, i)) (hLo : loHalf addr = true) :
    doPairLoRead a s = registerRead { s with
      pairLatch := sput none s.pairLatch (regKey addr i)
        (some (readValue s a.who (regTarget s { a with addr := a.addr + 4 }))) } a 0 := by
  simp only [doPairLoRead, hPlace, hLo, if_true]

theorem doPairLoRead_plain {a : Access} (h : ∀ addr i, pairPlace s a = some (addr, i) → loHalf addr = false) :
    doPairLoRead a s = registerRead s a 0 := by
  unfold doPairLoRead
  split
  · rename_i addr i hPlace
    simp [h addr i hPlace]
  · rfl

/-- A HI read gives the latched half and uses it up. -/
theorem doPairHiRead_latched {a : Access} {addr i : Nat} {half : Word} (hPlace : pairPlace s a = some (addr + 4, i))
    (hLo : loHalf addr = true) (hHalf : sget none s.pairLatch (regKey addr i) = some half) :
    doPairHiRead a s = sendValue { s with pairLatch := sput none s.pairLatch (regKey addr i) none } a half := by
  simp [doPairHiRead, hPlace, hLo, hHalf]

/-- A HI read with no half latched, or of a register that is no HI half, is a read like any other. -/
theorem doPairHiRead_plain {a : Access}
    (h : ∀ addr i, pairPlace s a = some (addr + 4, i) → loHalf addr = true → sget none s.pairLatch (regKey addr i) = none) :
    doPairHiRead a s = registerRead s a 0 := by
  unfold doPairHiRead
  split
  · rename_i addr i hPlace
    split
    · rename_i hHi
      rw [h (addr - 4) i (by rw [hPlace, Nat.sub_add_cancel hHi.1]) hHi.2]
    · rfl
  · rfl

/-- A manager's access at 0x8 reaches GLB_DEVTIME_LO. -/
theorem regTarget_devTimeLo {who : Accessor} (hMgr : isManager s who = true) :
    regTarget s ⟨who, .mgmt, 0x8, 4⟩ = .mgmt 0x8 (some 0) := regTarget_mgmt hMgr (by decide) (by decide)

/-- A read of GLB_DEVTIME_LO (0x8) by a manager answers the low half of device time. -/
theorem registerRead_devTimeLo {who : Accessor} (hMgr : isManager s who = true) :
    registerRead s ⟨who, .mgmt, 0x8, 4⟩ 0 = emit s (.regData who .mgmt 0x8 (BitVec.ofNat 32 s.devTime)) := by
  have hRow : (regRow 0x8).isSome = true := by decide +kernel
  have hRc : (regRow 0x8).all (fun d => !d.fields.any fun f => f.access = .rc) = true := by decide +kernel
  rw [registerRead_mgmt (regTarget_devTimeLo hMgr) (by decide), clearRc_of_no_rc hRc, readValue, if_pos hRow]
  rfl

/-- GLB_DEVTIME_HI (0xC) reads as the high half of device time. -/
theorem readValue_devTimeHi {who : Accessor} (hMgr : isManager s who = true) :
    readValue s who (regTarget s ⟨who, .mgmt, 0xC, 4⟩) = BitVec.ofNat 32 (s.devTime / 4294967296) := by
  have hTarget : regTarget s ⟨who, .mgmt, 0xC, 4⟩ = .mgmt 0xC (some 0) := regTarget_mgmt hMgr (by decide) (by decide)
  have hRow : (regRow 0xC).isSome = true := by decide +kernel
  rw [hTarget, readValue, if_pos hRow]
  rfl

/-- The LO read of device time latches the high half as it stands. -/
theorem doPairLoRead_devTime {who : Accessor} (hMgr : isManager s who = true) :
    doPairLoRead ⟨who, .mgmt, 0x8, 4⟩ s = { s with
      pairLatch := sput none s.pairLatch (regKey 0x8 (accessorIdx who)) (some (BitVec.ofNat 32 (s.devTime / 4294967296)))
      out := .regData who .mgmt 0x8 (BitVec.ofNat 32 s.devTime) :: s.out } := by
  have hPlace : pairPlace s ⟨who, .mgmt, 0x8, 4⟩ = some (0x8, accessorIdx who) := by
    simp only [pairPlace, regTarget_devTimeLo hMgr]
  have hHi : readValue s who (regTarget s ⟨who, .mgmt, 0x8 + 4, 4⟩) = BitVec.ofNat 32 (s.devTime / 4294967296) :=
    readValue_devTimeHi hMgr
  rw [doPairLoRead_latches hPlace (by decide), hHi]
  exact registerRead_devTimeLo hMgr

end Pairs

/-- Settles O12: each clause is the rule for its half, and any other access is `registerWrite` or `registerRead`. -/
theorem registerPairs : Obligations.RegisterPairs := by
  refine ⟨fun s who addr value hMgr hAddr => ?loWrite, fun s who addr value low hMgr hAddr hLow => ?hiWrite,
    fun s a value ld off hTarget => ?ringSetup, fun s a value => ⟨exec_pairLoWrite s a value, exec_pairHiWrite s a value⟩,
    fun s a addr i half hPlace hLo hHalf => ?loRead, fun s a addr i half hPlace hLo hHalf => ?hiRead, fun s a h => ?loPlain,
    fun s a h => ?hiPlain, fun s who hMgr => ?devTime⟩
  case loWrite => rw [exec_pairLoWrite, registerWrite_rwLo value 0 0 hMgr hAddr, pendLo]
  case hiWrite => rw [exec_pairHiWrite, registerWrite_rwHi value 0 0 hMgr hAddr, writeHiHalf_eq who _ value low hLow]
  case ringSetup =>
    rw [exec_pairLoWrite, exec_pairHiWrite, registerWrite_ldSpace hTarget]
    refine ⟨?_, ?_, ?_, ?_⟩ <;> rintro rfl <;> rw [writeLd_setup value 0 rfl (by decide) (by decide)]
  case loRead => rw [exec_pairLoRead, doPairLoRead_latches hPlace hLo, hHalf]
  case hiRead => rw [exec_pairHiRead, doPairHiRead_latched hPlace hLo hHalf, sendValue]
  case loPlain => rw [exec_pairLoRead, doPairLoRead_plain h]
  case hiPlain => rw [exec_pairHiRead, doPairHiRead_plain h]
  case devTime => rw [exec_pairLoRead, doPairLoRead_devTime hMgr]

end Sys2Proof.Machine
end

section
/-! PROOFS. The step, device time and denied writes: which commands leave device time, what an idle step does, and what a master that
is no manager can write. -/

namespace Sys2Proof.Machine

/-! ### Device time (R20, R21) -/

/-- Every command but the always-on reset and HELLO ends with `completes`, which keeps the queue and device time. -/
theorem exec_completes_or (c : Instr) (s : State) :
    (∃ t, exec c s = completes s t) ∨ c = .aonPowerOnReset ∨ ∃ f h, c = .hello f h := by
  cases c
  case aonPowerOnReset => exact .inr (.inl rfl)
  case hello f h => exact .inr (.inr ⟨f, h, rfl⟩)
  all_goals exact .inl ⟨_, rfl⟩

theorem devTime_of_completes {s t u : State} (h : completes s t = .next u) : u.devTime = s.devTime := by
  cases h
  rfl

/-- Settles O5: what `completes` answers has the device time that the command found. -/
theorem devTimeKept : Obligations.DevTimeKept := by
  intro c s t hNext
  obtain ⟨v, hEnd⟩ | hOther := exec_completes_or c s
  · exact .inl (devTime_of_completes (hEnd.symm.trans hNext))
  · exact .inr hOther

/-! ### The step -/

theorem step_cons (s : State) (c : Instr) (rest : List Instr) :
    step { s with pending := c :: rest } = exec c { s with pending := rest } := rfl

theorem step_idle {s : State} (h : s.pending = []) : step s = idles s := by simp only [step, h]

theorem idles_noMac {s : State} (h : macWaits s = false) : idles s = .next (idleTick s) := by
  simp only [idles, h, Bool.false_eq_true, if_false]

theorem idles_mac {s : State} (h : macWaits s = true) : idles s = .next (settledTimed s (idleTick s)) := by
  simp only [idles, h, if_true, settlesTimed, settledTimed]

theorem idleTick_running {s : State} (h : s.phs.running = true) :
    idleTick s = { s with
      devTime := (s.devTime + 10 + slewStep s.devTime s.twin.slew).toNat
      twin.slew := s.twin.slew - slewStep s.devTime s.twin.slew } := by simp only [idleTick, h, if_true]

theorem idleTick_held {s : State} (h : s.phs.running = false) : idleTick s = s := by
  simp only [idleTick, h, Bool.false_eq_true, if_false]

section Slew
variable (time : Nat) (slew : Int)

/-- A tick is slewed by nothing, or by 1 ns toward the reference. -/
theorem slewStep_cases : slewStep time slew = 0 ∨ (0 < slew ∧ slewStep time slew = 1) ∨ (slew < 0 ∧ slewStep time slew = -1) := by
  unfold slewStep
  by_cases hTick : time / 1000 = (time + 10) / 1000
  · exact .inl (if_pos hTick)
  · rw [if_neg hTick]
    by_cases hPos : 0 < slew
    · exact .inr (.inl ⟨hPos, if_pos hPos⟩)
    · rw [if_neg hPos]
      by_cases hNeg : slew < 0
      · exact .inr (.inr ⟨hNeg, if_pos hNeg⟩)
      · exact .inl (if_neg hNeg)

theorem slewStep_ge : -1 ≤ slewStep time slew := by
  have := slewStep_cases time slew
  omega

theorem slewStep_le : slewStep time slew ≤ 1 := by
  have := slewStep_cases time slew
  omega

/-- A count that stands at the reference is not slewed. -/
theorem slewStep_zero : slewStep time 0 = 0 := by
  have := slewStep_cases time 0
  omega

variable {time slew}

/-- Only the tick that enters a new microsecond slews. -/
theorem slewStep_within_us (h : time / 1000 = (time + 10) / 1000) : slewStep time slew = 0 := if_pos h

theorem natAbs_sub_slewStep_lt (h : slewStep time slew ≠ 0) : (slew - slewStep time slew).natAbs < slew.natAbs := by
  have := slewStep_cases time slew
  omega

end Slew

/-- Settles O2: with nothing in the queue a step is `idles`, and what it slews by is `slewStep`. -/
theorem stepRunsFront : Obligations.StepRunsFront := by
  refine ⟨step_cons, fun s hEmpty hRun hMac => ⟨slewStep s.devTime s.twin.slew, slewStep_ge _ _, slewStep_le _ _, fun hSlew => ?zero,
    slewStep_within_us, natAbs_sub_slewStep_lt, ?tick⟩, fun s hEmpty hRun hMac => ?held, fun s hEmpty hMac => ?mac⟩
  case zero => rw [hSlew, slewStep_zero]
  case tick => rw [step_idle hEmpty, idles_noMac hMac, idleTick_running hRun]
  case held => rw [step_idle hEmpty, idles_noMac hMac, idleTick_held hRun]
  case mac => rw [step_idle hEmpty, idles_mac hMac]

/-! ### Denied writes (R14) -/

/-- The management space is closed to a master that is no manager. -/
theorem regTarget_of_not_isManager {s : State} {who : Accessor} (h : isManager s who = false) (addr : Word) :
    regTarget s ⟨who, .mgmt, addr, 4⟩ = .rejected := by
  simp only [regTarget, h, Bool.false_and, Bool.false_eq_true, if_false]

/-- Outside the key window a rejected write of one that is no manager is denied under R14. -/
theorem rejectWrite_of_not_isManager {s : State} {who : Accessor} {addr : Word} (h : isManager s who = false)
    (hKey : ¬ (0xB000040 ≤ addr.toNat ∧ addr.toNat ≤ 0xB000070)) :
    rejectWrite s ⟨who, .mgmt, addr, 4⟩ = denySetup s who addr.toNat := by
  simp only [rejectWrite, h, decide_true, Bool.not_false, Bool.and_self, if_true, if_neg hKey]

/-- Settles O10: the access is rejected, and a rejected write is denied. -/
theorem setupWriteDenied : Obligations.SetupWriteDenied := by
  intro s who addr value upper hwSet hMgr hKey
  rw [exec_registerWrite, registerWrite_rejected (regTarget_of_not_isManager hMgr addr), rejectWrite_of_not_isManager hMgr hKey]

end Sys2Proof.Machine
end

section
/-! PROOFS. The mirror stream and forwarded requests: each command as its effect, what the home and the partner do with a frame that is
taken, and the statement about them. -/

namespace Sys2Proof.Machine

/-! ### The commands of the stream as their effects -/

theorem exec_mirror (s : State) (f : FrameIn) (plot : PlotId) (seq : Nat) (records : List MirrorRec) :
    exec (.mirror f plot seq records) s = .next (settled s (takeOrdered s f 1 (.mirror plot.val seq records))) := rfl

theorem exec_digestMarker (s : State) (f : FrameIn) (period : Nat) (digests : List DWord) :
    exec (.digestMarker f period digests) s = .next (settled s (takeOrdered s f 9 (.digestMarker period digests))) := rfl

theorem exec_resyncClod (s : State) (f : FrameIn) (clod : ClodNo) (half : Fin 2) (lines : ClodImage) :
    exec (.resyncClod f clod half lines) s = .next (settled s (takeOrdered s f 0xF (.resyncClod clod.val half.val lines))) := rfl

theorem exec_mirrorAck (s : State) (f : FrameIn) (ackCtr : Nat) :
    exec (.mirrorAck f ackCtr) s = .next (settled s (doMirrorAck f ackCtr s)) := rfl

theorem exec_mirrorAckTimer (s : State) : exec .mirrorAckTimer s = .next (settled s (sendAck s)) := rfl

theorem exec_durableNotice (s : State) (f : FrameIn) (plot : PlotId) (seq : Nat) :
    exec (.durableNotice f plot seq) s = .next (settled s (doDurableNotice f plot seq s)) := rfl

theorem exec_fwdWrite (s : State) (f : FrameIn) (mid : Mid) (tag : Fin 256) (line : LineNo) (data : Line) (be : ByteMask) (poison : Bool)
    (m : MetaValue) :
    exec (.fwdWrite f mid tag line data be poison m) s = .next (settled s (doFwdWrite f mid tag line data be poison m s)) := rfl

theorem exec_fwdRead (s : State) (f : FrameIn) (seq : Nat) (mid : Mid) (tag : Fin 256) (line : LineNo) (m : MetaValue) :
    exec (.fwdRead f seq mid tag line m) s = .next (settled s (doFwdRead f seq mid tag line m s)) := rfl

theorem exec_readData (s : State) (f : FrameIn) (mid : Mid) (tag : Fin 256) (poison : Bool) (data : Line) (denied : Bool) :
    exec (.readData f mid tag poison data denied) s = .next (settled s (doReadData f mid tag poison data denied s)) := rfl

theorem exec_fwdRefuse (s : State) (f : FrameIn) (mid : Mid) (tag : Fin 256) :
    exec (.fwdRefuse f mid tag) s = .next (settled s (doFwdRefuse f mid tag s)) := rfl

theorem exec_gapTimeout (s : State) : exec .gapTimeout s = .next (settled s (doGapTimeout s)) := rfl

theorem exec_nack (s : State) (f : FrameIn) (nackCtr : Nat) : exec (.nack f nackCtr) s = .next (settled s (doNack f nackCtr s)) := rfl

section Frames
variable {s u : State} {f : FrameIn}

/-! ### The ordered stream (R340, R342) -/

/-- An ordered frame is taken in its stream, and the last of each 64 is acknowledged at once. -/
theorem takeOrdered_of_receives {ftype : Nat} (b : OrderedBody) (hTaken : frameTaken s f ftype = (true, u)) (hRx : receives u = true) :
    takeOrdered s f ftype b = if (u.twin.rxExpected - 1) / 64 < ((orderedIn u f.ctr b).twin.rxExpected - 1) / 64
      then sendAck (orderedIn u f.ctr b) else orderedIn u f.ctr b := by
  simp only [takeOrdered, hTaken, hRx, if_true]

theorem sendAck_owed (h : s.twin.ackOwed = true) :
    sendAck s = sendFrame { s with twin.ackOwed := false } 2 (s.twin.rxExpected - 1) 0 (.mirrorAck (s.twin.rxExpected - 1)) := if_pos h

theorem doGapTimeout_open (hGap : gapOpen s = true) (hRx : receives s = true) :
    doGapTimeout s = sendFrame (incF s Reg.FLK_MIRROR_STS.nacks) 0x0A s.twin.rxExpected 0 (.nack s.twin.rxExpected) := by
  simp only [doGapTimeout, hGap, hRx, Bool.and_self, if_true]

theorem doGapTimeout_closed (hGap : gapOpen s = false) : doGapTimeout s = s := by
  simp only [doGapTimeout, hGap, Bool.false_and, Bool.false_eq_true, if_false]

theorem doNack_taken (nackCtr : Nat) (hTaken : frameTaken s f 0x0A = (true, u)) :
    doNack f nackCtr s = resendFrom (incF u Reg.FLK_MIRROR_STS.nacks) nackCtr := by simp only [doNack, hTaken]

/-! ### A forwarded write at the home (R12, R23, R59) -/

section FwdWrite
variable {mid : Mid} {tag : Fin 256} {line : LineNo} {data : Line} {be : ByteMask} {poison : Bool} {m : MetaValue}
  (hTaken : frameTaken s f 4 = (true, u))
include hTaken

theorem doFwdWrite_notServing (hServ : serving u = false) : doFwdWrite f mid tag line data be poison m s = u := by
  simp only [doFwdWrite, hTaken, hServ, Bool.not_false, if_true]

theorem doFwdWrite_reserved (hServ : serving u = true) (hMid : reservedMid mid.val = true) :
    doFwdWrite f mid tag line data be poison m s = sendFrame (rejectForwarded u mid.val) 0x1A 0 0 (.fwdRefuse mid.val tag.val) := by
  simp only [doFwdWrite, hTaken, hServ, hMid, Bool.not_true, Bool.false_eq_true, if_false, if_true]

variable {p : Nat} (hServ : serving u = true) (hMid : reservedMid mid.val = false)
include hServ hMid

theorem doFwdWrite_ordered (hHome : homeAllows u mid.val line.val 2 = some p) (hOpen : writeAllowed u p = true) :
    doFwdWrite f mid tag line data be poison m s =
      (acceptHostWrite u (.forwarded mid tag.val) mid.val p line.val data be poison m).2 := by
  simp only [doFwdWrite, hTaken, hServ, hMid, hHome, hOpen, Bool.not_true, Bool.false_eq_true, if_false, if_true]

theorem doFwdWrite_readOnly (hHome : homeAllows u mid.val line.val 2 = some p) (hShut : writeAllowed u p = false) :
    doFwdWrite f mid tag line data be poison m s =
      sendFrame (countDenial u mid.val p line.val) 0x1A 0 0 (.fwdRefuse mid.val tag.val) := by
  simp only [doFwdWrite, hTaken, hServ, hMid, hHome, hShut, Bool.not_true, Bool.false_eq_true, if_false]

theorem doFwdWrite_denied (hHome : homeAllows u mid.val line.val 2 = none) :
    doFwdWrite f mid tag line data be poison m s =
      sendFrame (countDenial u mid.val ((reach u line.val).getD 0xFFF) line.val) 0x1A 0 0 (.fwdRefuse mid.val tag.val) := by
  simp only [doFwdWrite, hTaken, hServ, hMid, hHome, Bool.not_true, Bool.false_eq_true, if_false]

end FwdWrite

/-! ### A forwarded read at the home, or at the partner for a lost entry (R13, R23, R46, R65) -/

/-- A read is the home's own where its plot is not open or this side is its home. -/
theorem not_partnerServes {c : Plot} (hHere : plotOpen c = false ∨ isHome u c = true) : (plotOpen c && !isHome u c) = false := by
  rcases hHere with h | h
  · rw [h, Bool.false_and]
  · rw [h, Bool.not_true, Bool.and_false]

section FwdRead
variable {seq : Nat} {mid : Mid} {tag : Fin 256} {line : LineNo} {m : MetaValue} (hTaken : frameTaken s f 5 = (true, u))
include hTaken

theorem doFwdRead_notServing (hServ : serving u = false) : doFwdRead f seq mid tag line m s = u := by
  simp only [doFwdRead, hTaken, hServ, Bool.not_false, if_true]

theorem doFwdRead_reserved (hServ : serving u = true) (hMid : reservedMid mid.val = true) :
    doFwdRead f seq mid tag line m s =
      sendFrame (rejectForwarded u mid.val) 0x06 0 0 (.readData mid.val tag.val true 0 true) := by
  simp only [doFwdRead, hTaken, hServ, hMid, Bool.not_true, Bool.false_eq_true, if_false, if_true]

variable {p : Nat} {c : Plot} (hServ : serving u = true) (hMid : reservedMid mid.val = false)
  (hPlot : plotRec u ((plotOfLine u line.val).getD 0) = c)
include hServ hMid hPlot

theorem doFwdRead_partner (hOpen : plotOpen c = true) (hAway : isHome u c = false) :
    doFwdRead f seq mid tag line m s = { u with twin.copyReads := u.twin.copyReads ++ [(mid.val, tag.val, line.val, seq)] } := by
  simp only [doFwdRead, hTaken, hServ, hMid, hPlot, hOpen, hAway, Bool.not_true, Bool.false_eq_true, if_false, Bool.not_false, Bool.and_self, if_true]

theorem doFwdRead_ordered (hHere : plotOpen c = false ∨ isHome u c = true) (hHome : homeAllows u mid.val line.val 1 = some p) :
    doFwdRead f seq mid tag line m s = (acceptRead u (.forwarded mid tag.val) mid.val p line.val m).2 := by
  simp only [doFwdRead, hTaken, hServ, hMid, hPlot, not_partnerServes hHere, hHome, Bool.not_true, Bool.false_eq_true, if_false]

theorem doFwdRead_denied (hHere : plotOpen c = false ∨ isHome u c = true) (hHome : homeAllows u mid.val line.val 1 = none) :
    doFwdRead f seq mid tag line m s = sendFrame (countDenial u mid.val ((reach u line.val).getD 0xFFF) line.val)
      0x06 0 0 (.readData mid.val tag.val true 0 true) := by
  simp only [doFwdRead, hTaken, hServ, hMid, hPlot, not_partnerServes hHere, hHome, Bool.not_true, Bool.false_eq_true, if_false]

end FwdRead

end Frames

/-- Settles O53: an ordered frame by `takeOrdered_of_receives`, a forwarded request by the home's rule for it, and an answer by the request
it finds. -/
theorem mirrorStream : Obligations.MirrorStream := by
  refine ⟨fun s u f hRx => ⟨fun plot seq records hTaken => ?mirror, fun period digests hTaken => ?marker, fun clod half lines hTaken => ?clod⟩,
    ?ack, fun s hOwed => ?ackTimer, fun s u f plot seq hTaken hOwn => ?noticed, fun s u f plot seq hTaken hOwn hNew => ?noticeKept,
    fun s u f mid tag line data be poison m hTaken => ?fwdWrite, fun s u f seq mid tag line m hTaken => ?fwdRead, ?readData,
    fun s u f mid tag data poison denied hTaken hNone => ?copyData, fun s u f mid tag w hTaken hReq => ?refused,
    fun s hGap hRx => ?gap, fun s hGap => ?noGap, fun s u f ctr hTaken => ?nack⟩
  case mirror => rw [exec_mirror, takeOrdered_of_receives _ hTaken hRx]
  case marker => rw [exec_digestMarker, takeOrdered_of_receives _ hTaken hRx]
  case clod => rw [exec_resyncClod, takeOrdered_of_receives _ hTaken hRx]
  case ack =>
    rintro s u f ackCtr _ hTaken rfl
    simp only [exec_mirrorAck, doMirrorAck, hTaken]
  case ackTimer => rw [exec_mirrorAckTimer, sendAck_owed hOwed]
  case noticed => simp only [exec_durableNotice, doDurableNotice, hTaken, hOwn, if_true]
  case noticeKept => simp only [exec_durableNotice, doDurableNotice, hTaken, hOwn, hNew, Bool.false_eq_true, if_false, if_true]
  case fwdWrite =>
    rw [exec_fwdWrite]
    refine ⟨fun hServ => ?_, fun hServ hMid => ?_, fun p hServ hMid hHome => ⟨fun hOpen => ?_, fun hShut => ?_⟩, fun hServ hMid hHome => ?_⟩
    · rw [doFwdWrite_notServing hTaken hServ]
    · rw [doFwdWrite_reserved hTaken hServ hMid, rejectForwarded]
    · rw [doFwdWrite_ordered hTaken hServ hMid hHome hOpen]
    · rw [doFwdWrite_readOnly hTaken hServ hMid hHome hShut]
    · rw [doFwdWrite_denied hTaken hServ hMid hHome]
  case fwdRead =>
    rw [exec_fwdRead]
    refine ⟨fun hServ => ?_, fun hServ hMid => ?_, fun c hServ hMid hPlot =>
      ⟨fun hOpen hAway => ?_, fun hHere => ⟨fun p hHome => ?_, fun hHome => ?_⟩⟩⟩
    · rw [doFwdRead_notServing hTaken hServ]
    · rw [doFwdRead_reserved hTaken hServ hMid, rejectForwarded]
    · rw [doFwdRead_partner hTaken hServ hMid hPlot hOpen hAway]
    · rw [doFwdRead_ordered hTaken hServ hMid hPlot hHere hHome]
    · rw [doFwdRead_denied hTaken hServ hMid hPlot hHere hHome]
  case readData =>
    rintro s u f mid tag r data poison _ hTaken hReq rfl _ rfl
    simp only [exec_readData, doReadData, hTaken, hReq, Bool.and_eq_true, decide_eq_true_eq]
    exact ⟨rfl, rfl⟩
  case copyData =>
    refine ⟨fun r hRead => ?_, fun hRead => ?_⟩
    · simp only [exec_readData, doReadData, hTaken, hNone, hRead]
    · simp only [exec_readData, doReadData, hTaken, hNone, hRead]
  case refused => simp only [exec_fwdRefuse, doFwdRefuse, hTaken, hReq]
  case gap => rw [exec_gapTimeout, doGapTimeout_open hGap hRx]
  case noGap => rw [exec_gapTimeout, doGapTimeout_closed hGap]
  case nack => rw [exec_nack, doNack_taken ctr hTaken]

end Sys2Proof.Machine
end

section
/-! PROOFS. Leases: each command as its effect, how the own lease runs on and lapses, and the statement about them. -/

namespace Sys2Proof.Machine

/-! ### The commands as their effects -/

theorem exec_leaseSendTimer (s : State) : exec .leaseSendTimer s = .next (settled s (sendTime (sendLease s))) := rfl

theorem exec_lease (s : State) (f : FrameIn) (marks : List (PlotId × Nat)) :
    exec (.lease f marks) s = .next (settled s (doLease f marks s)) := rfl

theorem exec_leaseAck (s : State) (f : FrameIn) (ackCtr : Nat) :
    exec (.leaseAck f ackCtr) s = .next (settled s (doLeaseAck f ackCtr s)) := rfl

theorem exec_leaseLapse (s : State) : exec .leaseLapse s = .next (settled s (doLeaseLapse s)) := rfl

theorem exec_twinSilenceTimeout (s : State) : exec .twinSilenceTimeout s = .next (settled s (doTwinSilenceTimeout s)) := rfl

/-! ### Sending a LEASE (R343, R345) -/

section Lease
variable {s u v : State}

/-- A LEASE carries the marks that moved, which then count as told, and its counter and time are kept until it is acknowledged. -/
theorem sendLease_linked (hLink : linkOk s = true)
    (hTold : (movedMarks s).foldl (fun s m => updPlot s m.1 fun r => { r with markChanged := false }) s = u)
    (hSent : sendFrame u 7 0 0 (.lease (u.twin.txOther + 1) (movedMarks s)) = v) :
    sendLease s = { v with twin.leaseSent := v.twin.leaseSent ++ [(v.twin.txOther, v.devTime)] } := by
  subst hTold hSent
  simp only [sendLease, hLink, Bool.not_true, Bool.false_eq_true, if_false]

theorem sendLease_unlinked (hLink : linkOk s = false) : sendLease s = s := by
  simp only [sendLease, hLink, Bool.not_false, if_true]

/-! ### The twin's LEASE (R343, R345, R346, R362) -/

theorem doLease_taken {f : FrameIn} {marks : List (PlotId × Nat)} (hTaken : frameTaken s f 7 = (true, u))
    (hAnswer : sendFrame (marks.foldl (fun s m => takeMark s m.1.val m.2) { u with twin.leaseRxAt := u.devTime }) 8 f.ctr 0
      (.leaseAck f.ctr) = v) :
    doLease f marks s = if mirrored v && aliveIn v ≠ 1 && !fenceIn v then
      raise (setFlag v Reg.FLK_TWIN_ERR.alive_fault) 1521 .aliveFault 0xFFF [aliveIn v] else v := by
  subst hAnswer
  simp only [doLease, hTaken]

/-! ### The own lease (R345) -/

section Ack
variable {f : FrameIn} {ctr sent : Nat} (hTaken : frameTaken s f 8 = (true, u))
  (hSent : (u.twin.leaseSent.find? fun l => l.1 = ctr) = some (ctr, sent))
  (hKept : { u with twin.leaseSent := u.twin.leaseSent.filter fun l => ctr < l.1 } = v)
include hTaken hSent hKept

/-- An acknowledged LEASE does not extend the own lease when it left before the twin's lease began, when this side serves in no pair, when
a fence is demanded or seen, or when its time is over. -/
theorem doLeaseAck_taken : doLeaseAck f ctr s =
    if sent < v.twin.twinLeaseAt ∨ mirrored v = false ∨ fenceOut v = true ∨ fenceIn v = true ∧ v.twin.fenceLineIgnored = false ∨
      max (sent + 50000) (v.twin.lease.getD 0) ≤ v.devTime then v
    else
      let w := putFlag { v with twin.lease := some (max (sent + 50000) (v.twin.lease.getD 0)) } Reg.FLK_TWIN_STS.lease_valid true
      if twinMode w = mLapsed then setMode w mMirrored else w := by
  subst hKept
  simp only [doLeaseAck, hTaken, hSent, Bool.or_eq_true, Bool.and_eq_true, Bool.not_eq_true', decide_eq_true_eq, or_assoc]

end Ack

/-- A lease that lapses ends, and a mirrored controller stops serving. -/
theorem doLeaseLapse_ends {t : Nat} (hLease : s.twin.lease = some t) (hTime : t ≤ s.devTime)
    (hMode : twinMode (incF (endLease s) Reg.FLK_LEASE_STS.lapses) = mMirrored) :
    doLeaseLapse s = setMode (incF (endLease s) Reg.FLK_LEASE_STS.lapses) mLapsed := by
  simp only [doLeaseLapse, hLease, hTime, hMode, if_true]

theorem doLeaseLapse_runs {t : Nat} (hLease : s.twin.lease = some t) (hTime : s.devTime < t) : doLeaseLapse s = s := by
  simp only [doLeaseLapse, hLease, if_neg (Nat.not_le.2 hTime)]

/-! ### The twin's silence (R346, R350) -/

theorem doTwinSilenceTimeout_demands (hPair : mirrored s = true) (hTime : s.twin.leaseRxAt + 60000 ≤ s.devTime) (hIn : fenceIn s = false) :
    doTwinSilenceTimeout s = demandFence s := by
  simp only [doTwinSilenceTimeout, hPair, hIn, decide_eq_false (Nat.not_lt.2 hTime), Bool.not_true, Bool.or_self, Bool.false_eq_true, if_false]

theorem doTwinSilenceTimeout_early (hTime : s.devTime < s.twin.leaseRxAt + 60000) : doTwinSilenceTimeout s = s := by
  simp only [doTwinSilenceTimeout, hTime, decide_true, Bool.or_true, if_true]

end Lease

/-- Settles O54: each clause is the rule for its command. -/
theorem leases : Obligations.Leases := by
  refine ⟨exec_leaseSendTimer, fun s u hLink hTold v => sendLease_linked hLink hTold, fun s => sendLease_unlinked,
    fun s u v f marks hTaken hAnswer => ?lease, ?leaseAck, fun s t hLease hTime hMode => ?lapse, fun s t hLease hTime => ?runs,
    fun s hPair hTime hIn => ?silence, fun s hTime => ?early⟩
  case lease => rw [exec_lease, doLease_taken hTaken hAnswer]
  case leaseAck =>
    rintro s u v f ctr sent hTaken hSent hKept _ rfl
    rw [exec_leaseAck, doLeaseAck_taken hTaken hSent hKept]
    refine ⟨fun hTwin hPair hOut hIn hTime w hValid => ?_, fun hRefused => ?_⟩
    · subst hValid
      rw [if_neg]
      rintro (hEarly | hNoPair | hDemanded | ⟨hSeen, hHeeded⟩ | hOver)
      · exact Nat.not_lt.2 hTwin hEarly
      · exact Bool.false_ne_true (hNoPair.symm.trans hPair)
      · exact Bool.false_ne_true (hOut.symm.trans hDemanded)
      · exact hIn.elim (fun h => Bool.false_ne_true (h.symm.trans hSeen)) (fun h => Bool.false_ne_true (hHeeded.symm.trans h))
      · exact Nat.not_le.2 hTime hOver
    · rw [if_pos hRefused]
  case lapse => rw [exec_leaseLapse, doLeaseLapse_ends hLease hTime hMode]
  case runs => rw [exec_leaseLapse, doLeaseLapse_runs hLease hTime]
  case silence => rw [exec_twinSilenceTimeout, doTwinSilenceTimeout_demands hPair hTime hIn]
  case early => rw [exec_twinSilenceTimeout, doTwinSilenceTimeout_early hTime]

end Sys2Proof.Machine
end

section
/-! PROOFS. Administration, HELLO and TIME: each command as its effect, the rules of proposals, of a HELLO and of device time in
the pair, and the statement about them. -/

namespace Sys2Proof.Machine

theorem exec_admin (s : State) (f : FrameIn) (op : AdminOp) : exec (.admin f op) s = .next (settled s (doAdmin f op s)) := rfl

theorem exec_hello (s : State) (f : FrameIn) (h : Hello) : exec (.hello f h) s = .next (settledTimed s (doHello f h s)) := rfl

theorem exec_time (s : State) (f : FrameIn) (t : Nat) : exec (.time f t) s = .next (settled s (doTime f t s)) := rfl

section Pair
variable {s u v w : State} {f : FrameIn}

/-! ### Proposals of the admission engine (R53, R55) -/

theorem proposalIn_refused {p : AdminPlot} (tag : Option Nat) (hCheck : proposalHolds u p = false) :
    proposalIn u p tag = sendAdmin u (.admitAnswer p.plot false) := by
  simp only [proposalIn, hCheck, Bool.false_eq_true, if_false]

theorem proposalIn_taken {p : AdminPlot} (hCheck : proposalHolds u p = true) :
    proposalIn u p none = sendAdmin (enterAdmitting u p) (.admitAnswer p.plot true) := by
  simp only [proposalIn, hCheck, if_true]

/-- A proposal that answers a request of this side keeps the request's tag with its plot. -/
theorem proposalIn_taken_tagged {p : AdminPlot} {t : Nat} (hCheck : proposalHolds u p = true)
    (hGiven : { u with plots.admGiven := u.plots.admGiven ++ [(t, p.plot.val)] } = v) :
    proposalIn u p (some t) = sendAdmin (enterAdmitting v p) (.admitAnswer p.plot true) := by
  subst hGiven
  simp only [proposalIn, hCheck, if_true]

/-! ### HELLO (R32, R331, R372) -/

/-- What stands once a HELLO is noted, its time and priority are taken, and the first one is answered. -/
theorem doHello_noted {h : Hello} (hIn : frameIn s f true = (true, u))
    (hNoted : checkPriority (alignTime (setTwinEpoch { u with twin.helloSeen := true } f.epoch) h) h = v)
    (hSaid : (if u.twin.helloSeen = true then v else sendHello v) = w) :
    doHello f h s = if h.sideB = sideB w then sideConflict w h
      else if h.maxCapacity ≠ w.plots.maxCapacity then capacityConflict w h else helloRoles w f h := by
  subst hNoted hSaid
  cases hSeen : u.twin.helloSeen
  · simp only [doHello, hIn, hSeen, Bool.not_false, Bool.false_eq_true, if_true, if_false]
  · simp only [doHello, hIn, hSeen, Bool.not_true, Bool.false_eq_true, if_false, if_true]

/-! ### Device time in the pair (R21) -/

/-- At a pairing the count moves forward to the greater of both. -/
theorem alignTime_pairing (h : Hello) (hNew : s.twin.timePaired = false) :
    (alignTime s h).devTime = max s.devTime h.deviceTime ∧ (alignTime s h).twin.timePaired = true ∧ (alignTime s h).twin.slew = 0 := by
  rw [alignTime, hNew, if_neg Bool.false_ne_true]
  exact ⟨rfl, rfl, rfl⟩

theorem alignTime_paired (h : Hello) (hPaired : s.twin.timePaired = true) : alignTime s h = s := by
  rw [alignTime, if_pos hPaired]

theorem doTime_notSlewed (t : Nat) (hIn : frameIn s f false = (true, u))
    (hRef : flag u Reg.GLB_TIME_ALIGN.reference = true ∨ u.twin.timePaired = false) : doTime f t s = u := by
  rcases hRef with h | h
  · simp only [doTime, hIn, h, Bool.true_or, if_true]
  · simp only [doTime, hIn, h, Bool.not_false, Bool.or_true, if_true]

theorem doTime_slewed {t : Nat} (hIn : frameIn s f false = (true, u)) (hRef : flag u Reg.GLB_TIME_ALIGN.reference = false)
    (hPaired : u.twin.timePaired = true)
    (hShown : putFlag (setF u Reg.GLB_TIME_ALIGN.offset_ns
        ((if u.devTime ≤ t then 65536 - min 32768 (t - u.devTime) else min 32767 (u.devTime - t)) % 65536))
      Reg.GLB_TIME_ALIGN.aligned (decide (t ≤ u.devTime + 20) && decide (u.devTime ≤ t + 20)) = v) :
    doTime f t s = { v with twin.slew := (t : Int) - (v.devTime : Int) } := by
  subst hShown
  simp only [doTime, hIn, hRef, hPaired, Bool.not_true, Bool.or_self, Bool.false_eq_true, if_false]
  rfl

theorem sendTime_reference (hPaired : s.twin.timePaired = true) (hRef : flag s Reg.GLB_TIME_ALIGN.reference = true) :
    sendTime s = sendFrame s 0x19 0 0 (.time s.devTime) := by
  simp only [sendTime, hPaired, hRef, Bool.and_self, if_true]

end Pair

/-- Settles O58: most orders of an ADMIN frame are their effect as it stands, a proposal, a seal and a replay branch; a HELLO goes by what
it shows of the twin, and TIME by who is the reference. -/
theorem helloAdminTime : Obligations.HelloAdminTime := by
  refine ⟨fun s u f hTaken => ?admin, fun s u v w f h hIn hNoted hSaid => ?hello, fun s h => alignTime_pairing h,
    fun s h => alignTime_paired h, fun s u f t hIn hRef => ?notSlewed, fun s u v f t hIn hRef hPaired hShown => ?slewed,
    fun s => sendTime_reference⟩
  case admin =>
    simp only [exec_admin, doAdmin, hTaken, implies_true, true_and, and_true]
    refine ⟨fun p hCheck => ⟨fun t v hGiven => ?_, ?_⟩, fun p t hCheck => ?_, fun p n q hSeq => ?_,
      fun p => ⟨fun hMode => ?_, fun hMode => ?_⟩⟩
    · rw [proposalIn_taken_tagged hCheck hGiven]
    · rw [proposalIn_taken hCheck]
    · rw [proposalIn_refused t hCheck]
    · rw [hSeq]
    · rw [if_pos hMode]
    · rw [if_neg hMode]
  case hello =>
    rw [exec_hello, doHello_noted hIn hNoted hSaid]
    refine ⟨fun hSide => ?_, fun hSide hCap => ?_, fun hSide hCap => ?_⟩
    · rw [if_pos hSide]
    · rw [if_neg hSide, if_neg (fun h => h hCap)]
    · rw [if_neg hSide, if_pos hCap]
  case notSlewed => rw [exec_time, doTime_notSlewed t hIn hRef]
  case slewed => rw [exec_time, doTime_slewed hIn hRef hPaired hShown]

end Sys2Proof.Machine
end

section
/-! PROOFS. The block after reset: its buffer pools, and the statement about what it is. -/

namespace Sys2Proof.Machine

/-- A pool that no training has sized holds no buffer, so it issues none. -/
theorem poolInv_empty (recs : Sparse BufRec) (k : Nat) : PoolInv recs k {} where
  fits := Nat.zero_le _
  own := fun _ h => absurd h List.not_mem_nil
  once := List.nodup_nil
  free := fun _ h => absurd h List.not_mem_nil

/-- The record of a buffer that was never issued: free, and so without an owner. -/
theorem recInv_free : RecInv {} where
  owned := fun h => absurd h Bool.false_ne_true
  most := Nat.zero_le _
  once := List.nodup_nil
  none_ := fun _ => rfl
  tag := by decide

theorem bpmInv_empty : BpmInv {} where
  poolsWf := rfl
  recsWf := rfl
  linesWf := rfl
  pools := fun k _ => poolInv_empty [] k
  recs := fun _ => recInv_free

/-- Settles O6: at reset every table is empty, so each lookup answers its default. -/
theorem resetState : Obligations.ResetState :=
  ⟨rfl, rfl, rfl, rfl, fun _ _ => rfl, fun _ => ⟨rfl, rfl⟩, fun _ => rfl, fun _ _ => rfl, bpmInv_empty⟩

end Sys2Proof.Machine
end

section
/-! PROOFS. The access table's rule: the scan stops at the lowest entry that matches, what a match is bit by bit, and the statement
about them. -/

namespace Sys2Proof.Machine

/-! ### The scan (R61, R62) -/

section Scan
variable {s : State} {plot mid : Nat}

/-- From entry `e` on, the first of the `n` entries that matches decides. -/
theorem aclScan_first {n e i : Nat} (hLow : e ≤ i) (hHigh : i < e + n) (hAt : aclMatches (aclWord s plot i) mid = true)
    (hBefore : ∀ j, e ≤ j → j < i → aclMatches (aclWord s plot j) mid = false) :
    aclScan s plot mid n e = fieldOf (aclWord s plot i) 24 2 := by
  induction n generalizing e with
  | zero => omega
  | succ n ih =>
    rcases Nat.eq_or_lt_of_le hLow with rfl | hLt
    · rw [aclScan, if_pos hAt]
    · rw [aclScan, hBefore e (Nat.le_refl e) hLt, if_neg Bool.false_ne_true]
      exact ih hLt (by omega) fun j hj => hBefore j (by omega)

theorem aclScan_none {n e : Nat} (hNone : ∀ i, e ≤ i → i < e + n → aclMatches (aclWord s plot i) mid = false) :
    aclScan s plot mid n e = 0 := by
  induction n generalizing e with
  | zero => rfl
  | succ n ih =>
    rw [aclScan, hNone e (Nat.le_refl e) (by omega), if_neg Bool.false_ne_true]
    exact ih fun i hi hn => hNone i (by omega) (by omega)

theorem aclRights_core (h : 0x340 ≤ mid ∧ mid ≤ 0x345) : aclRights s plot mid = 0 := if_pos h

theorem aclRights_scan (h : ¬ (0x340 ≤ mid ∧ mid ≤ 0x345)) : aclRights s plot mid = aclScan s plot mid 64 0 := if_neg h

end Scan

/-! ### A match (R60) -/

/-- A bit of a field is that bit of the word, counted from the field's start. -/
theorem testBit_fieldOf {w : Word} {lo width b : Nat} (h : b < width) : (fieldOf w lo width).testBit b = decide (fieldOf w (lo + b) 1 = 1) := by
  rw [fieldOf, Nat.testBit_mod_two_pow, Nat.testBit_div_two_pow, Nat.testBit_eq_decide_div_mod_eq, Nat.add_comm b lo]
  simp [h, fieldOf]

/-- Two IDs agree under a mask where they agree in each of its bits. -/
theorem masked_eq_zero_iff {a b m : BitVec 12} : (a ^^^ b) &&& m = 0 ↔ ∀ i, i < 12 → m.getLsbD i = true → a.getLsbD i = b.getLsbD i := by
  constructor
  · intro h i hi hm
    have hBit : ((a ^^^ b) &&& m).getLsbD i = false := by rw [h]; exact BitVec.getLsbD_zero
    simpa [hm] using hBit
  · refine fun h => BitVec.eq_of_getLsbD_eq fun i hi => ?_
    cases hm : m.getLsbD i
    · simp [hm]
    · simp [hm, h i hi hm]

theorem aclMatches_iff {w : Word} {mid : Nat} : aclMatches w mid = true ↔
    fieldOf w 31 1 = 1 ∧ ∀ b, b < 12 → fieldOf w (12 + b) 1 = 1 → mid / 2 ^ b % 2 = fieldOf w b 1 := by
  rw [aclMatches, Bool.and_eq_true, decide_eq_true_iff, decide_eq_true_iff, masked_eq_zero_iff]
  refine and_congr_right' (forall₂_congr fun b hb => ?_)
  have hOwn : fieldOf w (0 + b) 1 = fieldOf w b 1 := by rw [Nat.zero_add]
  have hBit : fieldOf w b 1 < 2 := Nat.mod_lt _ (by decide)
  have hMid : mid / 2 ^ b % 2 < 2 := Nat.mod_lt _ (by decide)
  simp only [BitVec.getLsbD_ofNat, hb, decide_true, Bool.true_and, testBit_fieldOf hb, hOwn, Nat.testBit_eq_decide_div_mod_eq,
    decide_eq_true_iff, decide_eq_decide]
  refine imp_congr_right fun _ => ?_
  omega

/-- Settles O33: the scan from entry 0 over all 64 entries, and a match bit by bit. -/
theorem aclFirstMatch : Obligations.AclFirstMatch := by
  refine fun s plot mid => ⟨aclRights_core, fun hMid => ⟨fun i hi hAt hBefore => ?first, fun hNone => ?none⟩, fun w => aclMatches_iff⟩
  case first => rw [aclRights_scan hMid, aclScan_first (Nat.zero_le i) (by omega) hAt fun j _ => hBefore j]
  case none => rw [aclRights_scan hMid, aclScan_none fun i _ hi => hNone i (by omega)]

end Sys2Proof.Machine
end

section
/-! PROOFS. Writes of the access table, the drains they start and engine assignments: each command as its effect, one rule per outcome, and
the statement about them. -/

namespace Sys2Proof.Machine

/-! ### The commands as their effects -/

theorem exec_aclWrite (s : State) (who : Accessor) (value : Word) :
    exec (.aclWrite who value) s = .next (settled s (doAclWrite who value s)) := rfl

theorem exec_aclDrainDone (s : State) (who : Accessor) (twin : Bool) :
    exec (.aclDrainDone who twin) s = .next (finished s (doAclDrainDone who twin s)) := rfl

theorem exec_engineAssignment (s : State) (engine : Mid) (e : Word) :
    exec (.engineAssignment engine e) s = .next (finished s (doEngineAssignment engine e s)) := rfl

/-! ### Writes (R63, R64, R69, R70) -/

section Write
variable {s u t x y : State} {who : Accessor} {value : Word} {p e : Nat} (hMgr : isManager s who = true)
  (hPlot : selOf s who Reg.POU_ACL_SEL.plot_id = p) (hEntry : selOf s who Reg.POU_ACL_SEL.entry = e) (hDrain : startDrain s p = u)
include hMgr hPlot hEntry hDrain

/-- An entry that R63 refuses sets the error flag; the drain has started all the same. -/
theorem doAclWrite_refused (hBreaks : breaksPrivate u p e (value &&& 0x83FFFFFF#32) = true)
    (hFlag : setFlagI u Reg.POU_ACL_SEL.acl_err (accessorIdx who) = t) :
    doAclWrite who value s = if (sget [] t.plots.aclDrain p).isEmpty && solo t then drainOver t p else t := by
  subst hPlot hEntry hDrain hFlag
  simp only [doAclWrite, setupWrite_of_isManager hMgr, hBreaks, if_true]

section Taken
variable (hKeeps : breaksPrivate u p e (value &&& 0x83FFFFFF#32) = false)
  (hSet : setRegAt u Reg.POU_ACL_DATA.acl_entry.addr (p * 64 + e) (value &&& 0x83FFFFFF#32) = t)
  (hTold : (if (plotRec t p).state = .free then t else plotChanged t p .nothing) = x)
include hKeeps hSet hTold

/-- No host has the extent of a plot that is not open, so none is offered. -/
theorem doAclWrite_shut (hShut : plotOpen (plotRec x p) = false) :
    doAclWrite who value s = if (sget [] x.plots.aclDrain p).isEmpty && solo x then drainOver x p else x := by
  subst hPlot hEntry hDrain hSet hTold
  simp only [doAclWrite, setupWrite_of_isManager hMgr, hKeeps, hShut, Bool.false_eq_true, if_false]

theorem doAclWrite_open (hOpen : plotOpen (plotRec x p) = true) (hOffer : offerExtents x p = y) :
    doAclWrite who value s = if (sget [] y.plots.aclDrain p).isEmpty && solo y then drainOver y p else y := by
  subst hPlot hEntry hDrain hSet hTold hOffer
  simp only [doAclWrite, setupWrite_of_isManager hMgr, hKeeps, hOpen, Bool.false_eq_true, if_false, if_true]

end Taken

end Write

/-- R63: a valid entry names one master, and is one of at most four. -/
theorem breaksPrivate_iff {s : State} {p e : Nat} {w : Word} (hLive : (plotRec s p).state ≠ .free) (hMode : (plotRec s p).mode = .private_)
    (hValid : fieldOf w 31 1 = 1) : breaksPrivate s p e w = true ↔ (fieldOf w 12 12 ≠ 0xFFF ∨ 4 < validEntries s p e w) := by
  simp [breaksPrivate, hLive, hMode, hValid]

/-! ### Drains (R64, R82) -/

section Drain
variable {s : State} {who : Accessor} {twin : Bool} {p : Nat} {left : List Nat} (hPlot : selOf s who Reg.POU_ACL_SEL.plot_id = p)
  (hLeft : ((sget [] s.plots.aclDrain p).filter fun i => (plotInFlight s p).contains i) = left)
include hPlot hLeft

theorem doAclDrainDone_over (hEmpty : left = []) (hTwin : twin = false ∨ solo s = true) :
    doAclDrainDone who twin s = drainOver { s with plots.aclDrain := sput [] s.plots.aclDrain p [] } p := by
  have hBoth : (!twin || solo s) = true := by simpa using hTwin
  subst hPlot
  simp only [doAclDrainDone, hLeft, hEmpty]
  exact if_pos hBoth

theorem doAclDrainDone_waits (hWait : left ≠ [] ∨ twin = true ∧ solo s = false) :
    doAclDrainDone who twin s = { s with plots.aclDrain := sput [] s.plots.aclDrain p left } := by
  have hOpen : ¬ (left.isEmpty && (!twin || solo s)) = true := by
    rcases hWait with hSome | ⟨hTwin, hPair⟩
    · simp [hSome]
    · simp [hTwin, hPair]
  subst hPlot
  simp only [doAclDrainDone, hLeft]
  exact if_neg hOpen

end Drain

/-! ### Engine assignments (R16, R23) -/

section Engine
variable {engine : Mid} (s : State) (e : Word)

theorem doEngineAssignment_reserved (h : reservedMid engine.val = true) :
    doEngineAssignment engine e s = raise s 1280 .reservedMaster engine.val [engine.val] := if_pos h

theorem doEngineAssignment_engine (hHeld : reservedMid engine.val = false) (hLow : 0x300 ≤ engine.val) (hHigh : engine.val ≤ 0x31D) :
    doEngineAssignment engine e s = emit s (.assignment engine (e = epoch s)) := by
  simp only [doEngineAssignment, hHeld, hLow, hHigh, decide_true, Bool.and_self, Bool.false_eq_true, if_false, if_true]

end Engine

/-- Settles O32: a write by what R63 says of the entry, a drain's end by what still waits, an assignment by its
master. -/
theorem accessTable : Obligations.AccessTable := by
  refine ⟨fun s u t who value p e hMgr hPlot hEntry hDrain hBreaks hFlag => ?refused,
    fun s u t x who value p e hMgr hPlot hEntry hDrain hKeeps hSet hTold hShut => ?shut,
    fun s u t x y who value p e hMgr hPlot hEntry hDrain hKeeps hSet hLive hTold hOpen hOffer => ?offered,
    fun s p e w hLive hMode hValid => breaksPrivate_iff hLive hMode hValid, fun s who twin p hPlot hDone hTwin => ?drained,
    fun s who twin p left hPlot hLeft hWait => ?waits, fun s engine e hHeld hLow hHigh => ?assigned, fun s engine e hReserved => ?reserved⟩
  case refused => rw [exec_aclWrite, doAclWrite_refused hMgr hPlot hEntry hDrain hBreaks hFlag]
  case shut => rw [exec_aclWrite, doAclWrite_shut hMgr hPlot hEntry hDrain hKeeps hSet hTold hShut]
  case offered =>
    rw [exec_aclWrite, doAclWrite_open hMgr hPlot hEntry hDrain hKeeps hSet ((if_neg hLive).trans hTold) hOpen hOffer]
  case drained =>
    have hEmpty : ((sget [] s.plots.aclDrain p).filter fun i => (plotInFlight s p).contains i) = [] := by simpa using hDone
    rw [exec_aclDrainDone, doAclDrainDone_over hPlot rfl hEmpty hTwin]
  case waits => rw [exec_aclDrainDone, doAclDrainDone_waits hPlot hLeft hWait]
  case assigned => rw [exec_engineAssignment, doEngineAssignment_engine s e hHeld hLow hHigh, emit]
  case reserved => rw [exec_engineAssignment, doEngineAssignment_reserved s e hReserved]

end Sys2Proof.Machine
end

section
/-! PROOFS. The admission engine and the ends of a plot's steps: each command as its effect, when it acts and when it does nothing, and
the statement about them. -/

namespace Sys2Proof.Machine

/-! ### The commands as their effects -/

theorem exec_fmDcAdd (s : State) (a : Admission) : exec (.fmDcAdd a) s = .next (settled s (submitJob s .fabricManager a)) := rfl

theorem exec_admissionEngineJob (s : State) : exec .admissionEngineJob s = .next (settled s (doAdmissionEngineJob s)) := rfl

theorem exec_admissionZeroingDone (s : State) (p : PlotId) :
    exec (.admissionZeroingDone p) s = .next (settled s (doAdmissionZeroingDone p s)) := rfl

theorem exec_releaseCleanupDone (s : State) (p : PlotId) :
    exec (.releaseCleanupDone p) s = .next (settled s (doReleaseCleanupDone p s)) := rfl

theorem exec_sealComplete (s : State) (p : PlotId) : exec (.sealComplete p) s = .next (settled s (doSealComplete p s)) := rfl

theorem exec_cryptoEraseDone (s : State) (p : PlotId) : exec (.cryptoEraseDone p) s = .next (settled s (doCryptoEraseDone p s)) := rfl

/-! ### The engine (R52, R53) -/

section Engine
variable {s : State} {t : List AdmJob}

theorem doAdmissionEngineJob_admission {o : AdmOrigin} {a : Admission} (hHere : engineHere s = true) (hFree : s.plots.admActive = none)
    (hQueue : s.plots.admQueue = .admitPlot o a :: t) :
    doAdmissionEngineJob s = takeAdmission { s with plots.admQueue := t } o a := by
  simp only [doAdmissionEngineJob, hHere, hFree, hQueue, Option.isSome_none, Bool.not_true, Bool.or_self, Bool.false_eq_true, if_false]

theorem doAdmissionEngineJob_cleanup {p : PlotId} (hHere : engineHere s = true) (hFree : s.plots.admActive = none)
    (hQueue : s.plots.admQueue = .cleanup p :: t) :
    doAdmissionEngineJob s = if (plotRec { s with plots.admQueue := t } p.val).state = .releasing then
      { s with plots.admQueue := t, plots.admActive := some (.cleanup p) } else { s with plots.admQueue := t } := by
  simp only [doAdmissionEngineJob, hHere, hFree, hQueue, Option.isSome_none, Bool.not_true, Bool.or_self, Bool.false_eq_true, if_false]

theorem doAdmissionEngineJob_elsewhere (h : engineHere s = false) : doAdmissionEngineJob s = s := by
  simp only [doAdmissionEngineJob, h, Bool.not_false, Bool.true_or, if_true]

theorem doAdmissionEngineJob_busy (h : s.plots.admActive ≠ none) : doAdmissionEngineJob s = s := by
  simp only [doAdmissionEngineJob, Option.isSome_iff_ne_none.2 h, Bool.or_true, if_true]

theorem doAdmissionEngineJob_empty (h : s.plots.admQueue = []) : doAdmissionEngineJob s = s := by
  simp only [doAdmissionEngineJob, h, ite_self]

theorem takeAdmission_solo (o : AdmOrigin) (a : Admission) (h : solo s = true) :
    takeAdmission s o a = checkAdmission s o a (ownFigures s) := if_pos h

theorem takeAdmission_paired (o : AdmOrigin) (a : Admission) (h : solo s = false) :
    takeAdmission s o a = sendAdmin { s with plots.admActive := some (.admitPlot o a), plots.admPlot := none } .figuresReq :=
  if_neg (Bool.eq_false_iff.1 h)

end Engine

/-! ### The ends of a plot's steps (R40 to R42, R451) -/

section Ends
variable {s : State} {p : PlotId}

theorem doAdmissionZeroingDone_ends (hState : (plotRec s p.val).state = .admitting) (hNew : (plotRec s p.val).doneHere = false) :
    doAdmissionZeroingDone p s = plotStep (tellTwin (updPlot (clearEntries s (plotRec s p.val)) p.val
      fun r => { r with doneHere := true }) (.zeroed p)) p.val := by
  simp only [doAdmissionZeroingDone, hState, hNew, ne_eq, not_true_eq_false, decide_false, Bool.or_self, Bool.false_eq_true, if_false]

theorem doAdmissionZeroingDone_other (hState : (plotRec s p.val).state ≠ .admitting) : doAdmissionZeroingDone p s = s := by
  simp only [doAdmissionZeroingDone, hState, ne_eq, not_false_eq_true, decide_true, Bool.true_or, if_true]

theorem doReleaseCleanupDone_ends (hReady : cleanupReady s p.val = true) :
    doReleaseCleanupDone p s = plotStep (tellTwin (updPlot (clearPlot s (plotRec s p.val)) p.val
      fun r => { r with doneHere := true, cleanup := false }) (.released p)) p.val := by
  simp only [doReleaseCleanupDone, hReady, Bool.not_true, Bool.false_eq_true, if_false]

theorem cleanupReady_other (hState : (plotRec s p.val).state ≠ .releasing) : cleanupReady s p.val = false := by
  simp only [cleanupReady, hState, decide_false, Bool.false_and]

theorem doReleaseCleanupDone_other (hState : (plotRec s p.val).state ≠ .releasing) : doReleaseCleanupDone p s = s := by
  simp only [doReleaseCleanupDone, cleanupReady_other hState, Bool.not_false, if_true]

theorem doSealComplete_ends (hState : (plotRec s p.val).state = .loading) (hSealing : (plotRec s p.val).sealing = true)
    (hReady : sealReady s p.val = true) (hNew : (plotRec s p.val).doneHere = false) :
    doSealComplete p s = plotStep (tellTwin (updPlot s p.val fun r => { r with doneHere := true }) (.sealed p)) p.val := by
  simp only [doSealComplete, hState, hSealing, hReady, hNew, ne_eq, not_true_eq_false, decide_false, Bool.not_true, Bool.or_self,
    Bool.false_eq_true, if_false]

theorem doSealComplete_other (hSealing : (plotRec s p.val).sealing = false) : doSealComplete p s = s := by
  simp only [doSealComplete, hSealing, Bool.not_false, Bool.or_true, Bool.true_or, if_true]

theorem doCryptoEraseDone_ends (hErasing : (plotRec s p.val).erasing = true) (hWalked : (plotRec s p.val).tagWalk = false)
    (hQuiet : plotQuiet s p.val = true) : doCryptoEraseDone p s = plotStep (tellTwin (eraseHolds s p.val) (.erased p)) p.val := by
  simp only [doCryptoEraseDone, hErasing, hWalked, hQuiet, Bool.not_true, Bool.or_self, Bool.false_eq_true, if_false]

theorem doCryptoEraseDone_other (hErasing : (plotRec s p.val).erasing = false) : doCryptoEraseDone p s = s := by
  simp only [doCryptoEraseDone, hErasing, Bool.not_false, Bool.true_or, if_true]

end Ends

/-- Settles O31: each clause is the rule for its command. -/
theorem plotAdministration : Obligations.PlotAdministration := by
  refine ⟨⟨exec_fmDcAdd, fun s o a t hHere hFree hQueue => ?admission, fun s p t hHere hFree hQueue hState => ?cleanup,
    fun s p t hHere hFree hQueue hState => ?noCleanup, fun s hEmpty => ?empty, fun s o a => takeAdmission_solo o a,
    fun s o a => takeAdmission_paired o a, fun s hBusy => ?busy, fun s hAway => ?elsewhere⟩,
    fun s p hState hNew => ?zeroed, fun s p hState => ?notAdmitting, fun s p hReady => ?released, fun s p hState => ?notReleasing,
    fun s p hState hSealing hReady hNew => ?sealed, fun s p hSealing => ?notSealing, fun s p hErasing hWalked hQuiet => ?erased,
    fun s p hErasing => ?notErasing⟩
  case admission => rw [exec_admissionEngineJob, doAdmissionEngineJob_admission hHere hFree hQueue]
  case cleanup => rw [exec_admissionEngineJob, doAdmissionEngineJob_cleanup hHere hFree hQueue, if_pos hState]
  case noCleanup => rw [exec_admissionEngineJob, doAdmissionEngineJob_cleanup hHere hFree hQueue, if_neg hState]
  case empty => rw [exec_admissionEngineJob, doAdmissionEngineJob_empty hEmpty]
  case busy => rw [exec_admissionEngineJob, doAdmissionEngineJob_busy hBusy]
  case elsewhere => rw [exec_admissionEngineJob, doAdmissionEngineJob_elsewhere hAway]
  case zeroed => rw [exec_admissionZeroingDone, doAdmissionZeroingDone_ends hState hNew]
  case notAdmitting => rw [exec_admissionZeroingDone, doAdmissionZeroingDone_other hState]
  case released => rw [exec_releaseCleanupDone, doReleaseCleanupDone_ends hReady]
  case notReleasing => rw [exec_releaseCleanupDone, doReleaseCleanupDone_other hState]
  case sealed => rw [exec_sealComplete, doSealComplete_ends hState hSealing hReady hNew]
  case notSealing => rw [exec_sealComplete, doSealComplete_other hSealing]
  case erased => rw [exec_cryptoEraseDone, doCryptoEraseDone_ends hErasing hWalked hQuiet]
  case notErasing => rw [exec_cryptoEraseDone, doCryptoEraseDone_other hErasing]

end Sys2Proof.Machine
end

section
/-! PROOFS. Operations of a ring: how one starts and how its checks end it, the ends of the pin count, and the operations on plots. -/

namespace Sys2Proof.Machine

/-! ### The operations as their effects -/

theorem exec_pin (s : State) (ld : Ld) (ring : RingNo) : exec (.pin ld ring) s = .next (settled s (doPin ld ring s)) := rfl

theorem exec_unpin (s : State) (ld : Ld) (ring : RingNo) : exec (.unpin ld ring) s = .next (settled s (doUnpin ld ring s)) := rfl

theorem exec_plotAdmit (s : State) (ld : Ld) (ring : RingNo) :
    exec (.plotAdmit ld ring) s = .next (settled s (doPlotAdmit ld ring s)) := rfl

theorem exec_plotRelease (s : State) (ld : Ld) (ring : RingNo) :
    exec (.plotRelease ld ring) s = .next (settled s (doPlotRelease ld ring s)) := rfl

theorem exec_plotSeal (s : State) (ld : Ld) (ring : RingNo) :
    exec (.plotSeal ld ring) s = .next (settled s (doPlotSeal ld ring s)) := rfl

theorem exec_cryptoErase (s : State) (ld : Ld) (ring : RingNo) :
    exec (.cryptoErase ld ring) s = .next (settled s (doCryptoErase ld ring s)) := rfl

/-! ### Starting and failing (R136, R139) -/

section Start
variable {s u : State} {ld : Ld} {ring : RingNo} {o : RingOp} {mine : BitVec 8 → Bool} {waits : State → RingOp → Bool}
  {act : State → RingOp → State} (hOp : startable s ld ring = some o)
include hOp

theorem startOp_starts (hStart : opStarted s ld ring o = u) (hMine : mine o.desc.opcode = true) (hFree : waits s o = false) :
    startOp s ld ring mine waits act = act u o := by
  subst hStart
  simp only [startOp, hOp, hMine, hFree, Bool.not_true, Bool.or_self, Bool.false_eq_true, if_false, opStarted]

theorem startOp_waits (hWait : waits s o = true) : startOp s ld ring mine waits act = s := by
  simp only [startOp, hOp, hWait, Bool.or_true, if_true]

end Start

section Checked
variable {u : State} {ld : Ld} {ring : RingNo} {o : RingOp} {bad : Option Nat} {act : State → State}

theorem checked_passes (h : bad = none) : checked u ld ring o bad act = act u := by rw [h, checked]

theorem checked_fails {st : Nat} (h : bad = some st) : checked u ld ring o bad act = failOp u ld ring o st := by rw [h, checked]

end Checked

/-! ### What the end of an operation leaves (R45, R66, R136) -/

theorem countDenial_entries (s : State) (mid plot line : Nat) : (countDenial s mid plot line).plots.entries = s.plots.entries := by
  simp only [countDenial]
  split
  · rfl
  · exact congrArg (·.entries) (onlyEvents_raise ..).plots

theorem stageWaiting_plots (s : State) : (stageWaiting s).plots = s.plots := by
  unfold stageWaiting
  generalize ((opsAt s .ended).filter fun x => !x.2.2.queued) = ended
  induction ended generalizing s with
  | nil => rfl
  | cons x rest ih =>
    rw [List.foldl_cons, ih]
    split <;> rfl

theorem endOp_plots (s : State) (ld : Ld) (ring : RingNo) (num status result : Nat) :
    (endOp s ld ring num status result).plots = s.plots := by
  unfold endOp
  split
  · rfl
  · split
    · rfl
    · rw [stageWaiting_plots]
      rfl

theorem endOpFree_plots (s : State) (ld : Ld) (ring : RingNo) (num status : Nat) : (endOpFree s ld ring num status).plots = s.plots := by
  rw [endOpFree, endOp_plots]
  rfl

/-- An operation that fails may count a denial, and changes no translation entry. -/
theorem entryOf_failOp (s : State) (ld : Ld) (ring : RingNo) (o : RingOp) (status clod : Nat) :
    entryOf (failOp s ld ring o status) clod = entryOf s clod := by
  have hEntries : (failOp s ld ring o status).plots.entries = s.plots.entries := by
    rw [failOp, endOpFree_plots]
    split
    · exact countDenial_entries ..
    · split
      · exact countDenial_entries ..
      · rfl
  rw [entryOf, hEntries, entryOf]

/-! ### The pin count (R45) -/

section Pin
variable {s u : State} {ld : Ld} {ring : RingNo} {o : RingOp} (hOp : startable s ld ring = some o) (hStart : opStarted s ld ring o = u)
  (hChecks : plotChecks u ld o.desc (rangeFields o.desc) 3 false anyState (upTo 1073741824) = none)
include hOp hStart hChecks

theorem doPin_full (hCode : o.desc.opcode = 0x0A) (hFull : ∃ c ∈ touched u o, (entryOf u c).pins = 15) :
    doPin ld ring s = failOp u ld ring o stPinLimit := by
  rw [doPin, startOp_starts hOp hStart (decide_eq_true hCode) rfl, checked_passes hChecks]
  exact if_pos (List.any_eq_true.2 (by simpa using hFull))

theorem doUnpin_empty (hCode : o.desc.opcode = 0x0B) (hEmpty : ∃ c ∈ touched u o, (entryOf u c).pins = 0) :
    doUnpin ld ring s = failOp u ld ring o stNotPinned := by
  rw [doUnpin, startOp_starts hOp hStart (decide_eq_true hCode) rfl, checked_passes hChecks]
  exact if_pos (List.any_eq_true.2 (by simpa using hEmpty))

end Pin

/-- Settles O39: both operations fail as they start, and an operation that fails leaves every entry. -/
theorem pinCountEnds : Obligations.PinCountEnds := by
  refine fun s u ld ring o hOp hStart hChecks => ⟨fun hCode hFull => ?pin, fun hCode hEmpty => ?unpin, fun clod => ?entries⟩
  case pin => rw [exec_pin, doPin_full hOp hStart hChecks hCode hFull]
  case unpin => rw [exec_unpin, doUnpin_empty hOp hStart hChecks hCode hEmpty]
  case entries =>
    have hKept : entryOf u clod = entryOf s clod := by rw [← hStart]; rfl
    exact ⟨(entryOf_failOp ..).trans hKept, (entryOf_failOp ..).trans hKept⟩

/-! ### Operations on plots (R41, R42, R126, R451, R452) -/

section Plots
variable {s u : State} {ld : Ld} {ring : RingNo} {o : RingOp} (hOp : startable s ld ring = some o) (hStart : opStarted s ld ring o = u)
include hOp hStart

theorem doPlotAdmit_started (hCode : o.desc.opcode = 0x10) : doPlotAdmit ld ring s =
    if reservedBits o.desc || !admitFields o.desc then failOp u ld ring o stBadField
    else if !flagI u Reg.CRE_LD_PRIV.admit_allow ld.val then endOpFree (countDenial u ld.val 0xFFF 0) ld ring o.num stAccessDenied
    else submitJob u (.ring ld ring o.num) (admissionOf o.desc) := by
  rw [doPlotAdmit, startOp_starts hOp hStart (decide_eq_true hCode) rfl]

theorem doPlotRelease_started (hCode : o.desc.opcode = 0x11) (hFree : orderWaits s o = false) : doPlotRelease ld ring s =
    checked u ld ring o (plotChecks u ld o.desc (wholeFields o.desc) 3 false anyState (wholeRange o.desc)) fun v =>
      orderAtHome v o.desc.plot.val (fun v => enterReleasing v o.desc.plot.val) (.release o.desc.plot) := by
  rw [doPlotRelease, startOp_starts hOp hStart (decide_eq_true hCode) hFree]

theorem doPlotSeal_started (hCode : o.desc.opcode = 0x12) (hFree : orderWaits s o = false) : doPlotSeal ld ring s =
    checked u ld ring o (plotChecks u ld o.desc (wholeFields o.desc) 3 false sealState (wholeRange o.desc)) fun v =>
      if (plotRec v o.desc.plot.val).sealing then v
      else orderAtHome v o.desc.plot.val
        (fun w => queueSeal (orderSeal w o.desc.plot.val (plotRec v o.desc.plot.val).seq) o.desc.plot.val)
        (.seal o.desc.plot (plotRec v o.desc.plot.val).seq) := by
  rw [doPlotSeal, startOp_starts hOp hStart (decide_eq_true hCode) hFree]

theorem doCryptoErase_started (hCode : o.desc.opcode = 0x13) (hFree : eraseWaits s o = false) : doCryptoErase ld ring s =
    checked u ld ring o (plotChecks u ld o.desc (wholeFields o.desc) 3 false eraseState (wholeRange o.desc)) fun v =>
      orderAtHome v o.desc.plot.val (fun v => orderErase v o.desc.plot.val) (.erase o.desc.plot) := by
  rw [doCryptoErase, startOp_starts hOp hStart (decide_eq_true hCode) hFree]

end Plots

/-- Settles O40: an operation that need not wait goes by its checks, and one that waits does nothing yet. -/
theorem plotOperations : Obligations.PlotOperations := by
  intro s u ld ring o hOp hStart
  refine ⟨fun hCode hBits hFields hAllow => ?admission, fun hCode hBits hFields hDeny => ?admissionDenied, fun hCode hFree hChecks => ?release,
    fun hCode hFree hChecks hOpen n hSeq => ?sealOrdered, fun hCode hFree hChecks hSealing => ?sealJoined,
    fun st hCode hFree hChecks => ?sealFails, fun st hCode hFree hChecks => ?releaseFails, fun hCode hWait => ?sealWaits,
    fun hCode hBad => ?admissionBad, fun hCode hFree hChecks => ?erase, fun hCode hWait => ?releaseWaits,
    fun st hCode hFree hChecks => ?eraseFails, fun hCode hWait => ?eraseWaits⟩
  case admission => rw [exec_plotAdmit, doPlotAdmit_started hOp hStart hCode, hBits, hFields, hAllow]; rfl
  case admissionDenied => rw [exec_plotAdmit, doPlotAdmit_started hOp hStart hCode, hBits, hFields, hDeny]; rfl
  case admissionBad =>
    have hFails : (reservedBits o.desc || !admitFields o.desc) = true := by simpa using hBad
    rw [exec_plotAdmit, doPlotAdmit_started hOp hStart hCode, if_pos hFails]
  case release => rw [exec_plotRelease, doPlotRelease_started hOp hStart hCode hFree, checked_passes hChecks]
  case releaseFails => rw [exec_plotRelease, doPlotRelease_started hOp hStart hCode hFree, checked_fails hChecks]
  case releaseWaits => rw [exec_plotRelease, doPlotRelease, startOp_waits hOp hWait]
  case sealOrdered =>
    rw [exec_plotSeal, doPlotSeal_started hOp hStart hCode hFree, checked_passes hChecks, hOpen, hSeq, if_neg Bool.false_ne_true]
  case sealJoined => rw [exec_plotSeal, doPlotSeal_started hOp hStart hCode hFree, checked_passes hChecks, if_pos hSealing]
  case sealFails => rw [exec_plotSeal, doPlotSeal_started hOp hStart hCode hFree, checked_fails hChecks]
  case sealWaits => rw [exec_plotSeal, doPlotSeal, startOp_waits hOp hWait]
  case erase => rw [exec_cryptoErase, doCryptoErase_started hOp hStart hCode hFree, checked_passes hChecks]
  case eraseFails => rw [exec_cryptoErase, doCryptoErase_started hOp hStart hCode hFree, checked_fails hChecks]
  case eraseWaits => rw [exec_cryptoErase, doCryptoErase, startOp_waits hOp hWait]

end Sys2Proof.Machine
end

section
/-! PROOFS. The plot selectors: in a register table of canonical form a selector reads back as written, and the plot that is latched is the
one written; in a table that lists the selector twice it need not be. -/

namespace Sys2Proof.Machine

/-! ### A register table in canonical form -/

/-- A selector has one field, which takes the value written. -/
theorem writeBits_selector {addr : Nat} {d : RegDesc} (hRow : regRow addr = some d) (hField : d.fields = [⟨0, 12, .rw, 0⟩]) (s : State)
    (i : Nat) (value : Word) : writeBits s addr i value 0 = setRegAt s addr i (withField 0 0 12 (fieldOf value 0 12)) := by
  have hFits : fieldOf value 0 12 < 4294967296 := Nat.lt_of_lt_of_le (Nat.mod_lt _ (by decide)) (by decide)
  simp only [writeBits, hRow, hField]
  simp [lostClears, writtenWord, writtenField, Nat.mod_eq_of_lt hFits]

theorem getFi_writeBits_selector {s : State} {f : Field} {d : RegDesc} (hWf : regsWf s.regs) (hRow : regRow f.addr = some d)
    (hField : d.fields = [⟨0, 12, .rw, 0⟩]) (hLo : f.lo = 0) (hWidth : f.width = 12) (i : Nat) (value : Word) :
    getFi (writeBits s f.addr i value 0) f i = value.toNat % 4096 := by
  rw [getFi, writeBits_selector hRow hField, regAt_setRegAt_same hWf, hLo, hWidth, fieldOf_withField_same (by decide)]
  simp [fieldOf]

/-- The row of TMG_PLOT_SEL in the register table. -/
def tmgPlotSelRow : RegDesc := ⟨"TMG_PLOT_SEL", 0x8000100, 1, 4, [⟨0, 12, .rw, 0⟩]⟩

theorem doTmgPlotSelect_of_regsWf {s : State} {who : Accessor} {value : Word} {r : Plot} (hWf : regsWf s.regs)
    (hMgr : isManager s who = true) (hRec : plotRec s (value.toNat % 4096) = r) :
    doTmgPlotSelect who value s =
      let t := writeBits s 0x8000100 (accessorIdx who) value 0
      [stateCode r.state + modeCode r.mode * 8 + bit r.deep * 32 + bit r.prefHome * 64 + bit r.curHome * 128 + r.generation * 65536,
        r.base, r.size, r.floor, r.allow, residents t r, dirtyFrames t r, r.ownerMid].zipIdx.foldl
        (fun u v => latch u (0x8000104 + 4 * v.2) (accessorIdx who) v.1) t := by
  have hRow : regRow Reg.TMG_PLOT_SEL.plot_id.addr = some tmgPlotSelRow := rfl
  have hSel := getFi_writeBits_selector hWf hRow rfl rfl rfl (accessorIdx who) value
  have hSeen : plotRec (writeBits s Reg.TMG_PLOT_SEL.plot_id.addr (accessorIdx who) value 0) (value.toNat % 4096) = r := by
    rw [writeBits_selector hRow rfl, ← hRec, plotRec, setRegAt_plots, plotRec]
  rw [doTmgPlotSelect, setupWrite_of_isManager hMgr]
  simp only [hSel, hSeen]
  rfl

/-! ### A register table that lists the selector twice -/

/-- The plot selector of master 0x340 stands twice in the register table, as plot 1 and as plot 5; of the two plots that matter, 0 and 5,
only 5 has a base. No table that `setRegAt` makes lists a key twice. -/
def twiceSelected : State := { State.reset with
  regs := [(regKey 0x8000100 0, 1), (regKey 0x8000100 0, 5)], plots.plots := [(5, { base := 1 })] }

theorem exec_tmgPlotSelect (s : State) (who : Accessor) (value : Word) :
    exec (.tmgPlotSelect who value) s = .next (finished s (doTmgPlotSelect who value s)) := rfl

/-- The write of 0, the reset value, takes the first entry out, so the selector then reads 5, and plot 5's base is latched. -/
theorem tmgPlotSelect_twiceSelected :
    regAt (finished twiceSelected (doTmgPlotSelect (.mid 0x340) 0 twiceSelected)) 0x8000108 0 = 1 := by decide +kernel

/-- Refutes O14: its first clause has the base of plot 0 in TMG_PLOT_DATA1, at every state, and where the register table lists the
selector twice the command latches that of plot 5. The statement lacks the hypothesis `regsWf s.regs`, under which that clause is
`doTmgPlotSelect_of_regsWf`. -/
theorem not_plotSnapshots : ¬ Obligations.PlotSnapshots := by
  rintro ⟨hTmg, -⟩
  have hEnd := hTmg twiceSelected (.mid 0x340) 0 {} rfl rfl
  rw [exec_tmgPlotSelect, Host.Outcome.next.injEq] at hEnd
  have hBase := tmgPlotSelect_twiceSelected
  rw [hEnd] at hBase
  exact absurd hBase (by decide +kernel)

end Sys2Proof.Machine
end

section
/-! PROOFS. CXL.mem requests: each command by the verdict of its gate, and the statement about them. -/

namespace Sys2Proof.Machine

theorem exec_cxlMemRead (s : State) (ld : Ld) (tag : Tag) (hpa : DWord) (m : MetaValue) (seen : ArrayFaults) :
    exec (.cxlMemRead ld tag hpa m seen) s = .next (settled s (doCxlMemRead ld tag hpa m seen s)) := rfl

theorem exec_cxlMemWrite (s : State) (ld : Ld) (tag : Tag) (hpa : DWord) (be : ByteMask) (data : Line) (poison : Bool) (m : MetaValue)
    (seen : ArrayFaults) :
    exec (.cxlMemWrite ld tag hpa be data poison m seen) s = .next (settled s (doCxlMemWrite ld tag hpa be data poison m seen s)) := rfl

/-! ### What the POU takes in with a request (R157, R202, R213) -/

theorem markFaults_regs (s : State) (line : Nat) (seen : ArrayFaults) : (markFaults s line seen).regs = s.regs := by
  unfold markFaults
  split <;> rfl

/-- The parity errors a lookup meets stand in the front cache; no register changes. -/
theorem meetFaults_regs (s : State) (line : Nat) (seen : ArrayFaults) : (meetFaults s line seen).regs = s.regs := by
  simp only [meetFaults]
  split <;> exact markFaults_regs s line seen

theorem flag_of_regs {s t : State} (h : t.regs = s.regs) (f : Field) : flag t f = flag s f := by
  rw [flag, getF, getFi, regAt, h, flag, getF, getFi, regAt]

/-- Whether a request's MAC has yet to be checked is told by the port's register alone (R88). -/
theorem arriving_of_regs {s t : State} (ld : Ld) (h : t.regs = s.regs) : arriving t ld = arriving s ld := by
  rw [arriving, flag_of_regs h, arriving]

/-- A write back that a snoop asks for passes the directory at once, and the reads of its line that wait there take their place anew. -/
theorem acceptHostWrite_eq {s v : State} {origin : Origin} {mid plot line : Nat} {data : Line} {be : ByteMask} {poison : Bool} {m : MetaValue}
    (hHeld : (acceptWrite s origin mid plot line data be poison m).2 = v) :
    acceptHostWrite s origin mid plot line data be poison m = (s.pou.nextId,
      if !answersSnoop s mid line m then v else { v with
        pou.writes := v.pou.writes.map fun w => if w.id = s.pou.nextId then { w with dir := 2, back := true } else w
        pou.reads := v.pou.reads.map fun r => if r.line = line && r.dir = 1 then { r with ord := 0 } else r }) := by
  subst hHeld
  cases hBack : answersSnoop s mid line m <;> simp only [acceptHostWrite, hBack] <;> rfl

theorem acceptHostWrite_regs (s : State) (origin : Origin) (mid plot line : Nat) (data : Line) (be : ByteMask) (poison : Bool) (m : MetaValue) :
    (acceptHostWrite s origin mid plot line data be poison m).2.regs = s.regs := by
  rw [acceptHostWrite_eq rfl]
  split <;> rfl

/-! ### Requests by their gate (R65, R79, R83, R94, R387) -/

section Gates
variable {s : State} {ld : Ld} {hpa : DWord} (tag : Tag) (m : MetaValue) (seen : ArrayFaults)

theorem gate_ignored (write : Bool) (h : carriesMem s ld = false) : gate s ld hpa write = .ignored := by
  simp only [gate, h, Bool.not_false, if_true]

theorem doCxlMemRead_ignored (h : gate s ld hpa false = .ignored) : doCxlMemRead ld tag hpa m seen s = s := by
  simp only [doCxlMemRead, h]

theorem doCxlMemRead_viral (h : gate s ld hpa false = .viral) :
    doCxlMemRead ld tag hpa m seen s = toHost s ld (.memData ld tag.val 0 true) := by simp only [doCxlMemRead, h]

theorem doCxlMemRead_denied {p line : Nat} {mode : Bool} (h : gate s ld hpa false = .denied p line mode) :
    doCxlMemRead ld tag hpa m seen s = toHost (denyHost s ld p line mode) ld (.memData ld tag.val 0 true) := by
  simp only [doCxlMemRead, h]

theorem doCxlMemRead_window {i cls line : Nat} {w : Window} {db : Bool} (h : gate s ld hpa false = .window i w cls line db) :
    doCxlMemRead ld tag hpa m seen s =
      startChain s (.host ld tag.val) ld.val cls i w false line 0 0 false (if db then m else .invalid) (arriving s ld) := by
  simp only [doCxlMemRead, h]

theorem doCxlMemRead_plot {p line : Nat} {db : Bool} (h : gate s ld hpa false = .plot p line db) :
    doCxlMemRead ld tag hpa m seen s =
      updRdRec (acceptRead (meetFaults s line seen) (.host ld tag.val) ld.val p line m).2 (meetFaults s line seen).pou.nextId
        fun r => { r with mac := arriving s ld } := by
  have hMac : arriving (acceptRead (meetFaults s line seen) (.host ld tag.val) ld.val p line m).2 ld = arriving s ld :=
    arriving_of_regs ld (meetFaults_regs s line seen)
  simp only [doCxlMemRead, h, hMac]
  rfl

variable (be : ByteMask) (data : Line) (poison : Bool)

theorem doCxlMemWrite_ignored (h : gate s ld hpa true = .ignored) : doCxlMemWrite ld tag hpa be data poison m seen s = s := by
  simp only [doCxlMemWrite, h]

theorem doCxlMemWrite_viral (h : gate s ld hpa true = .viral) :
    doCxlMemWrite ld tag hpa be data poison m seen s = writeDone s ld tag.val := by simp only [doCxlMemWrite, h]

theorem doCxlMemWrite_denied {p line : Nat} {mode : Bool} (h : gate s ld hpa true = .denied p line mode) :
    doCxlMemWrite ld tag hpa be data poison m seen s = writeDone (denyHost s ld p line mode) ld tag.val := by
  simp only [doCxlMemWrite, h]

theorem doCxlMemWrite_window {i cls line : Nat} {w : Window} {db : Bool} (h : gate s ld hpa true = .window i w cls line db) :
    doCxlMemWrite ld tag hpa be data poison m seen s =
      startChain s (.host ld tag.val) ld.val cls i w true line be data poison (if db then m else .invalid) (arriving s ld) := by
  simp only [doCxlMemWrite, h]

theorem doCxlMemWrite_plot {p line : Nat} {db : Bool} (h : gate s ld hpa true = .plot p line db) :
    doCxlMemWrite ld tag hpa be data poison m seen s =
      updWrite (acceptHostWrite (meetFaults s line seen) (.host ld tag.val) ld.val p line data be poison m).2
        (meetFaults s line seen).pou.nextId fun w => { w with uncredited := !creditLeft s (ld.val / 16), mac := arriving s ld } := by
  have hMac : arriving (acceptHostWrite (meetFaults s line seen) (.host ld tag.val) ld.val p line data be poison m).2 ld = arriving s ld :=
    arriving_of_regs ld ((acceptHostWrite_regs ..).trans (meetFaults_regs s line seen))
  have hId : (acceptHostWrite (meetFaults s line seen) (.host ld tag.val) ld.val p line data be poison m).1 =
    (meetFaults s line seen).pou.nextId := by rw [acceptHostWrite_eq rfl]
  simp only [doCxlMemWrite, h, hMac, hId]

end Gates

/-- Settles O15: each clause is the rule for its verdict of the gate. -/
theorem hostRequests : Obligations.HostRequests := by
  refine ⟨⟨fun s ld tag hpa m seen p line db h => ?read, fun s ld tag hpa be data poison m seen p line db h => ?write,
    fun s ld tag hpa m seen i w cls line db h => ?windowRead, fun s ld tag hpa be data poison m seen i w cls line db h => ?windowWrite⟩,
    fun s ld tag hpa be data poison m seen => ⟨fun p line mode h => ?deniedRead, fun p line mode h => ?deniedWrite, fun h => ?viralRead,
      fun h => ?viralWrite, fun h => ⟨?ignoredRead, ?ignoredWrite⟩⟩⟩
  case read => rw [exec_cxlMemRead, doCxlMemRead_plot tag m seen h]; rfl
  case write =>
    rw [exec_cxlMemWrite, doCxlMemWrite_plot tag m seen be data poison h, acceptHostWrite_eq rfl]
    rfl
  case windowRead => rw [exec_cxlMemRead, doCxlMemRead_window tag m seen h]
  case windowWrite => rw [exec_cxlMemWrite, doCxlMemWrite_window tag m seen be data poison h]
  case deniedRead => rw [exec_cxlMemRead, doCxlMemRead_denied tag m seen h]
  case deniedWrite => rw [exec_cxlMemWrite, doCxlMemWrite_denied tag m seen be data poison h, writeDone]
  case viralRead => rw [exec_cxlMemRead, doCxlMemRead_viral tag m seen h]
  case viralWrite => rw [exec_cxlMemWrite, doCxlMemWrite_viral tag m seen be data poison h, writeDone]
  case ignoredRead => rw [exec_cxlMemRead, doCxlMemRead_ignored tag m seen (gate_ignored false h)]
  case ignoredWrite => rw [exec_cxlMemWrite, doCxlMemWrite_ignored tag m seen be data poison (gate_ignored true h)]

end Sys2Proof.Machine
end

section
/-! PROOFS. Chain requests at their ingress node and at their owner: the commands as their effects, what a frame that is taken does, and the
statement about them. -/

namespace Sys2Proof.Machine

/-! ### The commands as their effects -/

section Commands
variable (s : State) (port : Fin 8) (ck : GcmCheck) (f : ChainFrame)

theorem exec_chRead : exec (.chRead port ck f) s = .next (settled s (doChRead port ck f s)) := rfl

theorem exec_chWrite : exec (.chWrite port ck f) s = .next (settled s (doChWrite port ck f s)) := rfl

theorem exec_chData : exec (.chData port ck f) s = .next (settled s (doChData port ck f s)) := rfl

theorem exec_chCmpl : exec (.chCmpl port ck f) s = .next (settled s (doChCmpl port ck f s)) := rfl

theorem exec_chRefuse : exec (.chRefuse port ck f) s = .next (settled s (doChRefuse port ck f s)) := rfl

theorem exec_chAbort : exec (.chAbort port ck f) s = .next (settled s (doChAbort port ck f s)) := rfl

theorem exec_chUnreach : exec (.chUnreach port ck f) s = .next (settled s (doChUnreach port ck f s)) := rfl

theorem exec_chStale : exec (.chStale port ck f) s = .next (settled s (doChStale port ck f s)) := rfl

theorem exec_chainResponseTimeout (tag : Word) :
    exec (.chainResponseTimeout tag) s = .next (settled s (chainEnd (retryReq s tag false))) := rfl

end Commands

/-! ### Frames that are taken (R336, R391, R439, R448) -/

theorem frameJob_good {s : State} {ck : GcmCheck} (h : ck.first = .good) : frameJob s ck = (true, s) := by
  simp only [frameJob, gcmEnds, h]

/-- A frame that passes every check of its arrival acts on the state as it stands. -/
theorem chainIn_of_taken {s : State} {port : Fin 8} {ck : GcmCheck} {f : ChainFrame} (h : ChainTaken s port ck f) (act : State → State) :
    chainIn s port ck f act = act s := by
  simp only [chainIn, h.on, h.still, h.up, h.keyed, frameJob_good h.job, h.here, h.tag, h.epoch, ne_eq, not_true_eq_false, Bool.not_true,
    Bool.or_self, Bool.false_eq_true, if_false]

/-! ### Resends (R398, R399) -/

theorem retryReq_abort {s : State} {tag : Word} {r : ChainReq} (h : findReq s tag = some r) :
    retryReq s tag false = resendReq 4 s { r with unsure := true } false := by simp only [retryReq, h, Bool.false_eq_true, if_false]

theorem retryReq_unreach {s : State} {tag : Word} {r : ChainReq} (h : findReq s tag = some r) :
    retryReq s tag true = resendReq 4 s r true := by simp only [retryReq, h, if_true]

theorem retryReq_unknown {s : State} {tag : Word} (toAlt : Bool) (h : findReq s tag = none) : retryReq s tag toAlt = s := by
  simp only [retryReq, h]

section Frames
variable {s u : State} {port : Fin 8} {ck : GcmCheck} {f : ChainFrame} (hTaken : ChainTaken s port ck f)
include hTaken

/-! ### Answers at the ingress node (R65, R397 to R399) -/

section Answers
variable {r : ChainReq} (hReq : findReq s f.pfx.tag = some r)

section Ends
include hReq

theorem doChData_read {line : Line} (hBody : f.body = .data line) (hRead : r.write = false) : doChData port ck f s = chainEnd
    (giveData (noteHolder (dropReq s r.tag) r) r (if f.pfx.poison then poisonLine else { data := line, poison := false })) := by
  simp only [doChData, chainIn_of_taken hTaken, hBody, hReq, hRead, Bool.false_eq_true, if_false]

theorem doChCmpl_write (hBody : f.body = .cmpl) (hWrite : r.write = true) :
    doChCmpl port ck f s = chainEnd (giveDone (noteHolder (dropReq s r.tag) r) r) := by
  simp only [doChCmpl, chainIn_of_taken hTaken, hBody, hReq, hWrite, if_true]

theorem doChRefuse_req (hBody : f.body = .refuse) : doChRefuse port ck f s =
    chainEnd (if r.write then giveDone (dropReq s r.tag) r else giveData (dropReq s r.tag) r poisonLine) := by
  simp only [doChRefuse, chainIn_of_taken hTaken, hBody, hReq]

end Ends

theorem doChAbort_taken (hBody : f.body = .abort) : doChAbort port ck f s = chainEnd (retryReq s f.pfx.tag false) := by
  simp only [doChAbort, chainIn_of_taken hTaken, hBody]

theorem doChUnreach_taken (hBody : f.body = .unreach) : doChUnreach port ck f s = chainEnd (retryReq s f.pfx.tag true) := by
  simp only [doChUnreach, chainIn_of_taken hTaken, hBody]

theorem doChStale_taken {node : Fin 4096} {e : Word} (hBody : f.body = .stale node e) :
    doChStale port ck f s = chainEnd (retryReq (setFlag s Reg.FLK_CHAIN_ERR.stale) f.pfx.tag true) := by
  simp only [doChStale, chainIn_of_taken hTaken, hBody]

end Answers

/-! ### The owner (R389, R391, R397, R398, R402) -/

section Owner
variable (hPfx : readPrefix s f.pfx = u)
include hPfx

theorem doChRead_taken : doChRead port ck f s = takeChainRead u port f := by
  rw [doChRead, chainIn_of_taken hTaken, hPfx]

theorem doChWrite_taken : doChWrite port ck f s = takeChainWrite u port f := by
  rw [doChWrite, chainIn_of_taken hTaken, hPfx]

end Owner

end Frames

section Read
variable {u : State} {port : Fin 8} {f : ChainFrame} {dpa : DWord} {m : MetaValue} {p : Nat} (hBody : f.body = .read dpa m)
include hBody

theorem takeChainRead_unreach (hServ : serving u = false) : takeChainRead u port f = answerChain u f.pfx .unreach := by
  simp only [takeChainRead, hBody, hServ, Bool.not_false, if_true]

variable (hServ : serving u = true)
include hServ

theorem takeChainRead_otherNode (hBound : classBound u f.pfx = false) : takeChainRead u port f =
    refuseChain (setFlag u Reg.FLK_CHAIN_ERR.class_refused) (chainMid port.val f.pfx.cls.val) (chainLine dpa) f.pfx := by
  simp only [takeChainRead, hBody, hServ, hBound, Bool.not_true, Bool.not_false, Bool.false_eq_true, if_false, if_true]

variable (hBound : classBound u f.pfx = true)
include hBound

theorem takeChainRead_refused (hNone : chainAllows u (chainMid port.val f.pfx.cls.val) (chainLine dpa) 1 = none) :
    takeChainRead u port f = refuseChain u (chainMid port.val f.pfx.cls.val) (chainLine dpa) f.pfx := by
  simp only [takeChainRead, hBody, hServ, hBound, hNone, Bool.not_true, Bool.false_eq_true, if_false]

theorem takeChainRead_accepted (hPlot : chainAllows u (chainMid port.val f.pfx.cls.val) (chainLine dpa) 1 = some p) :
    takeChainRead u port f = (acceptRead u
      (.chain (Fin.ofNat 4096 (chainMid port.val f.pfx.cls.val)) f.pfx.srcNode.val f.pfx.tag.toNat) (chainMid port.val f.pfx.cls.val) p
      (chainLine dpa) m).2 := by
  simp only [takeChainRead, hBody, hServ, hBound, hPlot, Bool.not_true, Bool.false_eq_true, if_false]

end Read

section Write
variable {u : State} {port : Fin 8} {f : ChainFrame} {dpa : DWord} {be : ByteMask} {data : Line} {m : MetaValue} {p : Nat}
  (hBody : f.body = .write dpa be data m)
include hBody

theorem takeChainWrite_unreach (hServ : serving u = false) : takeChainWrite u port f = answerChain u f.pfx .unreach := by
  simp only [takeChainWrite, hBody, hServ, Bool.not_false, if_true]

variable (hServ : serving u = true)
include hServ

theorem takeChainWrite_otherNode (hBound : classBound u f.pfx = false) : takeChainWrite u port f =
    refuseChain (setFlag u Reg.FLK_CHAIN_ERR.class_refused) (chainMid port.val f.pfx.cls.val) (chainLine dpa) f.pfx := by
  simp only [takeChainWrite, hBody, hServ, hBound, Bool.not_true, Bool.not_false, Bool.false_eq_true, if_false, if_true]

variable (hBound : classBound u f.pfx = true)
include hBound

theorem takeChainWrite_done (hDone : u.chain.done.contains (f.pfx.srcNode.val, f.pfx.tag) = true) :
    takeChainWrite u port f = answerChain u f.pfx .cmpl := by
  simp only [takeChainWrite, hBody, hServ, hBound, hDone, Bool.not_true, Bool.false_eq_true, if_false, if_true]

variable (hNew : u.chain.done.contains (f.pfx.srcNode.val, f.pfx.tag) = false)
include hNew

theorem takeChainWrite_underWay (hWay : chainUnderWay u f.pfx = true) : takeChainWrite u port f = u := by
  simp only [takeChainWrite, hBody, hServ, hBound, hNew, hWay, Bool.not_true, Bool.false_eq_true, if_false, if_true]

variable (hFirst : chainUnderWay u f.pfx = false)
include hFirst

theorem takeChainWrite_refused (hNone : chainAllows u (chainMid port.val f.pfx.cls.val) (chainLine dpa) 2 = none) :
    takeChainWrite u port f = refuseChain u (chainMid port.val f.pfx.cls.val) (chainLine dpa) f.pfx := by
  simp only [takeChainWrite, hBody, hServ, hBound, hNew, hFirst, hNone, Bool.not_true, Bool.false_eq_true, if_false]

variable (hPlot : chainAllows u (chainMid port.val f.pfx.cls.val) (chainLine dpa) 2 = some p)
include hPlot

theorem takeChainWrite_readOnly (hShut : takesWrites (plotRec u p) = false) :
    takeChainWrite u port f = refuseChain u (chainMid port.val f.pfx.cls.val) (chainLine dpa) f.pfx := by
  simp only [takeChainWrite, hBody, hServ, hBound, hNew, hFirst, hPlot, hShut, Bool.not_true, Bool.not_false, Bool.false_eq_true, if_false,
    if_true]

variable (hOpen : takesWrites (plotRec u p) = true)
include hOpen

theorem takeChainWrite_accepted (hRoom : dedupUsed u < dedupCap) : takeChainWrite u port f = (acceptHostWrite u
    (.chain (Fin.ofNat 4096 (chainMid port.val f.pfx.cls.val)) f.pfx.srcNode.val f.pfx.tag.toNat) (chainMid port.val f.pfx.cls.val) p
    (chainLine dpa) data be f.pfx.poison m).2 := by
  simp only [takeChainWrite, hBody, hServ, hBound, hNew, hFirst, hPlot, hOpen, if_neg (Nat.not_le.2 hRoom), Bool.not_true,
    Bool.false_eq_true, if_false]

theorem takeChainWrite_waits (hFull : dedupCap ≤ dedupUsed u) (hNone : u.chain.dedupWaits = []) :
    takeChainWrite u port f = { setFlag u Reg.FLK_CHAIN_ERR.dedup_full with chain.dedupWaits := [(port, f)] } := by
  simp only [takeChainWrite, hBody, hServ, hBound, hNew, hFirst, hPlot, hOpen, hFull, hNone, Bool.not_true, Bool.false_eq_true, if_false,
    if_true, List.filter_nil, List.nil_append]

end Write

/-- Settles O20: an answer by the request it finds, a resend by `retryReq`, a request by what its owner finds against it. -/
theorem chainRequests : Obligations.ChainRequests := by
  refine ⟨fun s port ck f r hTaken hReq => ⟨fun line hBody hRead => ?data, fun hBody hWrite => ?cmpl, fun hBody hRead => ?refuseRead,
    fun hBody hWrite => ?refuseWrite, fun hBody => ?abort, fun hBody => ?unreach, ?timeout⟩,
    fun s port ck f node e hTaken hBody => ⟨fun r hReq => ?stale, fun hNone => ?staleUnknown⟩,
    fun s u port ck f dpa be data m p hTaken hPfx => ?owner⟩
  case data => rw [exec_chData, doChData_read hTaken hReq hBody hRead]
  case cmpl => rw [exec_chCmpl, doChCmpl_write hTaken hReq hBody hWrite]
  case refuseRead => rw [exec_chRefuse, doChRefuse_req hTaken hReq hBody, hRead, if_neg Bool.false_ne_true]
  case refuseWrite => rw [exec_chRefuse, doChRefuse_req hTaken hReq hBody, if_pos hWrite]
  case abort => rw [exec_chAbort, doChAbort_taken hTaken hBody, retryReq_abort hReq]
  case unreach => rw [exec_chUnreach, doChUnreach_taken hTaken hBody, retryReq_unreach hReq]
  case timeout => rw [exec_chainResponseTimeout, retryReq_abort hReq]
  case stale => rw [exec_chStale, doChStale_taken hTaken hBody, retryReq_unreach hReq]
  case staleUnknown => rw [exec_chStale, doChStale_taken hTaken hBody, retryReq_unknown true hNone]
  case owner =>
    rw [exec_chRead, exec_chWrite, doChRead_taken hTaken hPfx, doChWrite_taken hTaken hPfx]
    refine ⟨fun hBody hServ hBound hPlot => ?_, fun hBody hServ hBound hNone => ?_, fun hBody hServ hBound => ?_, fun hBody hServ => ?_,
      fun hBody hServ hBound => ⟨fun hDone => ?_, fun hNew hWay => ?_, fun hNew hFirst hNone => ?_, fun hNew hFirst hPlot hShut => ?_,
        fun hNew hFirst hPlot hOpen => ⟨fun hRoom => ?_, fun hFull hWaits => ?_⟩⟩, fun hBody hServ hBound => ?_, fun hBody hServ => ?_⟩
    · rw [takeChainRead_accepted hBody hServ hBound hPlot, chainMid]
    · rw [takeChainRead_refused hBody hServ hBound hNone, chainMid]
    · rw [takeChainRead_otherNode hBody hServ hBound, chainMid]
    · rw [takeChainRead_unreach hBody hServ]
    · rw [takeChainWrite_done hBody hServ hBound hDone]
    · rw [takeChainWrite_underWay hBody hServ hBound hNew hWay]
    · rw [takeChainWrite_refused hBody hServ hBound hNew hFirst hNone, chainMid]
    · rw [takeChainWrite_readOnly hBody hServ hBound hNew hFirst hPlot hShut, chainMid]
    · rw [takeChainWrite_accepted hBody hServ hBound hNew hFirst hPlot hOpen hRoom, chainMid]
    · rw [takeChainWrite_waits hBody hServ hBound hNew hFirst hPlot hOpen hFull hWaits]
    · rw [takeChainWrite_otherNode hBody hServ hBound, chainMid]
    · rw [takeChainWrite_unreach hBody hServ]

end Sys2Proof.Machine
end

section
/-! PROOFS. The front cache's commands: each as its effect, one rule per outcome of a snoop's answer, of a return from Loam and of an
operation on a line, and the statement about them. -/

namespace Sys2Proof.Machine

/-! ### The commands as their effects -/

section Commands
variable (s : State) (ld : Ld) (line : LineNo) (clod : ClodNo) (engine : Mid)

theorem exec_birsp (wb : Option LineVal) : exec (.birsp ld line wb) s = .next (settled s (doBirsp ld line wb s)) := rfl

theorem exec_bisnpTimeout (id : Nat) : exec (.bisnpTimeout id) s = .next (settled s (doBisnpTimeout id s)) := rfl

theorem exec_biconflict : exec (.biconflict ld line) s = .next (settled s (doBiconflict ld line s)) := rfl

theorem exec_loamFillReturn (d : LoamDecode) (job : XtsEnd) :
    exec (.loamFillReturn line d job) s = .next (settled s (doLoamFillReturn line d job s)) := rfl

theorem exec_victimWriteDone (job : XtsEnd) : exec (.victimWriteDone line job) s = .next (settled s (doVictimWriteDone line job s)) := rfl

theorem exec_victimHoldExpiry : exec (.victimHoldExpiry line) s = .next (settled s (doVictimHoldExpiry line s)) := rfl

theorem exec_mapCacheFill (crcBad : Bool) : exec (.mapCacheFill clod crcBad) s = .next (settled s (doMapCacheFill clod crcBad s)) := rfl

theorem exec_zeroALine : exec (.zeroALine engine line) s = .next (settled s (maintain s .zero engine line.val)) := rfl

theorem exec_flushLine (seen : ArrayFaults) :
    exec (.flushLine engine line seen) s = .next (settled s (maintain (markFaults s line.val seen) .flush engine line.val)) := rfl

theorem exec_flushClod : exec (.flushClod clod) s = .next (settled s (flushClod s clod.val 0x308)) := rfl

theorem exec_invalidateLine : exec (.invalidateLine engine line) s = .next (settled s (maintain s .drop engine line.val)) := rfl

theorem exec_plotTagWalkDone (plot : PlotId) : exec (.plotTagWalkDone plot) s = .next (settled s (doPlotTagWalkDone plot s)) := rfl

end Commands

/-! ### Snoop answers (R86, R88, R213, R214, R401) -/

section Snoops
variable {s : State} {x : Snoop} {ld : Ld} {line : LineNo}

theorem takeAnswer_clean : takeAnswer s x none = answerSnoop s x := rfl

/-- What a chain owner's snoop found modified goes with the answer. -/
theorem takeAnswer_chain {n t : Nat} (v : LineVal) (hCause : x.cause = .chain n t) :
    takeAnswer s x (some v) = answerSnoop s { x with back := some v } := by simp only [takeAnswer, hCause]

/-- What any other snoop found modified is written first. -/
theorem takeAnswer_writeBack (v : LineVal) (hCause : ∀ n t, x.cause ≠ .chain n t) :
    takeAnswer s x (some v) = answerSnoop (takeBack s (Fin.ofNat 256 x.target) x.line v) x := by
  cases h : x.cause with
  | chain n t => exact absurd h (hCause n t)
  | read | write | evict | twin => simp only [takeAnswer, h]

section Asked
variable (hFind : (s.fcd.snoops.find? fun x => x.target = ld.val && x.line = line.val && x.answer.isNone) = some x) (wb : Option LineVal)
include hFind

theorem doBirsp_counts (hMac : arriving s ld = 0) : doBirsp ld line wb s = takeAnswer s x wb := by
  simp only [doBirsp, hFind, hMac, if_true]

theorem doBirsp_awaitsMac (hMac : arriving s ld ≠ 0) : doBirsp ld line wb s = { s with
    fcd.snoops := s.fcd.snoops.map fun y => if y.id = x.id then { y with answer := some wb, mac := arriving s ld } else y } := by
  simp only [doBirsp, hFind, hMac, if_false]

end Asked

theorem doBisnpTimeout_late {id : Nat}
    (hFind : (s.fcd.snoops.find? fun x => x.id = id && decide (x.target < 0x100) && x.answer.isNone) = some x) :
    doBisnpTimeout id s = dropLink
      (raise (setFlag (setFlag s (portField Reg.HFP_PORT_ERR.bi_timeout (x.target / 16))) Reg.FCD_ERR.bi_late) (x.target / 16 * 32) .biTimeout
        x.target [x.target, (plotOfLine s x.line).getD 0xFFF, x.line * 64]) (x.target / 16) := by
  simp only [doBisnpTimeout, hFind]
  rfl

theorem ownEarlier_idle (hWrites : s.pou.writes = []) (hReads : s.pou.reads = []) : ownEarlier s ld x = none := by
  simp only [ownEarlier, hWrites, hReads, List.find?_nil, Option.map_none]

section Conflicts
variable (hFind : (s.fcd.snoops.find? fun x => x.target = ld.val && x.line = line.val) = some x)
include hFind

theorem doBiconflict_atOnce (hFirst : ownEarlier s ld x = none) : doBiconflict ld line s = toHost s ld (.biConflictAck ld line.val) := by
  simp only [doBiconflict, hFind, hFirst]

theorem doBiconflict_later {id : Nat} (hOwn : ownEarlier s ld x = some id) :
    doBiconflict ld line s = { s with fcd.conflicts := s.fcd.conflicts ++ [(ld.val, line.val, id)] } := by
  simp only [doBiconflict, hFind, hOwn]

end Conflicts

end Snoops

/-! ### Fills (R193, R408, R418, R448) -/

theorem doLoamFillReturn_fill {s : State} {line : LineNo} {f : Fill} (d : LoamDecode) (job : XtsEnd)
    (hFill : (s.fcd.fills.find? fun f => f.line = line.val) = some f) : doLoamFillReturn line d job s = returnFill s f d job := by
  simp only [doLoamFillReturn, hFill]

section Fills
variable {s : State} {f : Fill} (hFirst : f.rechecked = false)
include hFirst

theorem returnFill_notIssued (d : LoamDecode) (job : XtsEnd) (hReq : issuedReq s f.lpa f.req = none) : returnFill s f d job = s := by
  simp only [returnFill, hFirst, hReq, Bool.false_eq_true, if_false]

variable {r : LmcReq} (hReq : issuedReq s f.lpa f.req = some r)
include hReq

theorem returnFill_good : returnFill s f .good .good = endFill (lmcEnded s r) f f.val := by
  simp only [returnFill, hFirst, hReq, Bool.false_eq_true, if_false]

theorem returnFill_corrected (d : Fin 16) :
    returnFill s f (.corrected d) .good = endFill (loamCorrected (lmcEnded s r) f.lpa d.val f.val) f f.val := by
  simp only [returnFill, hFirst, hReq, Bool.false_eq_true, if_false]

theorem returnFill_uncorrectable : returnFill s f .uncorrectable .good = startRepair { lmcEnded s r with
    fcd.fills := (lmcEnded s r).fcd.fills.map fun x => if x.line = f.line then { x with rechecked := false } else x } f.line f.lpa f.users := by
  simp only [returnFill, hFirst, hReq, Bool.false_eq_true, if_false]

theorem returnFill_differs (d : LoamDecode) (core : Fin 16) : returnFill s f d (.differs core) = { xtsOut (lmcEnded s r) core.val with
    fcd.fills := (xtsOut (lmcEnded s r) core.val).fcd.fills.map fun x => if x.line = f.line then { x with rechecked := true } else x } := by
  simp only [returnFill, hFirst, hReq, Bool.false_eq_true, if_false]

end Fills

/-! ### Victims (R195 to R197, R202, R227) -/

section Victims
variable {s : State} {line : LineNo} {r : LmcReq} {v : Victim}

theorem doVictimWriteDone_notDriven (hWrite : lineWrite s line.val = some r) (hWaits : r.issued = false) :
    doVictimWriteDone line .good s = s := by
  simp only [doVictimWriteDone, hWrite, hWaits, Bool.not_false, if_true]

/-- A write that has been driven leaves LMC, and the entry goes free if it still waits for that write. -/
theorem doVictimWriteDone_driven (hWrite : lineWrite s line.val = some r) (hDriven : r.issued = true)
    (hVictim : findVictim (lmcEnded s r) line.val = some v) : doVictimWriteDone line .good s =
      if v.write = some r.id ∧ v.held = false then dropVictim (lmcEnded s r) line.val else lmcEnded s r := by
  simp only [doVictimWriteDone, hWrite, hDriven, hVictim, Option.any_some, Bool.not_true, Bool.false_eq_true, if_false, Bool.and_eq_true,
    decide_eq_true_eq, Bool.not_eq_true']

theorem checkVictim_clean (hVictim : findVictim s line.val = some v) (hClean : v.badChunks = 0) : checkVictim s line.val = s := by
  simp only [checkVictim, hVictim, hClean, if_true]

theorem doVictimHoldExpiry_resumes (hVictim : findVictim s line.val = some v) (hHeld : v.held = true) (hClean : v.badChunks = 0)
    (hRuns : s.fcd.fatal = none) : doVictimHoldExpiry line s = issueVictim s v := by
  simp only [doVictimHoldExpiry, checkVictim_clean hVictim hClean, ite_self, hVictim, hHeld, hRuns, Option.isSome_none, Bool.and_false,
    Bool.not_false, Bool.and_true, if_true]

end Victims

/-! ### The map cache (R46, R49, R308) -/

section Maps
variable {s : State} {clod : ClodNo}

theorem doMapCacheFill_changed (crcBad : Bool) (hFill : (s.plots.mapFills.find? fun f => f.1 = clod.val) = some (clod.val, true)) :
    doMapCacheFill clod crcBad s = { s with
      plots.mapFills := s.plots.mapFills.map fun f => if f.1 = clod.val then (f.1, false) else f } := by
  simp only [doMapCacheFill, hFill]

variable (hFill : (s.plots.mapFills.find? fun f => f.1 = clod.val) = some (clod.val, false))
include hFill

theorem doMapCacheFill_good : doMapCacheFill clod false s = mapInstall (updEntry { s with
    plots.mapFills := s.plots.mapFills.filter fun f => f.1 ≠ clod.val } clod.val fun e => { e with heat := e.heat / 2 }) clod.val := by
  simp only [doMapCacheFill, hFill, Bool.false_eq_true, if_false]

theorem doMapCacheFill_crcBad : doMapCacheFill clod true s =
    loseEntry { s with plots.mapFills := s.plots.mapFills.filter fun f => f.1 ≠ clod.val } clod.val := by
  simp only [doMapCacheFill, hFill, if_true]

end Maps

/-! ### Operations on lines (R15, R23, R198 to R201) -/

section Issuers
variable {s : State} {op : MaintOp} {m : Mid} {line : Nat}

theorem issues_zero_iff : issues .zero m = true ↔ m.val < 0x200 := decide_eq_true_iff

theorem issues_flush_iff : issues .flush m = true ↔ 0x300 ≤ m.val ∧ m.val ≤ 0x30F := by simp [issues]

theorem issues_drop_iff : issues .drop m = true ↔ (0x300 ≤ m.val ∧ m.val ≤ 0x30F) ∨ m.val = 0x31D := by simp [issues]

/-- No block that issues an operation has a reserved master ID. -/
theorem not_issues_of_reservedMid (hMid : reservedMid m.val = true) : issues op m = false := by
  simp only [reservedMid, Bool.or_eq_true, Bool.and_eq_true, decide_eq_true_eq] at hMid
  rw [← Bool.not_eq_true]
  cases op
  case zero => rw [issues_zero_iff]; omega
  case flush => rw [issues_flush_iff]; omega
  case drop => rw [issues_drop_iff]; omega

theorem maintain_issued (hIssues : issues op m = true) :
    maintain s op m line = runMaint { s with fcd.maint := s.fcd.maint ++ [{ line := line, mid := m.val, op := op }] } := if_pos hIssues

theorem maintain_otherMaster (hIssues : ¬ issues op m = true) (hMid : reservedMid m.val = false) : maintain s op m line = s := by
  simp only [maintain, hIssues, hMid, Bool.false_eq_true, if_false]

theorem maintain_reserved (hMid : reservedMid m.val = true) :
    maintain s op m line = raise s (sliceSource (sliceOf line)) .reservedMaster m.val [m.val] := by
  simp only [maintain, not_issues_of_reservedMid hMid, hMid, Bool.false_eq_true, if_false, if_true]

end Issuers

section Waiting
variable {s t : State} {m : Maint} (hMaint : s.fcd.maint = [])
include hMaint

theorem clearMaint_eq : { s with fcd.maint := [] } = s := by rw [← hMaint]

/-- With no fill out and nothing waiting, an operation that finds its way acts at once. -/
theorem runMaint_acts (hFills : s.fcd.fills = []) (hOp : runMaintOp s m = (true, t)) :
    runMaint { s with fcd.maint := s.fcd.maint ++ [m] } = t := by
  simp only [runMaint, hMaint, List.nil_append, List.foldl_cons, List.foldl_nil, clearMaint_eq hMaint]
  simp only [hFills, hOp, List.any_nil, Bool.or_self, Bool.false_eq_true, if_false]

/-- An operation on a line whose fill is out waits for it. -/
theorem runMaint_waits {f : Fill} (hFills : s.fcd.fills = [f]) (hLine : f.line = m.line) :
    runMaint { s with fcd.maint := s.fcd.maint ++ [m] } = { s with fcd.maint := [m] } := by
  simp only [runMaint, hMaint, hFills, hLine, List.nil_append, List.foldl_cons, List.foldl_nil, List.any_cons, decide_true, Bool.true_or,
    if_true]

end Waiting

section Operations
variable {s : State} {line mid : Nat}

theorem prepareWrite_overlaid {clod : Nat} (g : Nat) (hTier : (entryOf s clod).tier = 3) : prepareWrite s clod g = some s := by
  simp only [prepareWrite, hTier]

/-- A zero of a line whose clod has its place takes a way and is dirty with zeros. -/
theorem runMaintOp_zero {p : Nat} (hPlot : plotOfLine s line = some p) (hGood : (entryOf s (clodOf line)).crcBad = false)
    (hTier : (entryOf s (clodOf line)).tier = 3) :
    runMaintOp s { line := line, mid := mid, op := .zero } = applyLine s line mid zeroLine 0 := by
  simp only [runMaintOp, hPlot, hGood, prepareWrite_overlaid _ hTier, Bool.false_eq_true, if_false]

theorem runMaintOp_flush : runMaintOp s { line := line, mid := mid, op := .flush } = (true, flushLine s line mid) := rfl

theorem runMaintOp_drop : runMaintOp s { line := line, mid := mid, op := .drop } = (true, dropLine s line) := rfl

@[simp] theorem markFaults_fills (seen : ArrayFaults) : (markFaults s line seen).fcd.fills = s.fcd.fills := by
  unfold markFaults
  split <;> rfl

@[simp] theorem markFaults_maint (seen : ArrayFaults) : (markFaults s line seen).fcd.maint = s.fcd.maint := by
  unfold markFaults
  split <;> rfl

theorem doPlotTagWalkDone_walks {plot : PlotId} (hWalk : (plotRec s plot.val).tagWalk = true) : doPlotTagWalkDone plot s =
    updPlot (walkPlot s (plotRec s plot.val)) plot.val fun r => { r with tagWalk := false } := by
  simp only [doPlotTagWalkDone, hWalk, Bool.not_true, Bool.false_eq_true, if_false]

end Operations

/-- Settles O19: a snoop's answer by its MAC and its cause, a return by what has been driven, an operation on a line by its master and by
what is out for the line. -/
theorem frontCacheCommands : Obligations.FrontCacheCommands := by
  refine ⟨⟨fun s ld line x v hFind hMac => ⟨?clean, fun ⟨n, t, hCause⟩ => ?chain, fun hCause => ?writeBack⟩,
      fun s ld line x wb hFind hMac => ?unchecked, fun s id x hFind => ?late,
      fun s ld line x hFind => ⟨fun hWrites hReads => ?ackNow, fun id hOwn => ?ackLater⟩⟩,
    ⟨fun s line f r hFill hFirst hReq => ⟨?good, fun d => ?corrected, ?uncorrectable, fun d core => ?differs⟩,
      fun s line f d job hFill hFirst hReq => ?notIssued, fun s line r hWrite hWaits => ?notDriven,
      fun s line r v hWrite hDriven hVictim => ⟨fun hId hHeld => ?freed, fun hKept => ?kept⟩,
      fun s line v hVictim hHeld hClean hRuns => ?resumes, fun s clod hFill => ?changed, fun s clod hFill => ⟨?cached, ?lost⟩⟩,
    ⟨fun s e line p t hMid hFills hMaint hPlot hGood hTier hApply => ?zero, fun s e line seen hLo hHi hFills hMaint => ?flush,
      fun s clod => ?flushClod, fun s e line hMid hFills hMaint => ?drop, fun s e line f hMid hFills hLine hMaint => ?dropWaits,
      fun s plot hWalk => ?walk, fun s e line hMid => ⟨fun hOther => ?noZero, fun hOther seen => ?noFlush, fun hOther hNot => ?noDrop⟩,
      fun s e line hMid => ⟨?reservedZero, ?reservedDrop⟩⟩⟩
  case clean => rw [exec_birsp, doBirsp_counts hFind _ hMac, takeAnswer_clean]
  case chain => rw [exec_birsp, doBirsp_counts hFind _ hMac, takeAnswer_chain v hCause]
  case writeBack => rw [exec_birsp, doBirsp_counts hFind _ hMac, takeAnswer_writeBack v hCause]
  case unchecked => rw [exec_birsp, doBirsp_awaitsMac hFind _ hMac]
  case late => rw [exec_bisnpTimeout, doBisnpTimeout_late hFind]
  case ackNow => rw [exec_biconflict, doBiconflict_atOnce hFind (ownEarlier_idle hWrites hReads)]
  case ackLater => rw [exec_biconflict, doBiconflict_later hFind hOwn]
  case good => rw [exec_loamFillReturn, doLoamFillReturn_fill _ _ hFill, returnFill_good hFirst hReq]
  case corrected => rw [exec_loamFillReturn, doLoamFillReturn_fill _ _ hFill, returnFill_corrected hFirst hReq]
  case uncorrectable => rw [exec_loamFillReturn, doLoamFillReturn_fill _ _ hFill, returnFill_uncorrectable hFirst hReq]
  case differs => rw [exec_loamFillReturn, doLoamFillReturn_fill _ _ hFill, returnFill_differs hFirst hReq]
  case notIssued => rw [exec_loamFillReturn, doLoamFillReturn_fill _ _ hFill, returnFill_notIssued hFirst _ _ hReq]
  case notDriven => rw [exec_victimWriteDone, doVictimWriteDone_notDriven hWrite hWaits]
  case freed => rw [exec_victimWriteDone, doVictimWriteDone_driven hWrite hDriven hVictim, if_pos ⟨hId, hHeld⟩, dropVictim]
  case kept =>
    have hNot : ¬ (v.write = some r.id ∧ v.held = false) := fun ⟨hId, hHeld⟩ =>
      hKept.elim (fun h => h hId) fun h => Bool.false_ne_true (hHeld.symm.trans h)
    rw [exec_victimWriteDone, doVictimWriteDone_driven hWrite hDriven hVictim, if_neg hNot]
  case resumes => rw [exec_victimHoldExpiry, doVictimHoldExpiry_resumes hVictim hHeld hClean hRuns]
  case changed => rw [exec_mapCacheFill, doMapCacheFill_changed false hFill]
  case cached => rw [exec_mapCacheFill, doMapCacheFill_good hFill]
  case lost => rw [exec_mapCacheFill, doMapCacheFill_crcBad hFill]
  case zero =>
    rw [exec_zeroALine, maintain_issued (issues_zero_iff.2 hMid),
      runMaint_acts hMaint hFills ((runMaintOp_zero hPlot hGood hTier).trans hApply)]
  case flush =>
    rw [exec_flushLine, maintain_issued (issues_flush_iff.2 ⟨hLo, hHi⟩),
      runMaint_acts ((markFaults_maint seen).trans hMaint) ((markFaults_fills seen).trans hFills) runMaintOp_flush]
  case flushClod => rw [exec_flushClod, flushClod]
  case drop => rw [exec_invalidateLine, maintain_issued (issues_drop_iff.2 hMid), runMaint_acts hMaint hFills runMaintOp_drop]
  case dropWaits => rw [exec_invalidateLine, maintain_issued (issues_drop_iff.2 hMid), runMaint_waits hMaint hFills hLine]
  case walk => rw [exec_plotTagWalkDone, doPlotTagWalkDone_walks hWalk]
  case noZero => rw [exec_zeroALine, maintain_otherMaster (mt issues_zero_iff.1 (Nat.not_lt.2 hOther)) hMid]
  case noFlush => rw [exec_flushLine, maintain_otherMaster (mt issues_flush_iff.1 hOther) hMid]
  case noDrop => rw [exec_invalidateLine, maintain_otherMaster (mt issues_drop_iff.1 (not_or.2 ⟨hOther, hNot⟩)) hMid]
  case reservedZero => rw [exec_zeroALine, maintain_reserved hMid]
  case reservedDrop => rw [exec_invalidateLine, maintain_reserved hMid]

end Sys2Proof.Machine
end

section
/-! PROOFS. Host links: each command as its effect, one rule per outcome of a link's events, of its training and of its IDE keys, and the
statement about them. -/

namespace Sys2Proof.Machine

/-! ### The commands as their effects -/

/-- The end of a command that holds no buffer is the state it answers. -/
theorem finishes_eq (s t : State) : finishes s t = .next (finished s t) := rfl

section Commands
variable (s : State) (port : Port) (ld : Ld)

theorem exec_perstAssert : exec (.perstAssert port) s = .next (settled s (doPerstAssert port s)) := rfl

theorem exec_perstRelease : exec (.perstRelease port) s = .next (finished s (doPerstRelease port s)) :=
  finishes_eq s (doPerstRelease port s)

theorem exec_linkUp (t : LinkTrained) : exec (.linkUp port t) s = .next (settled s (doLinkUp port t s)) := rfl

theorem exec_flitCrcFail (again : Bool) (fec : Word) :
    exec (.flitCrcFail port again fec) s = .next (finished s (doFlitCrcFail port again fec s)) := rfl

theorem exec_linkRecoveryDone : exec (.linkRecoveryDone port) s = .next (finished s (doLinkRecoveryDone port s)) := rfl

theorem exec_linkDown : exec (.linkDown port) s = .next (settled s (dropLink s port.val)) := rfl

theorem exec_ldReset (byFm : Bool) : exec (.ldReset ld byFm) s = .next (settled s (doLdReset ld s)) := rfl

theorem exec_ideKeyProg (slot : Fin 4) (key iv : List Word) : exec (.ideKeyProg port slot key iv) s =
    .next (finished s (whenBooted s (.ideKeyProg port slot key iv) (doIdeKeyProg port slot key iv s))) := rfl

theorem exec_ideKeySetGo (skid : Bool) : exec (.ideKeySetGo port skid) s =
    .next (finished s (whenBooted s (.ideKeySetGo port skid) (doIdeKeySetGo port skid s))) := rfl

theorem exec_ideMacFail : exec (.ideMacFail port) s = .next (settled s (doIdeMacFail port s)) := rfl

theorem exec_viralReceived : exec (.viralReceived ld) s = .next (finished s (doViralReceived ld s)) := rfl

end Commands

/-! ### What waits for firmware (R523) -/

section Firmware
variable {s : State} (i : Instr) (t : State)

theorem whenBooted_acts (hBoot : s.mgc.booted = true) : whenBooted s i t = t := if_pos hBoot

theorem whenBooted_waits (hBoot : s.mgc.booted = false) : whenBooted s i t = { s with mgc.waiting := s.mgc.waiting ++ [i] } := by
  simp only [whenBooted, hBoot, Bool.false_eq_true, if_false]

end Firmware

/-! ### Events of a link (R71 to R75, R94, R96) -/

section Events
variable {s : State} {port : Port}

theorem doPerstAssert_drops (hUp : linkUp (updLink s port.val fun l => { l with perst := true }) port.val = true)
    (hLow : isLowest (updLink s port.val fun l => { l with perst := true }) port.val = true) :
    doPerstAssert port s = updLink (linkDown (updLink s port.val fun l => { l with perst := true }) port.val) port.val
      fun l => { l with training := false } := by
  simp only [doPerstAssert, hUp, hLow, Bool.not_true, Bool.false_eq_true, if_false, if_true]

/-- Only the input of a bond's lowest port acts. -/
theorem doPerstAssert_bonded (hLow : isLowest (updLink s port.val fun l => { l with perst := true }) port.val = false) :
    doPerstAssert port s = updLink s port.val fun l => { l with perst := true } := by
  simp only [doPerstAssert, hLow, Bool.not_false, if_true]

theorem doFlitCrcFail_ignored (again : Bool) (fec : Word) (h : linkUp s port.val = false ∨ (hostLink s port.val).recovery = true) :
    doFlitCrcFail port again fec s = s := by
  rcases h with hDown | hRec
  · simp only [doFlitCrcFail, hDown, Bool.not_false, Bool.true_or, if_true]
  · simp only [doFlitCrcFail, hRec, Bool.or_true, if_true]

section Replays
variable (fec : Word) (hUp : linkUp s port.val = true) (hRec : (hostLink s port.val).recovery = false)
include hUp hRec

/-- Up to a flit's third failed replay the replay goes on. -/
theorem doFlitCrcFail_replays {again : Bool} (hFew : again = true → (hostLink s port.val).replays < 3) :
    doFlitCrcFail port again fec s = updLink (incFiBy s (portField Reg.HFP_PORT_CORR_CNT.corrected port.val) 0 (fec.toNat + 1)) port.val
      fun l => { l with replays := if again then (hostLink s port.val).replays + 1 else 0 } := by
  have hCount : (if again = true then (hostLink s port.val).replays + 1 else 0) < 4 := by
    split
    next hAgain => exact Nat.succ_lt_succ (hFew hAgain)
    next => decide
  simp only [doFlitCrcFail, hUp, hRec, hCount, Bool.not_true, Bool.or_self, Bool.false_eq_true, if_false, if_true]

theorem doFlitCrcFail_recovers (hMany : 3 ≤ (hostLink s port.val).replays) : doFlitCrcFail port true fec s = incF (setFlag
    (updLink (incFiBy s (portField Reg.HFP_PORT_CORR_CNT.corrected port.val) 0 (fec.toNat + 1)) port.val
      fun l => { l with replays := 0, recovery := true }) (portField Reg.HFP_PORT_ERR.recovery port.val))
    (portField Reg.HFP_PORT_RECOV_CNT.recoveries port.val) := by
  have hCount : ¬ (hostLink s port.val).replays + 1 < 4 := Nat.not_lt.2 (Nat.succ_le_succ hMany)
  simp only [doFlitCrcFail, hUp, hRec, hCount, Bool.not_true, Bool.or_self, Bool.false_eq_true, if_false, if_true]

end Replays

theorem doLinkRecoveryDone_sends {held : List Emit} (hRec : (hostLink s port.val).recovery = true)
    (hHeld : (s.hfp.held.filter fun e => e.1 = port.val).map (·.2) = held) : doLinkRecoveryDone port s =
      emitAll (updLink (held.foldl snoopSent { s with hfp.held := s.hfp.held.filter fun e => e.1 ≠ port.val }) port.val
        fun l => { l with recovery := false, replays := 0 }) held := by
  simp only [doLinkRecoveryDone, hRec, hHeld, Bool.not_true, Bool.false_eq_true, if_false]

theorem doViralReceived_up {ld : Ld} (hUp : linkUp s (ld.val / 16) = true) : doViralReceived ld s =
    setFlag (setFlag s (portField Reg.HFP_PORT_ERR.viral_rx (ld.val / 16))) (portField Reg.HFP_PORT_STS.viral (ld.val / 16)) :=
  if_pos hUp

/-! ### Training and LD resets (R71 to R75, R82, R95, R98) -/

/-- A result that the port allows, at the bond's full width, brings the link up and sends what was held for its LDs. -/
theorem doLinkUp_full {u : State} {t : LinkTrained} (hTrains : (hostLink s port.val).training = true)
    (hPerst : (hostLink s port.val).perst = false) (hDown : linkUp s port.val = false) (hOk : trainedOk s port.val t = true)
    (hStatus : putFlag (putFlag (setFlag (setF (setF (setF
        (updLink s port.val fun l => { l with training := false, recovery := false, replays := 0 })
        (portField Reg.HFP_PORT_STS.speed port.val) t.speed.val) (portField Reg.HFP_PORT_STS.width port.val) t.width.val)
        (portField Reg.HFP_PORT_STS.mode port.val) t.mode.val) (portField Reg.HFP_PORT_STS.link_up port.val))
        (portField Reg.HFP_PORT_STS.lat_opt port.val) t.latOpt) (portField Reg.HFP_PORT_STS.mld port.val) t.mld = u)
    (hWidth : t.width.val = bondWidth u port.val) : doLinkUp port t s = (ldsOf port.val).foldl (fun s ld =>
      flushMsix (if carriesMem s ld then flushExtents s ld else s) ld (List.range 64)) u := by
  have hFull : ¬ t.width.val < bondWidth u port.val := hWidth ▸ Nat.lt_irrefl _
  simp only [doLinkUp, hTrains, hPerst, hDown, hOk, hStatus, hFull, Bool.not_true, Bool.or_self, Bool.false_eq_true, if_false]

theorem doLinkUp_notAllowed {t : LinkTrained} (hOk : trainedOk s port.val t = false) : doLinkUp port t s = s := by
  simp only [doLinkUp, hOk, Bool.not_false, Bool.or_true, if_true]

theorem doLdReset_own {ld : Ld} (hLow : isLowest s (ld.val / 16) = true) : doLdReset ld s = ldReset s ld := if_pos hLow

end Events

/-! ### IDE (R87, R89, R442) -/

section Keys
variable {s : State} {port : Port}

section KeyManagement
variable (slot : Fin 4) (key iv : List Word) (skid : Bool)

theorem doIdeKeyProg_staged (hOpen : ideKmOpen s port.val = true) : doIdeKeyProg port slot key iv s = ideStatus
    (updLink s port.val fun l => { l with staged := sput noKey l.staged slot.val { key := key, iv := iv } }) port.val := if_pos hOpen

theorem doIdeKeyProg_shut (hShut : ideKmOpen s port.val = false) : doIdeKeyProg port slot key iv s = s := by
  simp only [doIdeKeyProg, hShut, Bool.false_eq_true, if_false]

/-- The staged set becomes the active one, in the mode that comes with it. -/
theorem doIdeKeySetGo_goes (hOpen : ideKmOpen s port.val = true) (hStaged : (hostLink s port.val).staged ≠ []) :
    doIdeKeySetGo port skid s = ideStatus (updLink s port.val fun l =>
      { l with active := l.staged.foldl (fun a e => sput noKey a e.1 e.2) l.active, staged := [], skid := skid }) port.val := by
  simp only [doIdeKeySetGo, hOpen, List.isEmpty_eq_false_iff.2 hStaged, Bool.not_true, Bool.or_self, Bool.false_eq_true, if_false]

theorem doIdeKeySetGo_shut (hShut : ideKmOpen s port.val = false) : doIdeKeySetGo port skid s = s := by
  simp only [doIdeKeySetGo, hShut, Bool.not_false, Bool.true_or, if_true]

end KeyManagement

theorem doIdeMacFail_keyed
    (hKeyed : (flag s (portField Reg.HFP_PORT_STS.ide_mem port.val) || flag s (portField Reg.HFP_PORT_STS.ide_io port.val)) = true) :
    doIdeMacFail port s = dropLink (setFlag s (portField Reg.HFP_PORT_ERR.ide_fail port.val)) port.val := if_pos hKeyed

theorem doIdeMacFail_notKeyed (hMem : flag s (portField Reg.HFP_PORT_STS.ide_mem port.val) = false)
    (hIo : flag s (portField Reg.HFP_PORT_STS.ide_io port.val) = false) : doIdeMacFail port s = s := by
  simp only [doIdeMacFail, hMem, hIo, Bool.or_self, Bool.false_eq_true, if_false]

end Keys

/-- Settles O28: an event by what the link does, a training by its result, a key by the session it comes over. -/
theorem hostLinks : Obligations.HostLinks := by
  refine ⟨⟨fun s port _ _ hUp hLow => ?perst, fun s port hLow => ?bonded, fun s port => exec_perstRelease s port,
      fun s port again fec hUp hRec hFew => ?replays, fun s port fec hUp hRec hMany => ?recovers, fun s port again fec h => ?ignored,
      fun s port held hRec hHeld => ?recovered, fun s port => exec_linkDown s port, fun s ld hUp => ?viral⟩,
    ⟨fun s u port t hTrains hPerst hDown hOk hStatus hWidth => ?trained, fun s port t hOk => ?notAllowed, fun s ld byFm hLow => ?reset,
      fun s ld => (exec_ldReset s ld true).trans (exec_ldReset s ld false).symm⟩,
    ⟨fun s port slot key iv hBoot hOpen => ?staged, fun s port slot key iv hBoot => ⟨?progWaits, fun skid => ?goWaits⟩,
      fun s port slot key iv skid hBoot hShut => ⟨?noProg, ?noGo⟩, fun s port skid hBoot hOpen hStaged => ?goes,
      fun s port hKeyed => ?macFails, fun s port hMem hIo => ?noMac⟩⟩
  case perst => rw [exec_perstAssert, doPerstAssert_drops hUp hLow]
  case bonded => rw [exec_perstAssert, doPerstAssert_bonded hLow]
  case replays => rw [exec_flitCrcFail, doFlitCrcFail_replays fec hUp hRec hFew]
  case recovers => rw [exec_flitCrcFail, doFlitCrcFail_recovers fec hUp hRec hMany]
  case ignored => rw [exec_flitCrcFail, doFlitCrcFail_ignored again fec h]
  case recovered => rw [exec_linkRecoveryDone, doLinkRecoveryDone_sends hRec hHeld]
  case viral => rw [exec_viralReceived, doViralReceived_up hUp]
  case trained => rw [exec_linkUp, doLinkUp_full hTrains hPerst hDown hOk hStatus hWidth]
  case notAllowed => rw [exec_linkUp, doLinkUp_notAllowed hOk]
  case reset => rw [exec_ldReset, doLdReset_own hLow]
  case staged => rw [exec_ideKeyProg, whenBooted_acts _ _ hBoot, doIdeKeyProg_staged slot key iv hOpen]
  case progWaits => rw [exec_ideKeyProg, whenBooted_waits _ _ hBoot]
  case goWaits => rw [exec_ideKeySetGo, whenBooted_waits _ _ hBoot]
  case noProg => rw [exec_ideKeyProg, whenBooted_acts _ _ hBoot, doIdeKeyProg_shut slot key iv hShut]
  case noGo => rw [exec_ideKeySetGo, whenBooted_acts _ _ hBoot, doIdeKeySetGo_shut skid hShut]
  case goes => rw [exec_ideKeySetGo, whenBooted_acts _ _ hBoot, doIdeKeySetGo_goes skid hOpen hStaged]
  case macFails => rw [exec_ideMacFail, doIdeMacFail_keyed hKeyed]
  case noMac => rw [exec_ideMacFail, doIdeMacFail_notKeyed hMem hIo]

end Sys2Proof.Machine
end

section
/-! PROOFS. Mailbox commands: each as its effect, one rule per outcome of those that set something, and the statement about them. -/

namespace Sys2Proof.Machine

/-! ### The commands as their effects -/

section Commands
variable (s : State) (ld : Ld)

theorem exec_cdatRead : exec (.cdatRead ld) s = .next (finished s (whenBooted s (.cdatRead ld) (doCdatRead ld s))) := rfl

theorem exec_getEventRecords (log : Fin 8) : exec (.getEventRecords ld log) s =
    .next (finished s (whenBooted s (.getEventRecords ld log) (doGetEventRecords ld log s))) := rfl

theorem exec_clearEventRecords (log : Fin 8) (count : Fin 256) : exec (.clearEventRecords ld log count) s =
    .next (finished s (whenBooted s (.clearEventRecords ld log count) (doClearEventRecords ld log count s))) := rfl

theorem exec_getEventInterruptPolicy : exec (.getEventInterruptPolicy ld) s =
    .next (finished s (whenBooted s (.getEventInterruptPolicy ld) (doGetEventInterruptPolicy ld s))) := rfl

theorem exec_setEventInterruptPolicy (modes : List (Fin 4 × Fin 16)) : exec (.setEventInterruptPolicy ld modes) s =
    .next (finished s (whenBooted s (.setEventInterruptPolicy ld modes) (doSetEventInterruptPolicy ld modes s))) := rfl

theorem exec_getSupportedLogs : exec (.getSupportedLogs ld) s =
    .next (finished s (whenBooted s (.getSupportedLogs ld) (doGetSupportedLogs ld s))) := rfl

theorem exec_getLog : exec (.getLog ld) s = .next (finished s (whenBooted s (.getLog ld) (doGetLog ld s))) := rfl

theorem exec_getTimestamp : exec (.getTimestamp ld) s =
    .next (finished s (whenBooted s (.getTimestamp ld) (doGetTimestamp ld s))) := rfl

theorem exec_setTimestamp (time : DWord) : exec (.setTimestamp ld time) s =
    .next (finished s (whenBooted s (.setTimestamp ld time) (doSetTimestamp ld time s))) := rfl

theorem exec_identifyMemoryDevice : exec (.identifyMemoryDevice ld) s =
    .next (finished s (whenBooted s (.identifyMemoryDevice ld) (doIdentifyMemoryDevice ld s))) := rfl

theorem exec_getHealthInfo : exec (.getHealthInfo ld) s =
    .next (finished s (whenBooted s (.getHealthInfo ld) (doGetHealthInfo ld s))) := rfl

theorem exec_getAlertConfiguration : exec (.getAlertConfiguration ld) s =
    .next (finished s (whenBooted s (.getAlertConfiguration ld) (doGetAlertConfiguration ld s))) := rfl

theorem exec_setAlertConfiguration (warn crit : Option (Fin 101)) : exec (.setAlertConfiguration ld warn crit) s =
    .next (finished s (whenBooted s (.setAlertConfiguration ld warn crit) (doSetAlertConfiguration ld warn crit s))) := rfl

theorem exec_getPoisonList (start length : DWord) : exec (.getPoisonList ld start length) s =
    .next (finished s (whenBooted s (.getPoisonList ld start length) (doGetPoisonList ld start length s))) := rfl

theorem exec_getDcConfiguration : exec (.getDcConfiguration ld) s =
    .next (finished s (whenBooted s (.getDcConfiguration ld) (doGetDcConfiguration ld s))) := rfl

theorem exec_getDcExtentList : exec (.getDcExtentList ld) s =
    .next (finished s (whenBooted s (.getDcExtentList ld) (doGetDcExtentList ld s))) := rfl

theorem exec_addDcResponse (plot : PlotId) (g : Fin 65536) (accept : Bool) : exec (.addDcResponse ld plot g accept) s =
    .next (finished s (whenBooted s (.addDcResponse ld plot g accept) (doAddDcResponse ld plot g accept s))) := rfl

theorem exec_releaseDc (plot : PlotId) (g : Fin 65536) : exec (.releaseDc ld plot g) s =
    .next (finished s (whenBooted s (.releaseDc ld plot g) (doReleaseDc ld plot g s))) := rfl

theorem exec_mailboxUnsupported (opcode : Fin 65536) : exec (.mailboxUnsupported ld opcode) s =
    .next (finished s (whenBooted s (.mailboxUnsupported ld opcode) (doMailboxUnsupported ld s))) := rfl

end Commands

/-! ### Where a command is served (R523, R590) -/

section Mailbox
variable {s : State} {ld : Ld} (t : State)

theorem atMailbox_open (hMem : carriesMem s ld = true) : atMailbox s ld t = t := if_pos hMem

theorem atMailbox_none (hMem : carriesMem s ld = false) : atMailbox s ld t = s := by
  simp only [atMailbox, hMem, Bool.false_eq_true, if_false]

end Mailbox

/-! ### Events and the timestamp (R76, R548, R549) -/

section Events
variable {s : State} {ld : Ld} {log : Fin 8} {count : Fin 256}

theorem doGetEventRecords_log (hLog : log.val < 5) : doGetEventRecords ld log s = atMailbox s ld
    (reply s ld (.eventRecords log.val (hostLog s ld log.val) (sget 0 s.evr.overflow (ld.val * 8 + log.val)) false)) := by
  rw [doGetEventRecords, if_pos (show log.val < logCount from hLog)]

theorem doClearEventRecords_invalid (h : 5 ≤ log.val ∨ (hostLog s ld log.val).length < count.val) :
    doClearEventRecords ld log count s = atMailbox s ld (reply s ld .invalidInput) := by
  have hNot : ¬ (log.val < logCount ∧ count.val ≤ (hostLog s ld log.val).length) := fun ⟨hLog, hCount⟩ =>
    h.elim (Nat.not_le.2 hLog) (Nat.not_lt.2 hCount)
  simp only [doClearEventRecords, hNot, if_false]

/-- The oldest records go, and a log that is no longer full ends its overflow. -/
theorem doClearEventRecords_clears (hLog : log.val < 5) (hCount : count.val ≤ (hostLog s ld log.val).length)
    (hRoom : (hostLog s ld log.val).length - count.val < 64) : doClearEventRecords ld log count s = atMailbox s ld (reply { s with
      evr.logs := sput [] s.evr.logs (ld.val * 8 + log.val) ((hostLog s ld log.val).drop count.val)
      evr.overflow := sput 0 s.evr.overflow (ld.val * 8 + log.val) 0 } ld .success) := by
  have hClear : log.val < logCount ∧ count.val ≤ (hostLog s ld log.val).length := ⟨hLog, hCount⟩
  have hLeft : ((hostLog s ld log.val).drop count.val).length < logCapacity := List.length_drop ▸ hRoom
  simp only [doClearEventRecords, hClear, hLeft, and_self, if_true]

theorem doSetEventInterruptPolicy_sets {modes : List (Fin 4 × Fin 16)} (hModes : ∀ m ∈ modes, m.1.val ≤ 1) :
    doSetEventInterruptPolicy ld modes s = atMailbox s ld (reply (((List.range modes.length).zip modes).foldl (fun s e => { s with
      evr.policy := sput none s.evr.policy (ld.val * 8 + e.1) (if e.2.1 = 1 then some e.2.2.val else none) }) s) ld .success) := by
  have hAll : (modes.all fun m => decide (m.1.val ≤ 1)) = true := List.all_eq_true.2 fun m hm => decide_eq_true (hModes m hm)
  rw [doSetEventInterruptPolicy, if_pos hAll]

theorem doSetEventInterruptPolicy_invalid {modes : List (Fin 4 × Fin 16)} (hMode : ∃ m ∈ modes, 2 ≤ m.1.val) :
    doSetEventInterruptPolicy ld modes s = atMailbox s ld (reply s ld .invalidInput) := by
  have hNotAll : ¬ (modes.all fun m => decide (m.1.val ≤ 1)) = true := fun hAll => by
    obtain ⟨m, hm, hHigh⟩ := hMode
    exact Nat.not_le.2 hHigh (of_decide_eq_true (List.all_eq_true.1 hAll m hm))
  rw [doSetEventInterruptPolicy, if_neg hNotAll]

theorem doGetTimestamp_eq : doGetTimestamp ld s = atMailbox s ld (reply s ld (.timestamp (((ldState s ld).timestamp.map fun t =>
    (t.1 + (s.devTime - t.2)) % 2 ^ 64).getD 0))) := by
  rw [doGetTimestamp]
  cases (ldState s ld).timestamp <;> rfl

end Events

/-! ### Dynamic capacity (R81, R82) -/

section Extents
variable {s : State} {ld : Ld} {plot : PlotId} {g : Fin 65536}

theorem doAddDcResponse_rejects (hOffered : extentOf s ld (extentKey plot.val g.val) = some .offered) :
    doAddDcResponse ld plot g false s =
      atMailbox s ld (reply (setExtent s ld (extentKey plot.val g.val) (some .rejected)) ld .success) := by
  simp only [doAddDcResponse, hOffered, Bool.false_and, Bool.false_eq_true, if_false, if_true]

/-- An extent that the LD's rights no longer call for is asked back as it is accepted. -/
theorem doAddDcResponse_accepts {t : State} (hOffered : extentOf s ld (extentKey plot.val g.val) = some .offered)
    (hHeld : reply (setExtent s ld (extentKey plot.val g.val) (some .held)) ld .success = t) : doAddDcResponse ld plot g true s =
      atMailbox s ld (if extentGranted t ld (extentKey plot.val g.val) then t else extentDue t ld (extentKey plot.val g.val) false) := by
  simp only [doAddDcResponse, hOffered, hHeld, if_true, Bool.true_and]
  cases extentGranted t ld (extentKey plot.val g.val) <;> rfl

theorem doAddDcResponse_invalid (accept : Bool) (hNot : extentOf s ld (extentKey plot.val g.val) ≠ some .offered) :
    doAddDcResponse ld plot g accept s = atMailbox s ld (reply s ld .invalidInput) := by
  simp only [doAddDcResponse, hNot, if_false]

theorem doReleaseDc_releases (hHeld : extentOf s ld (extentKey plot.val g.val) = some .held ∨
    extentOf s ld (extentKey plot.val g.val) = some .releaseAsked) :
    doReleaseDc ld plot g s = atMailbox s ld (reply (setExtent s ld (extentKey plot.val g.val) none) ld .success) := by
  simp only [doReleaseDc, hHeld, if_true]

theorem doReleaseDc_invalid (hHeld : extentOf s ld (extentKey plot.val g.val) ≠ some .held)
    (hAsked : extentOf s ld (extentKey plot.val g.val) ≠ some .releaseAsked) :
    doReleaseDc ld plot g s = atMailbox s ld (reply s ld .invalidInput) := by
  simp only [doReleaseDc, hHeld, hAsked, or_self, if_false]

end Extents

/-- Settles O29: after boot_ok and at an LD with a mailbox a command is its effect; the commands that come before, or to an LD without one,
have one form, whichever they are. -/
theorem mailboxCommands : Obligations.MailboxCommands := by
  refine ⟨fun s ld hBoot hMem => ⟨?cdat, fun log hLog => ?records, ?policy, ?supportedLogs, ?log, ?timestamp, ?identify, ?health, ?alerts,
      ?dcConfiguration, ?dcExtents, fun opcode => ?unsupported, fun start length => ?poisonList⟩,
    fun s ld hBoot hMem => ⟨fun log count h => ?clearInvalid, fun log count hLog hCount hRoom => ?clears, fun modes hModes => ?setsPolicy,
      fun modes hMode => ?policyInvalid, fun time => ?setsTimestamp, fun warn crit => ?setsAlerts,
      fun plot g hOffered => ⟨?rejects, fun t hHeld => ?accepts⟩, fun plot g hHeld => ?releases, fun plot g hHeld hAsked => ?releaseInvalid,
      fun plot g accept hNot => ?addInvalid⟩,
    fun s i ld hForm => ?waits⟩
  case cdat => rw [exec_cdatRead, whenBooted_acts _ _ hBoot, doCdatRead, if_pos hMem]
  case records => rw [exec_getEventRecords, whenBooted_acts _ _ hBoot, doGetEventRecords_log hLog, atMailbox_open _ hMem]
  case policy => rw [exec_getEventInterruptPolicy, whenBooted_acts _ _ hBoot, doGetEventInterruptPolicy, atMailbox_open _ hMem, logCount]
  case supportedLogs => rw [exec_getSupportedLogs, whenBooted_acts _ _ hBoot, doGetSupportedLogs, atMailbox_open _ hMem]
  case log => rw [exec_getLog, whenBooted_acts _ _ hBoot, doGetLog, atMailbox_open _ hMem]
  case timestamp => rw [exec_getTimestamp, whenBooted_acts _ _ hBoot, doGetTimestamp_eq, atMailbox_open _ hMem]
  case identify => rw [exec_identifyMemoryDevice, whenBooted_acts _ _ hBoot, doIdentifyMemoryDevice, atMailbox_open _ hMem]
  case health => rw [exec_getHealthInfo, whenBooted_acts _ _ hBoot, doGetHealthInfo, atMailbox_open _ hMem]
  case alerts => rw [exec_getAlertConfiguration, whenBooted_acts _ _ hBoot, doGetAlertConfiguration, atMailbox_open _ hMem]
  case dcConfiguration => rw [exec_getDcConfiguration, whenBooted_acts _ _ hBoot, doGetDcConfiguration, atMailbox_open _ hMem]
  case dcExtents => rw [exec_getDcExtentList, whenBooted_acts _ _ hBoot, doGetDcExtentList, atMailbox_open _ hMem]
  case unsupported => rw [exec_mailboxUnsupported, whenBooted_acts _ _ hBoot, doMailboxUnsupported, atMailbox_open _ hMem]
  case poisonList => rw [exec_getPoisonList, whenBooted_acts _ _ hBoot, doGetPoisonList, atMailbox_open _ hMem]
  case clearInvalid => rw [exec_clearEventRecords, whenBooted_acts _ _ hBoot, doClearEventRecords_invalid h, atMailbox_open _ hMem]
  case clears => rw [exec_clearEventRecords, whenBooted_acts _ _ hBoot, doClearEventRecords_clears hLog hCount hRoom, atMailbox_open _ hMem]
  case setsPolicy => rw [exec_setEventInterruptPolicy, whenBooted_acts _ _ hBoot, doSetEventInterruptPolicy_sets hModes, atMailbox_open _ hMem]
  case policyInvalid =>
    rw [exec_setEventInterruptPolicy, whenBooted_acts _ _ hBoot, doSetEventInterruptPolicy_invalid hMode, atMailbox_open _ hMem]
  case setsTimestamp => rw [exec_setTimestamp, whenBooted_acts _ _ hBoot, doSetTimestamp, atMailbox_open _ hMem]
  case setsAlerts => rw [exec_setAlertConfiguration, whenBooted_acts _ _ hBoot, doSetAlertConfiguration, atMailbox_open _ hMem]
  case rejects => rw [exec_addDcResponse, whenBooted_acts _ _ hBoot, doAddDcResponse_rejects hOffered, atMailbox_open _ hMem]
  case accepts => rw [exec_addDcResponse, whenBooted_acts _ _ hBoot, doAddDcResponse_accepts hOffered hHeld, atMailbox_open _ hMem]
  case releases => rw [exec_releaseDc, whenBooted_acts _ _ hBoot, doReleaseDc_releases hHeld, atMailbox_open _ hMem]
  case releaseInvalid => rw [exec_releaseDc, whenBooted_acts _ _ hBoot, doReleaseDc_invalid hHeld hAsked, atMailbox_open _ hMem]
  case addInvalid => rw [exec_addDcResponse, whenBooted_acts _ _ hBoot, doAddDcResponse_invalid accept hNot, atMailbox_open _ hMem]
  case waits =>
    obtain ⟨t, hExec⟩ : ∃ t, exec i s = .next (finished s (whenBooted s i (atMailbox s ld t))) := by
      rcases hForm with rfl | ⟨log, rfl⟩ | ⟨log, n, rfl⟩ | rfl | ⟨m, rfl⟩ | rfl | rfl | rfl | ⟨t, rfl⟩ | rfl | rfl | rfl | ⟨w, c, rfl⟩ |
        ⟨a, n, rfl⟩ | rfl | rfl | ⟨p, g, a, rfl⟩ | ⟨p, g, rfl⟩ | ⟨o, rfl⟩ <;> exact ⟨_, rfl⟩
    exact ⟨fun hBoot => by rw [hExec, whenBooted_waits _ _ hBoot],
      fun hBoot hMem => by rw [hExec, whenBooted_acts _ _ hBoot, atMailbox_none _ hMem]⟩

end Sys2Proof.Machine
end

section
/-! PROOFS. Ring set-up and doorbells: each command as its effect, one rule per outcome of an enable's checks, of a write and of a doorbell,
and the statement about them. -/

namespace Sys2Proof.Machine

/-! ### The commands as their effects -/

section Commands
variable (s : State) (ld : Ld) (ring : RingNo) (value : Word)

theorem exec_ringEnable : exec (.ringEnable ld ring value) s = .next (settledPools s (atLd s ld (writeCtl s ld ring value))) := rfl

theorem exec_ringWeightSet : exec (.ringWeightSet ld ring value) s = exec (.ringEnable ld ring value) s := rfl

theorem exec_ringEnableCheck : exec (.ringEnableCheck ld ring) s = .next (finished s (endEnable s ld ring)) := rfl

theorem exec_ringReset :
    exec (.ringReset ld ring) s = .next (settledPools s (atLd s ld (ringReset true (endEnable s ld ring) ld ring))) := rfl

theorem exec_ringSetupWrite (reg : SetupReg) :
    exec (.ringSetupWrite ld ring reg value) s = .next (finished s (doRingSetupWrite ld ring reg value s)) := rfl

theorem exec_sqTailDoorbell : exec (.sqTailDoorbell ld ring value) s = .next (finished s (doSqTailDoorbell ld ring value s)) := rfl

theorem exec_cqHeadDoorbell : exec (.cqHeadDoorbell ld ring value) s = .next (finished s (doCqHeadDoorbell ld ring value s)) := rfl

end Commands

/-! ### LDs that their link carries (R73, R79, R95) -/

section Lds
variable {s : State} {ld : Ld} (t : State)

theorem atLd_present (hLd : ldPresent s ld = true) : atLd s ld t = t := if_pos hLd

theorem atLd_absent (hLd : ldPresent s ld = false) : atLd s ld t = s := by simp only [atLd, hLd, Bool.false_eq_true, if_false]

end Lds

/-! ### The enable checks (R108, R112) -/

section Checks
variable {s u : State} {ld : Ld} {ring : RingNo}

theorem endEnable_idle (hIdle : (ringAt s ld ring).enabling = false) : endEnable s ld ring = s := by
  simp only [endEnable, hIdle, Bool.not_false, if_true]

section Running
variable (hRuns : (ringAt s ld ring).enabling = true) (hU : updRing s ld ring (fun r => { r with enabling := false }) = u)
include hRuns hU

theorem endEnable_noRing (h : ringsAllowed u ld ≤ ring.val ∨ 4096 ≤ ringsActive u) : endEnable s ld ring = setRingErr u ld ring errNoRing := by
  simp only [endEnable, hRuns, hU, Bool.or_eq_true, decide_eq_true_eq, h, Bool.not_true, Bool.false_eq_true, if_false, if_true]

variable (hAllowed : ring.val < ringsAllowed u ld) (hActive : ringsActive u < 4096)
include hAllowed hActive

theorem endEnable_badSetup (hBad : sqBase u ld ring % 4096 ≠ 0 ∨ cqBase u ld ring % 4096 ≠ 0 ∨
    getFi u Reg.CRE_SQ_SIZE.log2_entries (ringIdx ld ring) < 4 ∨ 16 < getFi u Reg.CRE_SQ_SIZE.log2_entries (ringIdx ld ring) ∨
    getFi u Reg.CRE_CQ_SIZE.log2_entries (ringIdx ld ring) < 4 ∨ 16 < getFi u Reg.CRE_CQ_SIZE.log2_entries (ringIdx ld ring)) :
    endEnable s ld ring = setRingErr u ld ring errBadSetup := by
  have hRing : ¬ (ringsAllowed u ld ≤ ring.val ∨ 4096 ≤ ringsActive u) := not_or.2 ⟨Nat.not_le.2 hAllowed, Nat.not_le.2 hActive⟩
  simp only [endEnable, hRuns, hU, hRing, Bool.or_eq_true, Bool.not_eq_true', Bool.and_eq_false_iff, decide_eq_true_eq,
    decide_eq_false_iff_not, Nat.not_le, or_assoc, hBad, Bool.not_true, Bool.false_eq_true, if_false, if_true]

theorem endEnable_active (hSq : sqBase u ld ring % 4096 = 0) (hCq : cqBase u ld ring % 4096 = 0)
    (hSqLo : 4 ≤ getFi u Reg.CRE_SQ_SIZE.log2_entries (ringIdx ld ring)) (hSqHi : getFi u Reg.CRE_SQ_SIZE.log2_entries (ringIdx ld ring) ≤ 16)
    (hCqLo : 4 ≤ getFi u Reg.CRE_CQ_SIZE.log2_entries (ringIdx ld ring)) (hCqHi : getFi u Reg.CRE_CQ_SIZE.log2_entries (ringIdx ld ring) ≤ 16) :
    endEnable s ld ring = updRing (setRingErr u ld ring 0) ld ring fun r => { r with
      state := .active, sqHead := 0, sqTail := 0, cqHead := 0, cqTail := 0, phase := true, unsignalled := 0, results := [] } := by
  have hRing : ¬ (ringsAllowed u ld ≤ ring.val ∨ 4096 ≤ ringsActive u) := not_or.2 ⟨Nat.not_le.2 hAllowed, Nat.not_le.2 hActive⟩
  simp only [endEnable, hRuns, hU, hRing, hSq, hCq, hSqLo, hSqHi, hCqLo, hCqHi, Bool.or_eq_true, decide_eq_true_eq, ne_eq, not_true_eq_false,
    decide_true, decide_false, Bool.and_self, Bool.not_true, Bool.or_self, Bool.false_eq_true, if_false]

end Running

end Checks

/-! ### Writes of CRE_RING_CTL (R112, R113) -/

/-- A write that does not set enable alone enables nothing. -/
theorem not_enables {value : Word} (hNot : wr value Reg.CRE_RING_CTL.enable = 0 ∨ wr value Reg.CRE_RING_CTL.reset ≠ 0) :
    (decide (wr value Reg.CRE_RING_CTL.enable = 1) && decide (wr value Reg.CRE_RING_CTL.reset = 0)) = false := by
  rcases hNot with hOff | hReset
  · rw [hOff]
    rfl
  · simp only [hReset, decide_false, Bool.and_false]

section Ctl
variable {s u v : State} {ld : Ld} {ring : RingNo} {value : Word} (hU : endEnable s ld ring = u)
  (hV : setFi u Reg.CRE_RING_CTL.weight (ringIdx ld ring) (wr value Reg.CRE_RING_CTL.weight) = v)
include hU hV

section Enable
variable (hEnable : wr value Reg.CRE_RING_CTL.enable = 1) (hReset : wr value Reg.CRE_RING_CTL.reset = 0)
include hEnable hReset

theorem writeCtl_starts (hState : (ringAt v ld ring).state = .disabled) :
    writeCtl s ld ring value = updRing v ld ring fun r => { r with enabling := true } := by
  simp only [writeCtl, hU, hV, hEnable, hReset, hState, decide_true, Bool.and_self]

theorem writeCtl_active (hState : (ringAt v ld ring).state = .active) : writeCtl s ld ring value = v := by
  simp only [writeCtl, hU, hV, hEnable, hReset, hState, decide_true, Bool.and_self]

theorem writeCtl_setupErr (hState : (ringAt v ld ring).state = .error ∨ (ringAt v ld ring).state = .reset) :
    writeCtl s ld ring value = setFlagI v Reg.CRE_RING_STS.setup_err (ringIdx ld ring) := by
  rcases hState with hState | hState <;> simp only [writeCtl, hU, hV, hEnable, hReset, hState, decide_true, Bool.and_self]

end Enable

section Disable
variable (hNot : wr value Reg.CRE_RING_CTL.enable = 0 ∨ wr value Reg.CRE_RING_CTL.reset ≠ 0)
include hNot

theorem writeCtl_stays (hState : (ringAt v ld ring).state = .disabled) : writeCtl s ld ring value = v := by
  simp only [writeCtl, hU, hV, not_enables hNot, hState]

theorem writeCtl_resets (hState : (ringAt v ld ring).state ≠ .disabled) : writeCtl s ld ring value = ringReset true v ld ring := by
  simp only [writeCtl, hU, hV, not_enables hNot]

end Disable

end Ctl

/-! ### Set-up registers (R6, R111, R112, R582) -/

section Setup
variable {s u : State} {ld : Ld} {ring : RingNo} {value : Word} (hLd : ldPresent s ld = true) (hU : endEnable s ld ring = u)

theorem doRingSetupWrite_absent (reg : SetupReg) (hNone : ldPresent s ld = false) : doRingSetupWrite ld ring reg value s = s := by
  simp only [doRingSetupWrite, hNone, Bool.not_false, if_true]

include hLd hU

/-- Outside DISABLED nothing is taken, and the HI half of a base drops the LO half that waits for it. -/
theorem doRingSetupWrite_refused (reg : SetupReg) {v : State} (hState : (ringAt u ld ring).state ≠ .disabled)
    (hV : setFlagI u Reg.CRE_RING_STS.setup_err (ringIdx ld ring) = v) : doRingSetupWrite ld ring reg value s =
      if reg = .sqBaseHi then dropLo v Reg.CRE_SQ_BASE_LO.base_lo.addr ld.val
      else if reg = .cqBaseHi then dropLo v Reg.CRE_CQ_BASE_LO.base_lo.addr ld.val else v := by
  simp only [doRingSetupWrite, hLd, hU, hV, hState, ne_eq, not_false_eq_true, Bool.not_true, Bool.false_eq_true, if_false, if_true]
  cases reg <;> rfl

variable (hState : (ringAt u ld ring).state = .disabled)
include hState

theorem doRingSetupWrite_register {reg : SetupReg} (hReg : reg = .sqSize ∨ reg = .cqSize ∨ reg = .irq) :
    doRingSetupWrite ld ring reg value s = writeBits u (setupAddr reg) (ringIdx ld ring) value 0 := by
  rcases hReg with rfl | rfl | rfl <;>
    simp only [doRingSetupWrite, hLd, hU, hState, ne_eq, not_true_eq_false, Bool.not_true, Bool.false_eq_true, if_false]

theorem doRingSetupWrite_baseLo {reg : SetupReg} (hReg : reg = .sqBaseLo ∨ reg = .cqBaseLo) :
    doRingSetupWrite ld ring reg value s = pendLo u (setupAddr reg) ld.val value := by
  rcases hReg with rfl | rfl <;>
    simp only [doRingSetupWrite, hLd, hU, hState, ne_eq, not_true_eq_false, Bool.not_true, Bool.false_eq_true, if_false]

theorem doRingSetupWrite_sqBaseHi : doRingSetupWrite ld ring .sqBaseHi value s =
    writeBaseHi u ld ring Reg.CRE_SQ_BASE_LO.base_lo.addr Reg.CRE_SQ_BASE_HI.base_hi.addr value := by
  simp only [doRingSetupWrite, hLd, hU, hState, setupAddr, ne_eq, not_true_eq_false, Bool.not_true, Bool.false_eq_true, if_false]

theorem doRingSetupWrite_cqBaseHi : doRingSetupWrite ld ring .cqBaseHi value s =
    writeBaseHi u ld ring Reg.CRE_CQ_BASE_LO.base_lo.addr Reg.CRE_CQ_BASE_HI.base_hi.addr value := by
  simp only [doRingSetupWrite, hLd, hU, hState, setupAddr, ne_eq, not_true_eq_false, Bool.not_true, Bool.false_eq_true, if_false]

end Setup

/-! ### Doorbells (R90, R114 to R117) -/

section Doorbells
variable {s : State} {ld : Ld} {ring : RingNo}

theorem doorbell_absent (act : State → State) (hNone : ldPresent s ld = false) : doorbell s ld ring act = s := by
  simp only [doorbell, hNone, Bool.not_false, if_true]

section Present
variable (hLd : ldPresent s ld = true)
include hLd

theorem doorbell_denied (act : State → State) (hIde : ideDenies s ld = true) :
    doorbell s ld ring act = countDenial (incF s Reg.CRE_DOORBELL_DROP_CNT.drops) ld.val 0xFFF 0 := by
  simp only [doorbell, hLd, hIde, Bool.not_true, Bool.false_eq_true, if_false, if_true]

variable (hIde : ideDenies s ld = false)
include hIde

theorem doorbell_dropped (act : State → State) (hState : (ringAt s ld ring).state ≠ .active) :
    doorbell s ld ring act = incF s Reg.CRE_DOORBELL_DROP_CNT.drops := by
  simp only [doorbell, hLd, hIde, hState, ne_eq, not_false_eq_true, Bool.not_true, Bool.false_eq_true, if_false, if_true]

variable (hState : (ringAt s ld ring).state = .active)
include hState

theorem doorbell_acts (act : State → State) : doorbell s ld ring act = act s := by
  simp only [doorbell, hLd, hIde, hState, ne_eq, not_true_eq_false, Bool.not_true, Bool.false_eq_true, if_false]

variable {value : Word}

theorem doSqTailDoorbell_active : doSqTailDoorbell ld ring value s =
    if sqEntries s ld ring ≤ wr value Reg.CRE_SQ_TAIL.tail then ringError s ld ring errBadDoorbell
    else updRing s ld ring fun r => { r with sqTail := wr value Reg.CRE_SQ_TAIL.tail } :=
  doorbell_acts hLd hIde hState _

theorem doCqHeadDoorbell_bad (hBad : cqEntries s ld ring ≤ wr value Reg.CRE_CQ_HEAD.head ∨ cqUnreleased s ld ring <
    (wr value Reg.CRE_CQ_HEAD.head + cqEntries s ld ring - (ringAt s ld ring).cqHead) % cqEntries s ld ring) :
    doCqHeadDoorbell ld ring value s = ringError s ld ring errBadDoorbell := by
  simp only [doCqHeadDoorbell, doorbell_acts hLd hIde hState, Bool.or_eq_true, decide_eq_true_eq, hBad, if_true]

theorem doCqHeadDoorbell_taken (hIn : wr value Reg.CRE_CQ_HEAD.head < cqEntries s ld ring)
    (hWritten : (wr value Reg.CRE_CQ_HEAD.head + cqEntries s ld ring - (ringAt s ld ring).cqHead) % cqEntries s ld ring ≤
      cqUnreleased s ld ring) :
    doCqHeadDoorbell ld ring value s = updRing s ld ring fun r => { r with cqHead := wr value Reg.CRE_CQ_HEAD.head } := by
  simp only [doCqHeadDoorbell, doorbell_acts hLd hIde hState, Bool.or_eq_true, decide_eq_true_eq, Nat.not_le.2 hIn, Nat.not_lt.2 hWritten,
    or_self, if_false]

end Present

end Doorbells

/-- Settles O34: an enable by what its checks find, a write by the ring's state after them, a doorbell by the LD, the link's stream and the
ring's state in turn. -/
theorem ringSetupAndDoorbells : Obligations.RingSetupAndDoorbells := by
  refine ⟨⟨fun s u v ld ring value hLd hU hV => ⟨fun hEnable hReset => ⟨fun hState => ?starts, fun hState => ?runs, fun hState => ?setupErr⟩,
        fun hNot => ⟨fun hState => ?stays, fun hState => ?resets⟩, exec_ringWeightSet s ld ring value, ?reset⟩,
      fun s u ld ring hRuns hU hAllowed hActive hSq hCq hSqLo hSqHi hCqLo hCqHi => ?active, fun s u ld ring hRuns hU h => ?noRing,
      fun s u ld ring sq cq hRuns hU hAllowed hActive hSqSize hCqSize hBad => ?badSetup,
      fun s u ld ring reg value hLd hU hState v hV => ?refused,
      fun s u ld ring value hLd hU hState => ⟨?sqSize, ?cqSize, ?irq, ?sqBaseLo, ?cqBaseLo, ?sqBaseHi, ?cqBaseHi⟩,
      fun s ld ring value hNone => ⟨?noEnable, ?noReset, fun reg => ?noSetup⟩, fun s ld ring hIdle => ⟨endEnable_idle hIdle, ?idle⟩⟩,
    ⟨fun s ld ring value hLd hIde hState => ⟨fun hIn => ?tail, fun hOut => ?badTail⟩,
      fun s ld ring value hLd hIde hState => ⟨fun hIn hWritten => ?head, fun hOut => ?badHead, fun hIn hPast => ?pastTail⟩,
      fun s ld ring value hLd hIde hState => ⟨?dropTail, ?dropHead⟩, fun s ld ring value hLd hIde => ⟨?denyTail, ?denyHead⟩,
      fun s ld ring value hNone => ⟨?noTail, ?noHead⟩⟩⟩
  case starts => rw [exec_ringEnable, atLd_present _ hLd, writeCtl_starts hU hV hEnable hReset hState]
  case runs => rw [exec_ringEnable, atLd_present _ hLd, writeCtl_active hU hV hEnable hReset hState]
  case setupErr => rw [exec_ringEnable, atLd_present _ hLd, writeCtl_setupErr hU hV hEnable hReset hState]
  case stays => rw [exec_ringEnable, atLd_present _ hLd, writeCtl_stays hU hV hNot hState]
  case resets => rw [exec_ringEnable, atLd_present _ hLd, writeCtl_resets hU hV hNot hState]
  case reset => rw [exec_ringReset, atLd_present _ hLd, hU]
  case active => rw [exec_ringEnableCheck, endEnable_active hRuns hU hAllowed hActive hSq hCq hSqLo hSqHi hCqLo hCqHi]
  case noRing => rw [exec_ringEnableCheck, endEnable_noRing hRuns hU h]
  case badSetup =>
    subst hSqSize hCqSize
    rw [exec_ringEnableCheck, endEnable_badSetup hRuns hU hAllowed hActive hBad]
  case refused => rw [exec_ringSetupWrite, doRingSetupWrite_refused hLd hU reg hState hV]
  case sqSize => rw [exec_ringSetupWrite, doRingSetupWrite_register hLd hU hState (.inl rfl), setupAddr]
  case cqSize => rw [exec_ringSetupWrite, doRingSetupWrite_register hLd hU hState (.inr (.inl rfl)), setupAddr]
  case irq => rw [exec_ringSetupWrite, doRingSetupWrite_register hLd hU hState (.inr (.inr rfl)), setupAddr]
  case sqBaseLo => rw [exec_ringSetupWrite, doRingSetupWrite_baseLo hLd hU hState (.inl rfl), setupAddr]
  case cqBaseLo => rw [exec_ringSetupWrite, doRingSetupWrite_baseLo hLd hU hState (.inr rfl), setupAddr]
  case sqBaseHi => rw [exec_ringSetupWrite, doRingSetupWrite_sqBaseHi hLd hU hState]
  case cqBaseHi => rw [exec_ringSetupWrite, doRingSetupWrite_cqBaseHi hLd hU hState]
  case noEnable => rw [exec_ringEnable, atLd_absent _ hNone]
  case noReset => rw [exec_ringReset, atLd_absent _ hNone]
  case noSetup => rw [exec_ringSetupWrite, doRingSetupWrite_absent reg hNone]
  case idle => rw [exec_ringEnableCheck, endEnable_idle hIdle]
  case tail => rw [exec_sqTailDoorbell, doSqTailDoorbell_active hLd hIde hState, if_neg (Nat.not_le.2 hIn)]
  case badTail => rw [exec_sqTailDoorbell, doSqTailDoorbell_active hLd hIde hState, if_pos hOut]
  case head => rw [exec_cqHeadDoorbell, doCqHeadDoorbell_taken hLd hIde hState hIn hWritten]
  case badHead => rw [exec_cqHeadDoorbell, doCqHeadDoorbell_bad hLd hIde hState (.inl hOut)]
  case pastTail => rw [exec_cqHeadDoorbell, doCqHeadDoorbell_bad hLd hIde hState (.inr hPast)]
  case dropTail => rw [exec_sqTailDoorbell, doSqTailDoorbell, doorbell_dropped hLd hIde _ hState]
  case dropHead => rw [exec_cqHeadDoorbell, doCqHeadDoorbell, doorbell_dropped hLd hIde _ hState]
  case denyTail => rw [exec_sqTailDoorbell, doSqTailDoorbell, doorbell_denied hLd _ hIde]
  case denyHead => rw [exec_cqHeadDoorbell, doCqHeadDoorbell, doorbell_denied hLd _ hIde]
  case noTail => rw [exec_sqTailDoorbell, doSqTailDoorbell, doorbell_absent _ hNone]
  case noHead => rw [exec_cqHeadDoorbell, doCqHeadDoorbell, doorbell_absent _ hNone]

end Sys2Proof.Machine
end

section
/-! PROOFS. Doorbells that are refused, descriptor fetch and the ends of ring operations: each command as its effect, one rule per outcome,
and the statements about them. -/

namespace Sys2Proof.Machine

/-! ### The commands as their effects -/

section Commands
variable (s : State) (ld : Ld) (ring : RingNo)

theorem exec_descriptorFetch : exec .descriptorFetch s = .next (finished s (doDescriptorFetch s)) := rfl

theorem exec_sqReadReturn (result : Option (List Line)) :
    exec (.sqReadReturn ld ring result) s = .next (finished s (doSqReadReturn ld ring result s)) := rfl

theorem exec_hostReadCompletion (op : Nat) (data : HostData) :
    exec (.hostReadCompletion ld ring op data) s = .next (settled s (doHostReadCompletion ld ring op data s)) := rfl

theorem exec_ringOperationDone (op : Nat) :
    exec (.ringOperationDone ld ring op) s = .next (settledPools s (doRingOperationDone ld ring op s)) := rfl

theorem exec_coalesceTimerExpiry :
    exec (.coalesceTimerExpiry ld ring) s = .next (finished s (doCoalesceTimerExpiry ld ring s)) := rfl

theorem exec_queuePointerMismatch (q : QueueName) :
    exec (.queuePointerMismatch q) s = .next (settledPools s (doQueuePointerMismatch q s)) := rfl

end Commands

/-! ### Bad doorbells (R116) -/

theorem ringError_active {s : State} {ld : Ld} {ring : RingNo} (hState : (ringAt s ld ring).state = .active) (code : Nat) :
    ringError s ld ring code = raise (setRingErr (updRing s ld ring fun r => { r with state := .error }) ld ring code) 1296 .ringError ld.val
      [ld.val, ring.val, code] := if_pos hState

/-- Settles O35: each of the three doorbells is `ringError` of a ring that is ACTIVE. -/
theorem badDoorbell : Obligations.BadDoorbell := by
  intro s ld ring value hLd hIde hState
  have hErr := ringError_active hState errBadDoorbell
  refine ⟨fun hOut => ?tail, fun hOut => ?head, fun hPast => ?pastTail⟩
  case tail => rw [exec_sqTailDoorbell, doSqTailDoorbell_active hLd hIde hState, if_pos hOut, hErr]
  case head => rw [exec_cqHeadDoorbell, doCqHeadDoorbell_bad hLd hIde hState (.inl hOut), hErr]
  case pastTail => rw [exec_cqHeadDoorbell, doCqHeadDoorbell_bad hLd hIde hState (.inr hPast), hErr]

/-! ### Descriptor fetch (R119, R133, R138, R140) -/

theorem toHost_regs (s : State) (ld : Ld) (e : Emit) : (toHost s ld e).regs = s.regs := by
  rw [toHost, toPort]
  split
  · rfl
  · split <;> rfl

theorem sqBase_of_regs {s t : State} (h : t.regs = s.regs) (ld : Ld) (ring : RingNo) : sqBase t ld ring = sqBase s ld ring := by
  simp only [sqBase, getFi, regAt, h]

section Fetch
variable {s u v : State} {ld : Ld} {ring : RingNo}

theorem doDescriptorFetch_idle (hNone : nextLd s = none) : doDescriptorFetch s = s := by
  simp only [doDescriptorFetch, hNone]

/-- The first part of the read leaves the registers, so the second part starts at the queue's base as the command found it. -/
theorem doDescriptorFetch_reads {l used start k first : Nat} (hLd : nextLd s = some l) (hL : Fin.ofNat 256 l = ld)
    (hRing : nextRing s ld = some (ring, used))
    (hU : { s with cre.lastLd := l, cre.turns := sput (0, 0) s.cre.turns l (ring.val, used) } = u)
    (hStart : ((ringAt s ld ring).sqHead + asked (ringAt s ld ring)) % sqEntries s ld ring = start)
    (hCount : fetchable s ld ring = k) (hFirst : min k (sqEntries s ld ring - start) = first)
    (hV : toHost (updRing u ld ring fun r => { r with sqReads := r.sqReads ++ [(start, k)] }) ld
      (.hostRead ld ring none (sqBase s ld ring + start * 64) (first * 64)) = v) :
    doDescriptorFetch s =
      if first < k then toHost v ld (.hostRead ld ring none (sqBase s ld ring) ((k - first) * 64)) else v := by
  have hBase : sqBase v ld ring = sqBase s ld ring := by
    subst hV hU
    exact sqBase_of_regs (toHost_regs ..) ld ring
  have hBaseU : sqBase (updRing u ld ring fun r => { r with sqReads := r.sqReads ++ [(start, k)] }) ld ring = sqBase s ld ring := by
    subst hU
    rfl
  simp only [doDescriptorFetch, hLd, hL, hRing, hU, hStart, hCount, hFirst, hBaseU, hV, hBase]

end Fetch

theorem fetchable_le (s : State) (ld : Ld) (ring : RingNo) : fetchable s ld ring ≤ 8 ∧ fetchable s ld ring ≤ fetchRoom s ∧
    (fetchable s ld ring ≠ 0 → fetchable s ld ring + (ringAt s ld ring).ops.length + asked (ringAt s ld ring) ≤ 64) := by
  simp only [fetchable]
  split <;> omega

section SqRead
variable {s u : State} {ld : Ld} {ring : RingNo}

theorem doSqReadReturn_none (hReads : (ringAt s ld ring).sqReads = []) (result : Option (List Line)) :
    doSqReadReturn ld ring result s = s := by
  simp only [doSqReadReturn, hReads]

variable {start k : Nat} {t : List (Nat × Nat)} (hReads : (ringAt s ld ring).sqReads = (start, k) :: t)
  (hU : updRing s ld ring (fun r => { r with sqReads := t }) = u)
include hReads hU

theorem doSqReadReturn_inactive (hState : (ringAt u ld ring).state ≠ .active) (result : Option (List Line)) :
    doSqReadReturn ld ring result s = ringResetDone u ld ring := by
  simp only [doSqReadReturn, hReads, hU]
  exact if_pos hState

variable (hState : (ringAt u ld ring).state = .active)
include hState

theorem doSqReadReturn_fails :
    doSqReadReturn ld ring none s = raise (ringError u ld ring errSqFault) 1296 .sqFault ld.val [ld.val, ring.val] := by
  simp only [doSqReadReturn, hReads, hU]
  exact if_neg fun hNot => hNot hState

theorem doSqReadReturn_brings (ls : List Line) : doSqReadReturn ld ring (some ls) s =
    (ls.take k).foldl (fun s l => takeDesc s ld ring (descOf l))
      (updRing u ld ring fun r => { r with sqHead := (r.sqHead + k) % sqEntries u ld ring }) := by
  simp only [doSqReadReturn, hReads, hU]
  exact if_neg fun hNot => hNot hState

end SqRead

/-! ### Host data (R122) -/

section HostData
variable {s : State} {ld : Ld} {ring : RingNo} {op k : Nat} {t : List Nat} {o : RingOp} (hFound : findOp s ld ring op = some o)
  (hReads : o.hostReads = k :: t)
include hFound hReads

theorem doHostReadCompletion_bytes {bs : List (BitVec 8)} (hLen : k ≤ bs.length) (poison : Bool) :
    doHostReadCompletion ld ring op (.bytes bs poison) s = updOp s ld ring op fun x => { x with
      hostReads := t, bytes := if x.faulted then [] else x.bytes ++ (bs.take k).map fun b => (b, poison) } := by
  simp only [doHostReadCompletion, hFound, hReads, if_neg (Nat.not_lt.2 hLen)]

theorem doHostReadCompletion_failed : doHostReadCompletion ld ring op .failed s =
    updOp s ld ring op fun x => { x with hostReads := t, faulted := true, bytes := [] } := by
  simp only [doHostReadCompletion, hFound, hReads]

end HostData

/-! ### Completion entries (R129, R134) -/

section Done
variable {s u v : State} {ld : Ld} {ring : RingNo} {op : Nat} {o : RingOp} (hFound : findOp s ld ring op = some o)
include hFound

theorem doRingOperationDone_waits (hQueued : o.queued = false) : doRingOperationDone ld ring op s = s := by
  simp only [doRingOperationDone, hFound, hQueued, Bool.not_false, if_true]

theorem doRingOperationDone_leaves (hQueued : o.queued = true)
    (hU : (if writesEntries s ld ring then writeEntry s ld ring o else s) = u)
    (hV : putBuffers { u with cre.stageQ := queuePop stageBank u.cre.stageQ 1 } ld o = v) : doRingOperationDone ld ring op s =
      stageWaiting (ringResetDone (updRing v ld ring fun r => { r with ops := r.ops.filter fun x => x.num ≠ op }) ld ring) := by
  simp only [doRingOperationDone, hFound, hQueued, hU, hV, Bool.not_true, Bool.false_eq_true, if_false]

end Done

section Coalesce
variable {s : State} {ld : Ld} {ring : RingNo}

theorem doCoalesceTimerExpiry_interrupts (hWaits : (ringAt s ld ring).unsignalled ≠ 0)
    (hTimed : getFi s Reg.CRE_RING_IRQ.coal_time_us (ringIdx ld ring) ≠ 0) :
    doCoalesceTimerExpiry ld ring s = ringInterrupt s ld ring := by
  simp only [doCoalesceTimerExpiry, hWaits, hTimed, decide_false, Bool.or_self, Bool.false_eq_true, if_false]

theorem doCoalesceTimerExpiry_idle (hIdle : (ringAt s ld ring).unsignalled = 0 ∨
    getFi s Reg.CRE_RING_IRQ.coal_time_us (ringIdx ld ring) = 0) : doCoalesceTimerExpiry ld ring s = s := by
  simp only [doCoalesceTimerExpiry, Bool.or_eq_true, decide_eq_true_eq, hIdle, if_true]

end Coalesce

/-! ### Queues that reset (R148, R149) -/

section Mismatch
variable {s u : State}

theorem doQueuePointerMismatch_fetch
    (hU : { incF (raise s 1296 .queueError 0xFFF [0]) Reg.CRE_QUEUE_ERR_CNT.resets with cre.fetchQ := {} } = u) :
    doQueuePointerMismatch .fetch s =
      (opsAt u .fetched).foldl (fun s x => endOpFree s x.1 x.2.1 x.2.2.num stAborted) u := by
  subst hU
  rfl

theorem doQueuePointerMismatch_staging
    (hU : { incF (raise s 1296 .queueError 0xFFF [1]) Reg.CRE_QUEUE_ERR_CNT.resets with cre.stageQ := {} } = u) :
    doQueuePointerMismatch .staging s = stageWaiting (((opsAt u .ended).filter (·.2.2.queued)).foldl (fun s x =>
      ringResetDone (cqLost (updRing (putBuffers s x.1 x.2.2) x.1 x.2.1 fun r => { r with ops := r.ops.filter fun y => y.num ≠ x.2.2.num })
        x.1 x.2.1) x.1 x.2.1) u) := by
  subst hU
  rfl

/-- The items of these queues pass through them within one command, so the event is all there is. -/
theorem doQueuePointerMismatch_passing {q : QueueName}
    (hQ : q = .twinSend ∨ q = .twinReceive ∨ q = .eventDrain ∨ ∃ port, q = .chainForward port) :
    doQueuePointerMismatch q s = raise s (queueSource q) .queueError 0xFFF (queueCode q) := by
  rcases hQ with rfl | rfl | rfl | ⟨port, rfl⟩ <;> rfl

end Mismatch

/-- Settles O36: a fetch by whose turn it is, a return by the ring's state, an end by whether it is queued, a timer by what waits for it, a
reset by its queue. -/
theorem ringFetchAndEnds : Obligations.RingFetchAndEnds := by
  refine ⟨⟨fun s u v l ld ring used start k first hLd hL hRing hU hStart hCount hFirst hV => ?reads, fun s hNone => ?noTurn, fetchable_le,
      fun s u ld ring start k t ls hReads hU hState => ⟨?brings, ?fails⟩, fun s u ld ring start k t result hReads hU hState => ?inactive,
      fun s ld ring result hReads => ?noRead⟩,
    fun s ld ring op k t o bs poison hFound hReads hLen => ⟨?bytes, ?failed⟩, fun s u v ld ring op o hFound hQueued hU hV => ?leaves,
    fun s ld ring op o hFound hQueued => ?waits, fun s ld ring hWaits hTimed => ?interrupts, fun s ld ring hIdle => ?idle,
    fun s u hU => ?fetch, fun s u hU => ?staging, fun s u who hU => ?codeNormal, fun s u who hU => ?codeUrgent,
    fun s u who hU => ?codeCompletion, fun s q hQ => ?passing⟩
  case reads => rw [exec_descriptorFetch, doDescriptorFetch_reads hLd hL hRing hU hStart hCount hFirst hV]
  case noTurn => rw [exec_descriptorFetch, doDescriptorFetch_idle hNone]
  case brings => rw [exec_sqReadReturn, doSqReadReturn_brings hReads hU hState]
  case fails => rw [exec_sqReadReturn, doSqReadReturn_fails hReads hU hState]
  case inactive => rw [exec_sqReadReturn, doSqReadReturn_inactive hReads hU hState]
  case noRead => rw [exec_sqReadReturn, doSqReadReturn_none hReads]
  case bytes => rw [exec_hostReadCompletion, doHostReadCompletion_bytes hFound hReads hLen]
  case failed => rw [exec_hostReadCompletion, doHostReadCompletion_failed hFound hReads]
  case leaves => rw [exec_ringOperationDone, doRingOperationDone_leaves hFound hQueued hU hV]
  case waits => rw [exec_ringOperationDone, doRingOperationDone_waits hFound hQueued]
  case interrupts => rw [exec_coalesceTimerExpiry, doCoalesceTimerExpiry_interrupts hWaits hTimed]
  case idle => rw [exec_coalesceTimerExpiry, doCoalesceTimerExpiry_idle hIdle]
  case fetch => rw [exec_queuePointerMismatch, doQueuePointerMismatch_fetch hU]
  case staging => rw [exec_queuePointerMismatch, doQueuePointerMismatch_staging hU]
  case codeNormal => rw [exec_queuePointerMismatch, doQueuePointerMismatch, queueSource, queueCode, hU]
  case codeUrgent => rw [exec_queuePointerMismatch, doQueuePointerMismatch, queueSource, queueCode, hU]
  case codeCompletion => rw [exec_queuePointerMismatch, doQueuePointerMismatch, queueSource, queueCode, hU]
  case passing => rw [exec_queuePointerMismatch, doQueuePointerMismatch_passing hQ]

end Sys2Proof.Machine
end

section
/-! PROOFS. The rings' operations on data and on ranges of clods: each command as its effect, each operation as what it does once it has
left the fetch queue, and the statements about them. -/

namespace Sys2Proof.Machine

/-! ### The operations as their effects -/

section Commands
variable (s : State) (ld : Ld) (ring : RingNo)

theorem exec_opNop : exec (.opNop ld ring) s = .next (settled s (doOpNop ld ring s)) := rfl

theorem exec_copyIn : exec (.copyIn ld ring) s = .next (settledPools s (doCopyIn ld ring s)) := rfl

theorem exec_copyOut : exec (.copyOut ld ring) s = .next (settledPools s (doCopyOut ld ring s)) := rfl

theorem exec_zeroRange : exec (.zeroRange ld ring) s = .next (settled s (doZeroRange ld ring s)) := rfl

theorem exec_digestRange : exec (.digestRange ld ring) s = .next (settledPools s (doDigestRange ld ring s)) := rfl

theorem exec_badOpcode : exec (.badOpcode ld ring) s = .next (settled s (doBadOpcode ld ring s)) := rfl

theorem exec_persistBarrier : exec (.persistBarrier ld ring) s = .next (settled s (doPersistBarrier ld ring s)) := rfl

theorem exec_liftHint : exec (.liftHint ld ring) s = .next (settled s (doLiftHint ld ring s)) := rfl

theorem exec_settleHint : exec (.settleHint ld ring) s = .next (settled s (doSettleHint ld ring s)) := rfl

end Commands

/-! ### No operation that may start (R136) -/

section Idle
variable {s : State} {ld : Ld} {ring : RingNo} (hNone : startable s ld ring = none)
include hNone

theorem startOp_idle (mine : BitVec 8 → Bool) (waits : State → RingOp → Bool) (act : State → RingOp → State) :
    startOp s ld ring mine waits act = s := by
  simp only [startOp, hNone]

theorem settles_startOp_idle (mine : BitVec 8 → Bool) (waits : State → RingOp → Bool) (act : State → RingOp → State) :
    settles s (startOp s ld ring mine waits act) = .next (settled s s) := by
  rw [startOp_idle hNone]
  rfl

theorem settlesBuffers_startOp_idle (mine : BitVec 8 → Bool) (waits : State → RingOp → Bool) (act : State → RingOp → State) :
    settlesBuffers s (startOp s ld ring mine waits act) = .next (settledPools s s) := by
  rw [startOp_idle hNone]
  rfl

end Idle

/-! ### Operations on data (R120 to R123, R127, R136) -/

section Data
variable {s u : State} {ld : Ld} {ring : RingNo} {o : RingOp} (hOp : startable s ld ring = some o) (hStart : opStarted s ld ring o = u)
include hOp hStart

theorem doOpNop_started (hCode : o.desc.opcode = 0x00) : doOpNop ld ring s =
    if reservedBits o.desc || !plotless o.desc || !paramsZero o.desc 0 then failOp u ld ring o stBadField
    else endOp u ld ring o.num stSuccess 0 := by
  rw [doOpNop, startOp_starts hOp hStart (decide_eq_true hCode) rfl]

theorem doCopyIn_started (hCode : o.desc.opcode = 0x01) : doCopyIn ld ring s =
    checked u ld ring o (plotChecks u ld o.desc (paramsZero o.desc 0) 2 true anyState (upTo 268435456)) fun v => buffered v ld ring o := by
  rw [doCopyIn, startOp_starts hOp hStart (decide_eq_true hCode) rfl]

theorem doCopyOut_started (hCode : o.desc.opcode = 0x02) : doCopyOut ld ring s =
    checked u ld ring o (plotChecks u ld o.desc (paramsZero o.desc 0) 1 false anyState (upTo 268435456)) fun v => buffered v ld ring o := by
  rw [doCopyOut, startOp_starts hOp hStart (decide_eq_true hCode) rfl]

theorem doZeroRange_started (hCode : o.desc.opcode = 0x03) : doZeroRange ld ring s = checked u ld ring o
    (plotChecks u ld o.desc (paramsZero o.desc 0 && o.desc.hostAddr = 0 && wholeLines o.desc) 2 true anyState someBytes) id := by
  rw [doZeroRange, startOp_starts hOp hStart (decide_eq_true hCode) rfl]

theorem doDigestRange_started (hCode : o.desc.opcode = 0x18) : doDigestRange ld ring s =
    checked u ld ring o (plotChecks u ld o.desc (digestFields o.desc && !slotHeld u ld ring o) 1 false anyState
      fun n => decide (64 ≤ n) && decide (n ≤ 1073741824)) fun v => buffered v ld ring o := by
  rw [doDigestRange, startOp_starts hOp hStart (decide_eq_true hCode) rfl]

theorem doBadOpcode_started (hCode : listedOpcode o.desc.opcode = false) :
    doBadOpcode ld ring s = failOp u ld ring o stBadOpcode := by
  rw [doBadOpcode, startOp_starts hOp hStart (by rw [hCode, Bool.not_false]) rfl]

end Data

/-- Settles O37: an operation that may start goes by its checks, and without one none does anything. -/
theorem dataOperations : Obligations.DataOperations := by
  refine ⟨fun s u ld ring o hOp hStart => ⟨fun hCode hBits hPlot hParams => ?nop, fun hCode hBad => ?nopFails, fun hCode hChecks => ?copyIn,
      fun hCode hChecks => ?copyOut, fun hCode hChecks => ?zero, fun hCode hChecks => ?digest, fun st hCode hChecks => ?copyInFails,
      fun st hCode hChecks => ?copyOutFails, fun st hCode hChecks => ?zeroFails, fun st hCode hChecks => ?digestFails,
      fun hCode => ?badOpcode⟩,
    fun s ld ring hNone => ⟨fun i hi => ?idle, fun i hi => ?idleBuffers⟩⟩
  case nop => rw [exec_opNop, doOpNop_started hOp hStart hCode, hBits, hPlot, hParams]; rfl
  case nopFails =>
    have hFails : (reservedBits o.desc || !plotless o.desc || !paramsZero o.desc 0) = true := by simpa [or_assoc] using hBad
    rw [exec_opNop, doOpNop_started hOp hStart hCode, if_pos hFails]
  case copyIn => rw [exec_copyIn, doCopyIn_started hOp hStart hCode, checked_passes hChecks]
  case copyOut => rw [exec_copyOut, doCopyOut_started hOp hStart hCode, checked_passes hChecks]
  case zero => rw [exec_zeroRange, doZeroRange_started hOp hStart hCode, checked_passes hChecks, id]
  case digest => rw [exec_digestRange, doDigestRange_started hOp hStart hCode, checked_passes hChecks]
  case copyInFails => rw [exec_copyIn, doCopyIn_started hOp hStart hCode, checked_fails hChecks]
  case copyOutFails => rw [exec_copyOut, doCopyOut_started hOp hStart hCode, checked_fails hChecks]
  case zeroFails => rw [exec_zeroRange, doZeroRange_started hOp hStart hCode, checked_fails hChecks]
  case digestFails => rw [exec_digestRange, doDigestRange_started hOp hStart hCode, checked_fails hChecks]
  case badOpcode => rw [exec_badOpcode, doBadOpcode_started hOp hStart hCode]
  case idle =>
    simp only [List.mem_cons, List.not_mem_nil, or_false] at hi
    rcases hi with rfl | rfl | rfl | rfl | rfl | rfl | rfl | rfl | rfl | rfl | rfl | rfl <;> exact settles_startOp_idle hNone ..
  case idleBuffers =>
    simp only [List.mem_cons, List.not_mem_nil, or_false] at hi
    rcases hi with rfl | rfl | rfl <;> exact settlesBuffers_startOp_idle hNone ..

/-! ### Barriers (R124) -/

/-- `updOp` changes no other operation, so two changes that agree on the one it names have the same effect. -/
theorem updOp_congr {s : State} {ld : Ld} {ring : RingNo} {op : Nat} {f g : RingOp → RingOp} (h : ∀ x, x.num = op → f x = g x) :
    updOp s ld ring op f = updOp s ld ring op g := by
  have hOps (x : RingOp) : (if x.num = op then f x else x) = if x.num = op then g x else x := by
    split
    · exact h x ‹_›
    · rfl
  simp only [updOp, hOps]

section Barrier
variable {s u : State} {ld : Ld} {ring : RingNo} {o : RingOp} (hOp : startable s ld ring = some o) (hStart : opStarted s ld ring o = u)
  (hCode : o.desc.opcode = 0x04)
include hOp hStart hCode

theorem doPersistBarrier_started : doPersistBarrier ld ring s =
    if reservedBits o.desc || !plotless o.desc || !paramsZero o.desc 1 || decide (1 < (param o.desc 0).toNat) then
      failOp u ld ring o stBadField
    else if param o.desc 0 = 0 then
      updOp u ld ring o.num fun x => { x with waitsOps := ((ringAt u ld ring).ops.filter fun y => decide (y.num < x.num)).map (·.num) }
    else updOp u ld ring o.num fun x => { x with waits := masterWrites u ld.val } := by
  rw [doPersistBarrier, startOp_starts hOp hStart (decide_eq_true hCode) rfl]

theorem doPersistBarrier_fails (hBad : reservedBits o.desc = true ∨ plotless o.desc = false ∨ paramsZero o.desc 1 = false ∨
    1 < (param o.desc 0).toNat) : doPersistBarrier ld ring s = failOp u ld ring o stBadField := by
  have hFails : (reservedBits o.desc || !plotless o.desc || !paramsZero o.desc 1 || decide (1 < (param o.desc 0).toNat)) = true := by
    simpa [or_assoc] using hBad
  rw [doPersistBarrier_started hOp hStart hCode, if_pos hFails]

variable (hBits : reservedBits o.desc = false) (hPlot : plotless o.desc = true) (hParams : paramsZero o.desc 1 = true)
include hBits hPlot hParams

theorem doPersistBarrier_operations (hKind : param o.desc 0 = 0) : doPersistBarrier ld ring s = updOp u ld ring o.num fun x => { x with
    waitsOps := ((ringAt u ld ring).ops.filter fun y => decide (y.num < o.num)).map (·.num) } := by
  rw [doPersistBarrier_started hOp hStart hCode, hBits, hPlot, hParams, hKind]
  exact updOp_congr fun x hNum => by rw [hNum]

theorem doPersistBarrier_writes (hKind : param o.desc 0 = 1) :
    doPersistBarrier ld ring s = updOp u ld ring o.num fun x => { x with waits := masterWrites u ld.val } := by
  rw [doPersistBarrier_started hOp hStart hCode, hBits, hPlot, hParams, hKind]
  rfl

end Barrier

/-! ### Hints and pins (R125, R309, R314) -/

section Ranges
variable {s u : State} {ld : Ld} {ring : RingNo} {o : RingOp} (hOp : startable s ld ring = some o) (hStart : opStarted s ld ring o = u)
include hOp hStart

theorem doLiftHint_started (hCode : o.desc.opcode = 0x08) : doLiftHint ld ring s =
    checked u ld ring o (plotChecks u ld o.desc (rangeFields o.desc) 1 false anyState someBytes) fun v =>
      let new := ((touched v o).filter fun c => liftable v o.desc.plot.val c && !v.tmg.liftHints.contains c &&
        !(v.tmg.lifts.any fun l => l.clod = c)).take (hintRoom - v.tmg.liftHints.length)
      retryLifts (endOp { v with tmg.liftHints := v.tmg.liftHints ++ new } ld ring o.num stSuccess new.length) := by
  rw [doLiftHint, startOp_starts hOp hStart (decide_eq_true hCode) rfl]

theorem doSettleHint_started (hCode : o.desc.opcode = 0x09) : doSettleHint ld ring s =
    checked u ld ring o (plotChecks u ld o.desc (rangeFields o.desc) 2 false anyState someBytes) fun v =>
      let new := ((touched v o).filter fun c => settleable v c && !v.tmg.settleHints.contains c &&
        !(v.tmg.queue.any fun q => q.clod = c)).take (hintRoom - v.tmg.settleHints.length)
      endOp { v with tmg.settleHints := v.tmg.settleHints ++ new } ld ring o.num stSuccess new.length := by
  rw [doSettleHint, startOp_starts hOp hStart (decide_eq_true hCode) rfl]

section Fails
variable {st : Nat} (hChecks : plotChecks u ld o.desc (rangeFields o.desc) 3 false anyState (upTo 1073741824) = some st)
include hChecks

theorem doPin_fails (hCode : o.desc.opcode = 0x0A) : doPin ld ring s = failOp u ld ring o st := by
  rw [doPin, startOp_starts hOp hStart (decide_eq_true hCode) rfl, checked_fails hChecks]

theorem doUnpin_fails (hCode : o.desc.opcode = 0x0B) : doUnpin ld ring s = failOp u ld ring o st := by
  rw [doUnpin, startOp_starts hOp hStart (decide_eq_true hCode) rfl, checked_fails hChecks]

end Fails

section Counts
variable (hChecks : plotChecks u ld o.desc (rangeFields o.desc) 3 false anyState (upTo 1073741824) = none)
include hChecks

theorem doPin_raises (hCode : o.desc.opcode = 0x0A) (hRoom : ∀ c ∈ touched u o, (entryOf u c).pins ≠ 15) {v : State}
    (hV : (touched u o).foldl (fun s c => updEntry s c fun e => { e with pins := Fin.ofNat 16 (e.pins.val + 1) }) u = v) :
    doPin ld ring s = retryLifts (updOp { v with
      tmg.pinWaits := v.tmg.pinWaits ++ (touched u o).filter fun c => !pinHolds v c && !v.tmg.pinWaits.contains c } ld ring o.num
      fun x => { x with pins := touched u o, result := (touched u o).length }) := by
  have hNot : ¬ ((touched u o).any fun c => (entryOf u c).pins = 15) = true := by simpa using hRoom
  subst hV
  rw [doPin, startOp_starts hOp hStart (decide_eq_true hCode) rfl, checked_passes hChecks]
  exact if_neg hNot

theorem doUnpin_lowers (hCode : o.desc.opcode = 0x0B) (hPinned : ∀ c ∈ touched u o, (entryOf u c).pins ≠ 0) :
    doUnpin ld ring s = endOp ((touched u o).foldl (fun s c =>
      updEntry s c fun e => { e with pins := Fin.ofNat 16 (e.pins.val - 1) }) u) ld ring o.num stSuccess (touched u o).length := by
  have hNot : ¬ ((touched u o).any fun c => (entryOf u c).pins = 0) = true := by simpa using hPinned
  rw [doUnpin, startOp_starts hOp hStart (decide_eq_true hCode) rfl, checked_passes hChecks]
  exact if_neg hNot

end Counts

end Ranges

/-- Settles O38: a barrier by its fields and kind, a hint by its checks, a pin and an unpin by their checks and then by the counts of the
clods they touch. -/
theorem hintsPinsBarriers : Obligations.HintsPinsBarriers := by
  intro s u ld ring o hOp hStart
  refine ⟨fun hCode hBits hPlot hParams hKind => ?operations, fun hCode hBits hPlot hParams hKind => ?writes, fun hCode hBad => ?barrierFails,
    fun st => ⟨fun hCode hChecks => ?liftFails, fun hCode hChecks => ?settleFails, fun hChecks => ⟨fun hCode => ?pinFails,
      fun hCode => ?unpinFails⟩⟩,
    fun hCode hChecks => ?lift, fun hCode hChecks => ?settle, fun hCode hChecks hPinned => ?lowers, fun hCode hChecks hEmpty => ?empty,
    fun hCode hChecks hFull => ?full, fun hCode hChecks hRoom v hV => ?raises⟩
  case operations => rw [exec_persistBarrier, doPersistBarrier_operations hOp hStart hCode hBits hPlot hParams hKind]
  case writes => rw [exec_persistBarrier, doPersistBarrier_writes hOp hStart hCode hBits hPlot hParams hKind]
  case barrierFails => rw [exec_persistBarrier, doPersistBarrier_fails hOp hStart hCode hBad]
  case liftFails => rw [exec_liftHint, doLiftHint_started hOp hStart hCode, checked_fails hChecks]
  case settleFails => rw [exec_settleHint, doSettleHint_started hOp hStart hCode, checked_fails hChecks]
  case pinFails => rw [exec_pin, doPin_fails hOp hStart hChecks hCode]
  case unpinFails => rw [exec_unpin, doUnpin_fails hOp hStart hChecks hCode]
  case lift => rw [exec_liftHint, doLiftHint_started hOp hStart hCode, checked_passes hChecks, hintRoom]
  case settle => rw [exec_settleHint, doSettleHint_started hOp hStart hCode, checked_passes hChecks, hintRoom]
  case lowers => rw [exec_unpin, doUnpin_lowers hOp hStart hChecks hCode hPinned]
  case empty => rw [exec_unpin, doUnpin_empty hOp hStart hChecks hCode hEmpty]
  case full => rw [exec_pin, doPin_full hOp hStart hChecks hCode hFull]
  case raises => rw [exec_pin, doPin_raises hOp hStart hChecks hCode hRoom hV]

end Sys2Proof.Machine
end

section
/-! PROOFS. The queue and the quiet block: every command answers a next state, a queue of commands empties in as many steps, and where
nothing is under way nothing goes on. -/

namespace Sys2Proof.Machine

/-! ### Every command answers, and leaves the queue (log entry 45) -/

/-- No command faults or is refused: each ends with `completes`, but for the always-on reset and HELLO, which put the queue back
themselves. -/
theorem exec_next_pending (c : Instr) (s : State) : ∃ t, exec c s = .next t ∧ t.pending = s.pending := by
  obtain ⟨t, hEnd⟩ | rfl | ⟨f, hello, rfl⟩ := exec_completes_or c s
  · exact ⟨_, hEnd, rfl⟩
  · exact ⟨_, rfl, rfl⟩
  · exact ⟨_, rfl, rfl⟩

theorem idleTick_pending (s : State) : (idleTick s).pending = s.pending := by
  rw [idleTick]
  split <;> rfl

theorem idles_next_pending (s : State) : ∃ t, idles s = .next t ∧ t.pending = s.pending := by
  cases hMac : macWaits s
  case false => exact ⟨_, idles_noMac hMac, idleTick_pending s⟩
  case true => exact ⟨_, idles_mac hMac, rfl⟩

/-- A step takes the front command off the queue, and nothing else. -/
theorem step_next_tail (s : State) : ∃ t, step s = .next t ∧ t.pending = s.pending.tail := by
  cases hQueue : s.pending with
  | nil =>
    obtain ⟨t, hNext, hKept⟩ := idles_next_pending s
    exact ⟨t, (step_idle hQueue).trans hNext, hKept.trans hQueue⟩
  | cons c rest =>
    obtain ⟨t, hNext, hKept⟩ := exec_next_pending c { s with pending := rest }
    exact ⟨t, by rw [step, hQueue]; exact hNext, hKept⟩

/-- Settles O1: a command keeps the queue, and a step takes its front. -/
theorem stepTotal : Obligations.StepTotal := ⟨exec_next_pending, step_next_tail⟩

/-! ### The queue drains -/

theorem run_succ_of_step {n : Nat} {s u : State} (h : step s = .next u) :
    Host.Core.run core (n + 1) s = Host.Core.run core n u := by
  have hCore : core.step s = .next u := h
  simp only [Host.Core.run, hCore]

/-- Each of `n` steps takes one command, so they take the first `n`. -/
theorem run_next_drop (n : Nat) (s : State) : ∃ t, Host.Core.run core n s = .next t ∧ t.pending = s.pending.drop n := by
  induction n generalizing s with
  | zero => exact ⟨s, rfl, rfl⟩
  | succ n ih =>
    obtain ⟨u, hStep, hTail⟩ := step_next_tail s
    obtain ⟨t, hRun, hDrop⟩ := ih u
    refine ⟨t, (run_succ_of_step hStep).trans hRun, ?_⟩
    rw [hDrop, hTail, ← List.drop_one, List.drop_drop, Nat.add_comm]

/-- Settles O3: as many steps as commands wait take them all. -/
theorem queueDrains : Obligations.QueueDrains := by
  intro s
  obtain ⟨t, hRun, hDrop⟩ := run_next_drop s.pending.length s
  exact ⟨t, hRun, hDrop.trans List.drop_length⟩

/-! ### What finds nothing to do -/

section Idle
variable {s : State}

/-! The front cache and the requests (R194, R199, R209, R214). -/

theorem runMaint_none (h : s.fcd.maint = []) : runMaint s = s := by
  rw [runMaint, h, List.foldl_nil, ← h]

theorem retryInstalls_none (h : s.fcd.installs = []) : retryInstalls s = s := by
  rw [retryInstalls, h, List.foldl_nil, ← h]

theorem placeNexts_none (h : s.fcd.dirNext = []) : placeNexts s = s := by
  rw [placeNexts, h, List.map_nil, List.foldl_nil]

theorem giveCredits_none (hWrites : s.pou.writes = []) (hHeld : s.pou.withheld = []) : giveCredits s = s := by
  have hBack : (if writesStopped s then s else { s with pou.withheld := [] }) = s := by rw [← hHeld, ite_self]
  rw [giveCredits, hBack, hWrites, List.filter_nil, List.foldl_nil]

theorem retrySnoops_none (hTwin : s.twin.snoopWaits = []) (hChain : s.chain.snoopWaits = []) : retrySnoops s = s := by
  simp only [retrySnoops, hTwin, hChain, List.foldl_nil]

theorem ackConflicts_none (h : s.fcd.conflicts = []) : ackConflicts s = s := by
  simp only [ackConflicts, h, List.filter_nil, List.foldl_nil]
  rw [← h]

theorem densityLifts_none (h : s.tmg.density = []) : densityLifts s = s := by
  rw [densityLifts, h, List.foldl_nil, ← h]

/-- No stop is timed and no override is on (R180, R182). -/
theorem checkStop_running (hSince : s.pou.stopSince = none) (hStage : bpStage s ≠ 3) (hOver : flag s Reg.POU_BP_STS.override = false) :
    checkStop s = s := by
  simp only [checkStop, hOver, Bool.false_and, Bool.false_eq_true, if_false, hSince, if_neg hStage]

theorem pumpLoop_of_fixed (h : pumpPass s = s) (n : Nat) : pumpLoop n s = s := by
  cases n with
  | zero => rfl
  | succ n => simp only [pumpLoop, h, if_true]

/-! The rings' operations (R121 to R125). -/

theorem runningOps_none (h : ∀ e ∈ s.cre.rings, ∀ o ∈ e.2.ops, o.stage ≠ .running) : runningOps s = [] := by
  refine List.flatMap_eq_nil_iff.2 fun e he => List.map_eq_nil_iff.2 (List.filter_eq_nil_iff.2 fun o ho => ?_)
  simpa using h e he o ho

theorem stepRings_none (h : ∀ e ∈ s.cre.rings, ∀ o ∈ e.2.ops, o.stage ≠ .running) : stepRings s = s := by
  rw [stepRings, runningOps_none h, List.foldl_nil]

theorem drive_of_fixed (hPump : pump s = s) (hRings : stepRings s = s) : drive s = s := by
  simp only [drive, settleLoop, hPump, hRings, decide_true, Bool.and_self, if_true]

/-! The twin's stream and requests (R41, R46, R288, R338, R366, R368, R369, R373, R378). -/

theorem abandonSlices_none (h : s.twin.slices = []) : abandonSlices s = s := by
  rw [abandonSlices, h, List.filter_nil, ← h]

theorem applyReady_none (h : s.twin.reorder = []) : applyReady s.twin.reorder.length s = s := by
  rw [h, List.length_nil, applyReady]

theorem reopenSeals_none (h : ∀ e ∈ s.plots.plots, e.2.sealing = false) : reopenSeals s = s := by
  have hNone : (admitted s).filter (fun e => e.2.sealing && e.2.doneHere) = [] :=
    List.filter_eq_nil_iff.2 fun e he => by simp [h e (List.mem_filter.1 he).1]
  rw [reopenSeals, hNone, List.map_nil, List.foldl_nil]

theorem checkDisputes_none (h : s.twin.disputes = []) : checkDisputes s = s := by
  rw [checkDisputes, h, List.foldl_nil]

theorem serveReady_none (h : s.twin.fetchWaits = []) : serveReady s = s := by
  rw [serveReady, h, List.foldl_nil]

theorem copyReadsReady_none (h : s.twin.copyReads = []) : copyReadsReady s = s := by
  rw [copyReadsReady, h, List.foldl_nil]

theorem sampleReady_none (h : s.twin.sampleWaits = []) : sampleReady s = s := by
  rw [sampleReady, h, List.foldl_nil]

theorem sendResends_none (h : s.twin.resend = []) : sendResends s = s := by
  rw [sendResends, h, List.foldl_nil, ite_self]

theorem checkResync_none (h : s.twin.resync = none) : checkResync s = s := by
  rw [checkResync, h]

theorem checkTakeback_none (h : s.twin.takeback = none) : checkTakeback s = s := by
  rw [checkTakeback, h]

/-! Rebuilds, lifts, MACs, the chain and fatal errors (R88, R204, R281, R286, R309, R324). -/

theorem failRebuilds_none (h : s.bfc.reads = []) : failRebuilds s = s := by
  rw [failRebuilds, h, List.filter_nil, List.foldl_nil]

theorem retryFetched_none (h : s.tmg.fetched = []) : retryFetched s = s := by
  rw [retryFetched, h, List.foldl_nil]

theorem retryLifts_none (hWaits : s.tmg.liftWaits = []) (hPins : s.tmg.pinWaits = []) (hHints : s.tmg.liftHints = []) :
    retryLifts s = s := by
  calc retryLifts s = { s with tmg.pinWaits := [], tmg.liftHints := [] } := by
        simp only [retryLifts, hWaits, hPins, hHints, List.filter_nil, List.foldl_nil]
    _ = { s with tmg.pinWaits := s.tmg.pinWaits, tmg.liftHints := s.tmg.liftHints } := by rw [hPins, hHints]
    _ = s := rfl

theorem macsGood_none (h : macWaits s = false) : macsGood s = s := by
  rw [macsGood, h, if_neg Bool.false_ne_true]

theorem answersGood_none (h : ∀ x ∈ s.fcd.snoops, x.answer = none) : answersGood s = s := by
  have hNone : s.fcd.snoops.filter (fun x => x.mac = 0 && x.answer.isSome) = [] :=
    List.filter_eq_nil_iff.2 fun x hx => by simp [h x hx]
  rw [answersGood, hNone, List.foldl_nil]

theorem chainEnd_none (h : s.chain.waiting = []) : chainEnd s = s := by
  rw [chainEnd, h, List.length_nil, issueWaiting]

theorem checkFatal_none (h : s.fcd.fatal = none) : checkFatal s = s := by
  rw [checkFatal, h]

end Idle

/-! ### A quiet block stays still (log entry 20) -/

section Still
variable {s : State}

theorem Quiet.macWaits_false (h : Quiet s) : macWaits s = false := by
  have hSnoops : (s.fcd.snoops.any fun x => x.mac ≠ 0) = false := List.any_eq_false.2 fun x hx => by simp [(h.snoops x hx).1]
  simp only [macWaits, h.writes, h.reads, h.waiting, hSnoops, List.any_nil, Bool.or_self]

/-- A pass over the requests finds none. -/
theorem Quiet.pumpPass_fixed (h : Quiet s) : pumpPass s = s := by
  simp only [pumpPass, runMaint_none h.maint, retryInstalls_none h.installs, placeNexts_none h.dirNext,
    giveCredits_none h.writes h.withheld, h.writes, h.reads, h.fwdWrites, List.map_nil, List.foldl_nil, List.length_nil, sendMirrors,
    retrySnoops_none h.snoopWaits h.chainSnoops, ackConflicts_none h.conflicts]

theorem Quiet.pump_fixed (h : Quiet s) : pump s = s := by
  simp only [pump, pumpLoop_of_fixed h.pumpPass_fixed, densityLifts_none h.density, checkStop_running h.stopSince h.running h.override,
    ite_self]

theorem Quiet.drive_fixed (h : Quiet s) : drive s = s := drive_of_fixed h.pump_fixed (stepRings_none h.rings)

theorem Quiet.driveTwin_fixed (h : Quiet s) : driveTwin s = s := by
  simp only [driveTwin, abandonSlices_none h.slices, applyReady_none h.reorder, reopenSeals_none h.seals,
    checkDisputes_none h.disputes, serveReady_none h.fetchWaits, copyReadsReady_none h.copyReads, sampleReady_none h.sampleWaits,
    sendResends_none h.resend, checkResync_none h.resync, checkTakeback_none h.takeback]

/-- Each part of what follows from a command finds nothing to do. -/
theorem Quiet.settleAll_fixed (h : Quiet s) : settleAll s = s := by
  simp only [settleAll, failRebuilds_none h.grainReads, retryFetched_none h.fetched,
    retryLifts_none h.liftWaits h.pinWaits h.liftHints, macsGood_none h.macWaits_false, answersGood_none fun x hx => (h.snoops x hx).2,
    chainEnd_none h.waiting, h.driveTwin_fixed, h.drive_fixed, checkFatal_none h.fatal, ite_self]

end Still

/-- Settles O4: every part of `settleAll` leaves a quiet state as it is. -/
theorem quietStaysStill : Obligations.QuietStaysStill := fun _ hQuiet => hQuiet.settleAll_fixed

end Sys2Proof.Machine
end

section
/-! PROOFS. The completion delay of a write, and GPF Phase 1. -/

namespace Sys2Proof.Machine

/-! ### The completion delay (R178, R179) -/

section Delay
variable {s : State} {r : Plot}

theorem reached_iff {level pct : Nat} : reached level pct = true ↔ pct * 1024 ≤ level * 100 := decide_eq_true_iff

/-- In stage 1 the level that governs stands between the thresholds. -/
theorem level_of_bpStage_one (h : bpStage s = 1) :
    getF s Reg.POU_BP_CFG.soft_pct * 1024 ≤ governingLevel s * 100 ∧ governingLevel s * 100 < getF s Reg.POU_BP_CFG.hard_pct * 1024 := by
  rw [bpStage] at h
  split at h
  · cases h
  split at h
  · cases h
  rename_i hHard
  split at h
  · rename_i hSoft
    exact ⟨reached_iff.1 hSoft, Nat.lt_of_not_le fun hLe => hHard (reached_iff.2 hLe)⟩
  · cases h

theorem writeDelay_stage_zero (h : bpStage s = 0) : writeDelay s r = 0 := by
  simp only [writeDelay, h]

theorem writeDelay_within (h : bpStage s = 1) (hAllow : overAllowance s r = false) : writeDelay s r = 0 := by
  simp only [writeDelay, h, hAllow, Bool.false_eq_true, if_false]

theorem writeDelay_over (h : bpStage s = 1) (hAllow : overAllowance s r = true) :
    writeDelay s r = min (getF s Reg.POU_BP_CFG.max_delay_us) 1000 * 1000 *
      (governingLevel s * 100 - getF s Reg.POU_BP_CFG.soft_pct * 1024) /
        ((getF s Reg.POU_BP_CFG.hard_pct - getF s Reg.POU_BP_CFG.soft_pct) * 1024) := by
  simp only [writeDelay, h, hAllow, if_true]

theorem writeDelay_hard (h : 2 ≤ bpStage s) : writeDelay s r = min (getF s Reg.POU_BP_CFG.max_delay_us) 1000 * 1000 := by
  rw [writeDelay]
  split
  · omega
  · omega
  · rfl

/-- The delay is a share of max_delay_us: how far the level has come of the way from soft_pct to hard_pct. -/
theorem writeDelay_le_max (h : bpStage s = 1) : writeDelay s r ≤ min (getF s Reg.POU_BP_CFG.max_delay_us) 1000 * 1000 := by
  cases hAllow : overAllowance s r
  case false => simp only [writeDelay_within h hAllow, Nat.zero_le]
  case true =>
    obtain ⟨hSoft, hHard⟩ := level_of_bpStage_one h
    rw [writeDelay_over h hAllow]
    have hShare : governingLevel s * 100 - getF s Reg.POU_BP_CFG.soft_pct * 1024 ≤
        (getF s Reg.POU_BP_CFG.hard_pct - getF s Reg.POU_BP_CFG.soft_pct) * 1024 := by omega
    exact Nat.div_le_of_le_mul (Nat.le_trans (Nat.mul_le_mul_left _ hShare) (Nat.le_of_eq (Nat.mul_comm _ _)))

end Delay

/-- Settles O18: one rule for each stage, and the share of stage 1 is no more than the whole. -/
theorem writeDelayBounds : Obligations.WriteDelayBounds :=
  fun _ _ => ⟨writeDelay_stage_zero, writeDelay_within, writeDelay_le_max, writeDelay_hard⟩

/-! ### What a host link does with an answer (R96, R97) -/

theorem toPort_up {s : State} {port : Nat} (hUp : linkUp s port = true) (hRec : (hostLink s port).recovery = false) (e : Emit) :
    toPort s port e = emit s e := by
  simp only [toPort, hRec, Bool.false_eq_true, if_false, hUp, if_true]

theorem toPort_recovers {s : State} {port : Nat} (hRec : (hostLink s port).recovery = true) (e : Emit) :
    toPort s port e = { s with hfp.held := s.hfp.held ++ [(port, e)] } := by
  simp only [toPort, hRec, if_true]

/-! ### GPF Phase 1 (R165) -/

theorem exec_gpfPhase1 (s : State) (port : Port) :
    exec (.gpfPhase1 port) s = .next (finished s (toPort s port.val (.gpfResponse port 1))) := rfl

/-- Settles O16: Phase 1 only sends its answer, which the link drives out or holds. -/
theorem gpfPhase1AtOnce : Obligations.GpfPhase1AtOnce := by
  refine fun s port => ⟨fun hUp hRec => ?up, fun hRec => ?recovers⟩
  case up => rw [exec_gpfPhase1, toPort_up hUp hRec, emit]
  case recovers => rw [exec_gpfPhase1, toPort_recovers hRec]

end Sys2Proof.Machine
end

section
/-! PROOFS. Snoops and clod fetches between the twins: each command as its effect, what each frame does once it is taken, and the
statement about them. -/

namespace Sys2Proof.Machine

section Exchange
variable {s u : State} {f : FrameIn} {tag : Nat}

/-! ### The commands as their effects -/

section Commands
variable (s f tag) (line : LineNo) (inv : Bool) (ahead : List (Mid × Fin 256)) (clod : ClodNo)

theorem exec_snoopReq : exec (.snoopReq f tag line inv ahead) s = .next (settled s (doSnoopReq f tag line inv ahead s)) := rfl

theorem exec_snoopRsp : exec (.snoopRsp f tag) s = .next (settled s (doSnoopRsp f tag s)) := rfl

theorem exec_clodFetch (seq : Nat) : exec (.clodFetch f tag clod seq) s = .next (settled s (doClodFetch f tag clod seq s)) := rfl

theorem exec_clodData (half : Fin 2) (lines : Option ClodImage) :
    exec (.clodData f tag clod half lines) s = .next (settled s (doClodData f tag clod half lines s)) := rfl

end Commands

/-! ### Snoops at the side that is asked, and back at the home (R209, R210) -/

section SnoopReq
variable {line : LineNo} {inv : Bool} {ahead : List (Mid × Fin 256)} (hTaken : frameTaken s f 0x0B = (true, u))
include hTaken

/-- A request whose tag neither waits nor is being served joins those that wait. -/
theorem doSnoopReq_new (hNoWait : (u.twin.snoopWaits.any fun w => w.1 = tag) = false) (hNoSnoop : snoopsFor u (.twin tag) = []) :
    doSnoopReq f tag line inv ahead s =
      { u with twin.snoopWaits := u.twin.snoopWaits ++ [(tag, line.val, inv, ahead.map fun a => (a.1.val, a.2.val))] } := by
  simp only [doSnoopReq, hTaken, hNoWait, hNoSnoop, List.isEmpty_nil, Bool.not_true, Bool.or_self, Bool.false_eq_true, if_false]

theorem doSnoopReq_waiting (hWait : (u.twin.snoopWaits.any fun w => w.1 = tag) = true) : doSnoopReq f tag line inv ahead s = u := by
  simp only [doSnoopReq, hTaken, hWait, Bool.true_or, if_true]

end SnoopReq

theorem doSnoopRsp_asked {x : Snoop} (hTaken : frameTaken s f 0x0C = (true, u))
    (hAsked : (u.fcd.snoops.find? fun x => x.id = tag && x.target = partnerTarget) = some x) : doSnoopRsp f tag s = answerSnoop u x := by
  simp only [doSnoopRsp, hTaken, hAsked]

/-! ### A fetch at the side that serves it (R288) -/

section ClodFetch
variable {clod : ClodNo} {seq : Nat} {p : Plot} (hTaken : frameTaken s f 0x0D = (true, u)) (hServ : serving u = true)
  (hPlot : plotRec u ((plotOfClod u clod.val).getD 0) = p)
include hTaken hServ hPlot

/-- The home serves a fetch at once, and so does a partner that has applied the plot's writes through the sequence it names. -/
theorem doClodFetch_served (hReady : isHome u p = true ∨ seq ≤ p.mirrored) : doClodFetch f tag clod seq s = serveFetch u tag clod.val := by
  have hServes : (isHome u p || decide (seq ≤ p.mirrored)) = true := by simpa only [Bool.or_eq_true, decide_eq_true_eq] using hReady
  simp only [doClodFetch, hTaken, hServ, hPlot, hServes, Bool.not_true, Bool.false_eq_true, if_false, if_true]

theorem doClodFetch_waits (hAway : isHome u p = false) (hBehind : p.mirrored < seq) :
    doClodFetch f tag clod seq s = { u with twin.fetchWaits := u.twin.fetchWaits ++ [(tag, clod.val, seq)] } := by
  simp only [doClodFetch, hTaken, hServ, hPlot, hAway, decide_eq_false (Nat.not_le.2 hBehind), Bool.not_true, Bool.or_self,
    Bool.false_eq_true, if_false]

end ClodFetch

/-! ### A fetch's answer at the side that asked (R284, R288) -/

section ClodData
variable {clod : ClodNo} {half : Fin 2} (hTaken : frameTaken s f 0x0E = (true, u))
include hTaken

section Awaited
variable (hAwaited : (u.bfc.fetches.any fun x => x.1 = tag && x.2 = clod.val) = true)
include hAwaited

theorem doClodData_failed : doClodData f tag clod half none s = fetchFailed u clod.val := by
  simp only [doClodData, hTaken, hAwaited, Bool.not_true, Bool.false_eq_true, if_false]

theorem doClodData_half (lines : ClodImage) :
    doClodData f tag clod half (some lines) s = (applyHalf u clod.val half.val lines).2 := by
  simp only [doClodData, hTaken, hAwaited, Bool.not_true, Bool.false_eq_true, if_false]

end Awaited

theorem doClodData_unawaited (lines : Option ClodImage) (hNone : (u.bfc.fetches.any fun x => x.1 = tag && x.2 = clod.val) = false) :
    doClodData f tag clod half lines s = u := by
  simp only [doClodData, hTaken, hNone, Bool.not_false, if_true]

end ClodData

end Exchange

/-- Settles O56: each frame, once taken, by the rule of its effect that its tag, its sequence and what is awaited select. -/
theorem twinSnoopsAndFetches : Obligations.TwinSnoopsAndFetches := by
  refine ⟨fun s u f tag line inv ahead hTaken hNoWait hNoSnoop => ?asked, fun s u f tag line inv ahead hTaken hWait => ?askedAgain,
    fun s u f tag x hTaken hAsked => ?answered, fun s u f tag clod seq hTaken hServ hApplied => ?fetchServed,
    fun s u f tag clod seq hTaken hServ hAway hBehind => ?fetchWaits,
    fun s u f tag clod half hTaken hAwaited => ⟨?fetchFails, fun ls => ?halfApplied⟩,
    fun s u f tag clod half lines hTaken hNone => ?halfDiscarded⟩
  case asked => rw [exec_snoopReq, doSnoopReq_new hTaken hNoWait hNoSnoop]
  case askedAgain => rw [exec_snoopReq, doSnoopReq_waiting hTaken hWait]
  case answered => rw [exec_snoopRsp, doSnoopRsp_asked hTaken hAsked]
  case fetchServed => rw [exec_clodFetch, doClodFetch_served hTaken hServ rfl (.inr hApplied)]
  case fetchWaits => rw [exec_clodFetch, doClodFetch_waits hTaken hServ rfl hAway hBehind]
  case fetchFails => rw [exec_clodData, doClodData_failed hTaken hAwaited]
  case halfApplied => rw [exec_clodData, doClodData_half hTaken hAwaited]
  case halfDiscarded => rw [exec_clodData, doClodData_unawaited hTaken lines hNone]

end Sys2Proof.Machine
end

section
/-! PROOFS. Loam's training, its speed changes and its repairs: each command as its effect, one rule per outcome, and the statement about
them. -/

namespace Sys2Proof.Machine

section LoamTraining
variable {s u : State} {channel : Fin 16}

/-! ### The commands as their effects -/

section Commands
variable (s channel)

theorem exec_zqCalDue : exec (.zqCalDue channel) s = .next (finished s (doZqCalDue channel s)) := rfl

theorem exec_oscReadDue (drift : Fin 256) : exec (.oscReadDue channel drift) s = .next (finished s (doOscReadDue channel drift s)) := rfl

theorem exec_centeringCheckDue : exec (.centeringCheckDue channel) s = .next (finished s (doCenteringCheckDue channel s)) := rfl

theorem exec_trainingStepDone : exec (.trainingStepDone channel) s = .next (finished s (doTrainingStepDone channel s)) := rfl

theorem exec_retrainSegmentEnd (last : Bool) :
    exec (.retrainSegmentEnd channel last) s = .next (finished s (doRetrainSegmentEnd channel last s)) := rfl

theorem exec_caParityError (affected : List Nat) :
    exec (.caParityError channel affected) s = .next (finished s (doCaParityError channel affected s)) := rfl

theorem exec_selfRefreshIdle : exec (.selfRefreshIdle channel) s = .next (finished s (doSelfRefreshIdle channel s)) := rfl

theorem exec_speedChange (who : Accessor) (value : Word) :
    exec (.speedChange who value) s = .next (finished s (doSpeedChange who value s)) := rfl

theorem exec_speedChangeStepDone (failed : Bool) :
    exec (.speedChangeStepDone failed) s = .next (settled s (doSpeedChangeStepDone failed s)) := rfl

theorem exec_trainingStepAbort : exec (.trainingStepAbort channel) s = .next (finished s (doTrainingStepAbort channel s)) := rfl

theorem exec_loamTrainingDone (results : List (Option (Fin 8))) (p : LoamPopulation) (ok : Bool) (rows : List Nat) :
    exec (.loamTrainingDone results p ok rows) s = .next (settledPools s (doLoamTrainingDone results p ok rows s)) := rfl

theorem exec_spprDone (ok : Bool) : exec (.spprDone channel ok) s = .next (settledPools s (doSpprDone channel ok s)) := rfl

end Commands

/-! ### Periodic steps and retraining (R242, R243) -/

theorem doTrainingStepDone_ends (hStep : (loamChan s channel.val).step ≠ 0) : doTrainingStepDone channel s =
    channelFree (updLoamChan s channel.val fun c => { c with
      step := 0, tempAtCenter := if c.step = 3 then c.temps else c.tempAtCenter }) channel.val := if_neg hStep

/-- A segment that is not the last leaves the retraining under way, its traffic starting now. -/
theorem doRetrainSegmentEnd_notLast (hSegment : (loamChan s channel.val).segment = true) (hPll : (loamChan s channel.val).heldByPll = false)
    (hFree : channelFree (updLoamChan s channel.val fun c => { c with
      segment := false, segmentAt := s.devTime + 500000, heldByPll := false, retrain := true }) channel.val = u)
    (hChange : u.lmc.change = none) : doRetrainSegmentEnd channel false s = u := by
  simp only [doRetrainSegmentEnd, hSegment, hPll, Bool.not_true, Bool.not_false, Bool.and_true, Bool.or_self, Bool.false_eq_true, if_false,
    hFree, hChange]

/-! ### Parity errors of commands (R243) -/

/-- The requests among these that parity errors affect are issued again. -/
def reissued (affected : List Nat) (q : List LmcReq) : List LmcReq :=
  q.map fun r => if affected.contains r.id then { r with issued := false } else r

section Parity
variable {affected : List Nat}
  (hAgain : setFlag { s with
    lmc.queues := supd [] (supd [] s.lmc.queues (channel.val * 2) (reissued affected)) (channel.val * 2 + 1) (reissued affected) }
    (lmcField Reg.LMC_CH_ERR.ca_par channel.val) = u)
include hAgain

/-- What an error does is chosen by how many there are within 1 ms, this one among them. -/
theorem doCaParityError_eq {times : List Nat}
    (hTimes : (loamChan s channel.val).caErrors.filter (fun t => s.devTime < t + 1000000) = times) : doCaParityError channel affected s =
      if 3 ≤ times.length + 1 then
        startDue (askRetrain (updLoamChan u channel.val fun c => { c with caErrors := [] }) channel.val true) channel.val
      else updLoamChan u channel.val fun c => { c with caErrors := s.devTime :: times } := by
  subst hAgain hTimes
  rfl

theorem doCaParityError_first (hNone : (loamChan s channel.val).caErrors = []) :
    doCaParityError channel affected s = updLoamChan u channel.val fun c => { c with caErrors := [s.devTime] } :=
  doCaParityError_eq hAgain (times := []) (by rw [hNone, List.filter_nil])

theorem doCaParityError_third {t1 t2 : Nat} (hTwo : (loamChan s channel.val).caErrors = [t1, t2]) (h1 : s.devTime < t1 + 1000000)
    (h2 : s.devTime < t2 + 1000000) : doCaParityError channel affected s =
      startDue (askRetrain (updLoamChan u channel.val fun c => { c with caErrors := [] }) channel.val true) channel.val := by
  have hTimes : (loamChan s channel.val).caErrors.filter (fun t => s.devTime < t + 1000000) = [t1, t2] := by
    simp only [hTwo, List.filter_cons, h1, h2, decide_true, if_true, List.filter_nil]
  exact doCaParityError_eq hAgain hTimes

end Parity

/-! ### Self-refresh (R248) -/

theorem doSelfRefreshIdle_enters (hIdle : getF s Reg.LMC_SR_CFG.idle_us ≠ 0) (hQuiet : quiet s channel.val = true)
    (hServes : loamState s channel.val = 1) :
    doSelfRefreshIdle channel s = closeRows (setLoamState s channel.val 3) channel.val := by
  simp only [doSelfRefreshIdle, hIdle, hQuiet, hServes, decide_false, Bool.not_true, Bool.or_self, Bool.false_eq_true, if_false, if_true]

/-! ### Speed changes (R244 to R247) -/

section Request
variable {who : Accessor} {value : Word} (hMgr : isManager s who = true)
include hMgr

theorem doSpeedChange_starts (hHas : (speedsOf s).contains (wr value Reg.LMC_SPEED_CTL.target) = true)
    (hChange : wr value Reg.LMC_SPEED_CTL.change = 1) : doSpeedChange who value s =
      startChange (setF s Reg.LMC_SPEED_CTL.target (wr value Reg.LMC_SPEED_CTL.target)) (wr value Reg.LMC_SPEED_CTL.target) := by
  simp only [doSpeedChange, setupWrite_of_isManager hMgr, hHas, hChange, if_true]

theorem doSpeedChange_refused (hNot : (speedsOf s).contains (wr value Reg.LMC_SPEED_CTL.target) = false) :
    doSpeedChange who value s = setFlag s Reg.LMC_SPEED_STS.refused := by
  simp only [doSpeedChange, setupWrite_of_isManager hMgr, hNot, Bool.false_eq_true, if_false]

end Request

section Rows
variable {x : SpeedChange} (hChange : s.lmc.change = some x)
include hChange

section InTurn
variable (hTurn : x.channel ≠ 16)
include hTurn

theorem doSpeedChangeStepDone_nextRow (hBegun : 1 ≤ x.step) (hMore : x.step < 5) :
    doSpeedChangeStepDone false s = { s with lmc.change := some { x with step := x.step + 1 } } := by
  simp only [doSpeedChangeStepDone, hChange, hTurn, hMore, Nat.ne_of_gt hBegun, decide_false, Bool.or_self, Bool.false_and, Bool.false_eq_true,
    if_false, if_true]

theorem doSpeedChangeStepDone_serves (hLast : 5 ≤ x.step) : doSpeedChangeStepDone false s = finishChannel s x := by
  have hBegun : x.step ≠ 0 := by omega
  simp only [doSpeedChangeStepDone, hChange, hTurn, hBegun, Nat.not_lt.2 hLast, decide_false, Bool.or_self, Bool.false_and, Bool.false_eq_true,
    if_false]

theorem doSpeedChangeStepDone_failed (hTrains : 3 ≤ x.step) : doSpeedChangeStepDone true s = changeFails s x := by
  have hBegun : x.step ≠ 0 := by omega
  simp only [doSpeedChangeStepDone, hChange, hTurn, hBegun, hTrains, decide_false, decide_true, Bool.or_self, Bool.and_self, Bool.false_eq_true,
    if_false, if_true]

end InTurn

/-- The channel whose turn has come begins its change at once: what stood in the way is discarded, counted and due again. -/
theorem doTrainingStepAbort_aborts {initial : Bool} (hTurn : x.channel = channel.val) (hWaits : x.step = 0)
    (hIn : inStep s channel.val = true) (hInitial : decide (loamState s channel.val = 0) = initial)
    (hRuns : initial = true ∨ (loamChan s channel.val).step ≠ 0) : doTrainingStepAbort channel s =
      beginChange (incF (updLoamChan s channel.val fun c => { c with
        step := 0, segment := false, zqDue := c.zqDue || c.step = 1, oscDue := if c.step = 2 then some 0 else c.oscDue
        centerDue := c.centerDue || c.step = 3, again := initial }) Reg.LMC_SPEED_STS.aborted_steps) := by
  have hCounts : (initial || decide ((loamChan s channel.val).step ≠ 0) || (loamChan s channel.val).segment) = true := by
    rcases hRuns with h | h <;> simp [h]
  simp only [doTrainingStepAbort, hChange, hTurn, hWaits, hIn, hInitial, hCounts, ne_eq, not_true, decide_false, Bool.not_true, Bool.or_self,
    Bool.false_eq_true, if_false, if_true]

end Rows

theorem changeFails_lower {x : SpeedChange} {v : Nat} (hLower : lowerSpeed s x.trial = some v) : changeFails s x =
    { raise (setFlag s (lmcField Reg.LMC_CH_ERR.fallback x.channel)) (loamSource x.channel) .trainFail 0xFFF [x.channel, v] with
      lmc.change := some { x with trial := v, step := 3, fell := true } } := by
  simp only [changeFails, hLower]

/-! ### The end of initial training (R222, R240, R246, R251, R556) -/

section InitialTraining
variable {results : List (Option (Fin 8))} {p : LoamPopulation} {rows : List Nat}

theorem doLoamTrainingDone_over (ok : Bool) (h : s.glb.loamReady = true ∨ stage s = stHalted) :
    doLoamTrainingDone results p ok rows s = s := by
  have hOver : (s.glb.loamReady || decide (stage s = stHalted)) = true := by simpa only [Bool.or_eq_true, decide_eq_true_eq] using h
  simp only [doLoamTrainingDone, hOver, if_true]

section Runs
variable (hFirst : s.glb.loamReady = false) (hRuns : stage s ≠ stHalted)
include hFirst hRuns

theorem doLoamTrainingDone_notAllowed {ok : Bool} (hBad : (!ok || !loamPopOk p) = true) :
    doLoamTrainingDone results p ok rows s = haltStart (setFlag s Reg.LMC_POP.pop_err) 4 := by
  simp only [doLoamTrainingDone, hFirst, hRuns, hBad, decide_false, Bool.or_self, Bool.false_eq_true, if_false, if_true]

section Allowed
variable (hPop : loamPopOk p = true)
  (hTrained : (let v := takePopulation s p
    let v := if v.lmc.held then { v with lmc.held := false } else hardRepairs { v with lmc.lines := [], lmc.retired := [] } rows
    waitingChange (((List.range results.length).zip results).foldl (fun s e => loamTrained s e.1 e.2) v)) = u)
include hPop hTrained

theorem doLoamTrainingDone_allowed : doLoamTrainingDone results p true rows s =
    if results.any (·.isNone) then haltStart (fenceSelf u []) 4
    else
      let v := fillPools { u with glb.loamReady := true }
      trainingStep { v with plots.poolsMib := regionMib v } := by
  subst hTrained
  simp only [doLoamTrainingDone, hFirst, hRuns, hPop, decide_false, Bool.not_true, Bool.or_self, Bool.false_eq_true, if_false]

theorem doLoamTrainingDone_trained (hAll : results.any (·.isNone) = false) : doLoamTrainingDone results p true rows s =
    let v := fillPools { u with glb.loamReady := true }
    trainingStep { v with plots.poolsMib := regionMib v } := by
  simp only [doLoamTrainingDone_allowed hFirst hRuns hPop hTrained, hAll, Bool.false_eq_true, if_false]

theorem doLoamTrainingDone_noSpeed (hNone : results.any (·.isNone) = true) :
    doLoamTrainingDone results p true rows s = haltStart (fenceSelf u []) 4 := by
  simp only [doLoamTrainingDone_allowed hFirst hRuns hPop hTrained, hNone, if_true]

end Allowed

end Runs

end InitialTraining

/-! ### The end of a post-package repair (R250 to R252) -/

section Repair

theorem doSpprDone_none (ok : Bool) (hNone : (s.lmc.spprs.find? fun x => x.channel = channel.val && !x.buffers.isEmpty) = none) :
    doSpprDone channel ok s = s := by
  simp only [doSpprDone, hNone]

variable {x : Sppr} {a b : Nat}
  (hFind : (s.lmc.spprs.find? fun x => x.channel = channel.val && !x.buffers.isEmpty) = some x) (hBuffers : x.buffers = [a, b])
  (hBack : (let o : Owner := { block := 5, mid := Fin.ofNat 4096 (0x310 + x.channel / 4) }
    let v := bufPut (bufPut { s with lmc.spprs := s.lmc.spprs.erase x } a o) b o
    { v with diu.ceLog := v.diu.ceLog.map fun e => e.filter fun e =>
      !(e.hard && subchannelOf e.lpa * 512 + bankOf v e.lpa = x.bank && rowOf v e.lpa = x.row) }) = u)
include hFind hBuffers hBack

theorem doSpprDone_repaired : doSpprDone channel true s = incF { u with
    lmc.repairs := u.lmc.repairs ++ (x.devices.map fun d => (x.bank, x.row, d)).filter fun r => !u.lmc.repairs.contains r }
    Reg.LMC_PPR_STS.sppr_done := by
  subst hBack
  simp only [doSpprDone, hFind, hBuffers, List.foldl_cons, List.foldl_nil, if_true]

theorem doSpprDone_exhausted : doSpprDone channel false s =
    retireRow (adviseReplace (setFlag u (lmcField Reg.LMC_CH_ERR.ppr_exhausted channel.val)) 0) x.frame := by
  subst hBack
  simp only [doSpprDone, hFind, hBuffers, List.foldl_cons, List.foldl_nil, Bool.false_eq_true, if_false]

end Repair

end LoamTraining

/-- Settles O26: what falls due and what ends by the channel's state, a speed change by the row it stands at, the initial training by its
population and results, a repair by what the DRAM answers. -/
theorem loamTrainingAndSpeed : Obligations.LoamTrainingAndSpeed := by
  refine ⟨⟨exec_zqCalDue, exec_oscReadDue, exec_centeringCheckDue, fun s channel hStep => ?stepEnds,
      fun s u channel hSegment hPll hFree hChange => ?segmentEnds,
      fun s u channel affected hAgain => ⟨fun hNone => ?firstError, fun t1 t2 hTwo h1 h2 => ?thirdError⟩,
      fun s channel hIdle hQuiet hServes => ?selfRefresh⟩,
    ⟨fun s who value hMgr hHas hChange => ?asked, fun s who value hMgr hNot => ?refused,
      fun s x hChange hBegun hMore hTurn => ?nextRow, fun s x hChange hLast hTurn => ?lastRow,
      fun s x v hChange hTrains hTurn hLower => ?lower,
      fun s channel x hChange hTurn hWaits => ⟨fun hState hStep => ?abortsPeriodic, fun hState => ?abortsInitial⟩⟩,
    ⟨fun s results p rows hFirst hRuns => ⟨fun hPop => ?badPopulation, ?unreadable⟩,
      fun s u results p rows hFirst hRuns hPop hTrained => ⟨fun hAll => ?trained, fun hNone => ?noSpeed⟩,
      fun s results p ok rows h => ?alreadyOver,
      fun s u channel x a b hFind hBuffers hBack => ⟨?repaired, ?exhausted⟩, fun s channel ok hNone => ?noRepair⟩⟩
  case stepEnds => rw [exec_trainingStepDone, doTrainingStepDone_ends hStep]
  case segmentEnds => rw [exec_retrainSegmentEnd, doRetrainSegmentEnd_notLast hSegment hPll hFree hChange]
  case firstError => rw [exec_caParityError, doCaParityError_first hAgain hNone]
  case thirdError => rw [exec_caParityError, doCaParityError_third hAgain hTwo h1 h2]
  case selfRefresh => rw [exec_selfRefreshIdle, doSelfRefreshIdle_enters hIdle hQuiet hServes]
  case asked => rw [exec_speedChange, doSpeedChange_starts hMgr hHas hChange]
  case refused => rw [exec_speedChange, doSpeedChange_refused hMgr hNot]
  case nextRow => rw [exec_speedChangeStepDone, doSpeedChangeStepDone_nextRow hChange hTurn hBegun hMore]
  case lastRow => rw [exec_speedChangeStepDone, doSpeedChangeStepDone_serves hChange hTurn hLast]
  case lower => rw [exec_speedChangeStepDone, doSpeedChangeStepDone_failed hChange hTurn hTrains, changeFails_lower hLower]
  case abortsPeriodic =>
    have hPeriodic : (loamChan s channel.val).step ≠ 0 := by simp [hStep]
    rw [exec_trainingStepAbort, doTrainingStepAbort_aborts (initial := false) hChange hTurn hWaits (by simp [inStep, hState])
      (by simp [hState]) (.inr hPeriodic)]
  case abortsInitial =>
    rw [exec_trainingStepAbort, doTrainingStepAbort_aborts hChange hTurn hWaits (by simp [inStep, hState]) (decide_eq_true hState)
      (.inl rfl)]
  case badPopulation => rw [exec_loamTrainingDone, doLoamTrainingDone_notAllowed hFirst hRuns (by simp [hPop])]
  case unreadable => rw [exec_loamTrainingDone, doLoamTrainingDone_notAllowed hFirst hRuns rfl]
  case trained => rw [exec_loamTrainingDone, doLoamTrainingDone_trained hFirst hRuns hPop hTrained hAll]
  case noSpeed => rw [exec_loamTrainingDone, doLoamTrainingDone_noSpeed hFirst hRuns hPop hTrained hNone]
  case alreadyOver => rw [exec_loamTrainingDone, doLoamTrainingDone_over ok h]
  case repaired => rw [exec_spprDone, doSpprDone_repaired hFind hBuffers hBack]
  case exhausted => rw [exec_spprDone, doSpprDone_exhausted hFind hBuffers hBack]
  case noRepair => rw [exec_spprDone, doSpprDone_none ok hNone]

end Sys2Proof.Machine
end

section
/-! PROOFS. Tier movement: each command as its effect, one rule per outcome, what a die's sequencer takes next, and the statement about
them. -/

namespace Sys2Proof.Machine

section TierMovement
variable {s u : State}

/-! ### The commands as their effects -/

section Commands
variable (s) (clod : ClodNo) (die : Fin 1536)

theorem exec_heatDecay : exec .heatDecay s = .next (settled s (doHeatDecay s)) := rfl

theorem exec_overlayRecordFill (overlay : Fin (2 ^ 21)) (crcBad : Bool) :
    exec (.overlayRecordFill overlay crcBad) s = .next (settled s (doOverlayRecordFill overlay crcBad s)) := rfl

theorem exec_liftCommit : exec (.liftCommit clod) s = .next (settled s (doLiftCommit clod s)) := rfl

theorem exec_liftHoldExpiry : exec (.liftHoldExpiry clod) s = .next (settled s (doLiftHoldExpiry clod s)) := rfl

theorem exec_evictionStart : exec .evictionStart s = .next (settled s (doEvictionStart s)) := rfl

theorem exec_frameRelease (frame : Nat) : exec (.frameRelease frame) s = .next (settled s (doFrameRelease frame s)) := rfl

theorem exec_settleGrant : exec .settleGrant s = .next (settled s (doSettleGrant s)) := rfl

theorem exec_unitFillTimeout (unit : Nat) : exec (.unitFillTimeout unit) s = .next (settled s (doUnitFillTimeout unit s)) := rfl

theorem exec_settleAgeTrigger : exec (.settleAgeTrigger clod) s = .next (settled s (doSettleAgeTrigger clod s)) := rfl

theorem exec_governorMinute : exec .governorMinute s = .next (settled s (doGovernorMinute s)) := rfl

theorem exec_bfcSequencerIssue : exec (.bfcSequencerIssue die) s = .next (settled s (doBfcSequencerIssue die s)) := rfl

theorem exec_nandZqRecal (channel : Fin 96) : exec (.nandZqRecal channel) s = .next (settled s (doNandZqRecal channel s)) := rfl

end Commands

/-! ### Lifts (R253, R310, R311, R326) -/

section Lifts
variable {clod : ClodNo} {l : Lift}

section Commit
variable (hLift : (s.tmg.lifts.find? fun l => l.clod = clod.val) = some l) (hFrame : frameHeld s l.frame = false)
  (hClod : clodHeld s l.clod = false)
include hLift hFrame hClod

theorem doLiftCommit_grains (hOwn : l.image = none) (hAll : l.got = BitVec.allOnes 16) (hGood : (entryOf s l.clod).crcBad = false) :
    doLiftCommit clod s = holdLift (incF (commitLift
      { s with tmg.lifts := s.tmg.lifts.filter fun x => x.clod ≠ l.clod } l) Reg.TMG_LIFT_CNT.lifts) l := by
  simp only [doLiftCommit, hLift, hFrame, hClod, hOwn, hAll, hGood, ne_eq, not_true, decide_false, Bool.or_self, Bool.false_eq_true, if_false]

theorem doLiftCommit_fetched {im : ClodImage} (hFetched : l.image = some im) : doLiftCommit clod s = holdLift (incF (commitFetched
    (engineFrame { s with tmg.lifts := s.tmg.lifts.filter fun x => x.clod ≠ l.clod } l.engine true l.frame 0 32) l.clod l.frame im)
    Reg.TMG_LIFT_CNT.lifts) l := by
  simp only [doLiftCommit, hLift, hFrame, hClod, hFetched, Bool.or_self, Bool.false_eq_true, if_false]

end Commit

theorem doLiftHoldExpiry_lapses (hNone : s.tmg.evictAfter = []) :
    doLiftHoldExpiry clod s = { s with tmg.liftHolds := s.tmg.liftHolds.erase clod.val } := by
  simp only [doLiftHoldExpiry, hNone, List.erase_nil, List.contains_nil, Bool.and_false, Bool.false_eq_true, if_false]

end Lifts

/-! ### Evictions (R312, R324) -/

section Evictions
variable {clod : Nat} {e : Entry}

theorem doEvictionStart_rests (hRests : evicting s = false) : doEvictionStart s = s := by
  simp only [doEvictionStart, hRests, Bool.not_false, if_true]

variable (hEvicts : evicting s = true)
include hEvicts

theorem doEvictionStart_victim (hVictim : freshVictim s = some (clod, e)) :
    doEvictionStart s = if e.dirty then queueSettle s clod 3 .eviction else evictClod s clod := by
  simp only [doEvictionStart, hEvicts, hVictim, Bool.not_true, Bool.false_eq_true, if_false]

theorem doEvictionStart_lifted (hNone : freshVictim s = none) (hLifted : liftVictim s = some (clod, e)) : doEvictionStart s =
    { s with tmg.lifts := s.tmg.lifts.map fun l => if l.clod = clod then { l with evict := true } else l } := by
  simp only [doEvictionStart, hEvicts, hNone, hLifted, Bool.not_true, Bool.false_eq_true, if_false]

end Evictions

/-! ### Frames and overlay records (R46, R303, R313) -/

section Frames
variable {frame : Nat} {d : Nat × List Nat} (hDrains : (s.tmg.draining.find? fun d => d.1 = frame) = some d)
include hDrains

theorem doFrameRelease_waits (hReads : (d.2.any fun id => (findRdRec s id).isSome) = true) : doFrameRelease frame s = s := by
  simp only [doFrameRelease, hDrains, hReads, if_true]

section Ended
variable (hEnded : (d.2.any fun id => (findRdRec s id).isSome) = false) (hServes : s.lmc.retired.contains frame = false)
  (hLeft : { s with tmg.draining := s.tmg.draining.erase d } = u)
include hEnded hServes hLeft

/-- Where a frame lies is read from registers and plots, which its leaving the drain does not touch. -/
theorem doFrameRelease_eq : doFrameRelease frame s = resourceCheck (
    if overlayFrame s 0 ≤ frame then
      { setOverlay u (frame - overlayFrame s 0) { clod := 0, generation := 0, valid := 0 } with
        tmg.freedOverlays := s.tmg.freedOverlays ++ [frame - overlayFrame s 0] }
    else { u with tmg.freedFrames := s.tmg.freedFrames ++ [frame] }) := by
  subst hLeft
  have hRegion : overlayFrame { s with tmg.draining := s.tmg.draining.erase d } 0 = overlayFrame s 0 := rfl
  simp only [doFrameRelease, hDrains, hEnded, hServes, hRegion, Bool.false_eq_true, if_false]

theorem doFrameRelease_frame (hBelow : frame < overlayFrame s 0) :
    doFrameRelease frame s = resourceCheck { u with tmg.freedFrames := s.tmg.freedFrames ++ [frame] } := by
  rw [doFrameRelease_eq hDrains hEnded hServes hLeft, if_neg (Nat.not_le.2 hBelow)]

theorem doFrameRelease_overlay (hAbove : overlayFrame s 0 ≤ frame) : doFrameRelease frame s = resourceCheck
    { setOverlay u (frame - overlayFrame s 0) { clod := 0, generation := 0, valid := 0 } with
      tmg.freedOverlays := s.tmg.freedOverlays ++ [frame - overlayFrame s 0] } := by
  rw [doFrameRelease_eq hDrains hEnded hServes hLeft, if_pos hAbove]

end Ended

end Frames

section Overlays
variable {overlay : Fin (2 ^ 21)} (hFills : s.tmg.overlayFills.contains overlay.val = true)
  (hRead : { s with tmg.overlayFills := s.tmg.overlayFills.erase overlay.val } = u)
include hFills hRead

theorem doOverlayRecordFill_good : doOverlayRecordFill overlay false s = overlayInstall u overlay.val := by
  subst hRead
  simp only [doOverlayRecordFill, hFills, Bool.not_true, Bool.not_false, Bool.false_eq_true, if_false, if_true]

theorem doOverlayRecordFill_bad : doOverlayRecordFill overlay true s =
    loseEntry (setFlag (setOverlay u overlay.val { overlayOf u overlay.val with crcBad := true }) Reg.TMG_MIG_ERR.overlay_crc)
      (overlayOf u overlay.val).clod := by
  subst hRead
  simp only [doOverlayRecordFill, hFills, Bool.not_true, Bool.false_eq_true, if_false]

end Overlays

/-! ### What the governor does with an offer (R321, R324) -/

section Offers
variable {q : SettleReq}

theorem updQueued_only (hOnly : u.tmg.queue = [q]) (f : SettleReq → SettleReq) :
    updQueued u q.clod f = { u with tmg.queue := [f q] } := by
  simp only [updQueued, hOnly, List.map_cons, List.map_nil, if_true]

theorem offer_unwanted (hUnwanted : stillWanted u q = false) : offer u q = dequeue u q.clod := by
  simp only [offer, hUnwanted, Bool.not_false, if_true]

section Wanted
variable (hWanted : stillWanted u q = true)
include hWanted

theorem offer_lifted (hLifts : (u.tmg.lifts.any fun l => l.clod = q.clod) = true) : offer u q = meetLift u q := by
  simp only [offer, hWanted, hLifts, Bool.not_true, Bool.false_eq_true, if_false, if_true]

variable (hNoLift : (u.tmg.lifts.any fun l => l.clod = q.clod) = false) (hFirst : q.refused = false) (hRoom : burstRoom u = true)
include hNoLift hFirst hRoom

theorem offer_granted {t : State} (hGranted : granted u q.cls = true) (hOwn : q.reason ≠ .override_) (hStarts : startSettle u q = some t) :
    offer u q = countGrant (dequeue t q.clod) q.cls := by
  simp only [offer, hWanted, hNoLift, hFirst, hRoom, hGranted, hStarts, hOwn, Bool.not_true, Bool.or_self, Bool.false_eq_true, if_false]

theorem offer_refused (hRefused : granted u q.cls = false) :
    offer u q = countRefused (updQueued u q.clod fun x => { x with refused := true }) q.cls := by
  simp only [offer, hWanted, hNoLift, hFirst, hRoom, hRefused, Bool.not_true, Bool.not_false, Bool.or_self, Bool.false_eq_true, if_false,
    if_true]

end Wanted

theorem meetLift_dirty (hOnly : u.tmg.queue = [q]) (hFirst : q.waits = false) (hDirty : (entryOf u q.clod).dirty = true) :
    meetLift u q = { incF u Reg.TMG_RACE_CNT.settle_cancel with tmg.queue := [{ q with waits := true }] } := by
  have hCounted : (entryOf (incF u Reg.TMG_RACE_CNT.settle_cancel) q.clod).dirty = true := hDirty
  have hQueue : (incF u Reg.TMG_RACE_CNT.settle_cancel).tmg.queue = [q] := hOnly
  simp only [meetLift, hFirst, hCounted, updQueued_only hQueue, Bool.false_eq_true, if_false, if_true]

/-- A round with one request in the queue is that request's offer, over what was due before it. -/
theorem doSettleGrant_only (hDue : tillAll (queueOverlays (queueHints (queuePressure (queueRelocations s)))) = u)
    (hOnly : u.tmg.queue = [q]) : doSettleGrant s = offer u q := by
  simp only [doSettleGrant, hDue, hOnly, sortBy, insertBy, List.foldl_cons, List.foldl_nil]

end Offers

/-! ### Units that fill and clods that age (R314, R315) -/

theorem doUnitFillTimeout_starts {unit : Nat} {x : ProgUnit} (hUnit : findUnit s unit = some x)
    (hHolds : (x.slots.isEmpty && x.segments.isEmpty) = false) : doUnitFillTimeout unit s = startUnit s unit := by
  simp only [doUnitFillTimeout, hUnit, hHolds, Bool.false_eq_true, if_false]

theorem doSettleAgeTrigger_queues {clod : ClodNo} (hDirty : (entryOf s clod.val).dirty = true) :
    doSettleAgeTrigger clod s = queueSettle s clod.val 4 .age := by
  simp only [doSettleAgeTrigger, hDirty, if_true]

/-! ### A die's sequencer (R276, R277, R278, R317) -/

/-- The operation a die takes is the first of lowest rank among those that pass: from the first that passes on, the fold keeps the lower. -/
theorem nextOp_eq_minOn? (x : Die) (ok : DieOp → Bool) : nextOp x ok = (x.queue.filter ok).minOn? (rankNow x) := by
  unfold nextOp
  cases x.queue.filter ok with
  | nil => rfl
  | cons first rest =>
    refine List.foldl_hom some fun best op => ?_
    by_cases hLower : rankNow x op < rankNow x best
    · simp only [hLower, if_true, minOn, if_neg (Nat.not_le.2 hLower)]
    · simp only [hLower, if_false, minOn, if_pos (Nat.not_lt.1 hLower)]

theorem nextOp_least {x : Die} {ok : DieOp → Bool} {op : DieOp} (hNext : nextOp x ok = some op) :
    op ∈ x.queue ∧ ok op = true ∧ ∀ o ∈ x.queue, ok o = true → rankNow x op ≤ rankNow x o := by
  have hLeast : (x.queue.filter ok).minOn? (rankNow x) = some op := (nextOp_eq_minOn? x ok).symm.trans hNext
  obtain ⟨hQueued, hOk⟩ := List.mem_filter.1 (List.minOn?_mem hLeast)
  refine ⟨hQueued, hOk, fun o ho hPasses => ?_⟩
  have hBound := List.apply_get_minOn?_le_of_mem (f := rankNow x) (List.mem_filter.2 ⟨ho, hPasses⟩)
  simpa only [hLeast, Option.get_some] using hBound

theorem suspendable_bounds {op : DieOp} (h : suspendable s op = true) :
    op.kind ≠ 0 ∧ (op.kind = 1 → op.suspends < fieldOf op.cfg Reg.BFC_SUSPEND_CFG.prog_max.lo Reg.BFC_SUSPEND_CFG.prog_max.width) ∧
    (op.kind = 2 → op.suspends < fieldOf op.cfg Reg.BFC_SUSPEND_CFG.erase_max.lo Reg.BFC_SUSPEND_CFG.erase_max.width) ∧
    (op.suspends = 0 ∨
      op.startedAt + fieldOf op.cfg Reg.BFC_SUSPEND_CFG.suspend_min_us.lo Reg.BFC_SUSPEND_CFG.suspend_min_us.width * 1000 ≤ s.devTime) := by
  simp only [suspendable, Bool.and_eq_true, Bool.or_eq_true, decide_eq_true_eq] at h
  obtain ⟨⟨hKind, hMost⟩, hRested⟩ := h
  refine ⟨hKind, fun hProgram => ?_, fun hErase => ?_, hRested⟩
  · rwa [if_pos hProgram] at hMost
  · have hNotProgram : op.kind ≠ 1 := by simp [hErase]
    rwa [if_neg hNotProgram] at hMost

section Sequencer
variable {die : Fin 1536} {op r : DieOp}

theorem doBfcSequencerIssue_lost (hLost : (bchan s (die.val / 16)).lost = true) : doBfcSequencerIssue die s = s := by
  simp only [doBfcSequencerIssue, hLost, Bool.true_or, if_true]

section Answers
variable (hAnswers : (bchan s (die.val / 16)).lost = false) (hCalibrated : (bchan s (die.val / 16)).zqUntil ≤ s.devTime)
include hAnswers hCalibrated

theorem doBfcSequencerIssue_idle (hIdle : (dieAt s die.val).busy = none) (hNoneHeld : (dieAt s die.val).held = none)
    (hNext : nextOp (dieAt s die.val) (opStaged s) = some op) : doBfcSequencerIssue die s = issueOp s die.val op := by
  simp only [doBfcSequencerIssue, hAnswers, hIdle, hNoneHeld, hNext, decide_eq_false (Nat.not_lt.2 hCalibrated), Bool.or_self,
    Bool.false_eq_true, if_false]

theorem doBfcSequencerIssue_busy (hBusy : (dieAt s die.val).busy = some op) (hNoneHeld : (dieAt s die.val).held = none)
    (hRead : nextOp (dieAt s die.val) (fun o => pressing o && opStaged s o) = some r) : doBfcSequencerIssue die s =
      if suspendable s op then
        issueOp (updDie s die.val fun x => { x with held := some { op with suspends := op.suspends + 1 } }) die.val r
      else s := by
  simp only [doBfcSequencerIssue, hAnswers, hBusy, hNoneHeld, hRead, decide_eq_false (Nat.not_lt.2 hCalibrated), Bool.or_self,
    Bool.false_eq_true, if_false]

theorem doBfcSequencerIssue_resumes (hIdle : (dieAt s die.val).busy = none) (hHeld : (dieAt s die.val).held = some op)
    (hNoRead : nextOp (dieAt s die.val) (fun o => o.kind = 0 && opStaged s o) = none) : doBfcSequencerIssue die s =
      updDie s die.val fun x => { x with busy := some { op with startedAt := s.devTime }, held := none } := by
  simp only [doBfcSequencerIssue, hAnswers, hIdle, hHeld, hNoRead, decide_eq_false (Nat.not_lt.2 hCalibrated), Bool.or_self,
    Bool.false_eq_true, if_false]

end Answers

end Sequencer

/-! ### ZQ calibration (R259) -/

theorem doNandZqRecal_holds {channel : Fin 96} (hAnswers : (bchan s channel.val).lost = false)
    (hServes : getF s (chField Reg.BFC_CH_STS.state channel.val) = 1)
    (hAlone : ∀ i < 24, (bchan s (channel.val / 24 * 24 + i)).zqUntil ≤ s.devTime) :
    doNandZqRecal channel s = updChan s channel.val fun c => { c with zqUntil := s.devTime + 5000 } := by
  have hNone : ((List.range 24).any fun i => decide (s.devTime < (bchan s (bedOf channel.val * 24 + i)).zqUntil)) = false :=
    List.any_eq_false.2 fun i hi hBusy => Nat.not_lt.2 (hAlone i (List.mem_range.1 hi)) (of_decide_eq_true hBusy)
  simp only [doNandZqRecal, hAnswers, hServes, hNone, ne_eq, not_true, decide_false, Bool.or_self, Bool.false_eq_true, if_false]

end TierMovement

/-- Settles O22: lifts, evictions and frames by what holds or wants them, a round of the governor by the one offer it comes to, and a die's
sequencer by what is busy, held and queued. -/
theorem tierMovement : Obligations.TierMovement := by
  refine ⟨⟨exec_heatDecay,
      fun s clod l hLift hFrame hClod => ⟨fun hOwn hAll hGood => ?grains, fun im hFetched => ?fetched⟩,
      fun s clod hNone => ?holdLapses, fun s clod e hEvicts hVictim => ?victim, fun s clod e hEvicts hNone hLifted => ?lifted,
      fun s hRests => ?rests,
      fun s frame d hDrains hEnded hServes => ⟨fun hBelow => ?freeFrame, fun hAbove => ?freeOverlay⟩,
      fun s frame d hDrains hReads => ?drains, fun s overlay hFills => ⟨?recordGood, ?recordBad⟩⟩,
    ⟨fun s u q hDue hOnly hWanted hNoLift hFirst hRoom =>
        ⟨fun hGranted hOwn t hStarts => ?granted, fun hRefused => ?refused⟩,
      fun s u q hDue hOnly => ⟨fun hUnwanted => ?unwanted, fun hWanted hLifts hFirst hDirty => ?waitsForLift⟩,
      fun s unit u hUnit hHolds => ?unitStarts, fun s clod hDirty => ?aged, exec_governorMinute⟩,
    ⟨fun s die op hAnswers hCalibrated hIdle hNoneHeld hNext => ?issues,
      fun s die op r hAnswers hCalibrated hBusy hNoneHeld hRead => ⟨fun hMay => ?suspends, fun hMayNot => ?goesOn⟩,
      fun s die op hAnswers hCalibrated hIdle hHeld hNoRead => ?resumes, fun s die hLost => ?dieLost,
      fun s op => suspendable_bounds, fun x ok op => nextOp_least, fun s channel hAnswers hServes hAlone => ?calibrates⟩⟩
  case grains => rw [exec_liftCommit, doLiftCommit_grains hLift hFrame hClod hOwn hAll hGood]
  case fetched => rw [exec_liftCommit, doLiftCommit_fetched hLift hFrame hClod hFetched]
  case holdLapses => rw [exec_liftHoldExpiry, doLiftHoldExpiry_lapses hNone]
  case victim => rw [exec_evictionStart, doEvictionStart_victim hEvicts hVictim]
  case lifted => rw [exec_evictionStart, doEvictionStart_lifted hEvicts hNone hLifted]
  case rests => rw [exec_evictionStart, doEvictionStart_rests hRests]
  case freeFrame => rw [exec_frameRelease, doFrameRelease_frame hDrains hEnded hServes rfl hBelow]
  case freeOverlay => rw [exec_frameRelease, doFrameRelease_overlay hDrains hEnded hServes rfl hAbove]
  case drains => rw [exec_frameRelease, doFrameRelease_waits hDrains hReads]
  case recordGood => rw [exec_overlayRecordFill, doOverlayRecordFill_good hFills rfl]
  case recordBad => rw [exec_overlayRecordFill, doOverlayRecordFill_bad hFills rfl]
  case granted =>
    rw [exec_settleGrant, doSettleGrant_only hDue hOnly, offer_granted hWanted hNoLift hFirst hRoom hGranted hOwn hStarts]
  case refused =>
    rw [exec_settleGrant, doSettleGrant_only hDue hOnly, offer_refused hWanted hNoLift hFirst hRoom hRefused, updQueued_only hOnly]
  case unwanted => rw [exec_settleGrant, doSettleGrant_only hDue hOnly, offer_unwanted hUnwanted]
  case waitsForLift =>
    rw [exec_settleGrant, doSettleGrant_only hDue hOnly, offer_lifted hWanted hLifts, meetLift_dirty hOnly hFirst hDirty]
  case unitStarts => rw [exec_unitFillTimeout, doUnitFillTimeout_starts hUnit hHolds]
  case aged => rw [exec_settleAgeTrigger, doSettleAgeTrigger_queues hDirty]
  case issues => rw [exec_bfcSequencerIssue, doBfcSequencerIssue_idle hAnswers hCalibrated hIdle hNoneHeld hNext]
  case suspends => rw [exec_bfcSequencerIssue, doBfcSequencerIssue_busy hAnswers hCalibrated hBusy hNoneHeld hRead, if_pos hMay]
  case goesOn =>
    rw [exec_bfcSequencerIssue, doBfcSequencerIssue_busy hAnswers hCalibrated hBusy hNoneHeld hRead, hMayNot, if_neg Bool.false_ne_true]
  case resumes => rw [exec_bfcSequencerIssue, doBfcSequencerIssue_resumes hAnswers hCalibrated hIdle hHeld hNoRead]
  case dieLost => rw [exec_bfcSequencerIssue, doBfcSequencerIssue_lost hLost]
  case calibrates => rw [exec_nandZqRecal, doNandZqRecal_holds hAnswers hServes hAlone]

end Sys2Proof.Machine
end

section
/-! PROOFS. Device time through a repair of a Loam line (R20, R418): what each operation that a repair may come to leaves of it. -/

namespace Sys2Proof.Machine

/-! ### Operations that only put fields, and folds of them -/

section Fields
variable (s : State)

@[simp] theorem updRead_devTime (id : Nat) (f : GrainRead → GrainRead) : (updRead s id f).devTime = s.devTime := rfl
@[simp] theorem setLoamState_devTime (ch n : Nat) : (setLoamState s ch n).devTime = s.devTime := rfl
@[simp] theorem staleScrubs_devTime (lpa : Nat) : (staleScrubs s lpa).devTime = s.devTime := rfl
@[simp] theorem setLoam_devTime (lpa : Nat) (v : LineVal) : (setLoam s lpa v).devTime = s.devTime := rfl
@[simp] theorem zeroFrame_devTime (frame : Nat) : (zeroFrame s frame).devTime = s.devTime := rfl
@[simp] theorem updBank_devTime (key : Nat) (f : Bank → Bank) : (updBank s key f).devTime = s.devTime := rfl
@[simp] theorem issueRfm_devTime (key : Nat) : (issueRfm s key).devTime = s.devTime := rfl
@[simp] theorem ceUpd_devTime (lpa : Nat) (f : CeEntry → CeEntry) : (ceUpd s lpa f).devTime = s.devTime := rfl
@[simp] theorem parLast_devTime (set way slice : Nat) (dirty tag dir : Bool) : (parLast s set way slice dirty tag dir).devTime = s.devTime := by
  simp only [parLast, putFlag_devTime, setF_devTime]
@[simp] theorem touchWay_devTime (line way : Nat) : (touchWay s line way).devTime = s.devTime := rfl
@[simp] theorem setWay_devTime (set way : Nat) (w : FcWay) : (setWay s set way w).devTime = s.devTime := rfl
@[simp] theorem dropVictim_devTime (line : Nat) : (dropVictim s line).devTime = s.devTime := rfl
@[simp] theorem updVictim_devTime (line : Nat) (f : Victim → Victim) : (updVictim s line f).devTime = s.devTime := rfl
@[simp] theorem setOverlay_devTime (i : Nat) (o : Overlay) : (setOverlay s i o).devTime = s.devTime := rfl
@[simp] theorem setEntry_devTime (clod : Nat) (e : Entry) : (setEntry s clod e).devTime = s.devTime := rfl
@[simp] theorem clearPoison_devTime (line : Nat) : (clearPoison s line).devTime = s.devTime := rfl
@[simp] theorem chargeLine_devTime (line : Nat) : (chargeLine s line).devTime = s.devTime := rfl
@[simp] theorem updRdRec_devTime (id : Nat) (f : ReadRec → ReadRec) : (updRdRec s id f).devTime = s.devTime := rfl
@[simp] theorem updWrite_devTime (id : Nat) (f : WriteRec → WriteRec) : (updWrite s id f).devTime = s.devTime := rfl
@[simp] theorem serveGrain_devTime (tag grain : Nat) (failed : Bool) : (serveGrain s tag grain failed).devTime = s.devTime := rfl

@[simp] theorem adviseReplace_devTime (bit : Nat) : (adviseReplace s bit).devTime = s.devTime := (onlyEvents_adviseReplace s bit).devTime

end Fields

theorem foldl_devTime {β : Type} {f : State → β → State} (h : ∀ s b, (f s b).devTime = s.devTime) (l : List β) (s : State) :
    (l.foldl f s).devTime = s.devTime := by
  induction l generalizing s with
  | nil => rfl
  | cons b l ih => exact (ih (f s b)).trans (h s b)

section Repairs
variable (s : State)

/-! ### Frames to the partner and poison (R288, R423) -/

@[simp] theorem sendFrame_devTime (ftype seq plot : Nat) (body : TwinBody) : (sendFrame s ftype seq plot body).devTime = s.devTime := by
  simp only [sendFrame, putFrame, apply_ite State.devTime, emit_devTime, ite_self]

@[simp] theorem fetchClod_devTime (clod : Nat) : (fetchClod s clod).devTime = s.devTime := by
  simp only [fetchClod, apply_ite State.devTime, sendFrame_devTime, ite_self]

@[simp] theorem enterPoison_devTime (line : Nat) (source : Fin 8) (base : Bool) : (enterPoison s line source base).devTime = s.devTime := by
  simp only [enterPoison, apply_ite State.devTime, adviseReplace_devTime, setFlag_devTime, raise_devTime, incF_devTime, ite_self]

@[simp] theorem applyPoison_devTime (line : Nat) (poison : Bool) (source : Fin 8) : (applyPoison s line poison source).devTime = s.devTime := by
  unfold applyPoison
  split <;> simp only [apply_ite State.devTime, enterPoison_devTime, clearPoison_devTime, ite_self]

/-! ### Loam requests and rows (R227, R232 to R236) -/

@[simp] theorem wakeChan_devTime (ch : Nat) : (wakeChan s ch).devTime = s.devTime := by
  simp only [wakeChan, apply_ite State.devTime, setLoamState_devTime, ite_self]

@[simp] theorem lmcRequest_devTime (mid : Nat) (write : Bool) (lpa : Nat) : (lmcRequest s mid write lpa).devTime = s.devTime := by
  simp only [lmcRequest, apply_ite State.devTime, incF_devTime, staleScrubs_devTime, wakeChan_devTime, ite_self]

@[simp] theorem reachLimit_devTime (key : Nat) (rd : Word) : (reachLimit s key rd).devTime = s.devTime := by
  unfold reachLimit
  dsimp only
  split <;>
    simp only [apply_ite State.devTime, issueRfm_devTime, setFlag_devTime, raise_devTime, incF_devTime, setF_devTime, ite_self]

@[simp] theorem activate_devTime (key mid : Nat) (rd : Word) : (activate s key mid rd).devTime = s.devTime := by
  unfold activate
  dsimp only
  split <;> simp only [reachLimit_devTime, setF_devTime, updBank_devTime]

@[simp] theorem serveRow_devTime (key row mid n : Nat) (page rd : Word) : (serveRow s key row mid n page rd).devTime = s.devTime := by
  simp only [serveRow, apply_ite State.devTime, updBank_devTime, incFiBy_devTime, activate_devTime, incF_devTime, ite_self]

@[simp] theorem engineRow_devTime (mid : Nat) (write : Bool) (lpa n : Nat) : (engineRow s mid write lpa n).devTime = s.devTime := by
  simp only [engineRow, apply_ite State.devTime, incFiBy_devTime, serveRow_devTime, issueRfm_devTime, wakeChan_devTime, ite_self]

@[simp] theorem engineFrame_devTime (mid : Nat) (write : Bool) (frame first n : Nat) :
    (engineFrame s mid write frame first n).devTime = s.devTime := foldl_devTime (fun _ _ => engineRow_devTime ..) _ s

/-! ### Corrections (R413, R415, R416) -/

@[simp] theorem ceEnter_devTime (lpa device : Nat) : (ceEnter s lpa device).devTime = s.devTime := by
  unfold ceEnter
  dsimp only
  split
  · rfl
  split
  · rfl
  split <;> simp only [raise_devTime, setFlag_devTime]

@[simp] theorem startSppr_devTime (lpa device : Nat) : (startSppr s lpa device).devTime = s.devTime := by
  simp only [startSppr, apply_ite State.devTime, ite_self]

@[simp] theorem markHard_devTime (lpa device : Nat) : (markHard s lpa device).devTime = s.devTime := by
  simp only [markHard, apply_ite State.devTime, startSppr_devTime, adviseReplace_devTime, raise_devTime, setFlag_devTime, incF_devTime,
    ceUpd_devTime, ite_self]

@[simp] theorem logCorrection_devTime (lpa device : Nat) : (logCorrection s lpa device).devTime = s.devTime := by
  unfold logCorrection
  dsimp only
  split <;> simp only [apply_ite State.devTime, ceEnter_devTime, markHard_devTime, ceUpd_devTime, incFi_devTime, ite_self]

/-! ### Frames and overlays a write takes (R300, R301, R322) -/

@[simp] theorem resourceCheck_devTime : (resourceCheck s).devTime = s.devTime := by
  simp only [resourceCheck, apply_ite State.devTime, putFlag_devTime, setFlag_devTime, incF_devTime, ite_self]

@[simp] theorem overlayLookup_devTime (i : Nat) : (overlayLookup s i).devTime = s.devTime := by
  simp only [overlayLookup, apply_ite State.devTime, ite_self]

variable {s}

theorem devTime_of_takeFrame {t : State} {f : Nat} (h : takeFrame s = some (f, t)) : t.devTime = s.devTime := by
  unfold takeFrame at h
  split at h
  · cases h; rfl
  split at h
  · split at h
    · cases h; rfl
    · cases h
  · cases h

theorem devTime_of_takeOverlay {t : State} {clod generation i : Nat} (h : takeOverlay s clod generation = some (i, t)) :
    t.devTime = s.devTime := by
  unfold takeOverlay at h
  dsimp only at h
  split at h
  · cases h; rfl
  split at h
  · split at h
    · cases h; rfl
    · cases h
  · cases h

theorem devTime_of_prepareWrite {t : State} {clod generation : Nat} (h : prepareWrite s clod generation = some t) :
    t.devTime = s.devTime := by
  unfold prepareWrite at h
  dsimp only at h
  split at h
  · split at h
    · rename_i hTakes
      cases h
      simp only [resourceCheck_devTime, setEntry_devTime, engineFrame_devTime, zeroFrame_devTime, devTime_of_takeFrame hTakes]
    · cases h
  · cases h
    simp only [apply_ite State.devTime, setEntry_devTime, ite_self]
  · split at h
    · rename_i hTakes
      cases h
      simp only [resourceCheck_devTime, setEntry_devTime, zeroFrame_devTime, devTime_of_takeOverlay hTakes]
    · cases h
  · cases h; rfl

variable (s)

/-! ### The front cache: parity, write-backs and victims (R193 to R213) -/

@[simp] theorem returnHeld_devTime (set : Nat) : (returnHeld s set).devTime = s.devTime := by
  unfold returnHeld
  split <;> rfl

@[simp] theorem checkTags_devTime (set way : Nat) : (checkTags s set way).devTime = s.devTime := by
  unfold checkTags
  extract_lets w bothBad flagged marked
  have hMarked : marked.devTime = s.devTime := by rw [raise_devTime, parLast_devTime, setFlag_devTime]
  split
  · split
    · rw [returnHeld_devTime, setWay_devTime, hMarked]
    split
    · exact hMarked
    · rw [returnHeld_devTime, setWay_devTime]
      exact hMarked
  split
  · rw [incF_devTime, setWay_devTime, parLast_devTime]
  · rfl

@[simp] theorem lookWay_devTime (line : Nat) : (lookWay s line).devTime = s.devTime := by
  unfold lookWay
  split <;> simp only [checkTags_devTime]

@[simp] theorem writeBack_devTime (line mid : Nat) (v : LineVal) : (writeBack s line mid v).devTime = s.devTime := by
  unfold writeBack
  split
  · rfl
  · simp only [apply_ite State.devTime, setOverlay_devTime, overlayLookup_devTime, lmcRequest_devTime, setLoam_devTime, ite_self]

@[simp] theorem sramRepair_devTime (array location : Nat) : (sramRepair s array location).devTime = s.devTime := by
  simp only [sramRepair, apply_ite State.devTime, adviseReplace_devTime, raise_devTime, incF_devTime, setFlag_devTime, ite_self]

@[simp] theorem slotError_devTime (set way : Nat) : (slotError s set way).devTime = s.devTime := by
  simp only [slotError, apply_ite State.devTime, sramRepair_devTime, raise_devTime, incFiBy_devTime, setFlag_devTime, setWay_devTime, ite_self]

variable {s} in
theorem devTime_of_dirtyParity {t : State} {line : Nat} {b : Bool} (h : dirtyParity s line = (t, b)) : t.devTime = s.devTime := by
  unfold dirtyParity at h
  split at h <;> cases h
  · rfl
  · simp only [writeBack_devTime, enterPoison_devTime, raise_devTime, setFlag_devTime]

@[simp] theorem checkData_devTime (set way : Nat) : (checkData s set way).devTime = s.devTime := by
  unfold checkData
  extract_lets
  split
  · rfl
  split
  · split <;> rename_i hParity
    · rw [slotError_devTime, setWay_devTime, devTime_of_dirtyParity hParity, parLast_devTime]
    · rw [devTime_of_dirtyParity hParity, parLast_devTime]
  · rw [returnHeld_devTime, slotError_devTime, setWay_devTime, incF_devTime, setFlag_devTime, parLast_devTime]

@[simp] theorem checkVictim_devTime (line : Nat) : (checkVictim s line).devTime = s.devTime := by
  unfold checkVictim
  split
  · rfl
  split
  · rfl
  · split <;> rename_i hParity <;> simp only [dropVictim_devTime, devTime_of_dirtyParity hParity, parLast_devTime]

@[simp] theorem checkLine_devTime (line : Nat) : (checkLine s line).devTime = s.devTime := by
  unfold checkLine
  dsimp only
  split <;> simp only [checkData_devTime, checkVictim_devTime, lookWay_devTime]

@[simp] theorem issueVictim_devTime (v : Victim) : (issueVictim s v).devTime = s.devTime := by
  unfold issueVictim
  split <;> simp only [writeBack_devTime, updVictim_devTime]

@[simp] theorem flushLine_devTime (line mid : Nat) : (flushLine s line mid).devTime = s.devTime := by
  unfold flushLine
  dsimp only
  split
  · exact checkLine_devTime s line
  split
  · simp only [apply_ite State.devTime, writeBack_devTime, setWay_devTime, checkLine_devTime, ite_self]
  · split <;> simp only [apply_ite State.devTime, issueVictim_devTime, checkLine_devTime, ite_self]

@[simp] theorem dropLine_devTime (line : Nat) : (dropLine s line).devTime = s.devTime := by
  unfold dropLine
  split <;> simp only [dropVictim_devTime, apply_ite State.devTime, returnHeld_devTime, setWay_devTime, ite_self]

/-! ### Lines put into the front cache (R193, R199, R212) -/

@[simp] theorem vacate_devTime (set way mid : Nat) : (vacate s set way mid).2.devTime = s.devTime := by
  simp only [vacate, apply_ite (fun x : Bool × State => x.2.devTime), apply_ite State.devTime, writeBack_devTime, setWay_devTime,
    checkData_devTime, checkTags_devTime, ite_self]

@[simp] theorem allocWay_devTime (line mid n : Nat) : (allocWay s line mid n).2.devTime = s.devTime := by
  induction n generalizing s with
  | zero => rfl
  | succ n ih =>
    unfold allocWay
    dsimp only
    split
    · rfl
    split
    · rfl
    split
    · rfl
    · rename_i w _
      have hVacates := vacate_devTime s (fcSetKey line) w mid
      split <;> rename_i hVacate <;> rw [hVacate] at hVacates
      · rw [ih, returnHeld_devTime, hVacates]
      · exact hVacates

@[simp] theorem applyLine_devTime (line mid : Nat) (v : LineVal) (source : Fin 8) : (applyLine s line mid v source).2.devTime = s.devTime := by
  unfold applyLine
  dsimp only
  split
  · exact lookWay_devTime s line
  split
  · simp only [apply_ite (fun x : Bool × State => x.2.devTime), applyPoison_devTime, chargeLine_devTime, touchWay_devTime, setWay_devTime,
      lookWay_devTime, ite_self]
  split
  · simp only [apply_ite (fun x : Bool × State => x.2.devTime), apply_ite State.devTime, applyPoison_devTime, chargeLine_devTime,
      touchWay_devTime, setWay_devTime, incF_devTime, dropVictim_devTime, updVictim_devTime, lookWay_devTime, ite_self]
  · have hAlloc := allocWay_devTime (lookWay s line) line mid wayTries
    rw [lookWay_devTime] at hAlloc
    split <;> rename_i hWay <;> rw [hWay] at hAlloc
    · simpa only [applyPoison_devTime, chargeLine_devTime, touchWay_devTime, setWay_devTime] using hAlloc
    · exact hAlloc

@[simp] theorem installFill_devTime (line : Nat) (v : LineVal) : (installFill s line v).devTime = s.devTime := by
  unfold installFill
  split <;> simp only [apply_ite State.devTime, touchWay_devTime, setWay_devTime, ite_self]

@[simp] theorem runMaintOp_devTime (m : Maint) : (runMaintOp s m).2.devTime = s.devTime := by
  unfold runMaintOp
  split
  · exact flushLine_devTime ..
  · exact dropLine_devTime ..
  split
  · rfl
  split
  · rfl
  · rename_i t hTaken
    have hTime : t.devTime = s.devTime := by
      split at hTaken
      · cases hTaken; rfl
      · exact devTime_of_prepareWrite hTaken
    exact (applyLine_devTime ..).trans hTime

@[simp] theorem runMaint_devTime : (runMaint s).devTime = s.devTime := by
  refine foldl_devTime (fun t m => ?_) _ _
  dsimp only
  split
  · rfl
  · have hOp := runMaintOp_devTime t m
    split <;> rename_i hRun <;> rw [hRun] at hOp <;> exact hOp

/-! ### Users of a line, and the repair itself (R193, R194, R418) -/

@[simp] theorem combine_devTime (ids : List Nat) (old : LineVal) : (combine ids old s).devTime = s.devTime := by
  induction ids generalizing s old with
  | nil => rfl
  | cons id ids ih =>
    unfold combine
    split <;> simp only [ih, updWrite_devTime]

@[simp] theorem mergeWith_devTime (m : Merge) (old : LineVal) : (mergeWith s m old).devTime = s.devTime := combine_devTime ..

@[simp] theorem serveUsers_devTime (users : List FillUser) (v : LineVal) (lineOf : Nat) :
    (serveUsers s users v lineOf).devTime = s.devTime := by
  refine foldl_devTime (fun t x => ?_) _ s
  cases x
  case merge line => dsimp only; split <;> simp only [mergeWith_devTime]
  all_goals rfl

@[simp] theorem endFill_devTime (f : Fill) (v : LineVal) : (endFill s f v).devTime = s.devTime := by
  simp only [endFill, runMaint_devTime, serveUsers_devTime, installFill_devTime]

@[simp] theorem endRepair_devTime (r : UeRepair) (v : LineVal) (repaired : Bool) : (endRepair s r v repaired).devTime = s.devTime := by
  unfold endRepair
  dsimp only
  split <;> simp only [endFill_devTime, serveUsers_devTime, apply_ite State.devTime, logCorrection_devTime, lmcRequest_devTime,
    setLoam_devTime, ite_self]

@[simp] theorem poisonRepair_devTime (r : UeRepair) : (poisonRepair s r).devTime = s.devTime := by
  simp only [poisonRepair, endRepair_devTime, apply_ite State.devTime, enterPoison_devTime, incF_devTime, ite_self]

@[simp] theorem repairFar_devTime (r : UeRepair) : (repairFar s r).devTime = s.devTime := by
  simp only [repairFar, apply_ite State.devTime, fetchClod_devTime, poisonRepair_devTime, ite_self]

@[simp] theorem stepRepairs_devTime (r : GrainRead) : (stepRepairs s r).devTime = s.devTime := by
  unfold stepRepairs
  split
  · rfl
  · refine (foldl_devTime (fun t x => ?_) _ _).trans (updRead_devTime s ..)
    cases x
    case repair line => dsimp only; split <;> simp only [repairFar_devTime]
    all_goals rfl

end Repairs

end Sys2Proof.Machine
end

section
/-! PROOFS. Grain reads and the dies they are read from: each command as its effect, what each way of ending does to a wanted grain, one
rule per outcome of the rest, and the statement about them. -/

namespace Sys2Proof.Machine

section BedrockReads
variable {s u : State}

/-! ### The commands as their effects -/

section Commands
variable (s) (id : Nat) (die : Fin 1536)

theorem exec_grainReadComplete (o : GrainOutcome) (bits : Fin 256) (q : Fin 65536) (ok : Bool) :
    exec (.grainReadComplete id o bits q ok) s = .next (settled s (doGrainReadComplete id o bits q ok s)) := rfl

theorem exec_hedgeTimer : exec (.hedgeTimer id) s = .next (settled s (doHedgeTimer id s)) := rfl

theorem exec_ladderTimer : exec (.ladderTimer id) s = .next (settled s (doLadderTimer id s)) := rfl

theorem exec_clodFetchTimeout : exec (.clodFetchTimeout id) s = .next (settled s (doClodFetchTimeout id s)) := rfl

theorem exec_bedMedianRecompute : exec .bedMedianRecompute s = .next (settled s (doBedMedianRecompute s)) := rfl

theorem exec_quarantineEntry : exec (.quarantineEntry die) s = .next (settled s (doQuarantineEntry die s)) := rfl

theorem exec_quarantineExit : exec (.quarantineExit die) s = .next (settled s (doQuarantineExit die s)) := rfl

theorem exec_probeReadTimer : exec (.probeReadTimer die) s = .next (settled s (doProbeReadTimer die s)) := rfl

theorem exec_dieBusyTimeout : exec (.dieBusyTimeout die) s = .next (settled s (doDieBusyTimeout die s)) := rfl

theorem exec_channelLost (channel : Fin 96) : exec (.channelLost channel) s = .next (settled s (doChannelLost channel s)) := rfl

end Commands

/-! ### The end of a GCM job (R448, R450) -/

@[simp] theorem gcmEnds_good (mid : Nat) : gcmEnds s mid .good = (true, s) := rfl

@[simp] theorem gcmEnds_differs_verdict (mid : Nat) (core : Fin 24) : (gcmEnds s mid (.differs core)).1 = false := rfl

@[simp] theorem gcmEnds_refused_verdict (mid : Nat) : (gcmEnds s mid .refused).1 = false := rfl

/-! ### The ladder's time (R284, R418) -/

/-- The repairs that go on leave device time, so the ladder's time is up after them just where it was before them. -/
theorem ladderDue_stepRepairs (s : State) (r : GrainRead) : ladderDue (stepRepairs s r) r = ladderDue s r := by
  simp only [ladderDue, stepRepairs_devTime]

/-! ### The end of a grain read (R16, R278 to R283, R448, R450) -/

section Reads
variable {id : Nat} {o : GrainOutcome} {bits : Fin 256} {q : Fin 65536} {ok : Bool} {r : GrainRead} (hRead : findRead s id = some r)
include hRead

theorem doGrainReadComplete_notIssued (hWaits : ((dieAt s r.die).busy.any fun op => op.kind = 0 && op.id = id) = false) :
    doGrainReadComplete id o bits q ok s = s := by
  simp only [doGrainReadComplete, hRead, hWaits, Bool.not_false, if_true]

section Issued
variable (hIssued : ((dieAt s r.die).busy.any fun op => op.kind = 0 && op.id = id) = true)
include hIssued

theorem doGrainReadComplete_probe (hProbe : r.purpose = .probe) :
    doGrainReadComplete id o bits q ok s = dropRead (readEnds s r o bits.val q.val) id := by
  simp only [doGrainReadComplete, hRead, hIssued, hProbe, Bool.not_true, Bool.false_eq_true, if_false]

theorem doGrainReadComplete_source {p : Nat} {reread : Bool} (hSource : r.purpose = .source p reread) :
    doGrainReadComplete id o bits q ok s =
      sourceReturns (readEnds s r o bits.val q.val) r p reread (o ≠ .ldpcFail && o ≠ .headerBad) ok := by
  simp only [doGrainReadComplete, hRead, hIssued, hSource, Bool.not_true, Bool.false_eq_true, if_false]

section Wanted
variable (hWanted : r.purpose = .wanted)
include hWanted

/-- A grain that does not decode, or whose header marks it bad, takes no GCM job. -/
theorem doGrainReadComplete_undecoded (hBad : o = .ldpcFail ∨ o = .headerBad) :
    doGrainReadComplete id o bits q ok s = wantedFails (readEnds s r o bits.val q.val) r o := by
  obtain rfl | rfl := hBad <;>
    simp only [doGrainReadComplete, hRead, hIssued, hWanted, Bool.not_true, Bool.false_eq_true, if_false]

variable (hJob : gcmSubmit s r.job = u)
include hJob

theorem doGrainReadComplete_good :
    doGrainReadComplete id .good bits q ok s = wantedGood (readEnds u r .good bits.val q.val) r := by
  simp only [doGrainReadComplete, hRead, hIssued, hWanted, hJob, gcmEnds_good, Bool.not_true, Bool.false_and, Bool.false_eq_true,
    reduceCtorEq, ne_eq, not_false_eq_true, decide_true, Bool.and_self, if_false, if_true]

theorem doGrainReadComplete_tagFail :
    doGrainReadComplete id .tagFail bits q ok s = wantedFails (readEnds u r .tagFail bits.val q.val) r .tagFail := by
  simp only [doGrainReadComplete, hRead, hIssued, hWanted, hJob, gcmEnds_good, Bool.not_true, Bool.false_and, Bool.false_eq_true, ne_eq,
    not_true, decide_false, Bool.and_false, if_false]

theorem doGrainReadComplete_again {core : Fin 24} (hFirst : r.rechecked = false)
    {v : State} (hOut : (gcmEnds u (grainMid s r) (.differs core)).2 = v) : doGrainReadComplete id (.noVerdict (.differs core)) bits q ok s =
      updRead v id fun x => { x with rechecked := true, job := gcmAssign v } := by
  simp only [doGrainReadComplete, hRead, hIssued, hWanted, hJob, hFirst, hOut, gcmEnds_differs_verdict, Bool.not_true, Bool.not_false,
    Bool.and_self, Bool.false_eq_true, GrainOutcome.noVerdict.injEq, reduceCtorEq, ne_eq, not_false_eq_true, decide_true,
    if_false, if_true]

theorem doGrainReadComplete_refused : doGrainReadComplete id (.noVerdict .refused) bits q ok s =
    wantedFails (readEnds (gcmEnds u (grainMid s r) .refused).2 r .tagFail bits.val q.val) r .tagFail := by
  simp only [doGrainReadComplete, hRead, hIssued, hWanted, hJob, gcmEnds_refused_verdict, Bool.not_true, Bool.false_eq_true, ne_eq,
    not_true, decide_false, Bool.and_false, Bool.false_and, if_false]

end Wanted

end Issued

/-! ### The timers of a read (R280, R284, R418) -/

section Timers
variable (hWanted : r.purpose = .wanted)
include hWanted

/-- A read from its own die that is neither hedged nor on the ladder is hedged once its time has come. -/
theorem doHedgeTimer_eq (hDirect : r.direct = true) (hOnce : r.hedged = false) (hNoLadder : r.ladder = none) : doHedgeTimer id s =
    if hedgeDue s r then startRebuild (incF (updRead s id fun x => { x with hedged := true }) Reg.BFC_HEDGE.hedges) id else s := by
  cases hDue : hedgeDue s r <;>
    simp only [doHedgeTimer, hRead, hWanted, hDirect, hOnce, hNoLadder, hDue, ne_eq, not_true, decide_false, Option.isSome_none,
      Bool.not_true, Bool.not_false, Bool.or_self, Bool.or_true, Bool.false_eq_true, if_false, if_true]

theorem doLadderTimer_eq : doLadderTimer id s =
    if ladderDue s r then startRung3 (stepRepairs s r) id else stepRepairs s r := by
  simp only [doLadderTimer, hRead, hWanted, ladderDue_stepRepairs, ne_eq, not_true, if_false]

end Timers

end Reads

theorem doClodFetchTimeout_fails {tag : Nat} {f : Nat × Nat} (hFetch : (s.bfc.fetches.find? fun f => f.1 = tag) = some f) :
    doClodFetchTimeout tag s = fetchFailed s f.2 := by
  simp only [doClodFetchTimeout, hFetch]

/-! ### Slow dies (R279 to R281) -/

section SlowDies
variable {die : Fin 1536}

section Entry
variable (hServes : (dieAt s die.val).state = 0) (hSlow : (tooSlow s die.val false || tooSlow s die.val true) = true)
include hServes hSlow

theorem doQuarantineEntry_eq : doQuarantineEntry die s =
    if 4 ≤ badDies s (bedOfDie die.val) then raise s (channelSource (die.val / 16)) .slowDie 0xFFF [die.val / 16, die.val % 16]
    else checkBadDies (raise (setFlag (updDie s die.val fun x => { x with state := 1 }) Reg.BFC_ERR.quarantine)
      (channelSource (die.val / 16)) .quarantine 0xFFF [die.val / 16, die.val % 16]) (bedOfDie die.val) := by
  simp only [doQuarantineEntry, hServes, hSlow, ne_eq, not_true, decide_false, Bool.not_true, Bool.or_self, Bool.false_eq_true, if_false]

theorem doQuarantineEntry_room (hRoom : badDies s (bedOfDie die.val) < 4) : doQuarantineEntry die s =
    checkBadDies (raise (setFlag (updDie s die.val fun x => { x with state := 1 }) Reg.BFC_ERR.quarantine)
      (channelSource (die.val / 16)) .quarantine 0xFFF [die.val / 16, die.val % 16]) (bedOfDie die.val) := by
  rw [doQuarantineEntry_eq hServes hSlow, if_neg (Nat.not_le.2 hRoom)]

theorem doQuarantineEntry_full (hFull : 4 ≤ badDies s (bedOfDie die.val)) : doQuarantineEntry die s =
    raise s (channelSource (die.val / 16)) .slowDie 0xFFF [die.val / 16, die.val % 16] := by
  rw [doQuarantineEntry_eq hServes hSlow, if_pos hFull]

end Entry

section Quarantined
variable (hQuarantined : (dieAt s die.val).state = 1)
include hQuarantined

theorem doQuarantineExit_serves (hTlc : fastAgain s die.val false = true) (hSlc : fastAgain s die.val true = true) :
    doQuarantineExit die s = updDie s die.val fun x => { x with state := 0 } := by
  simp only [doQuarantineExit, hQuarantined, hTlc, hSlc, decide_true, Bool.and_self, if_true]

theorem doProbeReadTimer_probes : doProbeReadTimer die s = pushRead s {
    id := 0, purpose := .probe, clod := 0, grain := 0, bed := bedOfDie die.val, stratum := probeStratum s die.val
    row := 0, pos := die.val / 16 % 24, die := die.val, slc := (stratumAt s (bedOfDie die.val) (probeStratum s die.val)).slc } 5 := by
  simp only [doProbeReadTimer, hQuarantined, ne_eq, not_true, if_false]

end Quarantined

end SlowDies

/-! ### Failed dies and lost channels (R260, R282) -/

/-- A die stuck in an erase with nothing held back fails, and so does that erase. -/
theorem doDieBusyTimeout_erase {die : Fin 1536} {op : DieOp} (hBusy : (dieAt s die.val).busy = some op)
    (hNoneHeld : (dieAt s die.val).held = none) (hErase : op.kind = 2) : doDieBusyTimeout die s =
      queueRelocations (eraseFail (giveUpReads (failDie (updDie
        (setFlag s (chField Reg.BFC_CH_ERR.die_timeout (die.val / 16))) die.val fun x => { x with busy := none, held := none }) die.val) die.val)
        (op.id / 1048576) (op.id % 1048576) (die.val / 16)) := by
  have hKind : op.kind.val = 2 := congrArg Fin.val hErase
  simp only [doDieBusyTimeout, hBusy, hNoneHeld, hKind, Option.toList_none, List.nil_append, List.foldl_cons, List.foldl_nil,
    Nat.reduceEqDiff, if_false]

section Channels
variable {channel : Fin 96}

theorem doChannelLost_first (hAnswered : (bchan s channel.val).lost = false)
    (hReads : ((List.range 16).map fun i => channel.val * 16 + i).foldl giveUpReads (markLost s channel.val) = u) :
    doChannelLost channel s =
      relocateBed ((u.bfc.units.filter fun x => x.bed = channel.val / 24).foldl moveUnit u) (channel.val / 24) := by
  simp only [doChannelLost, loseChannel, hAnswered, hReads, Bool.false_eq_true, if_false]
  rfl

theorem doChannelLost_again (hLost : (bchan s channel.val).lost = true) : doChannelLost channel s = s := by
  simp only [doChannelLost, loseChannel, hLost, if_true]

end Channels

end BedrockReads

/-- Settles O23: the end of a grain read by its purpose and how it ended, its timers by what is due, and a die or channel by how it stands.
-/
theorem bedrockReads : Obligations.BedrockReads := by
  refine ⟨⟨fun s u id bits q ok r hRead hWanted hIssued hJob =>
        ⟨?good, ?tagFail, ?ldpcFail, ?headerBad, fun core hFirst => ?again, ?refused⟩,
      fun s id o bits q ok r hRead hIssued => ⟨fun hProbe => ?probe, fun p reread hSource => ?source⟩,
      fun s id o bits q ok r hRead hWaits => ?notIssued,
      fun s id r hRead hWanted hDirect hOnce hNoLadder => ⟨fun hDue => ?hedges, fun hEarly => ?hedgesLater⟩,
      fun s id r hRead hWanted => ⟨fun hDue => ?rung3, fun hEarly => ?climbsOn⟩, fun s tag f hFetch => ?fetchFails⟩,
    ⟨exec_bedMedianRecompute, fun s die hServes hSlow hRoom => ?quarantined, fun s die hServes hSlow hFull => ?noRoom,
      fun s die hQuarantined hTlc hSlc => ?servesAgain, fun s die hQuarantined => ?probed,
      fun s die op hBusy hNoneHeld hErase => ?stuck, fun s channel hAnswered => ?lost, fun s channel hLost => ?lostBefore⟩⟩
  case good => rw [exec_grainReadComplete, doGrainReadComplete_good hRead hIssued hWanted hJob]
  case tagFail => rw [exec_grainReadComplete, doGrainReadComplete_tagFail hRead hIssued hWanted hJob]
  case ldpcFail => rw [exec_grainReadComplete, doGrainReadComplete_undecoded hRead hIssued hWanted (.inl rfl)]
  case headerBad => rw [exec_grainReadComplete, doGrainReadComplete_undecoded hRead hIssued hWanted (.inr rfl)]
  case again => rw [exec_grainReadComplete, doGrainReadComplete_again hRead hIssued hWanted hJob hFirst rfl]
  case refused => rw [exec_grainReadComplete, doGrainReadComplete_refused hRead hIssued hWanted hJob]
  case probe => rw [exec_grainReadComplete, doGrainReadComplete_probe hRead hIssued hProbe]
  case source => rw [exec_grainReadComplete, doGrainReadComplete_source hRead hIssued hSource]
  case notIssued => rw [exec_grainReadComplete, doGrainReadComplete_notIssued hRead hWaits]
  case hedges => rw [exec_hedgeTimer, doHedgeTimer_eq hRead hWanted hDirect hOnce hNoLadder, if_pos hDue]
  case hedgesLater =>
    rw [exec_hedgeTimer, doHedgeTimer_eq hRead hWanted hDirect hOnce hNoLadder, hEarly, if_neg Bool.false_ne_true]
  case rung3 => rw [exec_ladderTimer, doLadderTimer_eq hRead hWanted, if_pos hDue]
  case climbsOn => rw [exec_ladderTimer, doLadderTimer_eq hRead hWanted, hEarly, if_neg Bool.false_ne_true]
  case fetchFails => rw [exec_clodFetchTimeout, doClodFetchTimeout_fails hFetch]
  case quarantined => rw [exec_quarantineEntry, doQuarantineEntry_room hServes hSlow hRoom]
  case noRoom => rw [exec_quarantineEntry, doQuarantineEntry_full hServes hSlow hFull]
  case servesAgain => rw [exec_quarantineExit, doQuarantineExit_serves hQuarantined hTlc hSlc]
  case probed => rw [exec_probeReadTimer, doProbeReadTimer_probes hQuarantined]
  case stuck => rw [exec_dieBusyTimeout, doDieBusyTimeout_erase hBusy hNoneHeld hErase]
  case lost => rw [exec_channelLost, doChannelLost_first hAnswered rfl]
  case lostBefore => rw [exec_channelLost, doChannelLost_again hLost]

end Sys2Proof.Machine
end

section
/-! PROOFS. Programs, erases, the retention scan and the end of Bedrock training: each command as its effect, one rule per outcome, and the
statement about them. -/

namespace Sys2Proof.Machine

section BedrockPrograms
variable {s v : State}

/-! ### The commands as their effects -/

section Commands
variable (s) (bed : Fin 4) (k : Fin (2 ^ 20))

theorem exec_programUnitDone (unit : Nat) (c : Option (Fin 24)) (job : GcmEnd) :
    exec (.programUnitDone unit c job) s = .next (settled s (doProgramUnitDone unit c job s)) := rfl

theorem exec_staleStratumErase : exec (.staleStratumErase bed k) s = .next (settled s (doStaleStratumErase bed k s)) := rfl

theorem exec_eraseDone (c : Option (Fin 24)) : exec (.eraseDone bed k c) s = .next (settled s (doEraseDone bed k c s)) := rfl

theorem exec_retentionScan (row : Fin 16384) (bits : List (Fin 256)) :
    exec (.retentionScan bed k row bits) s = .next (settled s (doRetentionScan bed k row bits s)) := rfl

theorem exec_bedrockTrainingDone (channels : List (Option (Fin 5))) (page : DiePage) (ok : Bool) (bad : List (Fin 96 × Fin (2 ^ 20))) :
    exec (.bedrockTrainingDone channels page ok bad) s = .next (settled s (doBedrockTrainingDone channels page ok bad s)) := rfl

end Commands

/-! ### The end of a program unit (R263, R293, R448, R450) -/

section Units
variable {unit : Nat} {u : ProgUnit} {c : Option (Fin 24)} (hUnit : findUnit s unit = some u) (hStarted : u.started = true)
  (hJob : gcmSubmit s u.job = v)
include hUnit hStarted hJob

theorem doProgramUnitDone_sealed : doProgramUnitDone unit none .good s = unitSealed v u := by
  simp only [doProgramUnitDone, hUnit, hStarted, hJob, gcmEnds_good, Bool.not_true, Bool.false_eq_true, if_false]

theorem doProgramUnitDone_channelFails (ch : Fin 24) :
    doProgramUnitDone unit (some ch) .good s = programFail v u (some (u.bed * 24 + ch.val)) := by
  simp only [doProgramUnitDone, hUnit, hStarted, hJob, gcmEnds_good, Bool.not_true, Bool.false_eq_true, if_false]

theorem doProgramUnitDone_again {core : Fin 24} (hFirst : u.again = false) {w : State}
    (hOut : (gcmEnds v (unitMid u) (.differs core)).2 = w) : doProgramUnitDone unit c (.differs core) s =
      updUnit w unit fun x => { x with again := true, job := gcmAssign w } := by
  subst hOut
  simp only [doProgramUnitDone, hUnit, hStarted, hJob, gcmEnds, hFirst, Bool.not_true, Bool.false_or, decide_false, Bool.false_eq_true,
    reduceCtorEq, if_false]

theorem doProgramUnitDone_refused : doProgramUnitDone unit c .refused s = programFail (gcmEnds v (unitMid u) .refused).2 u none := by
  simp only [doProgramUnitDone, hUnit, hStarted, hJob, gcmEnds, Bool.not_true, decide_true, Bool.or_true, Bool.false_eq_true, if_false,
    if_true]

end Units

/-! ### Erases (R292, R293, R295) -/

section Erases
variable {bed : Fin 4} {k : Fin (2 ^ 20)}

theorem doStaleStratumErase_starts (hStale : (stratumAt s bed.val k.val).state = .stale) (hUnread : (stratumAt s bed.val k.val).reading = 0)
    (hRests : (stratumAt s bed.val k.val).erasing = false) : doStaleStratumErase bed k s = (List.range 24).foldl (fun s' c => dieQueue s'
      ((bed.val * 24 + c) * 16 + dieIndex s' (bed.val * 24 + c) k.val)
      { rank := 6, kind := 2, id := stratumKey bed.val k.val, startedAt := s'.devTime })
      (updStratum s bed.val k.val fun x => { x with erasing := true }) := by
  simp only [doStaleStratumErase, hStale, hUnread, hRests, ne_eq, not_true, decide_false, Bool.or_self, Bool.false_eq_true, if_false]

theorem doStaleStratumErase_read (hRead : (stratumAt s bed.val k.val).reading ≠ 0) : doStaleStratumErase bed k s = s := by
  simp only [doStaleStratumErase, hRead, ne_eq, not_false_eq_true, decide_true, Bool.or_true, Bool.true_or, if_true]

section Ends
variable (hErases : (stratumAt s bed.val k.val).erasing = true)
include hErases

theorem doEraseDone_erased (hGood : (stratumAt s bed.val k.val).badChannels = [])
    (hDies : (List.range 24).foldl (fun s' c =>
      dieDone s' ((bed.val * 24 + c) * 16 + dieIndex s' (bed.val * 24 + c) k.val) 2 (stratumKey bed.val k.val)) s = v) :
    doEraseDone bed k none s = recountBedrock (updStratum (forgetStratum (countErase v bed.val k.val) bed.val k.val) bed.val k.val
      fun x => { state := .erased, eraseCount := x.eraseCount, gen := x.gen, reading := x.reading }) := by
  simp only [doEraseDone, hErases, hGood, hDies, Bool.not_true, Bool.false_eq_true, if_false, List.foldl_nil]

theorem doEraseDone_fails (c : Fin 24) : doEraseDone bed k (some c) s = eraseFail s bed.val k.val (bed.val * 24 + c.val) := by
  simp only [doEraseDone, hErases, Bool.not_true, Bool.false_eq_true, if_false]

end Ends

end Erases

/-! ### The retention scan (R290) -/

theorem doRetentionScan_sealed {bed : Fin 4} {k : Fin (2 ^ 20)} {row : Fin 16384} {bits : List (Fin 256)}
    (hSealed : (stratumAt s bed.val k.val).state = .sealed) (hRow : rowScanned s bed.val k.val row.val bits = v) :
    doRetentionScan bed k row bits s =
      if max 1 (getF v Reg.BFC_RETAIN_CFG.retain_days) * 86400000000000 ≤ mediaTime v - (stratumAt v bed.val k.val).sealTime ∨
          (bits.any fun n => decide (refreshBits (refreshNow v) < n.val)) = true then
        queueRelocations (updStratum v bed.val k.val fun x => { x with relocate := true })
      else v := by
  simp only [doRetentionScan, hSealed, hRow, ne_eq, not_true, if_false, Bool.or_eq_true, decide_eq_true_eq]

/-! ### The end of Bedrock training (R257 to R260, R271, R556) -/

section Training
variable {channels : List (Option (Fin 5))} {page : DiePage} {bad : List (Fin 96 × Fin (2 ^ 20))}

theorem doBedrockTrainingDone_over (ok : Bool) (h : s.glb.bedrockReady = true ∨ stage s = stHalted) :
    doBedrockTrainingDone channels page ok bad s = s := by
  have hOver : (s.glb.bedrockReady || decide (stage s = stHalted)) = true := by simpa only [Bool.or_eq_true, decide_eq_true_eq] using h
  simp only [doBedrockTrainingDone, hOver, if_true]

section Runs
variable (hFirst : s.glb.bedrockReady = false) (hRuns : stage s ≠ stHalted)
include hFirst hRuns

theorem doBedrockTrainingDone_notAllowed {ok : Bool} (hBad : (!ok || badPage page) = true) :
    doBedrockTrainingDone channels page ok bad s = haltStart (setFlag s Reg.BFC_POP.pop_err) 5 := by
  simp only [doBedrockTrainingDone, hFirst, hRuns, hBad, decide_false, Bool.or_self, Bool.false_eq_true, if_false, if_true]

/-- With no factory marks to take over it makes no odds whether they have been read. -/
theorem doBedrockTrainingDone_trained (hGood : badPage page = false)
    (hTrained : ((List.range channels.length).zip channels).foldl (fun s e => channelTrained s e.1 e.2)
      (takePage { s with glb.bedrockReady := true } page) = v) : doBedrockTrainingDone channels page true [] s =
        trainingStep ((List.range 4).foldl checkBadDies (recountBedrock { v with bfc.marksRead := true })) := by
  simp only [doBedrockTrainingDone, hFirst, hRuns, hGood, hTrained, decide_false, Bool.not_true, Bool.or_self, Bool.false_eq_true, if_false,
    List.foldl_nil, ite_self]

end Runs

end Training

end BedrockPrograms

/-- Settles O24: the end of a unit by how its channels and its job ended, of an erase by whether it failed, a scanned row by its age and
bits, and the training by its population. -/
theorem bedrockProgramsAndTraining : Obligations.BedrockProgramsAndTraining := by
  refine ⟨⟨fun s v unit u hUnit hStarted hJob => ⟨?sealed, fun c => ?channelFails, fun c core hFirst => ?again, fun c => ?refused⟩,
      fun s bed k hStale hUnread hRests => ?erases, fun s bed k hRead => ?stillRead,
      fun s bed k hErases hGood => ⟨?erased, fun c => ?eraseFails⟩, fun s u bed k row bits hSealed hRow => ?scanned⟩,
    ⟨fun s channels page bad hFirst hRuns hPage => ?badPopulation, fun s channels page bad hFirst hRuns => ?notAllowed,
      fun s channels page hFirst hRuns hGood => ?trained, fun s channels page ok bad h => ?alreadyOver⟩⟩
  case sealed => rw [exec_programUnitDone, doProgramUnitDone_sealed hUnit hStarted hJob]
  case channelFails => rw [exec_programUnitDone, doProgramUnitDone_channelFails hUnit hStarted hJob]
  case again => rw [exec_programUnitDone, doProgramUnitDone_again hUnit hStarted hJob hFirst rfl]
  case refused => rw [exec_programUnitDone, doProgramUnitDone_refused hUnit hStarted hJob]
  case erases => rw [exec_staleStratumErase, doStaleStratumErase_starts hStale hUnread hRests]
  case stillRead => rw [exec_staleStratumErase, doStaleStratumErase_read hRead]
  case erased => rw [exec_eraseDone, doEraseDone_erased hErases hGood rfl]
  case eraseFails => rw [exec_eraseDone, doEraseDone_fails hErases]
  case scanned => rw [exec_retentionScan, doRetentionScan_sealed hSealed hRow]
  case badPopulation => rw [exec_bedrockTrainingDone, doBedrockTrainingDone_notAllowed hFirst hRuns (by simp [hPage])]
  case notAllowed => rw [exec_bedrockTrainingDone, doBedrockTrainingDone_notAllowed hFirst hRuns rfl]
  case trained => rw [exec_bedrockTrainingDone, doBedrockTrainingDone_trained hFirst hRuns hGood rfl]
  case alreadyOver => rw [exec_bedrockTrainingDone, doBedrockTrainingDone_over ok h]

end Sys2Proof.Machine
end

section
/-! PROOFS. Digests, samples, health reports and self-test slices: each command as its effect, one rule per outcome, and the statement about
them. -/

namespace Sys2Proof.Machine

section Checks
variable {s u v : State} {f : FrameIn}

/-! ### The commands as their effects -/

section Commands
variable (s f)

theorem exec_digestTimer : exec .digestTimer s = .next (settled s (doDigestTimer s)) := rfl

theorem exec_digestReply (period : Nat) (reply : DigestAnswer) :
    exec (.digestReply f period reply) s = .next (settled s (doDigestReply f period reply s)) := rfl

theorem exec_digestCheckDone (g : Fin 64) (ok : Bool) : exec (.digestCheckDone g ok) s = .next (settled s (doDigestCheckDone g ok s)) := rfl

theorem exec_sampleTimer (line : LineNo) : exec (.sampleTimer line) s = .next (settled s (doSampleTimer line s)) := rfl

theorem exec_sampleReq (tag : Nat) (line : LineNo) (plot : PlotId) (seq : Nat) :
    exec (.sampleReq f tag line plot seq) s = .next (settled s (doSampleReq f tag line plot seq s)) := rfl

theorem exec_sampleRsp (tag : Nat) (crc : Option DWord) : exec (.sampleRsp f tag crc) s = .next (settled s (doSampleRsp f tag crc s)) := rfl

theorem exec_healthTimer : exec .healthTimer s = .next (settled s (doHealthTimer s)) := rfl

theorem exec_health (r : HealthReport) : exec (.health f r) s = .next (settled s (doHealth f r s)) := rfl

theorem exec_healthMissing : exec .healthMissing s = .next (settled s (doHealthMissing s)) := rfl

theorem exec_selftestSliceStart (e : Mid) : exec (.selftestSliceStart e) s = .next (settled s (doSelftestSliceStart e s)) := rfl

theorem exec_selftestSliceDone (e : Mid) (failed : Bool) :
    exec (.selftestSliceDone e failed) s = .next (settled s (doSelftestSliceDone e failed s)) := rfl

end Commands

/-! ### Digests (R364 to R366) -/

/-- The period ends with its digests kept and sent, and the next one begins with none. -/
theorem doDigestTimer_mirrors (hMirrors : mirrorsWrites s = true) (hSent : sendOrdered { s with
      twin.txDigests := s.twin.txDigests ++ [(s.twin.txPeriod, digestList s.twin.txCrc)] }
      (.digestMarker s.twin.txPeriod (digestList s.twin.txCrc)) = u) :
    doDigestTimer s = { u with twin.txPeriod := s.twin.txPeriod + 1, twin.txCrc := [] } := by
  simp only [doDigestTimer, hMirrors, hSent, Bool.not_true, Bool.false_eq_true, if_false]

section Reply
variable {period : Nat} (hTaken : frameTaken s f 9 = (true, u))
include hTaken

theorem doDigestReply_values (ds : List DWord) : doDigestReply f period (.values ds) s = comparePeriod u period ds := by
  simp only [doDigestReply, hTaken]

theorem doDigestReply_result (g : Fin 64) (passed : Bool) :
    doDigestReply f period (.result g passed) s = twinResult u g.val period passed := by
  simp only [doDigestReply, hTaken]

end Reply

/-- The result of a check is kept with the dispute that waits for it, and sent to the twin. -/
theorem doDigestCheckDone_open {g : Fin 64} {d : Dispute} (ok : Bool)
    (hOpen : (s.twin.disputes.find? fun d => d.group = g.val && d.ownPassed.isNone) = some d) :
    doDigestCheckDone g ok s = sendFrame { s with twin.disputes := s.twin.disputes.map fun d =>
      if d.group = g.val && d.ownPassed.isNone then { d with ownPassed := some ok } else d } 9 0 0 (.digestResult d.period g.val ok) := by
  simp only [doDigestCheckDone, hOpen]

/-! ### Samples (R368) -/

/-- A sample is taken of an ordered line in a plot that this side orders, while it serves in a pair whose link is up. -/
theorem doSampleTimer_asks {line : LineNo} {p tag : Nat} {v : LineVal} (hReach : reach s line.val = some p)
    (hRate : getF s Reg.FLK_SAMPLE_CFG.rate_k ≠ 0) (hPair : mirrored s = true) (hHome : canOrder s (plotRec s p) = true)
    (hLink : linkOk s = true) (hTier : (entryOf s (clodOf line.val)).tier ≠ 0) (hLine : orderedLine s line.val = some v)
    (hTag : (s.twin.samples.foldl (fun n x => max n x.1) 0) + 1 = tag)
    (hKept : { sampleRead s line.val with
      twin.samples := s.twin.samples ++ [(tag, line.val, p, (plotRec s p).seq, sampleCrc v)] } = u) :
    doSampleTimer line s = sendFrame u 0x10 (plotRec s p).seq p (.sampleReq tag line.val p (plotRec s p).seq) := by
  simp only [doSampleTimer, hReach, hRate, hPair, hHome, hLink, hTier, hLine, hTag, hKept, decide_false, Bool.not_true, Bool.or_self,
    Bool.false_eq_true, if_false]

theorem doSampleReq_waits {tag seq : Nat} {line : LineNo} {plot : PlotId} (hTaken : frameTaken s f 0x10 = (true, u)) :
    doSampleReq f tag line plot seq s = { u with twin.sampleWaits := u.twin.sampleWaits ++ [(tag, line.val, plot.val, seq)] } := by
  simp only [doSampleReq, hTaken]

section Answer
variable {tag line plot seq : Nat} {own : DWord} (hTaken : frameTaken s f 0x11 = (true, u))
  (hAsked : (u.twin.samples.find? fun x => x.1 = tag) = some (tag, line, plot, seq, own))
include hTaken hAsked

/-- The twin could not compare the line, and the sample ends uncounted. -/
theorem doSampleRsp_uncompared : doSampleRsp f tag none s = { u with twin.samples := u.twin.samples.filter fun x => x.1 ≠ tag } := by
  simp only [doSampleRsp, hTaken, hAsked]

theorem doSampleRsp_agrees : doSampleRsp f tag (some own) s =
    incF { u with twin.samples := u.twin.samples.filter fun x => x.1 ≠ tag } Reg.FLK_SAMPLE_CNT.samples := by
  simp only [doSampleRsp, hTaken, hAsked, if_true]

theorem doSampleRsp_differs {c : DWord} {w : State} (hDiffers : c ≠ own)
    (hCounted : incF { u with twin.samples := u.twin.samples.filter fun x => x.1 ≠ tag } Reg.FLK_SAMPLE_CNT.samples = v)
    (hRaised : raise (incF (setFlag v Reg.FLK_TWIN_ERR.sample_mismatch) Reg.FLK_SAMPLE_CNT.mismatches) twinSource .sampleMismatch 0xFFF
      [plot, line * 64] = w) :
    doSampleRsp f tag (some c) s = startDispute w (groupOf plot) w.twin.txPeriod true [line] := by
  simp only [doSampleRsp, hTaken, hAsked, hCounted, hRaised, hDiffers, if_false]

end Answer

/-! ### Health reports (R370) -/

theorem doHealth_taken (r : HealthReport) (hTaken : frameTaken s f 0x12 = (true, u)) :
    doHealth f r s = { putFlag (putFlag (setF (setF u Reg.FLK_TWIN_HEALTH.spare_pct r.sparePct.val)
      Reg.FLK_TWIN_HEALTH.quar_max (min 7 r.quarMax.val)) Reg.FLK_TWIN_HEALTH.replace_adv r.replaceAdvised) Reg.FLK_TWIN_HEALTH.selftest_fail
      r.selftestFail with twin.healthAt := u.devTime } := by
  simp only [doHealth, hTaken, putFlag_devTime, setF_devTime]

theorem doHealthMissing_missing (hLink : linkOk s = true) (hTime : s.twin.healthAt + 3000000000 ≤ s.devTime) :
    doHealthMissing s = raise (setFlag s Reg.FLK_TWIN_ERR.health_missing) twinSource .healthMissing 0xFFF [] := by
  simp only [doHealthMissing, hLink, hTime, decide_true, Bool.and_self, if_true]

/-! ### Self-test slices (R369) -/

section Slices
variable {e : Mid}

/-- A slice begins on an engine that has slices, is idle and in service, and runs none. -/
theorem doSelftestSliceStart_idle (hEngine : sliceEngines.contains e.val = true) (hIdle : engineBusy s e.val = false)
    (hNone : s.twin.slices.contains e.val = false) (hIn : s.twin.engineOut.contains e.val = false) :
    doSelftestSliceStart e s = { s with twin.slices := s.twin.slices ++ [e.val] } := by
  simp only [doSelftestSliceStart, hEngine, hIdle, hNone, hIn, Bool.not_false, Bool.and_self, if_true]

theorem doSelftestSliceDone_none (failed : Bool) (hNone : s.twin.slices.contains e.val = false) :
    doSelftestSliceDone e failed s = s := by
  simp only [doSelftestSliceDone, hNone, Bool.not_false, if_true]

section Runs
variable (hRuns : s.twin.slices.contains e.val = true) (hEnded : { s with twin.slices := s.twin.slices.erase e.val } = u)
include hRuns hEnded

theorem doSelftestSliceDone_passed : doSelftestSliceDone e false s = sliceCovered u e.val := by
  simp only [doSelftestSliceDone, hRuns, hEnded, Bool.not_true, Bool.not_false, Bool.false_eq_true, if_false, if_true]

/-- A failed slice is noted; then a mirrored controller fences itself, and another takes the engine out where a like one is left. -/
theorem doSelftestSliceDone_failed
    (hNoted : raise (adviseReplace (setFlag u Reg.FLK_TWIN_ERR.selftest_fail) 7) twinSource .selftestFail 0xFFF [e.val] = v) :
    doSelftestSliceDone e true s =
      if mirrored v = true then fenceSelf v []
      else if ((likeEngines e.val).any fun x => x ≠ e.val && !v.twin.engineOut.contains x) = true then engineRetire v e.val
      else v := by
  simp only [doSelftestSliceDone, hRuns, hEnded, hNoted, Bool.not_true, Bool.false_eq_true, if_false]

end Runs

end Slices

end Checks

/-- Settles O55: a frame by what it carries and what waits for it, a timer by whether it is due, and a slice's end by whether it failed and
how this side serves. -/
theorem digestsAndHealth : Obligations.DigestsAndHealth := by
  refine ⟨fun s hMirrors u hSent => ?period, fun s u f period hTaken => ⟨fun ds => ?values, fun g passed => ?result⟩,
    fun s g ok d hOpen => ?checked, fun s u line p tag v hReach hRate hPair hHome hLink hTier hLine hTag hKept => ?sampled,
    fun s u f tag line plot seq hTaken => ?sampleAsked,
    fun s u f tag line plot seq own hTaken hAsked => ⟨?agrees, ?uncompared, fun c v hDiffers hCounted w hRaised => ?differs⟩,
    fun s => ?reports, fun s u f r hTaken => ?reported, fun s hLink hTime => ?missing,
    fun s e hEngine hIdle hNone hIn => ?begins,
    fun s u e hRuns hEnded => ⟨?passed, fun v hNoted => ⟨fun hPair => ?fences, fun hSolo hLike => ?retires, fun hSolo hLast => ?stays⟩⟩,
    fun s e failed hNone => ?noSlice⟩
  case period => rw [exec_digestTimer, doDigestTimer_mirrors hMirrors hSent]
  case values => rw [exec_digestReply, doDigestReply_values hTaken]
  case result => rw [exec_digestReply, doDigestReply_result hTaken]
  case checked => rw [exec_digestCheckDone, doDigestCheckDone_open ok hOpen]
  case sampled => rw [exec_sampleTimer, doSampleTimer_asks hReach hRate hPair hHome hLink hTier hLine hTag hKept]
  case sampleAsked => rw [exec_sampleReq, doSampleReq_waits hTaken]
  case agrees => rw [exec_sampleRsp, doSampleRsp_agrees hTaken hAsked]
  case uncompared => rw [exec_sampleRsp, doSampleRsp_uncompared hTaken hAsked]
  case differs => rw [exec_sampleRsp, doSampleRsp_differs hTaken hAsked hDiffers hCounted hRaised]
  case reports => rw [exec_healthTimer, doHealthTimer]
  case reported => rw [exec_health, doHealth_taken r hTaken]
  case missing => rw [exec_healthMissing, doHealthMissing_missing hLink hTime]
  case begins => rw [exec_selftestSliceStart, doSelftestSliceStart_idle hEngine hIdle hNone hIn]
  case passed => rw [exec_selftestSliceDone, doSelftestSliceDone_passed hRuns hEnded]
  case fences => rw [exec_selftestSliceDone, doSelftestSliceDone_failed hRuns hEnded hNoted, if_pos hPair]
  case retires => rw [exec_selftestSliceDone, doSelftestSliceDone_failed hRuns hEnded hNoted, if_neg (by simp [hSolo]), if_pos hLike]
  case stays =>
    rw [exec_selftestSliceDone, doSelftestSliceDone_failed hRuns hEnded hNoted, if_neg (by simp [hSolo]), if_neg (by simp only [hLast]; decide)]
  case noSlice => rw [exec_selftestSliceDone, doSelftestSliceDone_none failed hNone]

end Sys2Proof.Machine
end

section
/-! PROOFS. Frames of the twin link that fail: what the frame's GCM job leaves behind, the discard that follows it, and the statement about
them. -/

namespace Sys2Proof.Machine

section Discards
variable {s u : State} {f : FrameIn}

/-! ### A frame's GCM job, and its discard (R336, R448) -/

/-- A job that differs at its first pair and ends good at the second has taken the first pair out of service. -/
theorem frameJob_second {ck : GcmCheck} {pair : Fin 24} (hFirst : ck.first = .differs pair) (hSecond : ck.second = .good) :
    frameJob s ck = (true, gcmOut s pair.val) := by
  simp only [frameJob, gcmEnds, hFirst, hSecond]

/-- On a keyed link a frame whose tag or header fails has no effect but those of its GCM job, and then its discard. -/
theorem frameTaken_discards (ftype : Nat) (hUp : getF s Reg.FLK_TWIN_STS.ports_up / 2 ^ f.port.val % 2 = 1) (hKeyed : twinKeyed s = true)
    (hJob : frameJob s { tagOk := f.tagOk, first := f.first, second := f.second } = (true, u))
    (hBad : f.tagOk = false ∨ f.headerOk = false) : frameTaken s f ftype = (false, discardFrame u f) := by
  have hUnpassed : (f.tagOk && f.headerOk) = false := by simpa only [Bool.and_eq_false_iff] using hBad
  simp only [frameTaken, frameIn, hUp, hKeyed, hJob, hUnpassed, Nat.one_ne_zero, Bool.false_and, Bool.false_eq_true, if_false, if_true]

theorem takeOrdered_of_notTaken {ftype : Nat} (b : OrderedBody) (hNot : frameTaken s f ftype = (false, u)) : takeOrdered s f ftype b = u := by
  simp only [takeOrdered, hNot]

end Discards

/-! ### A bad frame whose GCM job differs -/

/-- Twin port 0 is up and the link has its secret. -/
def keyedLink : State := { setF State.reset Reg.FLK_TWIN_STS.ports_up 1 with cku.secrets := [(0, [1, 2, 3, 4, 5, 6, 7, 8])] }

/-- A frame on twin port 0 with a failing tag, whose GCM job differs at pair 0 and ends good when pair 1 repeats it. -/
def redoneBadFrame : FrameIn where
  port := 0
  tagOk := false
  headerOk := true
  first := .differs 0
  epoch := 0
  ctr := 1
  level := 0
  stop := false

theorem frameJob_redoneBadFrame : frameJob keyedLink
    { tagOk := redoneBadFrame.tagOk, first := redoneBadFrame.first, second := redoneBadFrame.second } = (true, gcmOut keyedLink 0) :=
  frameJob_second (pair := 0) rfl rfl

theorem takeOrdered_redoneBadFrame (b : OrderedBody) :
    takeOrdered keyedLink redoneBadFrame 1 b = discardFrame (gcmOut keyedLink 0) redoneBadFrame := by
  have hUp : getF keyedLink Reg.FLK_TWIN_STS.ports_up / 2 ^ redoneBadFrame.port.val % 2 = 1 := by decide +kernel
  have hKeyed : twinKeyed keyedLink = true := by decide +kernel
  exact takeOrdered_of_notTaken b (frameTaken_discards 1 hUp hKeyed frameJob_redoneBadFrame (.inl rfl))

/-- Refutes O52: its last clause has a bad frame do nothing but its discard, and where the link is keyed and the frame's GCM job differs at
its first pair, R448 counts the mismatch and takes that pair out of service before the frame is discarded. The clause lacks the hypothesis
that the job leaves the state as it is, under which it is `frameTaken_discards` on a keyed link. -/
theorem not_twinPorts : ¬ Obligations.TwinPorts := by
  rintro ⟨-, -, -, -, hDiscards⟩
  have hEnd := hDiscards keyedLink redoneBadFrame (by decide +kernel) (.inl rfl) (.mirror redoneBadFrame 0 0 []) (.inl ⟨0, 0, [], rfl⟩)
  rw [exec_mirror, takeOrdered_redoneBadFrame, Host.Outcome.next.injEq] at hEnd
  have hCounts := congrArg (getF · Reg.CKU_CHECK_CNT.gcm_mismatch) hEnd
  exact absurd hCounts (by decide +kernel)

end Sys2Proof.Machine
end

section
/-! PROOFS. The change of TW_ALIVE_IN in the fence handshake and outside it, and the statement about roles and fences. -/

namespace Sys2Proof.Machine

section Alive
variable {s u : State}

theorem exec_aliveInChange (s : State) (l : AliveLevel) : exec (.aliveInChange l) s = .next (settled s (doAliveInChange l s)) := rfl

/-- In the handshake a reading of fenced does no more than ask whether the handshake is complete (R352). -/
theorem doAliveInChange_handshake (hRead : setF s Reg.FLK_TWIN_STS.alive_in 2 = u) (hMode : twinMode u = mHandshake) :
    doAliveInChange .fenced s = checkHandshake u := by
  simp only [doAliveInChange, hRead, hMode, if_true]

/-- Outside the handshake a mirrored controller whose link is lost takes over at a twin that reads fenced (R360). -/
theorem doAliveInChange_takesOver (hRead : setF s Reg.FLK_TWIN_STS.alive_in 2 = u) (hMode : twinMode u ≠ mHandshake)
    (hLost : flag u Reg.FLK_TWIN_STS.link_lost = true) (hPair : mirrored u = true) : doAliveInChange .fenced s = takeover u := by
  simp only [doAliveInChange, hRead, hMode, hLost, hPair, decide_true, Bool.and_self, if_false, if_true]

theorem checkHandshake_undemanded (hOut : fenceOut s = false) : checkHandshake s = s := by
  simp only [checkHandshake, hOut, Bool.and_false, Bool.false_and, Bool.false_eq_true, if_false]

end Alive

/-! ### A handshake without a demand -/

/-- The mode is that of the fence handshake and the link is lost, but the own demand is not asserted. -/
def undemandedHandshake : State := setFlag (setF State.reset Reg.FLK_TWIN_STS.mode mHandshake) Reg.FLK_TWIN_STS.link_lost

theorem aliveInChange_undemandedHandshake : doAliveInChange .fenced undemandedHandshake =
    setF undemandedHandshake Reg.FLK_TWIN_STS.alive_in 2 := by
  rw [doAliveInChange_handshake rfl (by decide +kernel), checkHandshake_undemanded (by decide +kernel)]

/-- Refutes O57: of its clauses on TW_ALIVE_IN the third has a mirrored controller with a lost link take over at a twin that reads fenced,
and a controller in the handshake counts as mirrored, where the first clause (R352) has it take over only while its own demand is asserted.
At `undemandedHandshake` the command leaves the mode as it is. The third clause lacks the hypothesis `twinMode u ≠ mHandshake`, under which
it is `doAliveInChange_takesOver`. -/
theorem not_rolesAndFences : ¬ Obligations.RolesAndFences := by
  rintro ⟨-, -, -, -, -, -, -, -, -, -, -, -, hAlive, -⟩
  obtain ⟨-, -, hTakesOver, -⟩ := hAlive undemandedHandshake _ .fenced rfl
  have hEnd := hTakesOver rfl (by decide +kernel) (by decide +kernel)
  rw [exec_aliveInChange, aliveInChange_undemandedHandshake, Host.Outcome.next.injEq] at hEnd
  have hModes := congrArg twinMode hEnd
  exact absurd hModes (by decide +kernel)

end Sys2Proof.Machine
end

section
/-! PROOFS. The chain beyond its requests: snoops between nodes, frames in transit, HELLO, ports, windows and identity, and the statement
about them. -/

namespace Sys2Proof.Machine

section Chain
variable {s u : State} {port : Fin 8} {ck : GcmCheck} {f : ChainFrame}

/-! ### The commands as their effects -/

section Commands
variable (s port ck f)

theorem exec_chSnoopReq : exec (.chSnoopReq port ck f) s = .next (settled s (doChSnoopReq port ck f s)) := rfl

theorem exec_chSnoopRsp : exec (.chSnoopRsp port ck f) s = .next (settled s (doChSnoopRsp port ck f s)) := rfl

theorem exec_chainSnoopTimeout (id : Nat) : exec (.chainSnoopTimeout id) s = .next (settled s (doChainSnoopTimeout id s)) := rfl

theorem exec_chainForward : exec (.chainForward port ck f) s = .next (settled s (doChainForward port ck f s)) := rfl

theorem exec_chHello : exec (.chHello port ck f) s = .next (settled s (doChHello port ck f s)) := rfl

theorem exec_chHelloTimer : exec .chHelloTimer s = .next (finished s (doChHelloTimer s)) := rfl

theorem exec_chainPortDown (cut : Option ChainFrame) :
    exec (.chainPortDown port cut) s = .next (finished s (doChainPortDown port cut s)) := rfl

theorem exec_chainPortUp : exec (.chainPortUp port) s = .next (finished s (doChainPortUp port s)) := rfl

theorem exec_windowCommit (who : Accessor) (value : Word) :
    exec (.windowCommit who value) s = .next (finished s (doWindowCommit who value s)) := rfl

theorem exec_chainCfgWrite (who : Accessor) (value : Word) :
    exec (.chainCfgWrite who value) s = .next (finished s (doChainCfgWrite who value s)) := rfl

end Commands

/-! ### Snoops between nodes (R213, R401) -/

@[simp] theorem noteEpoch_snoopWaits (p : ChainPrefix) : (noteEpoch s p).chain.snoopWaits = s.chain.snoopWaits := rfl

section Snoops
variable {x : Snoop}

/-- A request that is the only one to wait, and of whose snoops none is out, waits for the requests ordered ahead of it. -/
theorem doChSnoopReq_waits {dpa : DWord} {inv : Bool} {ahead : List Word} {line : Nat} (hTaken : ChainTaken s port ck f)
    (hBody : f.body = .snoopReq dpa inv ahead) (hWaits : s.chain.snoopWaits = [])
    (hNone : snoopsFor (noteEpoch s f.pfx) (.chain f.pfx.srcNode.val f.pfx.tag.toNat) = [])
    (hLine : windowLine (noteEpoch s f.pfx) f.pfx.srcNode (chainLine dpa) = some line) :
    doChSnoopReq port ck f s = { noteEpoch s f.pfx with
      chain.snoopWaits := [(f.pfx.srcNode.val, f.pfx.tag.toNat, line, inv, ahead)] } := by
  simp only [doChSnoopReq, chainIn_of_taken hTaken, hBody, noteEpoch_snoopWaits, hWaits, hNone, hLine, List.any_nil, List.isEmpty_nil,
    Bool.not_true, Bool.or_self, Bool.false_eq_true, if_false, List.nil_append]

section Answers
variable (hTaken : ChainTaken s port ck f)
  (hFind : (s.fcd.snoops.find? fun x => x.id = f.pfx.tag.toNat && decide (0x200 ≤ x.target)) = some x)
include hTaken hFind

theorem doChSnoopRsp_clean (hBody : f.body = .snoopRsp none) : doChSnoopRsp port ck f s = answerSnoop s x := by
  simp only [doChSnoopRsp, chainIn_of_taken hTaken, hBody, hFind]

variable {line : Line} (hBody : f.body = .snoopRsp (some line))
include hBody

theorem doChSnoopRsp_ordered {p : Nat} (hPlot : chainBackPlot s x.target x.line = some p) : doChSnoopRsp port ck f s =
    (let w := acceptHostWrite s (.writeBack (Fin.ofNat 4096 x.target)) x.target p x.line line (BitVec.allOnes 64) f.pfx.poison .invalid
     answerSnoop (advanceWrite w.2 w.1) x) := by
  simp only [doChSnoopRsp, chainIn_of_taken hTaken, hBody, hFind, hPlot]

theorem doChSnoopRsp_denied (hNone : chainBackPlot s x.target x.line = none) :
    doChSnoopRsp port ck f s = answerSnoop (countDenial s x.target ((reach s x.line).getD 0xFFF) x.line) x := by
  simp only [doChSnoopRsp, chainIn_of_taken hTaken, hBody, hFind, hNone]

end Answers

theorem doChainSnoopTimeout_found {id : Nat}
    (hFind : (s.fcd.snoops.find? fun x => x.id = id && decide (0x200 ≤ x.target) && decide (x.target < 0x300)) = some x) :
    doChainSnoopTimeout id s =
      (let u := raise (setFlag s Reg.FLK_CHAIN_ERR.snoop_late) 1528 .biTimeout x.target [x.target, (plotOfLine s x.line).getD 0xFFF, x.line * 64]
       answerSnoop (dropPointer u x.line x.target) x) := by
  simp only [doChainSnoopTimeout, hFind]

end Snoops

/-! ### Routes and what they are read from (R392)

A node's route is a matter of the 256 routing entries and of the ports that are up: a write of any other register leaves it. -/

section Routes
variable {node : Nat}

/-- The search goes through the table of 256 entries, so what it finds is one of them. -/
theorem routeEntry_lt {e : Nat} (h : routeEntry s node = some e) : e < 256 := by
  obtain ⟨best, hBest, rfl⟩ := Option.map_eq_some_iff.1 h
  refine List.foldlRecOn (motive := fun found : Option (Nat × Nat) => ∀ b, found = some b → b.1 < 256) (List.range 256) _
    (by simp only [reduceCtorEq, false_implies, implies_true]) (fun found hFound e hMem b hNext => ?_) best hBest
  have hLt : e < 256 := List.mem_range.1 hMem
  split at hNext
  · exact hFound b hNext
  · split at hNext
    · split at hNext
      · cases hNext; exact hLt
      · exact hFound b hNext
    · cases hNext; exact hLt

section Agree
variable (hTable : ∀ g : Field, g.addr = Reg.FLK_ROUTE_DATA.valid.addr → ∀ e < 256, getFi u g e = getFi s g e)
include hTable

theorem routeMatch_congr {e : Nat} (he : e < 256) : routeMatch u e node = routeMatch s e node := by
  simp only [routeMatch, hTable Reg.FLK_ROUTE_DATA.valid rfl e he, hTable Reg.FLK_ROUTE_DATA.prefix_len rfl e he,
    hTable Reg.FLK_ROUTE_DATA.prefix rfl e he]

theorem routeEntry_congr : routeEntry u node = routeEntry s node := by
  unfold routeEntry
  refine congrArg (Option.map _) (List.foldl_ext _ _ _ fun best e hMem => ?_)
  rw [routeMatch_congr hTable (List.mem_range.1 hMem)]

theorem routePort_congr (hPorts : getF u Reg.FLK_CHAIN_STS.ports_up = getF s Reg.FLK_CHAIN_STS.ports_up) :
    routePort u node = routePort s node := by
  have hUps : chainPortUp u = chainPortUp s := funext fun p => by rw [chainPortUp, chainPortUp, hPorts]
  rw [routePort, routePort, routeEntry_congr hTable, hUps]
  cases hEntry : routeEntry s node with
  | none => rfl
  | some e =>
    have he := routeEntry_lt hEntry
    have hAlternate : flagI u Reg.FLK_ROUTE_DATA.alt_valid e = flagI s Reg.FLK_ROUTE_DATA.alt_valid e := by
      rw [flagI, flagI, hTable Reg.FLK_ROUTE_DATA.alt_valid rfl e he]
    dsimp only
    rw [hTable Reg.FLK_ROUTE_DATA.port rfl e he, hTable Reg.FLK_ROUTE_DATA.alt_port rfl e he, hAlternate]

end Agree

theorem routePort_setF {g : Field} (v : Nat) (hTable : g.addr ≠ Reg.FLK_ROUTE_DATA.valid.addr)
    (hPorts : g.addr ≠ Reg.FLK_CHAIN_STS.ports_up.addr) : routePort (setF s g v) node = routePort s node := by
  refine routePort_congr (fun h hh e he => getFi_setFi_ne fun hKey => ?_) (getFi_setFi_ne fun hKey => ?_)
  · exact hTable ((regKey_inj (by omega) (by omega) hKey).1.symm.trans hh)
  · exact hPorts (regKey_inj (by omega) (by omega) hKey).1.symm

/-- A frame whose tag fails is forwarded by the route it would have had. -/
theorem routePort_tagFail :
    routePort (incF (setFlag s Reg.CKU_ERR.tag_fail) Reg.CKU_TAG_FAIL.frame) node = routePort s node :=
  (routePort_setF _ (by decide) (by decide)).trans (routePort_setF _ (by decide) (by decide))

end Routes

/-! ### Frames in transit (R336, R392 to R395) -/

section Transit

section Arrivals
variable (hOn : chainOn s = true) (hStill : flushing s = false) (hUp : chainPortUp s port.val = true) (hKeyed : chainKeyed s port.val = true)
  (hJob : ck.first = .good)
include hOn hStill hUp hKeyed hJob

theorem doChainForward_otherNode (hDst : f.dst.val ≠ s.chain.nodeId) : doChainForward port ck f s =
    forwardFrame (if ck.tagOk then s else incF (setFlag s Reg.CKU_ERR.tag_fail) Reg.CKU_TAG_FAIL.frame) ck.tagOk f := by
  simp only [doChainForward, chainIn, hOn, hStill, hUp, hKeyed, frameJob_good hJob, ne_eq, hDst, not_false_eq_true, Bool.not_true,
    Bool.or_self, Bool.false_eq_true, if_false, if_true]

theorem doChainForward_badHere (hDst : f.dst.val = s.chain.nodeId) (hTag : ck.tagOk = false) :
    doChainForward port ck f s = discardChain s port.val false := by
  simp only [doChainForward, chainIn, hOn, hStill, hUp, hKeyed, frameJob_good hJob, ne_eq, hDst, hTag, not_true_eq_false, Bool.not_true,
    Bool.not_false, Bool.or_self, Bool.false_eq_true, if_false, if_true]

end Arrivals

theorem forwardFrame_relays {q : Nat} (hHops : f.hops.val ≠ 0) (hRoute : routePort s f.dst.val = some q) : forwardFrame s true f =
    (let g := { f with hops := Fin.ofNat 64 (f.hops.val - 1) }
     let u := incF { s with chain.items := sput (itemHeader itemOpen 0) s.chain.items q (itemHeader 1 (frameBytes g)) }
       Reg.FLK_CHAIN_FWD_CNT.forwarded
     emit { u with chain.sent := supd 0 u.chain.sent q (· + 1) } (.chain (Fin.ofNat 8 q) g)) := by
  simp only [forwardFrame, noteItem, chainOut, hHops, hRoute, if_false, if_true]

/-! A frame that is no snoop's and has its source at another node: that node hears what became of it. -/

section Told
variable (hAnswers : isSnoopFrame f = false) (hSource : f.pfx.srcNode.val ≠ s.chain.nodeId)
include hAnswers hSource

theorem tellIngress_otherNode (body : ChainBody) : tellIngress s f body = answerChain s f.pfx body := by
  simp only [tellIngress, hAnswers, hSource, decide_false, Bool.false_and, Bool.false_eq_true, if_false]

theorem forwardFrame_expires (good : Bool) (hHops : f.hops.val = 0) :
    forwardFrame s good f = answerChain (incF s Reg.FLK_CHAIN_DROP.hop_expired) f.pfx .unreach := by
  rw [forwardFrame, if_pos hHops]
  exact tellIngress_otherNode hAnswers (by simpa only [incF_chain] using hSource) _

theorem forwardFrame_unrouted (good : Bool) (hHops : f.hops.val ≠ 0) (hRoute : routePort s f.dst.val = none) :
    forwardFrame s good f = answerChain (incF s Reg.FLK_CHAIN_DROP.no_route) f.pfx .unreach := by
  simp only [forwardFrame, hHops, hRoute, if_false]
  exact tellIngress_otherNode hAnswers (by simpa only [incF_chain] using hSource) _

theorem forwardFrame_cutShort {q : Nat} (hHops : f.hops.val ≠ 0) (hRoute : routePort s f.dst.val = some q) :
    forwardFrame (incF (setFlag s Reg.CKU_ERR.tag_fail) Reg.CKU_TAG_FAIL.frame) false f =
      (let g := { f with hops := Fin.ofNat 64 (f.hops.val - 1) }
       let v := incF (setFlag s Reg.CKU_ERR.tag_fail) Reg.CKU_TAG_FAIL.frame
       let u := { v with
         chain.items := sput (itemHeader itemOpen 0) v.chain.items q (itemHeader itemFailed (frameBytes g))
         chain.sent := supd 0 v.chain.sent q (· + 1) }
       answerChain (incF (emit u (.chainFailTag (Fin.ofNat 8 q) g)) Reg.FLK_CHAIN_ABORT.aborts) f.pfx .abort) := by
  simp only [forwardFrame, noteItem, routePort_tagFail, hHops, hRoute, Bool.false_eq_true, if_false]
  exact tellIngress_otherNode hAnswers (by simpa only [incF_chain, setFlag_chain, emit_chain] using hSource) _

end Told

end Transit

/-! ### Neighbours (R390, R391, R439) -/

/-- A HELLO is taken whether its port has keys or not. -/
theorem doChHello_notes {node : Fin 4096} {e : Word} (hOn : chainOn s = true) (hBody : f.body = .hello node e) (hTag : ck.tagOk = true)
    (hJob : ck.first = .good) :
    doChHello port ck f s = { s with chain.neighbours := sput (0, 0) s.chain.neighbours port.val (node.val, e) } := by
  simp only [doChHello, hOn, frameJob_good hJob, ite_self, hTag, hBody, Bool.not_true, Bool.false_eq_true, if_false]

theorem doChHelloTimer_onePort {p : Nat} (hOn : chainOn s = true) (hPorts : (List.range 8).filter (chainPortUp s) = [p]) :
    doChHelloTimer s = chainOut s p {
      dst := nodeOf (sget (0, 0) s.chain.neighbours p).1, hops := maxHops s, epoch := (sget (0, 0) s.chain.neighbours p).2
      pfx := { srcNode := nodeOf s.chain.nodeId, cls := 0, poison := false, srcEpoch := s.chain.nodeEpoch, tag := 0, lowTag := 0 }
      body := .hello (nodeOf s.chain.nodeId) s.chain.nodeEpoch } := by
  simp only [doChHelloTimer, hOn, hPorts, List.foldl_cons, List.foldl_nil, Bool.not_true, Bool.false_eq_true, if_false]

theorem doChHelloTimer_off (hOff : chainOn s = false) : doChHelloTimer s = s := by
  simp only [doChHelloTimer, hOff, Bool.not_false, if_true]

/-! ### Ports (R392, R402) -/

theorem doChainPortDown_up (hUp : getF s Reg.FLK_CHAIN_STS.ports_up / 2 ^ port.val % 2 = 1) : doChainPortDown port none s =
    incFiBy (setF (setF (setF s Reg.FLK_CHAIN_STS.ports_up (clearBit (getF s Reg.FLK_CHAIN_STS.ports_up) port.val))
      (chainPortField Reg.FLK_CP_STS.up port.val) 0) (chainPortField Reg.FLK_CP_STS.lanes port.val) 0)
      (chainPortField Reg.FLK_CP_RETRY_CNT.downs port.val) 0 1 := by
  simp only [doChainPortDown, hUp, Nat.one_ne_zero, if_false]

theorem doChainPortUp_down (hStill : flushing s = false) (hDown : getF s Reg.FLK_CHAIN_STS.ports_up / 2 ^ port.val % 2 = 0) :
    doChainPortUp port s =
      setF (setF (setF s Reg.FLK_CHAIN_STS.ports_up (getF s Reg.FLK_CHAIN_STS.ports_up + 2 ^ port.val))
        (chainPortField Reg.FLK_CP_STS.up port.val) 1) (chainPortField Reg.FLK_CP_STS.lanes port.val) 4 := by
  simp only [doChainPortUp, hStill, hDown, Nat.zero_ne_one, decide_false, Bool.or_self, Bool.false_eq_true, if_false]

/-! ### Windows and identity (R384, R386, R404) -/

section Settings
variable {who : Accessor} {value : Word} (hMgr : isManager s who = true)
include hMgr

theorem doWindowCommit_invalid (hNone : windowAt s (selOf s who Reg.FLK_WIN_SEL.window) value = none) : doWindowCommit who value s =
    { writeBits s Reg.FLK_WIN_DATA3.valid.addr (selOf s who Reg.FLK_WIN_SEL.window) value 0 with
      chain.windows := sput none s.chain.windows (selOf s who Reg.FLK_WIN_SEL.window) none } := by
  simp only [doWindowCommit, setupWrite_of_isManager hMgr, hNone]

section Valid
variable {w : Window} (hWindow : windowAt s (selOf s who Reg.FLK_WIN_SEL.window) value = some w)
include hWindow

theorem doWindowCommit_overlaps (hMeets : windowOverlaps s (selOf s who Reg.FLK_WIN_SEL.window) w = true) :
    doWindowCommit who value s = setFlag s Reg.FLK_CHAIN_ERR.win_overlap := by
  simp only [doWindowCommit, setupWrite_of_isManager hMgr, hWindow, hMeets, if_true]

theorem doWindowCommit_takesEffect (hFree : windowOverlaps s (selOf s who Reg.FLK_WIN_SEL.window) w = false) : doWindowCommit who value s =
    { writeBits s Reg.FLK_WIN_DATA3.valid.addr (selOf s who Reg.FLK_WIN_SEL.window) value 0 with
      chain.windows := sput none s.chain.windows (selOf s who Reg.FLK_WIN_SEL.window) (some w) } := by
  simp only [doWindowCommit, setupWrite_of_isManager hMgr, hWindow, hFree, Bool.false_eq_true, if_false]

end Valid

theorem doChainCfgWrite_takesEffect (hWritten : writeBits s Reg.FLK_CHAIN_CFG.node_id.addr 0 value 0 = u) : doChainCfgWrite who value s =
    { u with chain.nodeId := getF u Reg.FLK_CHAIN_CFG.node_id, chain.nodeEpoch := regAt u Reg.FLK_CHAIN_EPOCH.epoch.addr 0 } := by
  simp only [doChainCfgWrite, setupWrite_of_isManager hMgr, hWritten]

end Settings

end Chain

/-- Settles O21: each command by the rule of its outcome; a frame that is cut short keeps its route, as `routePort_tagFail` says. -/
theorem chainFrames : Obligations.ChainFrames := by
  refine ⟨⟨fun s port ck f dpa inv ahead line hTaken hBody hWaits hNone hLine => ?request, fun s port ck f x hTaken hBody hFind => ?clean,
      fun s port ck f x line p hTaken hBody hFind => ⟨fun hPlot => ?ordered, fun hNone => ?denied⟩, fun s id x hFind => ?late⟩,
    ⟨fun s port ck f hOn hStill hUp hKeyed hDst hJob => ?transit,
      fun s port ck f hOn hStill hUp hKeyed hDst hJob hTag => ?discard, fun s port ck f node e hOn hBody hTag hJob => ?hello,
      fun s hOn hPorts => ?sendHello, fun s hOff => ?noHello⟩,
    ⟨fun s port hUp => ?portDown, fun s port hStill hDown => ?portUp,
      fun s who value w hMgr hWindow => ⟨fun hMeets => ?overlaps, fun hFree => ?window⟩,
      fun s who value hMgr hNone => ?noWindow, fun s u who value hMgr hWritten => ?identity⟩⟩
  case request => rw [exec_chSnoopReq, doChSnoopReq_waits hTaken hBody hWaits hNone hLine]
  case clean => rw [exec_chSnoopRsp, doChSnoopRsp_clean hTaken hFind hBody]
  case ordered => rw [exec_chSnoopRsp, doChSnoopRsp_ordered hTaken hFind hBody hPlot]
  case denied => rw [exec_chSnoopRsp, doChSnoopRsp_denied hTaken hFind hBody hNone]
  case late => rw [exec_chainSnoopTimeout, doChainSnoopTimeout_found hFind]
  case transit =>
    rw [exec_chainForward, doChainForward_otherNode hOn hStill hUp hKeyed hJob hDst]
    refine ⟨fun q hTag hHops hRoute => ?relayed, fun q hTag hHops hRoute hAnswers hSource => ?cutShort,
      fun hTag hHops hAnswers hSource => ?expired, fun hTag hHops hRoute hAnswers hSource => ?unrouted⟩ <;> rw [hTag]
    case relayed => rw [if_pos rfl, forwardFrame_relays hHops hRoute]
    case cutShort => rw [if_neg Bool.false_ne_true, forwardFrame_cutShort hAnswers hSource hHops hRoute]
    case expired => rw [if_pos rfl, forwardFrame_expires hAnswers hSource true hHops]
    case unrouted => rw [if_pos rfl, forwardFrame_unrouted hAnswers hSource true hHops hRoute]
  case discard => rw [exec_chainForward, doChainForward_badHere hOn hStill hUp hKeyed hJob hDst hTag]; rfl
  case hello => rw [exec_chHello, doChHello_notes hOn hBody hTag hJob]
  case sendHello => rw [exec_chHelloTimer, doChHelloTimer_onePort hOn hPorts]; rfl
  case noHello => rw [exec_chHelloTimer, doChHelloTimer_off hOff]
  case portDown => rw [exec_chainPortDown, doChainPortDown_up hUp]
  case portUp => rw [exec_chainPortUp, doChainPortUp_down hStill hDown]
  case overlaps => rw [exec_windowCommit, doWindowCommit_overlaps hMgr hWindow hMeets]
  case window => rw [exec_windowCommit, doWindowCommit_takesEffect hMgr hWindow hFree]; rfl
  case noWindow => rw [exec_windowCommit, doWindowCommit_invalid hMgr hNone]; rfl
  case identity => rw [exec_chainCfgWrite, doChainCfgWrite_takesEffect hMgr hWritten]; rfl

end Sys2Proof.Machine
end

section
/-! PROOFS. The buffer pools' invariant and the end of a rebuild. -/

namespace Sys2Proof.Machine

/-- Pool 0 is being rebuilt and its cache holds a handle. -/
def cachedRebuild : State := { State.reset with
  bpm.pools := [(0, { usable := 2, cache := [1], rebuilding := true })] }

/-- The cached buffer is free, so the invariant, which says nothing of `rebuilding`, holds. -/
theorem bpmInv_cachedRebuild : BpmInv cachedRebuild.bpm where
  poolsWf := by decide +kernel
  recsWf := rfl
  linesWf := rfl
  pools k _ := by
    by_cases h : 0 = k
    · subst h
      exact ⟨by decide +kernel, by decide +kernel, by decide +kernel, by decide +kernel⟩
    · have hPool : sget {} cachedRebuild.bpm.pools k = {} := if_neg h
      rw [hPool]
      exact poolInv_empty _ _
  recs _ := recInv_free

theorem exec_poolRebuildDone (s : State) (pool : Fin 3) :
    exec (.poolRebuildDone pool) s = .next (settledPools s (doPoolRebuildDone pool s)) := rfl

/-- Refutes O7: the rebuild's new ring takes in every buffer that is neither held nor quarantined, and the cache stays as it is. At
`cachedRebuild` buffer 1 is cached and stands in the new ring too, so the pool would issue it twice. The invariant lacks the conjunct that a
pool being rebuilt can issue nothing (R464), as `poolMismatch` leaves it. -/
theorem not_bpmInvKept : ¬ Obligations.BpmInvKept := by
  intro hKept
  have hInv := hKept { cachedRebuild with pending := [.poolRebuildDone 0] } _ bpmInv_cachedRebuild
    ((step_cons cachedRebuild _ []).trans (exec_poolRebuildDone ..))
  have hOnce := (hInv.pools 0 (by decide)).once
  exact absurd hOnce (by decide +kernel)

end Sys2Proof.Machine
end

section
/-! PROOFS. Pools and the records of their buffers: what one reads after a change of the other or of itself, and the statements about a grant
and about a second PUT. -/

namespace Sys2Proof.Machine

variable {s : State} {k i : Nat}

/-! ### Reads after changes -/

@[simp] theorem bufAt_updPool (f : Pool → Pool) (j : Nat) : bufAt (updPool s k f) i j = bufAt s i j := rfl

@[simp] theorem poolAt_setBuf (j : Nat) (r : BufRec) : poolAt (setBuf s k i r) j = poolAt s j := rfl

theorem bufAt_congr {t : State} (h : t.bpm = s.bpm) : bufAt t k i = bufAt s k i := by rw [bufAt, h, bufAt]

theorem poolAt_congr {t : State} (h : t.bpm = s.bpm) : poolAt t k = poolAt s k := by rw [poolAt, h, poolAt]

@[simp] theorem rejectBuf_bpm (h : Nat) (o : Owner) (reason : Nat) : (rejectBuf s h o reason).bpm = s.bpm := by
  simp only [rejectBuf, raise_bpm, incF_bpm, setFlag_bpm, setF_bpm]

/-- Only what a change makes of the pool as it stands matters. -/
theorem updPool_congr {f g : Pool → Pool} (h : f (poolAt s k) = g (poolAt s k)) : updPool s k f = updPool s k g := by
  have hRead : f (sget {} s.bpm.pools k) = g (sget {} s.bpm.pools k) := h
  rw [updPool, updPool, supd, supd, hRead]

section Wf

theorem poolAt_updPool_same (hPools : sparseWf {} s.bpm.pools = true) (f : Pool → Pool) : poolAt (updPool s k f) k = f (poolAt s k) :=
  sget_supd_same hPools

theorem updPool_poolsWf (hPools : sparseWf {} s.bpm.pools = true) (f : Pool → Pool) : sparseWf {} (updPool s k f).bpm.pools = true :=
  supd_wf hPools

variable (hRecs : sparseWf {} s.bpm.recs = true)
include hRecs

theorem bufAt_setBuf_same (r : BufRec) : bufAt (setBuf s k i r) k i = r := sget_sput_same hRecs

theorem bufAt_setBuf_ne {j : Nat} (hNe : j ≠ i) (r : BufRec) : bufAt (setBuf s k i r) k j = bufAt s k j :=
  sget_sput_ne hRecs (by unfold bufKey; omega)

end Wf

/-! ### Low pools (R472) -/

/-- The check for a low pool marks or unmarks the pool; of the rest of BPM it touches nothing. -/
theorem checkLow_bpm : (checkLow s k).bpm = s.bpm ∨ ∃ b, (checkLow s k).bpm = (updPool s k fun p => { p with low := b }).bpm := by
  unfold checkLow
  dsimp only
  split
  · exact .inr ⟨true, by rw [raise_bpm, incFi_bpm, setFlag_bpm]⟩
  · split
    · exact .inr ⟨false, rfl⟩
    · exact .inl rfl

@[simp] theorem bufAt_checkLow (j l : Nat) : bufAt (checkLow s k) j l = bufAt s j l := by
  obtain h | ⟨b, h⟩ := checkLow_bpm (s := s) (k := k)
  · exact bufAt_congr h
  · rw [bufAt, h]; rfl

/-- The check leaves everything of the pool but its mark. -/
theorem poolAt_checkLow (hPools : sparseWf {} s.bpm.pools = true) : ∃ b, poolAt (checkLow s k) k = { poolAt s k with low := b } := by
  obtain h | ⟨b, h⟩ := checkLow_bpm (s := s) (k := k)
  · exact ⟨(poolAt s k).low, by rw [poolAt_congr h]⟩
  · exact ⟨b, by rw [poolAt_congr h, poolAt_updPool_same hPools]⟩

/-! ### Handles (R461) -/

section Handles
variable {tag : Nat}

theorem handlePool_handleOf (hk : k < 4) : handlePool (handleOf k i tag) = k := by unfold handlePool handleOf; omega

theorem handleIndex_handleOf (hk : k < 4) (hi : i < 8388608) : handleIndex (handleOf k i tag) = i := by unfold handleIndex handleOf; omega

theorem handleTag_handleOf (hk : k < 4) (hi : i < 8388608) (ht : tag < 128) : handleTag (handleOf k i tag) = tag := by
  unfold handleTag handleOf; omega

end Handles

theorem badHandle_eq_false {h : Nat} : badHandle s h = false ↔ handlePool h ≠ 3 ∧ handleIndex h < (poolAt s (handlePool h)).usable := by
  rw [badHandle, Bool.or_eq_false_iff, decide_eq_false_iff_not, decide_eq_false_iff_not, Nat.not_le]

/-! ### Grants (R461, R463, R465) -/

/-- A pool with a handle in its cache that is not being rebuilt grants the one on top, under the next tag. -/
theorem bufGrant_cons {o : Owner} {rest : List Nat} (hCache : (poolAt s k).cache = i :: rest) (hStill : (poolAt s k).rebuilding = false) :
    bufGrant s k o = some (handleOf k i (((bufAt s k i).tag + 1) % 128),
      checkLow (incFi (setBuf (updPool s k fun p => { p with cache := rest, lastGrant := some o }) k i
        { held := true, owners := [o], tag := ((bufAt s k i).tag + 1) % 128 }) Reg.BPM_POOL_GRANTS.grants k) k) := by
  simp only [bufGrant, hCache, hStill, Bool.false_eq_true, if_false]

theorem bufGrant_none (o : Owner) (h : (poolAt s k).cache = [] ∨ (poolAt s k).rebuilding = true) : bufGrant s k o = none := by
  unfold bufGrant
  dsimp only
  split
  · rfl
  · next hCache =>
    rw [hCache] at h
    rw [if_pos (h.resolve_left (List.cons_ne_nil _ _))]

/-- What a grant that succeeds was: the pool's topmost handle, and the state of `bufGrant_cons`. -/
theorem bufGrant_some {o : Owner} {h : Nat} {t : State} (hGrant : bufGrant s k o = some (h, t)) :
    ∃ j rest, (poolAt s k).cache = j :: rest ∧ h = handleOf k j (((bufAt s k j).tag + 1) % 128) ∧
      t = checkLow (incFi (setBuf (updPool s k fun p => { p with cache := rest, lastGrant := some o }) k j
        { held := true, owners := [o], tag := ((bufAt s k j).tag + 1) % 128 }) Reg.BPM_POOL_GRANTS.grants k) k := by
  cases hCache : (poolAt s k).cache with
  | nil => rw [bufGrant_none o (.inl hCache)] at hGrant; cases hGrant
  | cons j rest =>
    cases hStill : (poolAt s k).rebuilding with
    | true => rw [bufGrant_none o (.inr hStill)] at hGrant; cases hGrant
    | false =>
      rw [bufGrant_cons hCache hStill] at hGrant
      cases hGrant
      exact ⟨j, rest, rfl, rfl, rfl⟩

/-- Settles O43: the handle on top of the cache is one the pool can issue, so by the invariant its buffer is one of the pool's, free and not
quarantined. -/
theorem grantIsFresh : Obligations.GrantIsFresh := by
  intro s t k h o hInv hk hGrant
  obtain ⟨i, rest, hCache, rfl, rfl⟩ := bufGrant_some hGrant
  have hPool : PoolInv s.bpm.recs k (poolAt s k) := hInv.pools k hk
  have hTop : i ∈ issuable (poolAt s k) := by rw [issuable, hCache]; exact List.mem_append_left _ List.mem_cons_self
  have hOwn : i < (poolAt s k).usable := hPool.own i hTop
  have hFits : i < 8388608 := Nat.lt_of_lt_of_le hOwn hPool.fits
  obtain ⟨hFree, hSound⟩ := hPool.free i hTop
  have hPoolNo : handlePool (handleOf k i (((bufAt s k i).tag + 1) % 128)) = k := handlePool_handleOf (by omega)
  rw [handleIndex_handleOf (by omega) hFits, handleTag_handleOf (by omega) hFits (Nat.mod_lt _ (by decide))]
  refine ⟨hPoolNo, ?good, hFree, hSound, ?record, rfl, fun j hNe _ => ?others⟩
  case good => rw [badHandle_eq_false, hPoolNo, handleIndex_handleOf (by omega) hFits]; exact ⟨by omega, hOwn⟩
  case record => rw [bufAt_checkLow, bufAt_congr (incFi_bpm ..), bufAt_setBuf_same]; exact hInv.recsWf
  case others => rw [bufAt_checkLow, bufAt_congr (incFi_bpm ..), bufAt_setBuf_ne _ hNe, bufAt_updPool]; exact hInv.recsWf

/-! ### PUT (R467 to R469) -/

section Put
variable {h : Nat} {o : Owner}

theorem bufPut_badHandle (hBad : badHandle s h = true) : bufPut s h o = rejectBuf s h o 2 := by
  rw [bufPut, if_pos hBad]

variable (hGood : badHandle s h = false)
include hGood

theorem bufPut_quarantined (hQuar : (bufAt s (handlePool h) (handleIndex h)).quarantined = true) : bufPut s h o = s := by
  simp only [bufPut, hGood, hQuar, Bool.false_eq_true, if_false, if_true]

variable (hSound : (bufAt s (handlePool h) (handleIndex h)).quarantined = false)
include hSound

theorem bufPut_rebuilding (hRebuilds : (poolAt s (handlePool h)).rebuilding = true) : bufPut s h o =
    updPool s (handlePool h) fun p => { p with waitingPuts := p.waitingPuts ++ [(handleIndex h, handleTag h, o)] } := by
  simp only [bufPut, hGood, hSound, hRebuilds, Bool.false_eq_true, if_false, if_true]

variable (hStill : (poolAt s (handlePool h)).rebuilding = false)
include hStill

theorem bufPut_rejected {reason : Nat} (hReason : freeReason (bufAt s (handlePool h) (handleIndex h)) (handleTag h) o = some reason) :
    bufPut s h o = rejectBuf s h o reason := by
  simp only [bufPut, hGood, hSound, hStill, hReason, Bool.false_eq_true, if_false]

variable (hMay : freeReason (bufAt s (handlePool h) (handleIndex h)) (handleTag h) o = none)
include hMay

theorem bufPut_last (hLast : (bufAt s (handlePool h) (handleIndex h)).owners.filter (fun x => x ≠ o) = []) : bufPut s h o =
    checkLow (updPool (setBuf s (handlePool h) (handleIndex h)
      { bufAt s (handlePool h) (handleIndex h) with held := false, untrusted := false, owners := [] }) (handlePool h)
      fun p => { p with cache := handleIndex h :: p.cache }) (handlePool h) := by
  simp only [bufPut, hGood, hSound, hStill, hMay, hLast, List.isEmpty_nil, Bool.false_eq_true, if_false, if_true]

theorem bufPut_shared (hOthers : (bufAt s (handlePool h) (handleIndex h)).owners.filter (fun x => x ≠ o) ≠ []) : bufPut s h o =
    setBuf s (handlePool h) (handleIndex h) { bufAt s (handlePool h) (handleIndex h) with
      owners := (bufAt s (handlePool h) (handleIndex h)).owners.filter fun x => x ≠ o } := by
  simp only [bufPut, hGood, hSound, hStill, hMay, List.isEmpty_eq_false_iff.2 hOthers, Bool.false_eq_true, if_false]

end Put

theorem freeReason_of_free {r : BufRec} {tag : Nat} {o : Owner} (hFree : r.held = false) : freeReason r tag o = some 0 := by
  simp only [freeReason, hFree, Bool.not_false, Bool.true_or, if_true]

theorem freeReason_of_unlisted {r : BufRec} {tag : Nat} {o : Owner} (hOut : r.owners.contains o = false) :
    ∃ reason, freeReason r tag o = some reason := by
  unfold freeReason
  split
  · exact ⟨0, rfl⟩
  · exact ⟨1, by rw [hOut, Bool.not_false, if_pos rfl]⟩

theorem exec_bufferPut (handle : Word) (owner : Owner) (bad : Bool) :
    exec (.bufferPut handle owner bad) s = .next (settledPools s (doBufferPut handle owner bad s)) := rfl

theorem doBufferPut_sound (handle : Word) (owner : Owner) (hOn : s.phs.flushStart = none) :
    doBufferPut handle owner false s = bufPut s handle.toNat owner := by
  simp only [doBufferPut, hOn, Option.isSome_none, noteRecord, Bool.false_and, Bool.false_eq_true, if_false]

/-- A handle stays good where its pool keeps its size. -/
theorem badHandle_of_usable {t : State} {h : Nat} (hSize : (poolAt t (handlePool h)).usable = (poolAt s (handlePool h)).usable) :
    badHandle t h = badHandle s h := by
  rw [badHandle, badHandle, hSize]

/-- A PUT that is accepted leaves the pool's size and its rebuild as they were, and the buffer's record one by which the same PUT is
rejected. -/
theorem bufPut_accepted {h : Nat} {o : Owner} (hInv : BpmInv s.bpm) (hGood : badHandle s h = false)
    (hSound : (bufAt s (handlePool h) (handleIndex h)).quarantined = false) (hStill : (poolAt s (handlePool h)).rebuilding = false)
    (hMay : freeReason (bufAt s (handlePool h) (handleIndex h)) (handleTag h) o = none) :
    (∃ cache low, poolAt (bufPut s h o) (handlePool h) = { poolAt s (handlePool h) with cache := cache, low := low }) ∧
    ∃ r reason, bufAt (bufPut s h o) (handlePool h) (handleIndex h) = r ∧ r.quarantined = false ∧ freeReason r (handleTag h) o = some reason := by
  by_cases hLast : (bufAt s (handlePool h) (handleIndex h)).owners.filter (fun x => x ≠ o) = []
  · rw [bufPut_last hGood hSound hStill hMay hLast]
    constructor
    · obtain ⟨b, hPool⟩ := poolAt_checkLow (k := handlePool h) (s := updPool (setBuf s (handlePool h) (handleIndex h)
        { bufAt s (handlePool h) (handleIndex h) with held := false, untrusted := false, owners := [] }) (handlePool h)
        fun p => { p with cache := handleIndex h :: p.cache }) (updPool_poolsWf hInv.poolsWf _)
      rw [hPool, poolAt_updPool_same (by exact hInv.poolsWf)]
      exact ⟨_, b, rfl⟩
    · rw [bufAt_checkLow, bufAt_updPool, bufAt_setBuf_same hInv.recsWf]
      exact ⟨_, 0, rfl, hSound, freeReason_of_free rfl⟩
  · rw [bufPut_shared hGood hSound hStill hMay hLast]
    obtain ⟨reason, hReason⟩ := freeReason_of_unlisted (r := { bufAt s (handlePool h) (handleIndex h) with
      owners := (bufAt s (handlePool h) (handleIndex h)).owners.filter fun x => x ≠ o }) (tag := handleTag h) (o := o)
      (by simp only [ne_eq, List.contains_eq_mem, List.mem_filter, decide_not, decide_true, Bool.not_true, Bool.false_eq_true, and_false, decide_false])
    exact ⟨⟨_, _, rfl⟩, _, reason, bufAt_setBuf_same hInv.recsWf _, hSound, hReason⟩

/-- Settles O42: the first PUT frees the buffer or takes the owner's name from it, and either is a reason to reject the second. -/
theorem secondPutRejected : Obligations.SecondPutRejected := by
  intro s handle owner hInv hOn hGood hSound hStill hMay
  obtain ⟨⟨cache, low, hPool⟩, r, reason, hRec, hStays, hReason⟩ := bufPut_accepted hInv hGood hSound hStill hMay
  refine ⟨by rw [exec_bufferPut, doBufferPut_sound handle owner hOn], reason, bufPut_rejected ?_ ?_ ?_ ?_⟩
  · exact (badHandle_of_usable (by rw [hPool])).trans hGood
  · rw [hRec, hStays]
  · rw [hPool, hStill]
  · rw [hRec, hReason]

end Sys2Proof.Machine
end

section
/-! PROOFS. The buffer commands: each as its effect, one rule per outcome, and the statement about them. -/

namespace Sys2Proof.Machine

/-! ### The commands as their effects -/

section Commands
variable (s : State)

theorem exec_bufferGet (bytes : Nat) (owners : List Owner) : exec (.bufferGet bytes owners) s = .next (ended s (doBufferGet bytes owners s)) := rfl

theorem exec_bufferShare (handle : Word) (owner adds : Owner) (bad : Bool) :
    exec (.bufferShare handle owner adds bad) s = .next (ended s (doBufferShare handle owner adds bad s)) := rfl

theorem exec_bufferLineAccess (handle : Word) (owner : Owner) (line : Fin 1024) (access : BufAccess) :
    exec (.bufferLineAccess handle owner line access) s = .next (ended s (doBufferLineAccess handle owner line access s)) := rfl

theorem exec_poolRefill (pool : Fin 3) (mismatch : Bool) :
    exec (.poolRefill pool mismatch) s = .next (settledPools s (doPoolRefill pool mismatch s)) := rfl

end Commands

section Rules
variable {s : State}

/-! ### GET (R459, R465) -/

section Get
variable {k : Nat} {owners : List Owner}

theorem nextOwner_isSome (last : Option Owner) (hAsk : owners ≠ []) : (nextOwner last owners).isSome = true := by
  obtain ⟨o, rest, rfl⟩ := List.exists_cons_of_ne_nil hAsk
  refine List.foldlRecOn (motive := fun best : Option Owner => best.isSome = true) rest _ rfl fun best hBest x _ => ?_
  obtain ⟨b, rfl⟩ := Option.isSome_iff_exists.1 hBest
  dsimp only
  split <;> rfl

theorem grantOne_granted {o : Owner} {h : Nat} {t : State} (hTurn : nextOwner (poolAt s k).lastGrant owners = some o)
    (hGrant : bufGrant s k o = some (h, t)) : grantOne s k owners =
      if (poolAt t k).cache.isEmpty then answerEmpty (emit t (.bufGrant o h)) k (owners.erase o) else emit t (.bufGrant o h) := by
  simp only [grantOne, hTurn, hGrant]
  rfl

theorem grantOne_empty (h : (poolAt s k).cache = [] ∨ (poolAt s k).rebuilding = true) : grantOne s k owners = answerEmpty s k owners := by
  unfold grantOne
  split
  · next hNobody =>
    by_cases hAsk : owners = []
    · rw [hAsk]; rfl
    · exact absurd (nextOwner_isSome (poolAt s k).lastGrant hAsk) (by rw [hNobody]; exact Bool.false_ne_true)
  · rw [bufGrant_none _ h]

variable (hOn : s.phs.flushStart = none) {bytes : Nat}
include hOn

theorem doBufferGet_served (hPool : poolFor bytes = some k) : doBufferGet bytes owners s = grantOne s k owners := by
  simp only [doBufferGet, hOn, hPool, Option.isSome_none, Bool.false_eq_true, if_false]

theorem doBufferGet_badSize (hSize : bytes = 0 ∨ 65536 < bytes) :
    doBufferGet bytes owners s = owners.foldl (fun s o => emit s (.bufBadSize o)) s := by
  have hNone : poolFor bytes = none := by
    unfold poolFor
    rcases hSize with rfl | hSize
    · rfl
    · rw [if_neg (by omega), if_neg (by omega), if_neg (by omega), if_neg (by omega)]
  simp only [doBufferGet, hOn, hNone, Option.isSome_none, Bool.false_eq_true, if_false]

end Get

/-! ### SHARE (R467, R469) -/

section Share
variable {h : Nat} {o adds : Owner}

theorem bufShare_badHandle (hBad : badHandle s h = true) : bufShare s h o adds = rejectBuf s h o 2 := by
  rw [bufShare, if_pos hBad]

variable (hGood : badHandle s h = false)
include hGood

theorem bufShare_quarantined (hQuar : (bufAt s (handlePool h) (handleIndex h)).quarantined = true) : bufShare s h o adds = s := by
  simp only [bufShare, hGood, hQuar, Bool.false_eq_true, if_false, if_true]

variable (hSound : (bufAt s (handlePool h) (handleIndex h)).quarantined = false)
include hSound

theorem bufShare_rejected {reason : Nat} (hReason : freeReason (bufAt s (handlePool h) (handleIndex h)) (handleTag h) o = some reason) :
    bufShare s h o adds = rejectBuf s h o reason := by
  simp only [bufShare, hGood, hSound, hReason, Bool.false_eq_true, if_false]

variable (hMay : freeReason (bufAt s (handlePool h) (handleIndex h)) (handleTag h) o = none)
include hMay

theorem bufShare_listed (hIn : (bufAt s (handlePool h) (handleIndex h)).owners.contains adds = true) : bufShare s h o adds = s := by
  simp only [bufShare, hGood, hSound, hMay, hIn, Bool.false_eq_true, if_false, if_true]

variable (hOut : (bufAt s (handlePool h) (handleIndex h)).owners.contains adds = false)
include hOut

theorem bufShare_adds (hRoom : (bufAt s (handlePool h) (handleIndex h)).owners.length < 8) : bufShare s h o adds =
    setBuf s (handlePool h) (handleIndex h) { bufAt s (handlePool h) (handleIndex h) with
      owners := (bufAt s (handlePool h) (handleIndex h)).owners ++ [adds] } := by
  simp only [bufShare, hGood, hSound, hMay, hOut, hRoom, Bool.false_eq_true, if_false, if_true]

theorem bufShare_full (hFull : 8 ≤ (bufAt s (handlePool h) (handleIndex h)).owners.length) : bufShare s h o adds =
    incF (setFlag s Reg.BPM_ERR.share_full) Reg.BPM_BAD_FREE_CNT.share_full := by
  simp only [bufShare, hGood, hSound, hMay, hOut, Nat.not_lt.2 hFull, Bool.false_eq_true, if_false]

end Share

/-! ### Records that cannot be read (R469) -/

section Record
variable {h : Nat} {bad : Bool}

theorem noteRecord_badHandle (hBad : badHandle s h = true) : noteRecord s h bad = s := by
  simp only [noteRecord, hBad, Bool.not_true, Bool.and_false, Bool.false_eq_true, if_false]

theorem noteRecord_unread (hGood : badHandle s h = false) : noteRecord s h true = quarantineBuf s (handlePool h) (handleIndex h) := by
  simp only [noteRecord, hGood, Bool.not_false, Bool.and_self, if_true]

theorem quarantineBuf_again {k i : Nat} (hQuar : (bufAt s k i).quarantined = true) : quarantineBuf s k i = s := by
  simp only [quarantineBuf, hQuar, if_true]

theorem noteRecord_quarantined (hQuar : (bufAt s (handlePool h) (handleIndex h)).quarantined = true) : noteRecord s h bad = s := by
  rw [noteRecord, quarantineBuf_again hQuar, ite_self]

/-- A quarantined buffer stands so in its record, and its pool keeps its size. -/
theorem quarantineBuf_leaves {k i : Nat} (hInv : BpmInv s.bpm) : (bufAt (quarantineBuf s k i) k i).quarantined = true ∧
    (poolAt (quarantineBuf s k i) k).usable = (poolAt s k).usable := by
  cases hQuar : (bufAt s k i).quarantined with
  | true => rw [quarantineBuf_again hQuar]; exact ⟨hQuar, rfl⟩
  | false =>
    have hEq : ∃ u, quarantineBuf s k i = checkLow u k ∧ u.bpm =
        (updPool (setBuf s k i { bufAt s k i with quarantined := true }) k fun p =>
          { p with cache := p.cache.filter fun j => j ≠ i, ring := cutRun i p.ring }).bpm := by
      simp only [quarantineBuf, hQuar, Bool.false_eq_true, if_false]
      exact ⟨_, rfl, by rw [raise_bpm, incF_bpm, setFlag_bpm]⟩
    obtain ⟨u, hEnd, hBpm⟩ := hEq
    obtain ⟨b, hPool⟩ := poolAt_checkLow (s := u) (k := k) (by rw [hBpm]; exact updPool_poolsWf hInv.poolsWf _)
    rw [hEnd, bufAt_checkLow, bufAt_congr hBpm, bufAt_updPool, bufAt_setBuf_same hInv.recsWf, hPool, poolAt_congr hBpm,
      poolAt_updPool_same (by exact hInv.poolsWf), poolAt_setBuf]
    exact ⟨rfl, rfl⟩

end Record

/-! ### SHARE, PUT and lines as the commands do them (R468 to R471) -/

section Handle
variable {handle : Word} {owner adds : Owner} {bad : Bool} {line : Fin 1024} {access : BufAccess}

section Flush
variable (hFlush : s.phs.flushStart ≠ none)
include hFlush

theorem doBufferGet_flush (bytes : Nat) (owners : List Owner) : doBufferGet bytes owners s = s := if_pos (Option.isSome_iff_ne_none.2 hFlush)

theorem doBufferShare_flush : doBufferShare handle owner adds bad s = s := if_pos (Option.isSome_iff_ne_none.2 hFlush)

theorem doBufferPut_flush : doBufferPut handle owner bad s = s := if_pos (Option.isSome_iff_ne_none.2 hFlush)

theorem doBufferLineAccess_flush : doBufferLineAccess handle owner line access s = s := if_pos (Option.isSome_iff_ne_none.2 hFlush)

end Flush

variable (hOn : s.phs.flushStart = none)
include hOn

theorem doBufferShare_eq : doBufferShare handle owner adds bad s = bufShare (noteRecord s handle.toNat bad) handle.toNat owner adds := by
  simp only [doBufferShare, hOn, Option.isSome_none, Bool.false_eq_true, if_false]

theorem doBufferPut_eq : doBufferPut handle owner bad s = bufPut (noteRecord s handle.toNat bad) handle.toNat owner := by
  simp only [doBufferPut, hOn, Option.isSome_none, Bool.false_eq_true, if_false]

theorem doBufferShare_sound : doBufferShare handle owner adds false s = bufShare s handle.toNat owner adds := by
  rw [doBufferShare_eq hOn, noteRecord, Bool.false_and, if_neg Bool.false_ne_true]

theorem doBufferLineAccess_foreign (hNot : badHandle s handle.toNat = true ∨
    freeReason (bufAt s (handlePool handle.toNat) (handleIndex handle.toNat)) (handleTag handle.toNat) owner ≠ none) :
    doBufferLineAccess handle owner line access s = rejectBuf s handle.toNat owner 3 := by
  have hEither : (badHandle s handle.toNat ||
      (freeReason (bufAt s (handlePool handle.toNat) (handleIndex handle.toNat)) (handleTag handle.toNat) owner).isSome) = true := by
    rw [Bool.or_eq_true, Option.isSome_iff_ne_none]; exact hNot
  simp only [doBufferLineAccess, hOn, hEither, Option.isSome_none, Bool.false_eq_true, if_false, if_true]

variable (hGood : badHandle s handle.toNat = false)
  (hMay : freeReason (bufAt s (handlePool handle.toNat) (handleIndex handle.toNat)) (handleTag handle.toNat) owner = none)
include hGood hMay

theorem doBufferLineAccess_beyond (hLine : poolLines (handlePool handle.toNat) ≤ line.val) :
    doBufferLineAccess handle owner line access s = s := by
  simp only [doBufferLineAccess, hOn, hGood, hMay, hLine, Option.isSome_none, Bool.or_self, Bool.false_eq_true, if_false, if_true]

theorem doBufferLineAccess_within (hLine : line.val < poolLines (handlePool handle.toNat)) : doBufferLineAccess handle owner line access s =
    match access with
    | .read bad => readBufLine s (handlePool handle.toNat) (handleIndex handle.toNat) line.val owner bad
    | .write be data poison untrusted =>
      writeBufLine s (handlePool handle.toNat) (handleIndex handle.toNat) line.val be data poison untrusted := by
  cases access <;>
    simp only [doBufferLineAccess, hOn, hGood, hMay, Nat.not_le.2 hLine, Option.isSome_none, Bool.or_self, Bool.false_eq_true, if_false]

end Handle

/-! ### Refill and rebuild (R463, R464) -/

section Pools
variable {pool : Fin 3}

theorem doPoolRefill_still {bad : Bool} (h : s.phs.flushStart ≠ none ∨ (poolAt s pool.val).rebuilding = true) : doPoolRefill pool bad s = s :=
  if_pos (by rw [Bool.or_eq_true, Option.isSome_iff_ne_none]; exact h)

theorem doPoolRebuildDone_rebuilt (hRebuilds : (poolAt s pool.val).rebuilding = true) : doPoolRebuildDone pool s =
    (poolAt s pool.val).waitingPuts.foldl (fun s w => bufPut s (handleOf pool.val w.1 w.2.1) w.2.2) (updPool s pool.val fun q => { q with
      ring := (takenIndices s pool.val).foldl (fun runs i => cutRun i runs)
        (if (poolAt s pool.val).usable = 0 then [] else [(0, (poolAt s pool.val).usable)])
      rebuilding := false, waitingPuts := [] }) := by
  simp only [doPoolRebuildDone, hRebuilds, Bool.not_true, Bool.false_eq_true, if_false]

theorem doPoolRebuildDone_none (hNot : (poolAt s pool.val).rebuilding = false) : doPoolRebuildDone pool s = s := by
  simp only [doPoolRebuildDone, hNot, Bool.not_false, if_true]

variable (hOn : s.phs.flushStart = none) (hStill : (poolAt s pool.val).rebuilding = false)
include hOn hStill

theorem doPoolRefill_mismatch : doPoolRefill pool true s = poolMismatch s pool.val := by
  simp only [doPoolRefill, hOn, hStill, Option.isSome_none, Bool.or_self, Bool.false_eq_true, if_false, if_true]

theorem doPoolRefill_takes (hLow : (poolAt s pool.val).cache.length < 256) : doPoolRefill pool false s =
    updPool s pool.val fun p => { p with cache := (takeRuns 512 p.ring).1.reverse ++ p.cache, ring := (takeRuns 512 p.ring).2 } := by
  simp only [doPoolRefill, hOn, hStill, hLow, Option.isSome_none, Bool.or_self, Bool.false_eq_true, if_false, if_true]
  exact updPool_congr rfl

theorem doPoolRefill_between (hLow : 256 ≤ (poolAt s pool.val).cache.length) (hHigh : (poolAt s pool.val).cache.length ≤ 896) :
    doPoolRefill pool false s = s := by
  simp only [doPoolRefill, hOn, hStill, Nat.not_lt.2 hLow, Nat.not_lt.2 hHigh, Option.isSome_none, Bool.or_self, Bool.false_eq_true, if_false]

theorem doPoolRefill_gives (hHigh : 896 < (poolAt s pool.val).cache.length) : doPoolRefill pool false s =
    updPool s pool.val fun p => { p with
      cache := p.cache.take (p.cache.length - 512)
      ring := p.ring ++ ((p.cache.drop (p.cache.length - 512)).reverse.map fun i => (i, 1)) } := by
  have hLow : ¬ (poolAt s pool.val).cache.length < 256 := by omega
  simp only [doPoolRefill, hOn, hStill, hLow, hHigh, Option.isSome_none, Bool.or_self, Bool.false_eq_true, if_false, if_true]
  exact updPool_congr rfl

end Pools

end Rules

/-- Settles O41: each command by the rule of its outcome; a buffer whose record could not be read is quarantined before its SHARE or PUT is
looked at, which then does nothing. -/
theorem bufferCommands : Obligations.BufferCommands := by
  refine ⟨⟨fun s t bytes k h owners o hOn hPool hTurn hGrant => ⟨fun hMore => ?granted, fun hEmpty => ?last⟩,
      fun s bytes k owners hOn hPool hNone => ?empty, fun s bytes owners hOn hSize => ?badSize, fun s bytes owners hFlush => ?getFlush⟩,
    ?shareAndPut,
    fun s handle owner line hOn hGood hMay hLine => ⟨fun bad => ?read, fun be data poison untrusted => ?write⟩,
    fun s handle owner line access hOn hReason => ?foreign, fun s handle owner line access hOn hGood hMay hLine => ?beyond, ?refill,
    fun s pool bad hNot => ?noRefill, ?rebuilt, fun s pool hNot => ?noRebuild,
    fun s handle owner adds bad hOn hBad => ⟨?shareBad, ?putBad, fun line access => ?lineBad⟩,
    fun s handle owner adds hInv hOn hGood => ?unread,
    fun s handle owner adds hOn hGood hQuar bad => ⟨?shareQuar, ?putQuar⟩,
    fun s handle owner adds bad hFlush => ⟨?shareFlush, ?putFlush, fun line access => ?lineFlush⟩⟩
  case granted =>
    rw [exec_bufferGet, doBufferGet_served hOn hPool, grantOne_granted hTurn hGrant, if_neg (by rwa [List.isEmpty_iff])]
  case last =>
    rw [exec_bufferGet, doBufferGet_served hOn hPool, grantOne_granted hTurn hGrant, if_pos (by rwa [List.isEmpty_iff]), answerEmpty]
  case empty => rw [exec_bufferGet, doBufferGet_served hOn hPool, grantOne_empty hNone, answerEmpty]
  case badSize => rw [exec_bufferGet, doBufferGet_badSize hOn hSize]
  case getFlush => rw [exec_bufferGet, doBufferGet_flush hFlush]
  case shareAndPut =>
    rintro s handle owner r k i tag hOn rfl rfl rfl hGood rfl hSound
    refine ⟨fun adds hMay hOut hRoom => ?adds, fun adds hMay hOut hFull => ?full, fun adds reason hReason => ?shareRejected,
      fun adds hMay hIn => ?listed, fun reason hReason hStill => ?putRejected, fun hMay hStill hLast => ?frees,
      fun hMay hStill hOthers => ?leaves, fun hRebuilds => ?waits⟩
    case adds => rw [exec_bufferShare, doBufferShare_sound hOn, bufShare_adds hGood hSound hMay hOut hRoom]
    case full => rw [exec_bufferShare, doBufferShare_sound hOn, bufShare_full hGood hSound hMay hOut hFull]
    case shareRejected => rw [exec_bufferShare, doBufferShare_sound hOn, bufShare_rejected hGood hSound hReason]
    case listed => rw [exec_bufferShare, doBufferShare_sound hOn, bufShare_listed hGood hSound hMay hIn]
    case putRejected => rw [exec_bufferPut, doBufferPut_sound handle owner hOn, bufPut_rejected hGood hSound hStill hReason]
    case frees => rw [exec_bufferPut, doBufferPut_sound handle owner hOn, bufPut_last hGood hSound hStill hMay hLast]
    case leaves => rw [exec_bufferPut, doBufferPut_sound handle owner hOn, bufPut_shared hGood hSound hStill hMay hOthers]
    case waits => rw [exec_bufferPut, doBufferPut_sound handle owner hOn, bufPut_rebuilding hGood hSound hRebuilds]
  case read => rw [exec_bufferLineAccess, doBufferLineAccess_within hOn hGood hMay hLine]
  case write => rw [exec_bufferLineAccess, doBufferLineAccess_within hOn hGood hMay hLine]
  case foreign => rw [exec_bufferLineAccess, doBufferLineAccess_foreign hOn (.inr hReason)]
  case beyond => rw [exec_bufferLineAccess, doBufferLineAccess_beyond hOn hGood hMay hLine]
  case refill =>
    rintro s pool p hOn rfl hStill
    refine ⟨fun hLow => ?_, fun hLow hHigh => ?_, fun hHigh => ?_, ?_⟩ <;> rw [exec_poolRefill]
    · rw [doPoolRefill_takes hOn hStill hLow]
    · rw [doPoolRefill_between hOn hStill hLow hHigh]
    · rw [doPoolRefill_gives hOn hStill hHigh]
    · rw [doPoolRefill_mismatch hOn hStill, poolMismatch]
  case noRefill => rw [exec_poolRefill, doPoolRefill_still hNot]
  case rebuilt =>
    rintro s pool p rfl hRebuilds
    rw [exec_poolRebuildDone, doPoolRebuildDone_rebuilt hRebuilds]
  case noRebuild => rw [exec_poolRebuildDone, doPoolRebuildDone_none hNot]
  case shareBad => rw [exec_bufferShare, doBufferShare_eq hOn, noteRecord_badHandle hBad, bufShare_badHandle hBad]
  case putBad => rw [exec_bufferPut, doBufferPut_eq hOn, noteRecord_badHandle hBad, bufPut_badHandle hBad]
  case lineBad => rw [exec_bufferLineAccess, doBufferLineAccess_foreign hOn (.inl hBad)]
  case unread =>
    obtain ⟨hQuar, hSize⟩ := quarantineBuf_leaves (k := handlePool handle.toNat) (i := handleIndex handle.toNat) hInv
    have hStays := (badHandle_of_usable hSize).trans hGood
    constructor
    · rw [exec_bufferShare, doBufferShare_eq hOn, noteRecord_unread hGood, bufShare_quarantined hStays hQuar]
    · rw [exec_bufferPut, doBufferPut_eq hOn, noteRecord_unread hGood, bufPut_quarantined hStays hQuar]
  case shareQuar => rw [exec_bufferShare, doBufferShare_eq hOn, noteRecord_quarantined hQuar, bufShare_quarantined hGood hQuar]
  case putQuar => rw [exec_bufferPut, doBufferPut_eq hOn, noteRecord_quarantined hQuar, bufPut_quarantined hGood hQuar]
  case shareFlush => rw [exec_bufferShare, doBufferShare_flush hFlush]
  case putFlush => rw [exec_bufferPut, doBufferPut_flush hFlush]
  case lineFlush => rw [exec_bufferLineAccess, doBufferLineAccess_flush hFlush]

end Sys2Proof.Machine
end

section
/-! PROOFS. Scrubbing and the correctable-error log: each command as its effect, one rule per outcome, and the statement about them. -/

namespace Sys2Proof.Machine

section Scrub
variable {s : State} {engine : Fin 4}

theorem exec_ceScrubWriteback (s : State) (engine : Fin 4) :
    exec (.ceScrubWriteback engine) s = .next (finished s (doCeScrubWriteback engine s)) := rfl

theorem exec_patrolScrubRead (s : State) (engine : Fin 4) (d : LoamDecode) :
    exec (.patrolScrubRead engine d) s = .next (settled s (doPatrolScrubRead engine d s)) := rfl

theorem exec_ceLogExpiry (s : State) (entry : Fin 64) : exec (.ceLogExpiry entry) s = .next (finished s (doCeLogExpiry entry s)) := rfl

theorem exec_ceSecondTimer (s : State) : exec .ceSecondTimer s = .next (finished s (doCeSecondTimer s)) := rfl

/-! ### Write-backs (R413, R414) -/

section WriteBack
variable {w : ScrubWb} {rest : List ScrubWb} (hQueue : sget [] s.diu.scrubQueue engine.val = w :: rest) (hStill : flushing s = false)
include hQueue hStill

theorem doCeScrubWriteback_drops (hStale : w.stale = true) : doCeScrubWriteback engine s =
    incF { s with diu.scrubQueue := sput [] s.diu.scrubQueue engine.val rest } Reg.DIU_SCRUB_STS.dropped := by
  simp only [doCeScrubWriteback, hQueue, hStill, hStale, Bool.true_or, Bool.false_eq_true, if_false, if_true]

theorem doCeScrubWriteback_issues (hFresh : w.stale = false) (hSame : loamAt s w.lpa = w.val) : doCeScrubWriteback engine s =
    lmcRequest (ceUpd { s with diu.scrubQueue := sput [] s.diu.scrubQueue engine.val rest } w.lpa fun e => { e with writtenBack := true })
      (0x310 + engine.val) true w.lpa := by
  have hStands : loamAt { s with diu.scrubQueue := sput [] s.diu.scrubQueue engine.val rest } w.lpa = w.val := hSame
  simp only [doCeScrubWriteback, hQueue, hStill, hFresh, hStands, ne_eq, not_true_eq_false, decide_false, Bool.or_self,
    Bool.false_eq_true, if_false]

end WriteBack

/-! ### Patrol scrub (R417) -/

theorem doPatrolScrubRead_off (d : LoamDecode) (h : flag s Reg.DIU_SCRUB_CFG.enable = false ∨ flushing s = true) :
    doPatrolScrubRead engine d s = s :=
  if_pos (by rw [Bool.or_eq_true, Bool.not_eq_true']; exact h)

theorem checkPass_underWay {e : Nat} (hPass : passEnded s e = false) : checkPass s e = s := by
  simp only [checkPass, hPass, Bool.false_and, Bool.false_eq_true, if_false]

theorem doPatrolScrubRead_reads {lpa ch : Nat} (d : LoamDecode) (hOn : flag s Reg.DIU_SCRUB_CFG.enable = true) (hStill : flushing s = false)
    (hPass : passEnded s engine.val = false) (hTarget : scrubTargets s engine.val = [(lpa, ch)]) : doPatrolScrubRead engine d s =
      (let v := engineRow (checkPass { s with diu.scrubNext := sput 0 s.diu.scrubNext ch (lpa + 1) } engine.val) (0x310 + engine.val) false lpa 1
       match d with
       | .good => v
       | .corrected d => loamCorrected v lpa d.val (loamAt v lpa)
       | .uncorrectable => scrubUe v lpa) := by
  cases d <;>
    simp only [doPatrolScrubRead, hOn, hStill, checkPass_underWay hPass, hTarget, List.foldl_cons, List.foldl_nil, Bool.not_true, Bool.or_self,
      Bool.false_eq_true, if_false]

/-! ### The log (R415, R416) -/

theorem doCeLogExpiry_entry {entry : Fin 64} {e : CeEntry} (hEntry : s.diu.ceLog[entry.val]? = some (some e)) : doCeLogExpiry entry s =
    if e.lastHit + 86400000000000 ≤ s.devTime then { s with diu.ceLog := s.diu.ceLog.set entry.val none } else s := by
  simp only [doCeLogExpiry, hEntry]

/-- A second in which no channel passes its threshold leaves only the counts to restart. -/
theorem doCeSecondTimer_quiet (hFew : ∀ e ∈ s.diu.ceSecond, e.2 ≤ 64 ∧ e.2 ≤ max 1 (getF s Reg.DIU_CFG.ce_event_thresh)) :
    doCeSecondTimer s = { s with diu.ceSecond := [] } := by
  unfold doCeSecondTimer
  dsimp only
  rw [List.foldlRecOn (motive := fun t => t = s) s.diu.ceSecond _ rfl fun t hSame e hMem => ?step]
  case step =>
    obtain ⟨hRetrain, hEvent⟩ := hFew e hMem
    rw [if_neg (Nat.not_lt.2 hEvent), if_neg (Nat.not_lt.2 hRetrain), hSame]

end Scrub

/-- Settles O27: each command by the rule of its outcome. -/
theorem scrubbing : Obligations.Scrubbing := by
  refine ⟨fun s engine w rest hQueue hStill hStale => ?drops, fun s engine w rest hQueue hStill hFresh hSame => ?issues,
    fun s engine d hOff => ?off, fun s engine lpa ch hOn hStill hPass hTarget => ⟨?good, fun d => ?corrected, ?uncorrectable⟩,
    fun s entry e hEntry => ⟨fun hOld => ?old, fun hYoung => ?young⟩, fun s hFew => ?second⟩
  case drops => rw [exec_ceScrubWriteback, doCeScrubWriteback_drops hQueue hStill hStale]
  case issues => rw [exec_ceScrubWriteback, doCeScrubWriteback_issues hQueue hStill hFresh hSame]
  case off => rw [exec_patrolScrubRead, doPatrolScrubRead_off d hOff]
  case good => rw [exec_patrolScrubRead, doPatrolScrubRead_reads _ hOn hStill hPass hTarget]
  case corrected => rw [exec_patrolScrubRead, doPatrolScrubRead_reads _ hOn hStill hPass hTarget]
  case uncorrectable => rw [exec_patrolScrubRead, doPatrolScrubRead_reads _ hOn hStill hPass hTarget]
  case old => rw [exec_ceLogExpiry, doCeLogExpiry_entry hEntry, if_pos hOld]
  case young => rw [exec_ceLogExpiry, doCeLogExpiry_entry hEntry, if_neg (Nat.not_le.2 hYoung)]
  case second => rw [exec_ceSecondTimer, doCeSecondTimer_quiet hFew]

end Sys2Proof.Machine
end

section
/-! PROOFS. The key window, GCM roles and link rekeying: each command as its effect, one rule per outcome, and the statement about them. -/

namespace Sys2Proof.Machine

section Keys
variable {s : State} {who : Accessor} {value : Word}

/-! ### The commands as their effects -/

theorem exec_keywinLoad (s : State) (who : Accessor) (value : Word) :
    exec (.keywinLoad who value) s = .next (finished s (writeKeyWindow s who value)) := rfl

theorem exec_keywinClear (s : State) (who : Accessor) (value : Word) :
    exec (.keywinClear who value) s = .next (finished s (writeKeyWindow s who value)) := rfl

theorem exec_gcmRoleWrite (s : State) (who : Accessor) (value : Word) :
    exec (.gcmRoleWrite who value) s = .next (finished s (doGcmRoleWrite who value s)) := rfl

theorem exec_linkRekeyTimer (s : State) (link : Fin 9) :
    exec (.linkRekeyTimer link) s = .next (finished s (doLinkRekeyTimer link s)) := rfl

theorem exec_oldKeyRetire (s : State) (link : Fin 9) : exec (.oldKeyRetire link) s = .next (finished s (doOldKeyRetire link s)) := rfl

/-! ### Slots (R439, R441, R442) -/

section Slots
variable {kind slot : Nat} {k : KeySet}

theorem setKeySlot_ide (hKind : kind = 2) (hSlot : slot < 128) :
    setKeySlot s kind slot k = loadIdeKey s (slot / 8) (slot / 4 % 2 * 2 + slot / 2 % 2) (slot % 2 = 1) k := by
  rw [setKeySlot, if_pos hKind, setIdeSlot, if_pos hSlot]

theorem setKeySlot_ideNone (hKind : kind = 2) (hSlot : 128 ≤ slot) : setKeySlot s kind slot k = s := by
  rw [setKeySlot, if_pos hKind, setIdeSlot, if_neg (Nat.not_lt.2 hSlot)]

variable (hKind : kind ≠ 2)
include hKind

theorem setKeySlot_none (hSlot : secretSlot kind slot = none) : setKeySlot s kind slot k = s := by
  simp only [setKeySlot, hKind, hSlot, if_false]

theorem setKeySlot_secret {i : Nat} (hSlot : secretSlot kind slot = some i) (hKey : k.key ≠ []) :
    setKeySlot s kind slot k = incFiBy { s with cku.secrets := sput [] s.cku.secrets i k.key } Reg.CKU_KEY_CACHE.kdf_runs 0 2 := by
  simp only [setKeySlot, hKind, hSlot, hKey, if_false]

theorem setKeySlot_cleared {i : Nat} (hSlot : secretSlot kind slot = some i) :
    setKeySlot s kind slot noKey = { s with cku.secrets := sput [] s.cku.secrets i [] } := by
  simp only [setKeySlot, hKind, hSlot, noKey, if_false, if_true]

end Slots

/-! ### The window (R443) -/

/-- What the window holds as a key. -/
def windowKey (s : State) : KeySet := { key := windowSecret s, iv := (List.range 3).map fun i => sget 0 s.cku.window (8 + i) }

theorem windowKey_ne_nil (s : State) : (windowKey s).key ≠ [] := List.cons_ne_nil _ _

theorem writeKeyWindow_denied (hNot : isLockstep who = false) : writeKeyWindow s who value = denyKeyWrite s who := by
  simp only [writeKeyWindow, hNot, Bool.not_false, if_true]

section Lockstep
variable (hPair : isLockstep who = true)
include hPair

theorem writeKeyWindow_loads (hLoad : wr value Reg.CKU_KEYWIN_CTL.load = 1) (hKeeps : wr value Reg.CKU_KEYWIN_CTL.clear = 0) :
    writeKeyWindow s who value =
      { setKeySlot s (wr value Reg.CKU_KEYWIN_CTL.kind) (wr value Reg.CKU_KEYWIN_CTL.slot) (windowKey s) with cku.window := [] } := by
  simp only [writeKeyWindow, windowKey, hPair, hLoad, hKeeps, Bool.not_true, Bool.false_eq_true, Nat.zero_ne_one, if_false, if_true]

variable (hNoLoad : wr value Reg.CKU_KEYWIN_CTL.load = 0)
include hNoLoad

theorem writeKeyWindow_clears (hClear : wr value Reg.CKU_KEYWIN_CTL.clear = 1) : writeKeyWindow s who value =
    setKeySlot s (wr value Reg.CKU_KEYWIN_CTL.kind) (wr value Reg.CKU_KEYWIN_CTL.slot) noKey := by
  simp only [writeKeyWindow, hPair, hNoLoad, hClear, Bool.not_true, Bool.false_eq_true, Nat.zero_ne_one, if_false, if_true]

theorem writeKeyWindow_neither (hKeeps : wr value Reg.CKU_KEYWIN_CTL.clear = 0) : writeKeyWindow s who value = s := by
  simp only [writeKeyWindow, hPair, hNoLoad, hKeeps, Bool.not_true, Bool.false_eq_true, Nat.zero_ne_one, if_false]

end Lockstep

/-! ### Roles (R445, R457) -/

section Role
variable (hMgr : isManager s who = true)
include hMgr

theorem doGcmRoleWrite_gives (hPair : selOf s who Reg.CKU_GCM_SEL.pair < 24) (hIn : gcmIn s (selOf s who Reg.CKU_GCM_SEL.pair) = true) :
    doGcmRoleWrite who value s = giveRole s (selOf s who Reg.CKU_GCM_SEL.pair) (wr value Reg.CKU_GCM_ROLE.role) := by
  simp only [doGcmRoleWrite, setupWrite_of_isManager hMgr, hPair, hIn, decide_true, Bool.and_self, if_true]

theorem doGcmRoleWrite_out (hOut : 24 ≤ selOf s who Reg.CKU_GCM_SEL.pair ∨ gcmIn s (selOf s who Reg.CKU_GCM_SEL.pair) = false) :
    doGcmRoleWrite who value s = s := by
  have hNot : (decide (selOf s who Reg.CKU_GCM_SEL.pair < 24) && gcmIn s (selOf s who Reg.CKU_GCM_SEL.pair)) = false := by
    rw [Bool.and_eq_false_iff, decide_eq_false_iff_not, Nat.not_lt]; exact hOut
  simp only [doGcmRoleWrite, setupWrite_of_isManager hMgr, hNot, Bool.false_eq_true, if_false]

end Role

/-! ### Key updates (R441) -/

section Rekey
variable {link : Fin 9}

theorem doLinkRekeyTimer_starts (hKeyed : linkSecret s link.val ≠ []) (hNone : sget none s.cku.rekeys link.val = none) :
    doLinkRekeyTimer link s = emit (startRekey s link.val (nextCounters s link.val).1 (nextCounters s link.val).2)
      (.keyUpdate link.val (nextCounters s link.val).1 (nextCounters s link.val).2) := by
  simp only [doLinkRekeyTimer, hKeyed, hNone, decide_false, Option.isSome_none, Bool.or_self, Bool.false_eq_true, if_false]

theorem doLinkRekeyTimer_not (h : linkSecret s link.val = [] ∨ sget none s.cku.rekeys link.val ≠ none) : doLinkRekeyTimer link s = s :=
  if_pos (by rw [Bool.or_eq_true, decide_eq_true_iff, Option.isSome_iff_ne_none]; exact h)

theorem doOldKeyRetire_none (hNone : sget none s.cku.rekeys link.val = none) : doOldKeyRetire link s = s := by
  simp only [doOldKeyRetire, hNone]

theorem doOldKeyRetire_retires {k : Rekey} (hRekey : sget none s.cku.rekeys link.val = some k) : doOldKeyRetire link s =
    (let u := { s with cku.old := sput [] s.cku.old link.val [], cku.rekeys := sput none s.cku.rekeys link.val none }
     let next := sget [] s.cku.secrets (linkSlot link.val + 1)
     if next = [] then u
     else { u with cku.secrets := sput [] (sput [] u.cku.secrets (linkSlot link.val) next) (linkSlot link.val + 1) [] }) := by
  simp only [doOldKeyRetire, hRekey]

end Rekey

end Keys

/-- Settles O44: a write of the window by its bits and the slot it names, a role by its pair, a rekeying by whether one is under way. -/
theorem keysAndSecrets : Obligations.KeysAndSecrets := by
  refine ⟨?window, fun s who value hNot => ⟨?loadDenied, ?clearDenied⟩, ?roles, fun s link hKeyed hNone => ?starts, fun s link hNot => ?startsNot,
    ?retires, fun s link hNone => ?retiresNot⟩
  case window =>
    rintro s who value kind slot hPair rfl rfl k rfl
    refine ⟨fun hLoad hKeeps => ⟨fun i hKind hSlot => ?secret, fun hKind hSlot => ?noSecret, fun hKind hSlot => ?ide, fun hKind hSlot => ?noIde⟩,
      fun hNoLoad hClear => ⟨fun i hKind hSlot => ?clearSecret, fun hKind hSlot => ?clearIde⟩, fun hNoLoad hKeeps => ?neither, rfl⟩
    case secret =>
      rw [exec_keywinLoad, writeKeyWindow_loads hPair hLoad hKeeps, setKeySlot_secret hKind hSlot (windowKey_ne_nil s), windowKey]
    case noSecret => rw [exec_keywinLoad, writeKeyWindow_loads hPair hLoad hKeeps, setKeySlot_none hKind hSlot]
    case ide => rw [exec_keywinLoad, writeKeyWindow_loads hPair hLoad hKeeps, setKeySlot_ide hKind hSlot, windowKey]
    case noIde => rw [exec_keywinLoad, writeKeyWindow_loads hPair hLoad hKeeps, setKeySlot_ideNone hKind hSlot]
    case clearSecret => rw [exec_keywinClear, writeKeyWindow_clears hPair hNoLoad hClear, setKeySlot_cleared hKind hSlot]
    case clearIde => rw [exec_keywinClear, writeKeyWindow_clears hPair hNoLoad hClear, setKeySlot_ide hKind hSlot]
    case neither => rw [exec_keywinLoad, writeKeyWindow_neither hPair hNoLoad hKeeps]
  case loadDenied => rw [exec_keywinLoad, writeKeyWindow_denied hNot]
  case clearDenied => rw [exec_keywinClear, writeKeyWindow_denied hNot]
  case roles =>
    rintro s who value pair hMgr rfl
    refine ⟨fun hPair hIn => ?_, fun hOut => ?_⟩ <;> rw [exec_gcmRoleWrite]
    · rw [doGcmRoleWrite_gives hMgr hPair hIn]
    · rw [doGcmRoleWrite_out hMgr hOut]
  case starts => rw [exec_linkRekeyTimer, doLinkRekeyTimer_starts hKeyed hNone]
  case startsNot => rw [exec_linkRekeyTimer, doLinkRekeyTimer_not hNot]
  case retires =>
    rintro s u link k hRekey rfl
    refine ⟨fun hNone => ?_, fun next hNext hSome => ?_⟩ <;> rw [exec_oldKeyRetire, doOldKeyRetire_retires hRekey]
    · rw [if_pos hNone]
    · subst hNext; rw [if_neg hSome]
  case retiresNot => rw [exec_oldKeyRetire, doOldKeyRetire_none hNone]

end Sys2Proof.Machine
end

section
/-! PROOFS. The rail sequence and what asks for power: each command as its effect, one rule per outcome, and the statement about them. -/

namespace Sys2Proof.Machine

/-! ### The commands as their effects -/

section Commands
variable (s : State)

theorem exec_railStepPass (b : BootReport) : exec (.railStepPass b) s = .next (ended s (doRailStepPass b s)) := rfl

theorem exec_pgTimeout : exec .pgTimeout s = .next (ended s (doPgTimeout s)) := rfl

theorem exec_railFallStep : exec .railFallStep s = .next (finished s (doRailFallStep s)) := rfl

theorem exec_offTimeout : exec .offTimeout s = .next (finished s (doOffTimeout s)) := rfl

theorem exec_offHoldEnd : exec .offHoldEnd s = .next (ended s (doOffHoldEnd s)) := rfl

theorem exec_pwrReqChange (high good : Bool) : exec (.pwrReqChange high good) s = .next (ended s (doPwrReqChange high good s)) := rfl

theorem exec_offRequest (who : Accessor) : exec (.offRequest who) s = .next (ended s (doOffRequest who s)) := rfl

theorem exec_cycleRequest (who : Accessor) : exec (.cycleRequest who) s = .next (ended s (doCycleRequest who s)) := rfl

theorem exec_flushNow (who : Accessor) : exec (.flushNow who) s = .next (ended s (doFlushNow who s)) := rfl

theorem exec_kilnFlushEnd : exec .kilnFlushEnd s = .next (ended s (doKilnFlushEnd s)) := rfl

end Commands

section Power
variable {s : State}

/-! ### Steps of the sequence (R476 to R480) -/

section Steps
variable {k : Fin 7} {b : BootReport}

section NoStep
variable (hNone : s.phs.step = none)
include hNone

theorem doRailStepPass_none : doRailStepPass b s = s := by simp only [doRailStepPass, hNone]

theorem doPgTimeout_none : doPgTimeout s = s := by simp only [doPgTimeout, hNone]

theorem doRailFallStep_none : doRailFallStep s = s := by simp only [doRailFallStep, hNone]

theorem doOffTimeout_none : doOffTimeout s = s := by simp only [doOffTimeout, hNone]

end NoStep

theorem doRailStepPass_notUp (hNot : phsState s ≠ phsUp) : doRailStepPass b s = s := by
  cases hStep : s.phs.step with
  | none => rw [doRailStepPass_none hStep]
  | some k => simp only [doRailStepPass, hStep, if_pos hNot]

theorem doPgTimeout_notUp (hNot : phsState s ≠ phsUp) : doPgTimeout s = s := by
  cases hStep : s.phs.step with
  | none => rw [doPgTimeout_none hStep]
  | some k => simp only [doPgTimeout, hStep, if_pos hNot]

theorem doRailFallStep_notDown (hNot : phsState s ≠ phsDown) : doRailFallStep s = s := by
  cases hStep : s.phs.step with
  | none => rw [doRailFallStep_none hStep]
  | some k => simp only [doRailFallStep, hStep, if_pos hNot]

theorem doOffTimeout_notDown (hNot : phsState s ≠ phsDown) : doOffTimeout s = s := by
  cases hStep : s.phs.step with
  | none => rw [doOffTimeout_none hStep]
  | some k => simp only [doOffTimeout, hStep, if_pos hNot]

variable (hStep : s.phs.step = some k)
include hStep

section Up
variable (hUp : phsState s = phsUp)
include hUp

/-- A step that has passed: its rail is up, and what follows depends on whether power-up turns back and on whether it was the last. -/
theorem doRailStepPass_passes : doRailStepPass b s =
    (let u := { s with phs.railsUp := bitOn s.phs.railsUp k.val, phs.pg := bitOn s.phs.pg k.val, phs.step := none }
     match s.phs.turnBack with
     | some t => turnBack u t
     | none => if k.val = 6 then enterRunning u b else startStep u (k.val + 1)) := by
  cases hTurn : s.phs.turnBack <;> simp only [doRailStepPass, hStep, hUp, hTurn, ne_eq, not_true_eq_false, if_false]

theorem doPgTimeout_fails : doPgTimeout s = failStep s k.val 1 Reg.PHS_ERR.pg_timeout := by
  simp only [doPgTimeout, hStep, hUp, ne_eq, not_true_eq_false, if_false]

end Up

section Down
variable (hDown : phsState s = phsDown)
include hDown

theorem doRailFallStep_falls : doRailFallStep s =
    downFrom { s with phs.step := none, phs.railsUp := bitOff s.phs.railsUp k.val, phs.pg := bitOff s.phs.pg k.val } k.val := by
  simp only [doRailFallStep, hStep, hDown, ne_eq, not_true_eq_false, if_false]

theorem doOffTimeout_passesOver : doOffTimeout s =
    (let u := markFailed (setFlag (takeSnapshot s (k.val + 1) 2) Reg.PHS_ERR.off_timeout) (k.val + 1)
     downFrom { u with phs.step := none, phs.railsUp := bitOff u.phs.railsUp k.val } k.val) := by
  simp only [doOffTimeout, hStep, hDown, ne_eq, not_true_eq_false, if_false]

end Down

end Steps

theorem doOffHoldEnd_hold (hHold : phsState s = phsHold) : doOffHoldEnd s = tryPowerUp (setPhs s phsOff) := by
  rw [doOffHoldEnd, if_neg (not_not_intro hHold)]

theorem doOffHoldEnd_not (hNot : phsState s ≠ phsHold) : doOffHoldEnd s = s := if_pos hNot

/-! ### Requests (R475, R478, R491) -/

section PwrReq
variable {u : State} {high good : Bool} (hSeen : (if good then { s with phs.v12Run := 100 } else s) = u)
include hSeen

theorem doPwrReqChange_same (hLevel : flag u Reg.PHS_STATE.pwr_req = high) : doPwrReqChange high good s = tryPowerUp u := by
  simp only [doPwrReqChange, hSeen, hLevel, if_true]

theorem doPwrReqChange_rises (hLow : flag u Reg.PHS_STATE.pwr_req = false) : doPwrReqChange true good s =
    tryPowerUp (putFlag { (if lowLongEnough u then putFlag u Reg.PHS_STATE.fail_latched false else u) with phs.stayOff := false }
      Reg.PHS_STATE.pwr_req true) := by
  simp only [doPwrReqChange, hSeen, hLow, Bool.false_eq_true, if_false, if_true]

theorem doPwrReqChange_falls (hHigh : flag u Reg.PHS_STATE.pwr_req = true) : doPwrReqChange false good s =
    offRequest (putFlag { u with phs.lowSince := u.devTime, phs.stayOff := false } Reg.PHS_STATE.pwr_req false) 1 := by
  simp only [doPwrReqChange, hSeen, hHigh, Bool.true_eq_false, Bool.false_eq_true, if_false]

end PwrReq

section Requests
variable {who : Accessor} (hMgr : isManager s who = true)
include hMgr

theorem doCycleRequest_eq : doCycleRequest who s = offRequest s 4 := setupWrite_of_isManager hMgr _ _

theorem doOffRequest_on (hOff : phsState s ≠ phsOff) (hHold : phsState s ≠ phsHold) :
    doOffRequest who s = offRequest { s with phs.stayOff := flag s Reg.PHS_STATE.pwr_req } 1 := by
  simp only [doOffRequest, setupWrite_of_isManager hMgr, hOff, hHold, decide_false, Bool.or_self, Bool.false_eq_true, if_false]

theorem doOffRequest_off (hOff : phsState s = phsOff ∨ phsState s = phsHold) : doOffRequest who s = s := by
  rw [doOffRequest, setupWrite_of_isManager hMgr, if_pos (by rw [Bool.or_eq_true, decide_eq_true_iff, decide_eq_true_iff]; exact hOff)]

theorem doFlushNow_running (hRuns : phsState s = phsRunning) : doFlushNow who s = stopRun s none 5 := by
  rw [doFlushNow, setupWrite_of_isManager hMgr, if_pos hRuns]

theorem doFlushNow_not (hNot : phsState s ≠ phsRunning) : doFlushNow who s = s := by
  rw [doFlushNow, setupWrite_of_isManager hMgr, if_neg hNot]

end Requests

theorem offRequest_up (kind : Nat) (hUp : phsState s = phsUp) : offRequest s kind = { s with phs.turnBack := some (32, kind) } := if_pos hUp

theorem offRequest_running (kind : Nat) (hRuns : phsState s = phsRunning) : offRequest s kind = stopRun s none kind := by
  rw [offRequest, if_neg (by rw [hRuns]; decide), if_pos hRuns]

theorem offRequest_neither (kind : Nat) (hUp : phsState s ≠ phsUp) (hRuns : phsState s ≠ phsRunning) : offRequest s kind = s := by
  rw [offRequest, if_neg hUp, if_neg hRuns]

theorem doKilnFlushEnd_flushing (hFlush : phsState s = phsFlushing) : doKilnFlushEnd s = flushDone s := if_neg (not_not_intro hFlush)

theorem doKilnFlushEnd_not (hNot : phsState s ≠ phsFlushing) : doKilnFlushEnd s = s := if_pos hNot

end Power

/-- Settles O45: each command by the rule of its outcome, in the state PHS is in. -/
theorem powerStates : Obligations.PowerStates := by
  refine ⟨⟨fun s b k hStep hUp hOn hNext => ?next, fun s b hStep hUp hOn => ?last, fun s k hStep hUp => ?pgTimeout,
      fun s k hStep hDown => ?falls, ?passedOver, fun s hHold => ?holdEnds, ?turnsBack, fun s b hNot => ⟨?passNotUp, ?timeoutNotUp⟩,
      fun s hNot => ⟨?fallNotDown, ?timeoutNotDown⟩, fun s hNot => ?notHold, fun s b hNone => ⟨?passNone, ?pgNone, ?fallNone, ?offNone⟩⟩,
    ⟨fun s u high good hSeen => ⟨fun hLevel => ?same, fun hLow hRise v hLatch => ?rises, fun hHigh hFall => ?fallsLow⟩,
      fun s who hMgr => ⟨?cycle, fun hOff hHold => ?off, fun hOff => ?alreadyOff, fun hRuns => ?flushNow, fun hNot => ?noFlushNow⟩,
      fun s kind => ⟨offRequest_up kind, offRequest_running kind, offRequest_neither kind⟩, fun s channel kind => ?stops,
      fun s hFlush => ?flushEnds, fun s hNot => ?noFlush⟩⟩
  case next => rw [exec_railStepPass, doRailStepPass_passes hStep hUp, hOn]; dsimp only; rw [if_neg (Nat.ne_of_lt hNext)]
  case last => rw [exec_railStepPass, doRailStepPass_passes hStep hUp, hOn]; rfl
  case pgTimeout => rw [exec_pgTimeout, doPgTimeout_fails hStep hUp]
  case falls => rw [exec_railFallStep, doRailFallStep_falls hStep hDown]
  case passedOver => rintro s u k hStep hDown rfl; rw [exec_offTimeout, doOffTimeout_passesOver hStep hDown]
  case holdEnds => rw [exec_offHoldEnd, doOffHoldEnd_hold hHold]
  case turnsBack => rintro s u b k t hStep hUp hBack rfl; rw [exec_railStepPass, doRailStepPass_passes hStep hUp, hBack]; rfl
  case passNotUp => rw [exec_railStepPass, doRailStepPass_notUp hNot]
  case timeoutNotUp => rw [exec_pgTimeout, doPgTimeout_notUp hNot]
  case fallNotDown => rw [exec_railFallStep, doRailFallStep_notDown hNot]
  case timeoutNotDown => rw [exec_offTimeout, doOffTimeout_notDown hNot]
  case notHold => rw [exec_offHoldEnd, doOffHoldEnd_not hNot]
  case passNone => rw [exec_railStepPass, doRailStepPass_none hNone]
  case pgNone => rw [exec_pgTimeout, doPgTimeout_none hNone]
  case fallNone => rw [exec_railFallStep, doRailFallStep_none hNone]
  case offNone => rw [exec_offTimeout, doOffTimeout_none hNone]
  case same => rw [exec_pwrReqChange, doPwrReqChange_same hSeen hLevel]
  case rises => subst hRise hLatch; rw [exec_pwrReqChange, doPwrReqChange_rises hSeen hLow]
  case fallsLow => subst hFall; rw [exec_pwrReqChange, doPwrReqChange_falls hSeen hHigh]
  case cycle => rw [exec_cycleRequest, doCycleRequest_eq hMgr]
  case off => rw [exec_offRequest, doOffRequest_on hMgr hOff hHold]
  case alreadyOff => rw [exec_offRequest, doOffRequest_off hMgr hOff]
  case flushNow => rw [exec_flushNow, doFlushNow_running hMgr hRuns]
  case noFlushNow => rw [exec_flushNow, doFlushNow_not hMgr hNot]
  case stops => rw [stopRun]
  case flushEnds => rw [exec_kilnFlushEnd, doKilnFlushEnd_flushing hFlush]
  case noFlush => rw [exec_kilnFlushEnd, doKilnFlushEnd_not hNot]

end Sys2Proof.Machine
end

section
/-! PROOFS. Reset outputs, snapshots, arming, sense channels and the hold-up store: each command as its effect, one rule per outcome, and the
statement about them. -/

namespace Sys2Proof.Machine

/-! ### The commands as their effects -/

section Commands
variable (s : State) (who : Accessor)

theorem exec_resetStretchExpiry (output : Fin 12) :
    exec (.resetStretchExpiry output) s = .next (finished s (doResetStretchExpiry output s)) := rfl

theorem exec_resetSwAssert (value : Word) : exec (.resetSwAssert who value) s = .next (finished s (doResetSwAssert who value s)) := rfl

theorem exec_senseSample (values : List (BitVec 16)) (pg : BitVec 7) :
    exec (.senseSample values pg) s = .next (ended s (doSenseSample values pg s)) := rfl

theorem exec_capTestStart : exec .capTestStart s = .next (finished s (doCapTestStart s)) := rfl

theorem exec_capTestEnd (charge : Nat) (v : Fin 65536) : exec (.capTestEnd charge v) s = .next (finished s (doCapTestEnd charge v s)) := rfl

theorem exec_budgetPublish : exec .budgetPublish s = .next (finished s (doBudgetPublish s)) := rfl

theorem exec_kilnArm : exec (.kilnArm who) s = .next (settled s (doKilnArm who s)) := rfl

theorem exec_kilnDisarm : exec (.kilnDisarm who) s = .next (finished s (doKilnDisarm who s)) := rfl

theorem exec_snapshotClear : exec (.snapshotClear who) s = .next (finished s (doSnapshotClear who s)) := rfl

end Commands

section Holdup
variable {s : State}

/-! ### Reset outputs (R482) -/

/-- Only outputs from 8 on are software's to hold. -/
theorem swAsserted_low {o : Nat} (hLow : o < 8) : swAsserted s o = false := by
  simp only [swAsserted, Nat.not_le.2 hLow, decide_false, Bool.false_and]

theorem doResetStretchExpiry_runs {output : Fin 12} {u : State} (hRuns : s.phs.stretching.contains output.val = true)
    (hLeft : { s with phs.stretching := s.phs.stretching.filter fun x => x ≠ output.val } = u) :
    doResetStretchExpiry output s = if swAsserted u output.val then u else putFlagI u Reg.PHS_RST_CFG.asserted output.val false := by
  simp only [doResetStretchExpiry, hRuns, hLeft, Bool.not_true, Bool.false_eq_true, if_false]

theorem doResetStretchExpiry_not {output : Fin 12} (hNot : s.phs.stretching.contains output.val = false) : doResetStretchExpiry output s = s := by
  simp only [doResetStretchExpiry, hNot, Bool.not_false, if_true]

/-- What the flush is armed under: RUNNING, a ready kiln and a valid budget. -/
theorem mayArm_iff : (phsState s = phsRunning && kilnReady s && flag s Reg.PHS_BUDGET_PUB.valid) = true ↔
    phsState s = phsRunning ∧ kilnReady s = true ∧ flag s Reg.PHS_BUDGET_PUB.valid = true := by
  rw [Bool.and_eq_true, Bool.and_eq_true, decide_eq_true_iff, and_assoc]

section Manager
variable {who : Accessor} (hMgr : isManager s who = true)
include hMgr

section SwAssert
variable {value : Word}

theorem doResetSwAssert_beyond (hSel : 12 ≤ selOf s who Reg.PHS_RST_SEL.output) : doResetSwAssert who value s = s := by
  rw [doResetSwAssert, setupWrite_of_isManager hMgr, if_pos hSel]

variable (hSel : selOf s who Reg.PHS_RST_SEL.output < 12) {u : State}
  (hWritten : writeBits s Reg.PHS_RST_CFG.sw_assert.addr (selOf s who Reg.PHS_RST_SEL.output) value 0 = u)
include hSel hWritten

theorem doResetSwAssert_asserts (hHeld : swAsserted u (selOf s who Reg.PHS_RST_SEL.output) = true) :
    doResetSwAssert who value s = assertOutput u (selOf s who Reg.PHS_RST_SEL.output) := by
  simp only [doResetSwAssert, setupWrite_of_isManager hMgr, Nat.not_le.2 hSel, hWritten, hHeld, if_false, if_true]

variable (hFree : swAsserted u (selOf s who Reg.PHS_RST_SEL.output) = false)
include hFree

theorem doResetSwAssert_stretches (hWas : swAsserted s (selOf s who Reg.PHS_RST_SEL.output) = true) (hRuns : phsState u = phsRunning) :
    doResetSwAssert who value s = { u with phs.stretching := u.phs.stretching ++ [selOf s who Reg.PHS_RST_SEL.output] } := by
  simp only [doResetSwAssert, setupWrite_of_isManager hMgr, Nat.not_le.2 hSel, hWritten, hFree, hWas, hRuns, decide_true, Bool.and_self,
    Bool.false_eq_true, if_false, if_true]

theorem doResetSwAssert_leaves (hNot : swAsserted s (selOf s who Reg.PHS_RST_SEL.output) = false ∨ phsState u ≠ phsRunning) :
    doResetSwAssert who value s = u := by
  have hNoStretch : (swAsserted s (selOf s who Reg.PHS_RST_SEL.output) && decide (phsState u = phsRunning)) = false := by
    rw [Bool.and_eq_false_iff, decide_eq_false_iff_not]; exact hNot
  simp only [doResetSwAssert, setupWrite_of_isManager hMgr, Nat.not_le.2 hSel, hWritten, hFree, hNoStretch, Bool.false_eq_true, if_false]

end SwAssert

/-! ### Arming and snapshots (R486, R490) -/

section Arm

theorem doKilnArm_refused (hNot : ¬ (phsState s = phsRunning ∧ kilnReady s = true ∧ flag s Reg.PHS_BUDGET_PUB.valid = true)) :
    doKilnArm who s = setFlag s Reg.PHS_ERR.arm_refused := by
  rw [doKilnArm, setupWrite_of_isManager hMgr, if_neg (by rwa [mayArm_iff])]

variable (hMay : phsState s = phsRunning ∧ kilnReady s = true ∧ flag s Reg.PHS_BUDGET_PUB.valid = true)
include hMay

theorem doKilnArm_again (hArmed : armed s = true) : doKilnArm who s = s := by
  rw [doKilnArm, setupWrite_of_isManager hMgr, if_pos (mayArm_iff.2 hMay), if_pos hArmed]

theorem doKilnArm_arms (hNot : armed s = false) : doKilnArm who s =
    (let u := setFlag (setFlag s Reg.PHS_KILN_STS.armed) Reg.PHS_KILN_CTL.arm
     checkServing (tryPairRestart (if mirrored u || solo u then u else sendHello u))) := by
  rw [doKilnArm, setupWrite_of_isManager hMgr, if_pos (mayArm_iff.2 hMay), if_neg (by rw [hNot]; exact Bool.false_ne_true)]

end Arm

theorem doKilnDisarm_clean (hClean : dirtyGrains s = 0) :
    doKilnDisarm who s = putFlag (putFlag s Reg.PHS_KILN_STS.armed false) Reg.PHS_KILN_CTL.arm false := by
  rw [doKilnDisarm, setupWrite_of_isManager hMgr, if_pos hClean]

theorem doKilnDisarm_dirty (hDirty : dirtyGrains s ≠ 0) : doKilnDisarm who s = s := by
  rw [doKilnDisarm, setupWrite_of_isManager hMgr, if_neg hDirty]

theorem doSnapshotClear_eq : doSnapshotClear who s = { s with phs.snapFirst := none, phs.snapRest := [], phs.snapNext := 0 } :=
  setupWrite_of_isManager hMgr _ _

end Manager

/-! ### The hold-up store (R487) -/

theorem doCapTestStart_starts (hRuns : phsState s = phsRunning) (hLoad : senseValue s 19 ≠ 0) (hNone : s.phs.capTest = none) :
    doCapTestStart s = setFlag { s with phs.capTest := some { vStart := storeVoltage s } } Reg.PHS_HOLDUP_CAP.test_busy := by
  simp only [doCapTestStart, hRuns, hLoad, hNone, ne_eq, not_true_eq_false, decide_false, Option.isSome_none, Bool.or_self,
    Bool.false_eq_true, if_false]

theorem doCapTestStart_not (h : s.phs.capTest ≠ none ∨ phsState s ≠ phsRunning ∨ senseValue s 19 = 0) : doCapTestStart s = s := by
  refine if_pos ?_
  rw [Bool.or_eq_true, Bool.or_eq_true, decide_eq_true_iff, decide_eq_true_iff, Option.isSome_iff_ne_none]
  exact h.symm

theorem doCapTestEnd_none {charge : Nat} {v : Fin 65536} (hNone : s.phs.capTest = none) : doCapTestEnd charge v s = s := by
  simp only [doCapTestEnd, hNone]

section TestEnd
variable {charge : Nat} {v : Fin 65536} {t : CapTest} (hTest : s.phs.capTest = some t)
include hTest

theorem doCapTestEnd_invalid (hFall : (t.vStart - v.val) * 200 < t.vStart ∨ t.vStart ≤ v.val) : doCapTestEnd charge v s =
    setFlag (putFlag { s with phs.capTest := none } Reg.PHS_HOLDUP_CAP.test_busy false) Reg.PHS_ERR.cap_test_invalid := by
  simp only [doCapTestEnd, hTest]
  refine if_pos ?_
  rw [Bool.or_eq_true, decide_eq_true_iff, decide_eq_true_iff, Nat.sub_eq_zero_iff_le]
  exact hFall.symm

theorem doCapTestEnd_valid (hFell : v.val < t.vStart) (hEnough : t.vStart ≤ (t.vStart - v.val) * 200) : doCapTestEnd charge v s =
    (let u := putFlag { s with phs.capTest := none } Reg.PHS_HOLDUP_CAP.test_busy false
     setFlag (setFlag (setF u Reg.PHS_HOLDUP_CAP.cap_mf (nextCap u (measuredCap charge (t.vStart - v.val)))) Reg.PHS_HOLDUP_CAP.valid)
       Reg.PHS_BUDGET_PUB.valid) := by
  simp only [doCapTestEnd, hTest]
  refine if_neg ?_
  rw [Bool.or_eq_true, decide_eq_true_iff, decide_eq_true_iff]
  omega

end TestEnd

/-- The capacitance in use is what the test measured, but for a rise beyond 2 %. -/
theorem nextCap_bounds (m : Nat) : nextCap s m = m ∨ (nextCap s m ≤ m ∧ nextCap s m ≤ getF s Reg.PHS_HOLDUP_CAP.cap_mf * 102 / 100) := by
  unfold nextCap
  dsimp only
  split
  · exact .inl rfl
  · exact .inr ⟨Nat.min_le_left .., Nat.min_le_right ..⟩

/-! ### The budget (R488) -/

theorem doBudgetPublish_not (hNot : phsState s ≠ phsRunning) : doBudgetPublish s = s := if_pos hNot

section Publish
variable {u : State} (hRuns : phsState s = phsRunning)
  (hEnergy : setF (setF s Reg.PHS_HOLDUP_E.e_use_j (min 0xFFFF (useUnits s / 20000000))) Reg.PHS_HOLDUP_E.e_net_j
    (min 0xFFFF (netUnits s / 200000000000)) = u)
include hRuns hEnergy

theorem doBudgetPublish_invalid (hInvalid : flag u Reg.PHS_BUDGET_PUB.valid = false) :
    doBudgetPublish s = setF u Reg.PHS_BUDGET_PUB.pub_mib 0 := by
  simp only [doBudgetPublish, hRuns, hEnergy, hInvalid, ne_eq, not_true_eq_false, Bool.not_false, if_false, if_true]

theorem doBudgetPublish_valid {pub : Nat} {v : State} (hValid : flag u Reg.PHS_BUDGET_PUB.valid = true)
    (hPub : pub = min (min (coverBytes u) (kilnSpace u - imageMeta u) / 1048576) (2 ^ 21 - 1))
    (hCapped : putFlag (setF u Reg.PHS_BUDGET_PUB.pub_mib pub) Reg.PHS_BUDGET_PUB.kiln_capped
      (decide (kilnSpace u - imageMeta u < coverBytes u)) = v) :
    doBudgetPublish s = if pub < 1024 then raise (setFlag v Reg.PHS_ERR.holdup_low) 1482 .holdupLow 0xFFF [pub] else v := by
  simp only [doBudgetPublish, hRuns, hEnergy, hValid, ne_eq, not_true_eq_false, Bool.not_true, Bool.false_eq_true, if_false, ← hPub, hCapped]

end Publish

/-! ### Sense channels (R483, R485, R496) -/

theorem doSenseSample_off (values : List (BitVec 16)) (pg : BitVec 7) (hOff : s.phs.running = false) : doSenseSample values pg s = s := by
  simp only [doSenseSample, hOff, Bool.not_false, if_true]

section Sample
variable {values : List (BitVec 16)} {pg : BitVec 7} {u t v : State} (hRuns : s.phs.running = true)
  (hRead : ((List.range 24).zip values).foldl (fun s e => sampleChannel s e.1 e.2) { s with phs.pg := pg } = u)
  (hStore : { u with
      phs.v12Run := if getFi u Reg.PHS_MON_WARN.warn_lo 9 < senseValue u 9 then min 100 (u.phs.v12Run + 1) else 0
      phs.holdup := (senseValue u 10 :: u.phs.holdup).take 100 } = t)
  (hReported : (newlyHeld s t Reg.PHS_MON_VAL.fault).foldl senseFaults ((newlyHeld s t Reg.PHS_MON_VAL.warn).foldl senseWarns t) = v)
include hRuns hRead hStore hReported

theorem doSenseSample_samples : doSenseSample values pg s =
    tryPowerUp (if phsState v = phsFlushing ∧ senseValue v 10 < getF v Reg.PHS_HOLDUP_CFG2.vmin_10mv then flushStops v 10 (mayClose v) else v) := by
  subst hRead hStore hReported
  rw [doSenseSample, if_neg (by rw [hRuns]; exact Bool.false_ne_true)]
  simp only [decide_eq_true_eq, Bool.and_eq_true]

end Sample

section Fault
variable {ch action : Nat}
  (hAction : (if powerFails s ch then max 1 (min 2 (getFi s Reg.PHS_MON_CTL.action ch)) else min 2 (getFi s Reg.PHS_MON_CTL.action ch)) = action)
include hAction

theorem faultActs_running (hRuns : phsState s = phsRunning) : faultActs s ch =
    if action = 0 then s else if action = 1 then stopRun s (some ch) 2 else powerDown (notePhs s (some ch) 2) := by
  simp only [faultActs, hAction, hRuns, if_true]

theorem faultActs_up (hUp : phsState s = phsUp) (hActs : action ≠ 0) : faultActs s ch = { s with phs.turnBack := some (ch, 2) } := by
  have hRuns : phsState s ≠ phsRunning := by rw [hUp]; decide
  rw [faultActs]
  simp only [hAction, hRuns, if_false]
  rw [if_pos hUp, if_neg hActs]

end Fault

theorem faultActs_flushing {ch : Nat} {u : State} (hFlush : phsState s = phsFlushing) (hMarked : (if ch ≤ 8 then markFailed s ch else s) = u) :
    faultActs s ch = if stopsFlush ch then flushStops u ch (mayClose u) else u := by
  have hRuns : phsState s ≠ phsRunning := by rw [hFlush]; decide
  have hUp : phsState s ≠ phsUp := by rw [hFlush]; decide
  simp only [faultActs, hRuns, hUp, hMarked, if_false]
  rw [if_pos hFlush]

theorem faultActs_down {ch : Nat} (hDown : phsState s = phsDown) (hRail : ch ≤ 8) : faultActs s ch = markFailed s ch := by
  have hRuns : phsState s ≠ phsRunning := by rw [hDown]; decide
  have hUp : phsState s ≠ phsUp := by rw [hDown]; decide
  have hFlush : phsState s ≠ phsFlushing := by rw [hDown]; decide
  simp only [faultActs, hRuns, hUp, hFlush, if_false]
  rw [if_pos (by rw [Bool.and_eq_true, decide_eq_true_iff, decide_eq_true_iff]; exact ⟨hDown, hRail⟩)]

end Holdup

/-- Settles O46: each command by the rule of its outcome; a fault by the state PHS is in and the action that counts. -/
theorem armingAndHoldup : Obligations.ArmingAndHoldup := by
  refine ⟨⟨fun s output hRuns hLow => ?stretchEnds, fun s output hNot => ?noStretch, ?stretch, ?swAssert, ?arms,
      fun s who hMgr hMay hArmed => ?armsAgain, fun s who hMgr hNot => ?armRefused, fun s who hMgr hClean => ?disarms,
      fun s who hMgr hDirty => ?noDisarm, fun s who hMgr => ?clears⟩,
    ⟨fun s hRuns hLoad hNone => ?testStarts, fun s hNot => ?noTest, fun s charge v hNone => ?noTestEnd, ?testEnds,
      fun s m => nextCap_bounds m, fun s u hRuns hEnergy hInvalid => ?invalid, ?publishes, fun s hNot => ?noPublish, ?samples,
      fun s values pg hOff => ?noSample, ?faults⟩⟩
  case stretchEnds =>
    rw [exec_resetStretchExpiry, doResetStretchExpiry_runs hRuns rfl, swAsserted_low hLow, if_neg Bool.false_ne_true]
  case noStretch => rw [exec_resetStretchExpiry, doResetStretchExpiry_not hNot]
  case stretch => intro s u output hRuns hLeft; rw [exec_resetStretchExpiry, doResetStretchExpiry_runs hRuns hLeft]
  case swAssert =>
    rintro s who value o hMgr rfl
    refine ⟨fun hSel => ?_, fun hSel u hWritten => ⟨fun hHeld => ?_, fun hFree hWas hRuns => ?_, fun hFree hNot => ?_⟩⟩ <;> rw [exec_resetSwAssert]
    · rw [doResetSwAssert_beyond hMgr hSel]
    · rw [doResetSwAssert_asserts hMgr hSel hWritten hHeld]
    · rw [doResetSwAssert_stretches hMgr hSel hWritten hFree hWas hRuns]
    · rw [doResetSwAssert_leaves hMgr hSel hWritten hFree hNot]
  case arms => rintro s u v who hMgr hMay hNot rfl rfl; rw [exec_kilnArm, doKilnArm_arms hMgr hMay hNot]
  case armsAgain => rw [exec_kilnArm, doKilnArm_again hMgr hMay hArmed]
  case armRefused => rw [exec_kilnArm, doKilnArm_refused hMgr hNot]
  case disarms => rw [exec_kilnDisarm, doKilnDisarm_clean hMgr hClean]
  case noDisarm => rw [exec_kilnDisarm, doKilnDisarm_dirty hMgr hDirty]
  case clears => rw [exec_snapshotClear, doSnapshotClear_eq hMgr]
  case testStarts => rw [exec_capTestStart, doCapTestStart_starts hRuns hLoad hNone]
  case noTest => rw [exec_capTestStart, doCapTestStart_not hNot]
  case noTestEnd => rw [exec_capTestEnd, doCapTestEnd_none hNone]
  case testEnds =>
    rintro s u charge v t hTest rfl
    refine ⟨fun hFall => ?_, fun hFell hEnough => ?_⟩ <;> rw [exec_capTestEnd]
    · rw [doCapTestEnd_invalid hTest hFall]
    · rw [doCapTestEnd_valid hTest hFell hEnough]
  case invalid => rw [exec_budgetPublish, doBudgetPublish_invalid hRuns hEnergy hInvalid]
  case publishes =>
    intro s u pub hRuns hEnergy hValid hPub v hCapped
    refine ⟨fun hMuch => ?_, fun hLittle => ?_⟩ <;> rw [exec_budgetPublish, doBudgetPublish_valid hRuns hEnergy hValid hPub hCapped]
    · rw [if_neg (Nat.not_lt.2 hMuch)]
    · rw [if_pos hLittle]
  case noPublish => rw [exec_budgetPublish, doBudgetPublish_not hNot]
  case samples =>
    rintro s u t v w values pg hRuns hRead hStore hReported rfl
    rw [exec_senseSample, doSenseSample_samples hRuns hRead hStore hReported]
  case noSample => rw [exec_senseSample, doSenseSample_off values pg hOff]
  case faults =>
    refine fun s ch action hAction => ⟨fun hRuns hNone => ?_, fun hRuns hOne => ?_, fun hRuns hTwo => ?_, faultActs_up hAction,
      fun hFlush u hMarked => ⟨fun hStops => ?_, fun hGoesOn => ?_⟩, faultActs_down⟩
    · rw [faultActs_running hAction hRuns, if_pos hNone]
    · rw [faultActs_running hAction hRuns, hOne, if_neg Nat.one_ne_zero, if_pos rfl]
    · rw [faultActs_running hAction hRuns, hTwo, if_neg (by decide), if_neg (by decide)]
    · rw [faultActs_flushing hFlush hMarked, if_pos hStops]
    · rw [faultActs_flushing hFlush hMarked, hGoesOn, if_neg Bool.false_ne_true]

end Sys2Proof.Machine
end

section
/-! PROOFS. The always-on reset, the references and the PLLs: each command as its effect, one rule per outcome, and the statement about
them. -/

namespace Sys2Proof.Machine

/-! ### The commands as their effects -/

section Commands
variable (s : State)

theorem exec_aonPowerOnReset : exec .aonPowerOnReset s = .next { doAonPowerOnReset s with pending := s.pending } := rfl

theorem exec_aonResetRelease : exec .aonResetRelease s = .next (finished s (doAonResetRelease s)) := rfl

theorem exec_refclkBLoss (lost : Bool) : exec (.refclkBLoss lost) s = .next (ended s (doRefclkBLoss lost s)) := rfl

theorem exec_refclkALoss : exec .refclkALoss s = .next (settled s (doRefclkALoss s)) := rfl

theorem exec_refclkAReturn : exec .refclkAReturn s = .next (finished s (doRefclkAReturn s)) := rfl

theorem exec_ddrPllUnlock (channel : Fin 16) : exec (.ddrPllUnlock channel) s = .next (finished s (doDdrPllUnlock channel s)) := rfl

theorem exec_serdesPllUnlock (pll : Fin 8) : exec (.serdesPllUnlock pll) s = .next (settled s (doSerdesPllUnlock pll s)) := rfl

theorem exec_serdesPllRelock (pll : Fin 8) : exec (.serdesPllRelock pll) s = .next (finished s (doSerdesPllRelock pll s)) := rfl

end Commands

section Clocks
variable {s : State}

/-! ### The always-on domain (R477, R617) -/

@[simp] theorem doAonPowerOnReset_phs (s : State) : (doAonPowerOnReset s).phs = {} := rfl

@[simp] theorem doAonPowerOnReset_devTime (s : State) : (doAonPowerOnReset s).devTime = 0 := rfl

/-- The die is off, so no grain is charged as dirty. -/
@[simp] theorem doAonPowerOnReset_dirty (s : State) : (doAonPowerOnReset s).pou.dirty = [] := rfl

theorem doAonPowerOnReset_regs (s : State) : ∀ e ∈ (doAonPowerOnReset s).regs, e.1 / 1048576 / 16777216 ≠ 12 :=
  fun _ hMem => of_decide_eq_true (List.mem_filter.1 hMem).2

theorem doAonResetRelease_starts (hOff : s.phs.running = false) : doAonResetRelease s = { s with phs.running := true } := by
  rw [doAonResetRelease, if_neg (by rw [hOff]; exact Bool.false_ne_true)]

theorem doAonResetRelease_runs (hRuns : s.phs.running = true) : doAonResetRelease s = s := if_pos hRuns

/-! ### A die in reset has no clocks to lose (R588) -/

section Reset
variable (hReset : s.phs.dieReset = true)
include hReset

theorem doRefclkBLoss_reset (lost : Bool) : doRefclkBLoss lost s = s := if_pos hReset

theorem doRefclkALoss_reset : doRefclkALoss s = s := if_pos hReset

theorem doRefclkAReturn_reset : doRefclkAReturn s = s := if_pos hReset

theorem doDdrPllUnlock_reset (channel : Fin 16) : doDdrPllUnlock channel s = s := if_pos hReset

theorem doSerdesPllUnlock_reset (pll : Fin 8) : doSerdesPllUnlock pll s = s := if_pos hReset

theorem doSerdesPllRelock_reset (pll : Fin 8) : doSerdesPllRelock pll s = s := if_pos hReset

end Reset

/-! ### Faults while the die runs (R588) -/

/-- The lock bits of a PLL, by the group it clocks. -/
theorem pllBit_host {pll : Nat} (h : pll < 4) : pllBit pll = (Reg.GLB_CLK_STS.host_sd_lock, pll) := if_pos h

theorem pllBit_twin {pll : Nat} (hLow : 4 ≤ pll) (hHigh : pll < 6) : pllBit pll = (Reg.GLB_CLK_STS.twin_sd_lock, pll - 4) := by
  rw [pllBit, if_neg (by omega), if_pos hHigh]

theorem pllBit_chain {pll : Nat} (h : 6 ≤ pll) : pllBit pll = (Reg.GLB_CLK_STS.chain_sd_lock, pll - 6) := by
  rw [pllBit, if_neg (by omega), if_neg (by omega)]

section Runs
variable (hRuns : s.phs.dieReset = false)
include hRuns

theorem doRefclkBLoss_fault (lost : Bool) : doRefclkBLoss lost s =
    (let u := setFlag (putFlag (if lost then putFlag (clockFault s Reg.GLB_CLK_ERR.refclk_b_loss [31]) Reg.GLB_CLK_STS.refclk_b_ok false
        else clockFault s Reg.GLB_CLK_ERR.root_unlock [31]) Reg.GLB_CLK_STS.root_lock false) Reg.GLB_CLK_STS.holdover
     if phsState u = phsRunning then stopRun u (some 31) 2 else u) := by
  rw [doRefclkBLoss, if_neg (by rw [hRuns]; exact Bool.false_ne_true)]

theorem doRefclkALoss_fault : doRefclkALoss s = stopLinks
    (putFlag (clockFault s Reg.GLB_CLK_ERR.refclk_a_loss [0]) Reg.GLB_CLK_STS.refclk_a_ok false) (List.range 16) := by
  rw [doRefclkALoss, if_neg (by rw [hRuns]; exact Bool.false_ne_true)]

theorem doRefclkAReturn_retrains : doRefclkAReturn s = startAllTraining (putFlag s Reg.GLB_CLK_STS.refclk_a_ok true) := by
  rw [doRefclkAReturn, if_neg (by rw [hRuns]; exact Bool.false_ne_true)]

section Ddr
variable {u v w : State} {channel : Fin 16} (hFault : clockFault s Reg.GLB_CLK_ERR.ddr_unlock [channel.val] = u)
  (hLock : setF u Reg.GLB_CLK_STS.ddr_lock (clearBit (getF u Reg.GLB_CLK_STS.ddr_lock) channel.val) = v)
  (hAsked : askRetrain (updLoamChan v channel.val fun c => { c with heldByPll := true }) channel.val false = w)
include hFault hLock hAsked

theorem doDdrPllUnlock_fault : doDdrPllUnlock channel s = if loamState w channel.val = 1 ∨ loamState w channel.val = 3 then
    closeRows (setLoamState (updLoamChan w channel.val fun c => { c with segment := true }) channel.val 2) channel.val else w := by
  subst hFault hLock hAsked
  rw [doDdrPllUnlock, if_neg (by rw [hRuns]; exact Bool.false_ne_true)]
  simp only [Bool.or_eq_true, decide_eq_true_eq]

end Ddr

section Serdes
variable {pll : Fin 8}

section Unlock
variable {u : State} (hFault : clockFault s Reg.GLB_CLK_ERR.sd_unlock [pll.val] = u)
include hFault

theorem doSerdesPllUnlock_host (hHost : pll.val < 4) : doSerdesPllUnlock pll s =
    stopLinks (setF u Reg.GLB_CLK_STS.host_sd_lock (clearBit (getF s Reg.GLB_CLK_STS.host_sd_lock) pll.val)) (pllPorts pll.val) := by
  rw [doSerdesPllUnlock, if_neg (by rw [hRuns]; exact Bool.false_ne_true), pllBit_host hHost, hFault]
  exact if_pos hHost

theorem doSerdesPllUnlock_twin (hLow : 4 ≤ pll.val) (hHigh : pll.val < 6) : doSerdesPllUnlock pll s =
    (pllPorts pll.val).foldl (fun s p => doTwinPortDown (Fin.ofNat 8 p) s) (setF u Reg.GLB_CLK_STS.twin_sd_lock
      (clearBit (getF s Reg.GLB_CLK_STS.twin_sd_lock) (pll.val - 4))) := by
  rw [doSerdesPllUnlock, if_neg (by rw [hRuns]; exact Bool.false_ne_true), pllBit_twin hLow hHigh, hFault]
  exact (if_neg (Nat.not_lt.2 hLow)).trans (if_pos hHigh)

theorem doSerdesPllUnlock_chain (hChain : 6 ≤ pll.val) : doSerdesPllUnlock pll s =
    (pllPorts pll.val).foldl (fun s p => doChainPortDown (Fin.ofNat 8 p) none s) (setF u Reg.GLB_CLK_STS.chain_sd_lock
      (clearBit (getF s Reg.GLB_CLK_STS.chain_sd_lock) (pll.val - 6))) := by
  rw [doSerdesPllUnlock, if_neg (by rw [hRuns]; exact Bool.false_ne_true), pllBit_chain hChain, hFault]
  exact (if_neg (by omega)).trans (if_neg (by omega))

end Unlock

theorem doSerdesPllRelock_host (hHost : pll.val < 4) : doSerdesPllRelock pll s =
    (pllPorts pll.val).foldl startTraining (setF s Reg.GLB_CLK_STS.host_sd_lock
      (clearBit (getF s Reg.GLB_CLK_STS.host_sd_lock) pll.val + 2 ^ pll.val)) := by
  rw [doSerdesPllRelock, if_neg (by rw [hRuns]; exact Bool.false_ne_true), pllBit_host hHost]
  exact if_pos hHost

theorem doSerdesPllRelock_twin (hLow : 4 ≤ pll.val) (hHigh : pll.val < 6) : doSerdesPllRelock pll s =
    setF s Reg.GLB_CLK_STS.twin_sd_lock (clearBit (getF s Reg.GLB_CLK_STS.twin_sd_lock) (pll.val - 4) + 2 ^ (pll.val - 4)) := by
  rw [doSerdesPllRelock, if_neg (by rw [hRuns]; exact Bool.false_ne_true), pllBit_twin hLow hHigh]
  exact if_neg (Nat.not_lt.2 hLow)

theorem doSerdesPllRelock_chain (hChain : 6 ≤ pll.val) : doSerdesPllRelock pll s =
    setF s Reg.GLB_CLK_STS.chain_sd_lock (clearBit (getF s Reg.GLB_CLK_STS.chain_sd_lock) (pll.val - 6) + 2 ^ (pll.val - 6)) := by
  rw [doSerdesPllRelock, if_neg (by rw [hRuns]; exact Bool.false_ne_true), pllBit_chain hChain]
  exact if_neg (by omega)

end Serdes

end Runs

end Clocks

/-- Settles O47: the always-on reset field by field, each other command by the rule of its outcome. -/
theorem clocksAndReset : Obligations.ClocksAndReset := by
  refine ⟨fun s => ⟨_, exec_aonPowerOnReset s, rfl, doAonPowerOnReset_phs s, doAonPowerOnReset_devTime s,
      doAonPowerOnReset_regs s, doAonPowerOnReset_dirty s⟩,
    fun s hOff => ?starts, fun s hRuns => ?startsNot, ?bLoss, ?rootUnlock,
    fun s lost channel pll hReset => ⟨?bReset, ?aReset, ?returnReset, ?ddrReset, ?unlockReset, ?relockReset⟩,
    fun s hRuns => ?aLoss, fun s hRuns => ?aReturn,
    fun s u v w channel hRuns hFault hLock hAsked => ⟨fun hOpen => ?ddrHeld, fun hNot => ?ddrAlone⟩,
    fun s u pll hRuns hFault => ⟨fun hHost => ?unlockHost, fun hLow hHigh => ?unlockTwin, fun hChain => ?unlockChain⟩,
    fun s pll hRuns hHost => ?relockHost, fun s pll hRuns hChain => ?relockChain, fun s pll hRuns hLow hHigh => ?relockTwin⟩
  case starts => rw [exec_aonResetRelease, doAonResetRelease_starts hOff]
  case startsNot => rw [exec_aonResetRelease, doAonResetRelease_runs hRuns]
  case bLoss => rintro s u hRuns rfl; rw [exec_refclkBLoss, doRefclkBLoss_fault hRuns, if_pos rfl]
  case rootUnlock => rintro s u hRuns rfl; rw [exec_refclkBLoss, doRefclkBLoss_fault hRuns, if_neg Bool.false_ne_true]
  case bReset => rw [exec_refclkBLoss, doRefclkBLoss_reset hReset]
  case aReset => rw [exec_refclkALoss, doRefclkALoss_reset hReset]
  case returnReset => rw [exec_refclkAReturn, doRefclkAReturn_reset hReset]
  case ddrReset => rw [exec_ddrPllUnlock, doDdrPllUnlock_reset hReset]
  case unlockReset => rw [exec_serdesPllUnlock, doSerdesPllUnlock_reset hReset]
  case relockReset => rw [exec_serdesPllRelock, doSerdesPllRelock_reset hReset]
  case aLoss => rw [exec_refclkALoss, doRefclkALoss_fault hRuns]
  case aReturn => rw [exec_refclkAReturn, doRefclkAReturn_retrains hRuns]
  case ddrHeld => rw [exec_ddrPllUnlock, doDdrPllUnlock_fault hRuns hFault hLock hAsked, if_pos hOpen]
  case ddrAlone => rw [exec_ddrPllUnlock, doDdrPllUnlock_fault hRuns hFault hLock hAsked, if_neg (by omega)]
  case unlockHost => rw [exec_serdesPllUnlock, doSerdesPllUnlock_host hRuns hFault hHost]
  case unlockTwin => rw [exec_serdesPllUnlock, doSerdesPllUnlock_twin hRuns hFault hLow hHigh]
  case unlockChain => rw [exec_serdesPllUnlock, doSerdesPllUnlock_chain hRuns hFault hChain]
  case relockHost => rw [exec_serdesPllRelock, doSerdesPllRelock_host hRuns hHost]
  case relockChain => rw [exec_serdesPllRelock, doSerdesPllRelock_chain hRuns hChain]
  case relockTwin => rw [exec_serdesPllRelock, doSerdesPllRelock_twin hRuns hLow hHigh]

end Sys2Proof.Machine
end

section
/-! PROOFS. The code store's queues and its engine: each command as its effect, one rule per outcome, and the statement about them. -/

namespace Sys2Proof.Machine

/-! ### The commands as their effects -/

section Commands
variable (s : State) (who : Accessor) (value : Word)

theorem exec_csDescOpen : exec (.csDescOpen who value) s = .next (finished s (doCsDescOpen who value s)) := rfl

theorem exec_csDescCommit : exec (.csDescCommit who value) s = .next (finished s (doCsDescCommit who value s)) := rfl

theorem exec_csCmplRead : exec (.csCmplRead who) s = .next (finished s (doCsCmplRead who s)) := rfl

theorem exec_csFlush : exec (.csFlush who value) s = .next (finished s (doCsFlush who value s)) := rfl

theorem exec_coreAccessFault (core : Fin 5) (addr : BitVec 36) (cause : AccessCause) :
    exec (.coreAccessFault core addr cause) s = .next (finished s (doCoreAccessFault core addr cause s)) := rfl

theorem exec_csOpStart : exec .csOpStart s = .next (finished s (doCsOpStart s)) := rfl

theorem exec_csErase (n : Nat) : exec (.csErase n) s = .next (finished s (doCsErase n s)) := rfl

theorem exec_csProgram (data : List Word) : exec (.csProgram data) s = .next (finished s (doCsProgram data s)) := rfl

theorem exec_csOpDone (f : Option (Fin 8192)) : exec (.csOpDone f) s = .next (finished s (doCsOpDone f s)) := rfl

end Commands

section CodeStore
variable {s : State}

/-! ### Queues (R506, R509) -/

section Queues
variable {who : Accessor} {value : Word} (hMgr : isManager s who = true)
include hMgr

theorem doCsDescOpen_eq : doCsDescOpen who value s = updQueues s (accessorIdx who) fun q => { q with opened := some { w0 := value } } :=
  setupWrite_of_isManager hMgr _ _

theorem doCsDescCommit_none (hNone : (csQueues s (accessorIdx who)).opened = none) :
    doCsDescCommit who value s = setFlag s Reg.MGC_CS_ERR.desc_err := by
  simp only [doCsDescCommit, setupWrite_of_isManager hMgr, hNone]

/-- A commit of an open descriptor: into its queue where the fill bank has room, else dropped. -/
theorem doCsDescCommit_opened {o : CsOpen} {d : CsDesc} (hOpened : (csQueues s (accessorIdx who)).opened = some o)
    (hDesc : { w0 := o.w0, w1 := o.w1, w2 := o.w2, w3 := value } = d) : doCsDescCommit who value s =
      (let u := updQueues s (accessorIdx who) fun q => { q with opened := none }
       if 0 < queueRoom (csBank (csUrgent d)) (if csUrgent d then (csQueues s (accessorIdx who)).urgentPtrs
           else (csQueues s (accessorIdx who)).normalPtrs)
       then csSettle (updQueues u (accessorIdx who) fun q => csPush q d) else setFlag u Reg.MGC_CS_ERR.desc_err) := by
  simp only [doCsDescCommit, setupWrite_of_isManager hMgr, hOpened, hDesc]

theorem doCsCmplRead_takes {lo hi : Word} (hHead : ((csQueues s (accessorIdx who)).cmpl.head?).getD (idleItem, idleItem) = (lo, hi)) :
    doCsCmplRead who s = csSettle (emit (updQueues s (accessorIdx who) fun q => { q with cmpl := q.cmpl.drop 1, latchedHi := hi })
      (.regData who .mgmt Reg.MGC_CS_CMPL_LO.cmpl_lo.addr lo)) := by
  simp only [doCsCmplRead, hMgr, hHead, Bool.not_true, Bool.false_eq_true, if_false]

theorem doCsFlush_flushes (hFlush : wr value Reg.MGC_CS_CTL.flush = 1) : doCsFlush who value s =
    csSettle (updQueues s (accessorIdx who) fun q => { q with
      opened := none, normal := [], urgent := []
      normalPtrs := queuePop 16 q.normalPtrs q.normal.length, urgentPtrs := queuePop 2 q.urgentPtrs q.urgent.length }) := by
  rw [doCsFlush, setupWrite_of_isManager hMgr, if_pos hFlush]
  rfl

theorem doCsFlush_not (hNot : wr value Reg.MGC_CS_CTL.flush = 0) : doCsFlush who value s = s := by
  rw [doCsFlush, setupWrite_of_isManager hMgr, if_neg (by rw [hNot]; exact Nat.zero_ne_one)]

end Queues

/-- Which queue a descriptor enters. -/
theorem csPush_normal {d : CsDesc} (h : csUrgent d = false) :
    (fun q => csPush q d) = fun q => { q with normal := q.normal ++ [d], normalPtrs := queuePush 16 q.normalPtrs 1 } :=
  funext fun _ => if_neg (by rw [h]; exact Bool.false_ne_true)

theorem csPush_urgent {d : CsDesc} (h : csUrgent d = true) :
    (fun q => csPush q d) = fun q => { q with urgent := q.urgent ++ [d], urgentPtrs := queuePush 2 q.urgentPtrs 1 } :=
  funext fun _ => if_pos h

/-! ### The engine (R508, R510) -/

section Start
variable {u : State} (hSettled : csSettle s = u)
include hSettled

theorem doCsOpStart_idle (hIdle : u.mgc.op = none) (hNoCrash : u.evr.crash = none) : doCsOpStart s = csStartNext u := by
  simp only [doCsOpStart, hSettled, hIdle, hNoCrash, Option.isSome_none, Bool.false_eq_true, if_false]

theorem doCsOpStart_crash (hIdle : u.mgc.op = none) (hCrash : u.evr.crash ≠ none) : doCsOpStart s = u := by
  simp only [doCsOpStart, hSettled, hIdle, Option.isSome_iff_ne_none.2 hCrash, if_true]

section Op
variable {o : CsOp} (hOp : u.mgc.op = some o)
include hOp

theorem doCsOpStart_kept (hNot : csMaySuspend u o = false) : doCsOpStart s = u := by
  simp only [doCsOpStart, hSettled, hOp, hNot, Bool.false_and, Bool.false_eq_true, if_false]

theorem doCsOpStart_goesOn (hNoCrash : u.evr.crash = none) (hNone : csNext u true = none) : doCsOpStart s = u := by
  simp only [doCsOpStart, hSettled, hOp, hNoCrash, hNone, Option.isSome_none, Bool.or_self, Bool.and_false, Bool.false_eq_true, if_false]

variable (hMay : csMaySuspend u o = true)
include hMay

theorem doCsOpStart_givesWay (hCrash : u.evr.crash ≠ none) : doCsOpStart s = csSuspend u o := by
  have hStays : (csSuspend u o).evr.crash.isSome = true := Option.isSome_iff_ne_none.2 hCrash
  simp only [doCsOpStart, hSettled, hOp, hMay, Option.isSome_iff_ne_none.2 hCrash, hStays, Bool.true_or, Bool.and_self, if_true]

theorem doCsOpStart_urgent (hNoCrash : u.evr.crash = none) (hNext : csNext u true ≠ none) : doCsOpStart s = csStartNext (csSuspend u o) := by
  have hStays : (csSuspend u o).evr.crash = none := hNoCrash
  simp only [doCsOpStart, hSettled, hOp, hMay, hNoCrash, hStays, Option.isSome_iff_ne_none.2 hNext, Option.isSome_none, Bool.false_or,
    Bool.and_self, Bool.false_eq_true, if_false, if_true]

end Op

end Start

/-! ### Erases, programs and their ends (R505, R507, R509, R512, R513) -/

section NoOp
variable (hNone : s.mgc.op = none)
include hNone

theorem doCsErase_none (n : Nat) : doCsErase n s = s := by simp only [doCsErase, hNone]

theorem doCsProgram_none (data : List Word) : doCsProgram data s = s := by simp only [doCsProgram, hNone]

theorem doCsOpDone_none (f : Option (Fin 8192)) : doCsOpDone f s = s := by simp only [doCsOpDone, hNone]

end NoOp

/-- Programming ends at the first word that is already programmed. -/
theorem programWords_ends (s : State) (a : Nat) (words : List Word) : (programWords s a words).1 ≤ words.length ∧
    ((programWords s a words).1 < words.length → wordProgrammed (programWords s a words).2 (a + (programWords s a words).1) = true) := by
  induction words generalizing s a with
  | nil => exact ⟨Nat.le_refl 0, fun h => absurd h (Nat.lt_irrefl 0)⟩
  | cons w t ih =>
    rw [programWords]
    by_cases hMet : wordProgrammed s a = true
    · rw [if_pos hMet]; exact ⟨Nat.zero_le _, fun _ => hMet⟩
    · rw [if_neg hMet]
      obtain ⟨hLe, hEnd⟩ := ih { s with mgc.store := sput none s.mgc.store a (some w) } (a + 1)
      refine ⟨Nat.succ_le_succ hLe, fun hLt => ?_⟩
      have hAt := hEnd (Nat.lt_of_succ_lt_succ hLt)
      rwa [Nat.add_assoc, Nat.add_comm 1] at hAt

section Op
variable {o : CsOp} (hOp : s.mgc.op = some o)
include hOp

theorem doCsErase_erases {n : Nat} {run : List Nat} {u : State} (hErase : csOp o.desc = 1)
    (hRun : ((csSectors o.desc).drop o.done).take n = run) (hErased : run.foldl eraseSector s = u) : doCsErase n s =
      { u with mgc.op := some { o with done := o.done + run.length, suspends := if run.isEmpty then o.suspends else 0 } } := by
  simp only [doCsErase, hOp, hErase, hRun, hErased, ne_eq, not_true_eq_false, if_false]

theorem doCsErase_other (n : Nat) (hNot : csOp o.desc ≠ 1) : doCsErase n s = s := by
  simp only [doCsErase, hOp, if_pos hNot]

theorem doCsProgram_other (data : List Word) (hNot : csOp o.desc ≠ 2) : doCsProgram data s = s := by
  simp only [doCsProgram, hOp, if_pos hNot]

theorem doCsProgram_programs {data words : List Word} {n : Nat} {u v : State} (hProgram : csOp o.desc = 2)
    (hWords : data.take (csCount o.desc - o.done) = words)
    (hHeld : ((List.range words.length).zip words).foldl (fun s e =>
      { s with mgc.sram := sput 0 s.mgc.sram (sramKey o.master (csSram o.desc) (o.done + e.1)) e.2 }) s = u)
    (hEnd : programWords u (csAddr o.desc / 4 + o.done) words = (n, v)) : doCsProgram data s =
      { readContents v (csAddr o.desc / 4096) with mgc.op := some { o with done := o.done + n } } := by
  simp only [doCsProgram, hOp, hProgram, hWords, hHeld, hEnd, ne_eq, not_true_eq_false, if_false]

/-- Without a failed unit an operation ends once it is done, or at a word that was already programmed. -/
theorem doCsOpDone_good {f : Option (Fin 8192)} (hGood : ∀ i, f = some i → o.done ≤ i.val) : doCsOpDone f s =
    if o.done = csCount o.desc then
      csSettle (csComplete { s with mgc.op := none } o.master 0 (csTag o.desc) (csAddrOf o.desc o.done))
    else if csOp o.desc ≠ 1 ∧ wordProgrammed s (csAddr o.desc / 4 + o.done) = true then
      csSettle (csComplete { s with mgc.op := none } o.master 3 (csTag o.desc) (csAddrOf o.desc o.done))
    else s := by
  have hNone : (f.filter fun i => decide (i.val < o.done)) = none := by
    rw [Option.filter_eq_none_iff]
    exact fun i hSome => by rw [decide_eq_true_iff]; exact Nat.not_lt.2 (hGood i hSome)
  simp only [doCsOpDone, hOp, hNone, csOk, csReprogram, Bool.and_eq_true, Bool.not_eq_true', decide_eq_false_iff_not, ne_eq]

theorem doCsOpDone_failed {i : Fin 8192} {u : State} (hFailed : i.val < o.done) (hAborted : abortOp s (some { o with done := i.val }) = u) :
    doCsOpDone (some i) s = csSettle (csComplete { (if csOp o.desc = 1 then setFlag u Reg.MGC_CS_ERR.erase_fail
        else setFlag u Reg.MGC_CS_ERR.verify_fail) with mgc.op := none } o.master (if csOp o.desc = 1 then 5 else 4) (csTag o.desc)
      (csAddrOf o.desc i.val)) := by
  have hSome : ((some i).filter fun i => decide (i.val < o.done)) = some i := by
    rw [Option.filter_some, if_pos (decide_eq_true hFailed)]
  simp only [doCsOpDone, hOp, hSome, hAborted, csEraseFail, csVerifyFail]
  by_cases hErase : csOp o.desc = 1
  · simp only [hErase, if_true]
  · simp only [hErase, if_false]

end Op

end CodeStore

/-- Settles O48: a queue's access by what the queue holds, the engine by what is in progress and what waits. -/
theorem codeStore : Obligations.CodeStore := by
  refine ⟨⟨fun s who value hMgr => ?opens, fun s who value hMgr hNone => ?commitsNone, ?commits, fun s who hMgr hEmpty => ?idle,
      fun s who lo hi t hMgr hHead => ?takes, fun s who value hMgr hFlush => ?flushes, fun s who value hMgr hNot => ?flushesNot,
      fun s core addr => ⟨fun cause hCause => ?fault, ?uncorrectable, ?busy⟩⟩,
    ⟨fun s hIdle hNoCrash => ?starts, fun s hIdle hCrash => ?crash, fun s u o hSettled hOp hMay =>
        ⟨fun hCrash => ?givesWay, fun hNoCrash hNext => ?urgent, fun hNoCrash hNone => ?goesOn⟩,
      fun s u o hSettled hOp hNot => ?kept, fun s u o n run hOp hErase hRun hErased => ?erases,
      fun s n data hNone => ⟨?eraseNone, ?programNone, fun f => ?doneNone⟩,
      fun s o n data hOp => ⟨fun hNot => ?eraseOther, fun hNot => ?programOther⟩,
      fun s u v o data words n hOp hProgram hWords hHeld hEnd => ?programs, programWords_ends,
      fun s o hOp hDone => ?done, fun s o f hOp hMore hGood => ⟨fun hProgram hMet => ?met, fun hNot => ?notMet⟩,
      fun s u o i hOp hFailed hAborted => ?failed⟩⟩
  case opens => rw [exec_csDescOpen, doCsDescOpen_eq hMgr]
  case commitsNone => rw [exec_csDescCommit, doCsDescCommit_none hMgr hNone]
  case commits =>
    rintro s u who value o d hMgr hOpened rfl rfl
    refine ⟨fun hNormal hRoom => ?_, fun hUrgent hRoom => ?_, fun hFull => ?_⟩ <;> rw [exec_csDescCommit, doCsDescCommit_opened hMgr hOpened rfl]
    · have hQueue : csUrgent { w0 := o.w0, w1 := o.w1, w2 := o.w2, w3 := value } = false := decide_eq_false (by rw [hNormal]; decide)
      simp only [csPush_normal hQueue, hQueue, Bool.false_eq_true, if_false]
      rw [if_pos (by exact hRoom)]
    · have hQueue : csUrgent { w0 := o.w0, w1 := o.w1, w2 := o.w2, w3 := value } = true := decide_eq_true hUrgent
      simp only [csPush_urgent hQueue, hQueue, if_true]
      rw [if_pos (by exact hRoom)]
    · dsimp only
      rw [if_neg (Nat.not_lt.2 (Nat.le_of_eq hFull))]
  case idle => rw [exec_csCmplRead, doCsCmplRead_takes (lo := 0xFFFFFFFF) (hi := 0xFFFFFFFF) hMgr (by rw [hEmpty]; rfl)]
  case takes => rw [exec_csCmplRead, doCsCmplRead_takes (lo := lo) (hi := hi) hMgr (by rw [hHead, List.head?_cons, Option.getD_some])]
  case flushes => rw [exec_csFlush, doCsFlush_flushes hMgr hFlush]
  case flushesNot => rw [exec_csFlush, doCsFlush_not hMgr hNot]
  case fault => rw [exec_coreAccessFault]; rcases hCause with rfl | rfl <;> rfl
  case uncorrectable => exact exec_coreAccessFault s core addr .uncorrectable
  case busy => exact exec_coreAccessFault s core addr .busyBank
  case starts => rw [exec_csOpStart, doCsOpStart_idle rfl hIdle hNoCrash]
  case crash => rw [exec_csOpStart, doCsOpStart_crash rfl hIdle hCrash]
  case givesWay => rw [exec_csOpStart, doCsOpStart_givesWay hSettled hOp hMay hCrash]
  case urgent => rw [exec_csOpStart, doCsOpStart_urgent hSettled hOp hMay hNoCrash hNext]
  case goesOn => rw [exec_csOpStart, doCsOpStart_goesOn hSettled hOp hNoCrash hNone]
  case kept => rw [exec_csOpStart, doCsOpStart_kept hSettled hOp hNot]
  case erases => rw [exec_csErase, doCsErase_erases hOp hErase hRun hErased]
  case eraseNone => rw [exec_csErase, doCsErase_none hNone]
  case programNone => rw [exec_csProgram, doCsProgram_none hNone]
  case doneNone => rw [exec_csOpDone, doCsOpDone_none hNone]
  case eraseOther => rw [exec_csErase, doCsErase_other hOp n hNot]
  case programOther => rw [exec_csProgram, doCsProgram_other hOp data hNot]
  case programs => rw [exec_csProgram, doCsProgram_programs hOp hProgram hWords hHeld hEnd]
  case done => rw [exec_csOpDone, doCsOpDone_good (f := none) hOp nofun, if_pos hDone]
  case met => rw [exec_csOpDone, doCsOpDone_good hOp hGood, if_neg hMore, if_pos ⟨hProgram, hMet⟩]
  case notMet =>
    rw [exec_csOpDone, doCsOpDone_good hOp hGood, if_neg hMore, if_neg fun h => ?_]
    rcases hNot with hErase | hFree
    · exact h.1 hErase
    · exact Bool.false_ne_true (hFree.symm.trans h.2)
  case failed => rw [exec_csOpDone, doCsOpDone_failed hOp hFailed hAborted]

end Sys2Proof.Machine
end

section
/-! PROOFS. Lockstep, the watchdog, the management reset and boot_ok: each command as its effect, one rule per outcome, and the statement about
them. -/

namespace Sys2Proof.Machine

/-! ### The commands as their effects -/

section Commands
variable (s : State) (b : BootReport) (who : Accessor)

theorem exec_lockstepMismatch : exec (.lockstepMismatch b) s = .next (finished s (doLockstepMismatch b s)) := rfl

theorem exec_wdtKick (value : Word) : exec (.wdtKick who value) s = .next (finished s (doWdtKick who value s)) := rfl

theorem exec_wdtWarning : exec .wdtWarning s = .next (finished s (doWdtWarning s)) := rfl

theorem exec_wdtExpiry : exec (.wdtExpiry b) s = .next (finished s (doWdtExpiry b s)) := rfl

theorem exec_mgmtReset : exec (.mgmtReset who b) s = .next (finished s (doMgmtReset who b s)) := rfl

theorem exec_bootOk : exec (.bootOk who) s = .next (settled s (doBootOk who s)) := rfl

theorem exec_jtagFuseClose (vppHigh : Bool) : exec (.jtagFuseClose vppHigh) s = .next (finished s (doJtagFuseClose vppHigh s)) := rfl

theorem exec_smbusBlockRead : exec .smbusBlockRead s = .next (finished s (doSmbusBlockRead s)) := rfl

theorem exec_i3cAddressAssign (a : Fin 128) : exec (.i3cAddressAssign a) s = .next (finished s (doI3cAddressAssign a s)) := rfl

end Commands

section Management
variable {s : State} {b : BootReport}

/-! ### The watchdog (R521, R522) -/

theorem doWdtKick_mid {m : Mid} (value : Word) (hMgr : isManager s (.mid m) = true) : doWdtKick (.mid m) value s =
    if wr value Reg.MGC_WDT_KICK.kick = 0x5A5A then restartWdt s else incF s Reg.MGC_WDT_STS.bad_kicks :=
  setupWrite_of_isManager hMgr _ _

theorem doWdtKick_jtag (value : Word) (hMgr : isManager s .jtag = true) : doWdtKick .jtag value s = s := setupWrite_of_isManager hMgr _ _

section Stopped
variable (hStopped : wdtRuns s = false)
include hStopped

theorem doWdtExpiry_stopped : doWdtExpiry b s = s := by
  simp only [doWdtExpiry, hStopped, Bool.not_false, if_true]

theorem doWdtWarning_stopped : doWdtWarning s = s := by
  simp only [doWdtWarning, hStopped, Bool.not_false, Bool.true_or, if_true]

end Stopped

theorem doWdtWarning_again (hWarned : flag s Reg.MGC_WDT_STS.warned = true) : doWdtWarning s = s := by
  simp only [doWdtWarning, hWarned, Bool.or_true, if_true]

section Runs
variable (hRuns : wdtRuns s = true)
include hRuns

theorem doWdtWarning_first (hNot : flag s Reg.MGC_WDT_STS.warned = false) :
    doWdtWarning s = emit (raise (setFlag s Reg.MGC_WDT_STS.warned) 1504 .wdtWarn 0xFFF []) (.coreIrq 0x3F) := by
  simp only [doWdtWarning, hRuns, hNot, Bool.not_true, Bool.or_self, Bool.false_eq_true, if_false]

theorem doWdtExpiry_resets : doWdtExpiry b s = mgmtReset (raise (incF s Reg.MGC_RST_CAUSE.wdt_cnt) 1504 .wdtExpiry 0xFFF []) 1 b := by
  simp only [doWdtExpiry, hRuns, Bool.not_true, Bool.false_eq_true, if_false]

end Runs

/-! ### The management reset (R523) -/

theorem isLockstep_mid {m : Mid} : isLockstep (.mid m) = true ↔ m.val = 0x340 ∨ m.val = 0x341 := by
  rw [isLockstep, Bool.or_eq_true, decide_eq_true_iff, decide_eq_true_iff]

theorem doMgmtReset_pair {m : Mid} (hPair : m.val = 0x340 ∨ m.val = 0x341) : doMgmtReset (.mid m) b s = mgmtReset s 4 b :=
  if_pos (isLockstep_mid.2 hPair)

theorem doMgmtReset_denied {m : Mid} (hFirst : m.val ≠ 0x340) (hSecond : m.val ≠ 0x341) :
    doMgmtReset (.mid m) b s = denySetup s (.mid m) Reg.MGC_RST_CTL.mgmt_reset.addr :=
  if_neg (by rw [isLockstep_mid]; exact not_or_intro hFirst hSecond)

theorem doMgmtReset_jtag : doMgmtReset .jtag b s =
    if s.mgc.debugClosed then denySetup s .jtag Reg.MGC_RST_CTL.mgmt_reset.addr else mgmtReset s 5 b := rfl

/-! ### boot_ok (R523) -/

/-- Setting boot_ok leaves the bank that booted. -/
theorem bank_setFlag_bootOk : getF (setFlag s Reg.MGC_BOOT_CTL.boot_ok) Reg.MGC_BOOT_STS.bank = getF s Reg.MGC_BOOT_STS.bank :=
  getFi_setFi_ne (by decide)

theorem doBootOk_serves {u : State} {who : Accessor} (hMgr : isManager s who = true)
    (hCount : setF (setFlag s Reg.MGC_BOOT_CTL.boot_ok) (bootCount (getF s Reg.MGC_BOOT_STS.bank)) 0 = u) : doBootOk who s =
      u.mgc.waiting.foldl (fun s i => serveMailbox i s) { u with mgc.booted := true, mgc.waiting := [] } := by
  subst hCount
  exact setupWrite_of_isManager hMgr _ _

/-! ### The sideband buses (R526) -/

theorem doSmbusBlockRead_eq : doSmbusBlockRead s = emit s (.sideband (if s.mgc.booted then
    .smbusBlock (sideFlags s) (phsState s) (senseValue s 20) (BitVec.ofNat 32 s.mgc.eventsRaised) else .smbusBusy)) := by
  unfold doSmbusBlockRead
  cases s.mgc.booted <;> rfl

end Management

/-- Settles O49: each command by the rule of its outcome. -/
theorem managementResets : Obligations.ManagementResets := by
  refine ⟨?lockstep, fun s m value hMgr => ?kick, fun s value hMgr => ?jtagKick, fun s hRuns hWarned => ?warned, fun s hRuns hNot => ?warns,
    fun s b hRuns => ?expires, fun s b hStopped => ⟨?noExpiry, ?noWarning⟩, fun s m b hPair => ?reset, fun s m b hFirst hSecond => ?denied,
    fun s b => ⟨fun hClosed => ?closed, fun hOpen => ?debugOpen⟩, ?bootOk, fun s => ⟨exec_jtagFuseClose s true, exec_jtagFuseClose s false⟩,
    fun s => ?smbus, exec_i3cAddressAssign⟩
  case lockstep => rintro s u v b times rfl rfl rfl; rw [exec_lockstepMismatch]; rfl
  case kick => rw [exec_wdtKick, doWdtKick_mid value hMgr]
  case jtagKick => rw [exec_wdtKick, doWdtKick_jtag value hMgr]
  case warned => rw [exec_wdtWarning, doWdtWarning_again hWarned]
  case warns => rw [exec_wdtWarning, doWdtWarning_first hRuns hNot]
  case expires => rw [exec_wdtExpiry, doWdtExpiry_resets hRuns]
  case noExpiry => rw [exec_wdtExpiry, doWdtExpiry_stopped hStopped]
  case noWarning => rw [exec_wdtWarning, doWdtWarning_stopped hStopped]
  case reset => rw [exec_mgmtReset, doMgmtReset_pair hPair]
  case denied => rw [exec_mgmtReset, doMgmtReset_denied hFirst hSecond]
  case closed => rw [exec_mgmtReset, doMgmtReset_jtag, if_pos hClosed]
  case debugOpen => rw [exec_mgmtReset, doMgmtReset_jtag, hOpen, if_neg Bool.false_ne_true]
  case bootOk => intro s u who hMgr hCount; rw [exec_bootOk, doBootOk_serves hMgr (bank_setFlag_bootOk ▸ hCount)]
  case smbus => rw [exec_smbusBlockRead, doSmbusBlockRead_eq]

end Sys2Proof.Machine
end

section
/-! PROOFS. The sideband's protocols: every request waits for boot_ok, one rule per outcome once it is served, and the statement about
them. -/

namespace Sys2Proof.Machine

/-! ### Requests that wait for boot_ok (R523) -/

/-- The requests of the sideband but for the firmware update, which is also served while no image runs (R518). -/
inductive SidebandRequest : Instr → Prop
  | mctpPacket (p : MctpPacket) : SidebandRequest (.mctpPacket p)
  | setEndpointId (eid : Fin 256) : SidebandRequest (.setEndpointId eid)
  | pldmBase (cmd : Fin 256) : SidebandRequest (.pldmBase cmd)
  | pldmPlatform (cmd : Fin 256) (sensor : Fin 65536) : SidebandRequest (.pldmPlatform cmd sensor)
  | pldmFru (cmd : Fin 256) : SidebandRequest (.pldmFru cmd)
  | getVersion : SidebandRequest .spdmGetVersion
  | getCapabilities : SidebandRequest .spdmGetCapabilities
  | negotiateAlgorithms (all : Bool) : SidebandRequest (.spdmNegotiateAlgorithms all)
  | getDigests : SidebandRequest .spdmGetDigests
  | getCertificate (o l : Fin 65536) : SidebandRequest (.spdmGetCertificate o l)
  | challenge (n : BitVec 256) : SidebandRequest (.spdmChallenge n)
  | getMeasurements (x : Fin 256) (signed : Bool) (n : BitVec 256) : SidebandRequest (.spdmGetMeasurements x signed n)
  | keyExchange (path : SpdmPath) (mutualAuth : Bool) : SidebandRequest (.spdmKeyExchange path mutualAuth)
  | finish (x : Fin 65536) (ok : Bool) : SidebandRequest (.spdmFinish x ok)
  | keyUpdate (x : Fin 65536) (link : Option (Fin 9)) (a b : Nat) : SidebandRequest (.spdmKeyUpdate x link a b)
  | heartbeat (x : Fin 65536) : SidebandRequest (.spdmHeartbeat x)
  | endSession (x : Fin 65536) : SidebandRequest (.spdmEndSession x)

/-- Every one of them is served as boot_ok serves it, or waits for boot_ok. -/
theorem exec_sideband {i : Instr} (s : State) (h : SidebandRequest i) :
    exec i s = .next (finished s (whenBooted s i (serveSideband i s))) := by
  cases h <;> rfl

theorem exec_pldmFirmwareUpdate (s : State) (u : UpdateStep) : exec (.pldmFirmwareUpdate u) s =
    .next (finished s (whenSideband s (.pldmFirmwareUpdate u) (doPldmFirmwareUpdate u s))) := rfl

section Booted
variable {s : State} (hBoot : s.mgc.booted = true)
include hBoot

theorem exec_served {i : Instr} (h : SidebandRequest i) : exec i s = .next (finished s (serveSideband i s)) := by
  rw [exec_sideband s h, whenBooted_acts _ _ hBoot]

theorem exec_mctpPacket (p : MctpPacket) : exec (.mctpPacket p) s = .next (finished s (doMctpPacket p s)) := exec_served hBoot (.mctpPacket p)

theorem exec_setEndpointId (eid : Fin 256) : exec (.setEndpointId eid) s = .next (finished s (doSetEndpointId eid s)) :=
  exec_served hBoot (.setEndpointId eid)

theorem exec_pldmPlatform (cmd : Fin 256) (sensor : Fin 65536) :
    exec (.pldmPlatform cmd sensor) s = .next (finished s (doPldmPlatform cmd sensor s)) := exec_served hBoot (.pldmPlatform cmd sensor)

theorem exec_pldmUpdate (u : UpdateStep) : exec (.pldmFirmwareUpdate u) s = .next (finished s (doPldmFirmwareUpdate u s)) := by
  rw [exec_pldmFirmwareUpdate, whenSideband, whenBooted_acts _ _ hBoot, ite_self]

theorem exec_spdmGetDigests : exec .spdmGetDigests s = .next (finished s (doSpdmGetDigests s)) := exec_served hBoot .getDigests

theorem exec_spdmGetCertificate (o l : Fin 65536) : exec (.spdmGetCertificate o l) s = .next (finished s (doSpdmGetCertificate o l s)) :=
  exec_served hBoot (.getCertificate o l)

theorem exec_spdmChallenge (n : BitVec 256) : exec (.spdmChallenge n) s = .next (finished s (doSpdmChallenge n s)) :=
  exec_served hBoot (.challenge n)

theorem exec_spdmGetMeasurements (x : Fin 256) (signed : Bool) (n : BitVec 256) :
    exec (.spdmGetMeasurements x signed n) s = .next (finished s (doSpdmGetMeasurements x signed n s)) := exec_served hBoot (.getMeasurements x signed n)

theorem exec_spdmKeyExchange (path : SpdmPath) (m : Bool) :
    exec (.spdmKeyExchange path m) s = .next (finished s (doSpdmKeyExchange path m s)) := exec_served hBoot (.keyExchange path m)

theorem exec_spdmFinish (x : Fin 65536) (ok : Bool) : exec (.spdmFinish x ok) s = .next (finished s (doSpdmFinish x ok s)) :=
  exec_served hBoot (.finish x ok)

theorem exec_spdmKeyUpdate (x : Fin 65536) (l : Option (Fin 9)) (a b : Nat) :
    exec (.spdmKeyUpdate x l a b) s = .next (finished s (doSpdmKeyUpdate x l a b s)) := exec_served hBoot (.keyUpdate x l a b)

theorem exec_spdmHeartbeat (x : Fin 65536) : exec (.spdmHeartbeat x) s = .next (finished s (doSpdmHeartbeat x s)) :=
  exec_served hBoot (.heartbeat x)

theorem exec_spdmEndSession (x : Fin 65536) : exec (.spdmEndSession x) s = .next (finished s (doSpdmEndSession x s)) :=
  exec_served hBoot (.endSession x)

end Booted

section Sideband
variable {s : State}

/-! ### MCTP (R527) -/

section Mctp
variable {p : MctpPacket}

theorem doSetEndpointId_kept {eid : Fin 256} (hLow : 8 ≤ eid.val) (hHigh : eid.val < 255) : doSetEndpointId eid s =
    emit (setFlag (setF s Reg.MGC_MCTP_STS.eid eid.val) Reg.MGC_MCTP_STS.eid_valid) (.sideband (.endpointId eid.val true)) := by
  refine if_neg ?_
  rw [Bool.or_eq_true, decide_eq_true_iff, decide_eq_true_iff]
  omega

theorem doSetEndpointId_reserved {eid : Fin 256} (h : eid.val < 8 ∨ eid.val = 255) :
    doSetEndpointId eid s = emit s (.sideband (.endpointId eid.val false)) :=
  if_pos (by rw [Bool.or_eq_true, decide_eq_true_iff, decide_eq_true_iff]; exact h)

/-- A packet that is looked at: for this endpoint, and of a length its place in the message allows. -/
theorem packetDropped_iff : (!mctpMine s p.dest.val || decide (256 < p.bytes.val) || (decide (p.bytes.val < 64) && !p.eom)) = true ↔
    mctpMine s p.dest.val = false ∨ 256 < p.bytes.val ∨ (p.bytes.val < 64 ∧ p.eom = false) := by
  simp only [Bool.or_eq_true, Bool.and_eq_true, Bool.not_eq_true', decide_eq_true_eq, or_assoc]

theorem doMctpPacket_dropped (h : mctpMine s p.dest.val = false ∨ 256 < p.bytes.val ∨ (p.bytes.val < 64 ∧ p.eom = false)) :
    doMctpPacket p s = s := if_pos (packetDropped_iff.2 h)

section Taken
variable {others : List Reassembly} (hMine : mctpMine s p.dest.val = true) (hMost : p.bytes.val ≤ 256) (hLeast : 64 ≤ p.bytes.val ∨ p.eom = true)
  (hOthers : (s.mgc.reassembly.filter fun x => !(x.source = p.src.val && x.tag = p.tag.val)) = others)
include hMine hMost hLeast

theorem packetTaken : (!mctpMine s p.dest.val || decide (256 < p.bytes.val) || (decide (p.bytes.val < 64) && !p.eom)) = false := by
  rw [Bool.eq_false_iff, Ne, packetDropped_iff, hMine]
  rintro (hFalse | hLong | ⟨hShort, hMore⟩)
  · cases hFalse
  · omega
  · rcases hLeast with hFull | hEnd
    · omega
    · rw [hEnd] at hMore; cases hMore

theorem doMctpPacket_stray (hRest : p.som = false) (hNone : (s.mgc.reassembly.find? fun x => x.source = p.src.val && x.tag = p.tag.val) = none) :
    doMctpPacket p s = s := by
  simp only [doMctpPacket, packetTaken hMine hMost hLeast, hRest, hNone, Bool.false_eq_true, if_false]

include hOthers

/-- A message's first packet: the whole of it, or the start of a reassembly where one is free. -/
theorem doMctpPacket_first (hFirst : p.som = true) : doMctpPacket p s =
    if p.eom then mctpWhole { s with mgc.reassembly := others } p.msgType.val
    else if 8 ≤ others.length then { s with mgc.reassembly := others }
    else { s with mgc.reassembly := others ++
      [{ source := p.src.val, tag := p.tag.val, msgType := p.msgType.val, bytes := p.bytes.val, nextSeq := (p.seq.val + 1) % 4 }] } := by
  simp only [doMctpPacket, packetTaken hMine hMost hLeast, hFirst, hOthers, Bool.false_eq_true, if_false, if_true]

/-- A later packet: out of order or too long it ends the reassembly, else it ends or lengthens the message. -/
theorem doMctpPacket_later {x : Reassembly} (hRest : p.som = false)
    (hFind : (s.mgc.reassembly.find? fun x => x.source = p.src.val && x.tag = p.tag.val) = some x) : doMctpPacket p s =
      if x.nextSeq ≠ p.seq.val ∨ 65536 < x.bytes + p.bytes.val then { s with mgc.reassembly := others }
      else if p.eom then mctpWhole { s with mgc.reassembly := others } x.msgType
      else { s with mgc.reassembly := others ++ [{ x with bytes := x.bytes + p.bytes.val, nextSeq := (x.nextSeq + 1) % 4 }] } := by
  simp only [doMctpPacket, packetTaken hMine hMost hLeast, hRest, hFind, hOthers, Bool.false_eq_true, if_false, Bool.or_eq_true,
    decide_eq_true_eq]

end Taken

end Mctp

/-! ### PLDM (R514, R516 to R520, R528) -/

section Pldm

theorem doPldmPlatform_channel {sensor : Fin 65536} (cmd : Fin 256) (h : sensor.val ≤ 20) :
    doPldmPlatform cmd sensor s = side s (.pldmPlatform cmd.val sensor.val (senseValue s sensor.val) []) := if_pos h

theorem doPldmPlatform_none {sensor : Fin 65536} (cmd : Fin 256) (h : 24 < sensor.val) : doPldmPlatform cmd sensor s = side s (.pldmError 0x80) := by
  unfold doPldmPlatform
  dsimp only
  rw [if_neg (by omega), if_neg (by omega), if_neg (by omega), if_neg (by omega), if_neg (by omega)]

theorem beginUpdate_eq (path component : Nat) (i : ImageHeader) (o : Option OptionArea) : beginUpdate s path component i o =
    if getF s Reg.MGC_SB_CFG.update_paths / 2 ^ path % 2 = 1 ∧ s.mgc.update = none ∧
      ((component = 1 ∧ imageAllowed s i = true) ∨ (component = 2 ∧ o ≠ none))
    then updateReply { eraseForUpdate s component i with mgc.update := some { component := component, image := i, option := o, phase := 0 } } 1 0
    else updateReply s 1 1 := by
  have hFits : (if component = 1 then imageAllowed s i else component = 2 && o.isSome) = true ↔
      (component = 1 ∧ imageAllowed s i = true) ∨ (component = 2 ∧ o ≠ none) := by
    by_cases hImage : component = 1
    · subst hImage; simp
    · rw [if_neg hImage, Bool.and_eq_true, decide_eq_true_iff, Option.isSome_iff_ne_none]; simp [hImage]
  have hRefused : (!(decide (getF s Reg.MGC_SB_CFG.update_paths / 2 ^ path % 2 = 1)) || s.mgc.update.isSome ||
      !(if component = 1 then imageAllowed s i else component = 2 && o.isSome)) = true ↔
      ¬ (getF s Reg.MGC_SB_CFG.update_paths / 2 ^ path % 2 = 1 ∧ s.mgc.update = none ∧
        ((component = 1 ∧ imageAllowed s i = true) ∨ (component = 2 ∧ o ≠ none))) := by
    rw [← hFits, Bool.or_eq_true, Bool.or_eq_true, Bool.not_eq_true', Bool.not_eq_true', decide_eq_false_iff_not,
      Option.isSome_iff_ne_none, ← Bool.not_eq_true]
    tauto
  unfold beginUpdate
  dsimp only
  by_cases hBegun : getF s Reg.MGC_SB_CFG.update_paths / 2 ^ path % 2 = 1 ∧ s.mgc.update = none ∧
      ((component = 1 ∧ imageAllowed s i = true) ∨ (component = 2 ∧ o ≠ none))
  · rw [if_pos hBegun, if_neg fun h => hRefused.mp h hBegun]
  · rw [if_neg hBegun, if_pos (hRefused.mpr hBegun)]

theorem updatePhase_turn {u : Update} {cmd from_ : Nat} {act : State → Update → State} (hUpdate : s.mgc.update = some u) (hPhase : u.phase = from_) :
    updatePhase s cmd from_ act = act { s with mgc.update := some { u with phase := from_ + 1 } } u := by
  simp only [updatePhase, hUpdate, if_pos hPhase]

theorem updatePhase_outOfTurn {u : Update} {cmd from_ : Nat} {act : State → Update → State} (hUpdate : s.mgc.update = some u)
    (hPhase : u.phase ≠ from_) : updatePhase s cmd from_ act = updateReply s cmd 1 := by
  simp only [updatePhase, hUpdate, if_neg hPhase]

theorem updatePhase_none {cmd from_ : Nat} {act : State → Update → State} (hNone : s.mgc.update = none) :
    updatePhase s cmd from_ act = updateReply s cmd 1 := by
  simp only [updatePhase, hNone]

end Pldm

/-! ### SPDM (R439, R441, R529) -/

section Spdm

theorem whenNegotiated_acts (t : State) (h : s.mgc.negotiated = true) : whenNegotiated s t = t := if_pos h

theorem whenNegotiated_refuses (t : State) (h : s.mgc.negotiated = false) : whenNegotiated s t = side s (.spdmError spdmUnexpected) := by
  rw [whenNegotiated, h, if_neg Bool.false_ne_true]

section Measurements
variable {i : Fin 256} (hNegotiated : s.mgc.negotiated = true)
include hNegotiated

theorem doSpdmGetMeasurements_one (n : BitVec 256) (hLow : 1 ≤ i.val) (hHigh : i.val ≤ 5) : doSpdmGetMeasurements i true n s =
    side s (.spdmMeasurements i.val [measurement s i.val] (some (Config.signature n))) := by
  rw [doSpdmGetMeasurements, whenNegotiated_acts _ hNegotiated, if_neg (by omega), if_neg (by omega), if_pos hHigh, if_pos rfl]

theorem doSpdmGetMeasurements_none (signed : Bool) (n : BitVec 256) (hLow : 6 ≤ i.val) (hHigh : i.val < 255) :
    doSpdmGetMeasurements i signed n s = side s (.spdmError spdmInvalid) := by
  rw [doSpdmGetMeasurements, whenNegotiated_acts _ hNegotiated, if_neg (by omega), if_neg (by omega), if_neg (by omega)]

theorem doSpdmGetMeasurements_all (n : BitVec 256) : doSpdmGetMeasurements 0xFF false n s =
    side s (.spdmMeasurements 0xFF ((List.range 5).map fun i => measurement s (i + 1)) none) := by
  rw [doSpdmGetMeasurements, whenNegotiated_acts _ hNegotiated]
  rfl

/-- A session's key exchange, over MCTP or a port's DOE mailbox. -/
theorem doSpdmKeyExchange_session {m : Bool} {path : SpdmPath} {doe : Option Nat}
    (hPath : (path = .mctp ∧ doe = none) ∨ (∃ port : Port, path = .doe port ∧ doe = some port.val)) : doSpdmKeyExchange path m s =
      if 32 ≤ s.mgc.sessions.length then side s (.spdmError spdmSessionLimit)
      else side { setSessions s (s.mgc.sessions ++ [{ id := s.mgc.nextSession, established := false, mutualAuth := m, doe := doe }]) with
        mgc.nextSession := s.mgc.nextSession + 1 } (.spdmKeyExchange s.mgc.nextSession) := by
  rcases hPath with ⟨rfl, rfl⟩ | ⟨port, rfl, rfl⟩ <;> exact whenNegotiated_acts _ hNegotiated

theorem doSpdmKeyExchange_link (l : Fin 9) (m : Bool) : doSpdmKeyExchange (.link l) m s =
    if m then side s (.spdmKeyExchange 0) else side (authFails s) (.spdmError spdmInvalid) := by
  exact whenNegotiated_acts _ hNegotiated

end Measurements

theorem doSpdmKeyExchange_refused {path : SpdmPath} {m : Bool} (h : s.mgc.negotiated = false) :
    doSpdmKeyExchange path m s = side s (.spdmError spdmUnexpected) := whenNegotiated_refuses _ h

section Session
variable {x : Fin 65536} {y : SpdmSession}

theorem doSpdmFinish_none (ok : Bool) (h : findSession s x.val = none ∨ ∃ y, findSession s x.val = some y ∧ y.established = true) :
    doSpdmFinish x ok s = side s (.spdmError spdmNoSession) := by
  have hNone : ((findSession s x.val).filter fun y => !y.established) = none := by
    rcases h with hNone | ⟨y, hSome, hDone⟩
    · rw [hNone, Option.filter_none]
    · rw [hSome, Option.filter_some, hDone, Bool.not_true, if_neg Bool.false_ne_true]
  simp only [doSpdmFinish, hNone]

theorem doSpdmFinish_open (ok : Bool) (hFind : findSession s x.val = some y) (hOpen : y.established = false) : doSpdmFinish x ok s =
    if ok then side (setSessions s (s.mgc.sessions.map fun z => if z.id = y.id then { z with established := true } else z)) (.spdmFinish x.val)
    else side (authFails (setSessions s (s.mgc.sessions.filter fun z => z.id ≠ y.id))) (.spdmError spdmInvalid) := by
  have hSome : ((findSession s x.val).filter fun y => !y.established) = some y := by
    rw [hFind, Option.filter_some, hOpen, Bool.not_false, if_pos rfl]
  simp only [doSpdmFinish, hSome]

theorem inSession_established (t : State) (hFind : findSession s x.val = some y) (hDone : y.established = true) : inSession s x.val t = t :=
  if_pos (by rw [hFind, Option.any_some, hDone])

theorem inSession_none (t : State) (h : findSession s x.val = none ∨ ∃ y, findSession s x.val = some y ∧ y.established = false) :
    inSession s x.val t = side s (.spdmError spdmNoSession) := by
  refine if_neg ?_
  rcases h with hNone | ⟨y, hSome, hOpen⟩
  · rw [hNone, Option.any_none]; exact Bool.false_ne_true
  · rw [hSome, Option.any_some, hOpen]; exact Bool.false_ne_true

theorem doSpdmKeyUpdate_starts {l : Fin 9} (a b : Nat) (hKeyed : linkSecret s l.val ≠ []) (hNone : sget none s.cku.rekeys l.val = none) :
    doSpdmKeyUpdate x (some l) a b s = side (startRekey s l.val a b) (.spdmKeyUpdate x.val) := by
  simp only [doSpdmKeyUpdate, hKeyed, hNone, decide_false, Option.isSome_none, Bool.or_self, Bool.false_eq_true, if_false]

theorem doSpdmKeyUpdate_refused {l : Fin 9} (a b : Nat) (h : linkSecret s l.val = [] ∨ sget none s.cku.rekeys l.val ≠ none) :
    doSpdmKeyUpdate x (some l) a b s = side s (.spdmError spdmUnexpected) :=
  if_pos (by rw [Bool.or_eq_true, decide_eq_true_iff, Option.isSome_iff_ne_none]; exact h)

end Session

end Spdm

end Sideband

/-! ### The three parts of the statement -/

section Served
variable {s : State} (hBoot : s.mgc.booted = true)
include hBoot

theorem exec_mctpPacket_taken (p : MctpPacket) (others : List Reassembly) (hMine : mctpMine s p.dest.val = true) (hMost : p.bytes.val ≤ 256)
    (hLeast : 64 ≤ p.bytes.val ∨ p.eom = true)
    (hOthers : (s.mgc.reassembly.filter fun x => !(x.source = p.src.val && x.tag = p.tag.val)) = others) :
    (p.som = true → p.eom = true →
      exec (.mctpPacket p) s = .next (finished s (mctpWhole { s with mgc.reassembly := others } p.msgType.val))) ∧
    (p.som = true → p.eom = false → 8 ≤ others.length → exec (.mctpPacket p) s = .next (finished s { s with mgc.reassembly := others })) ∧
    (p.som = true → p.eom = false → others.length < 8 → exec (.mctpPacket p) s = .next (finished s { s with mgc.reassembly := others ++
      [{ source := p.src.val, tag := p.tag.val, msgType := p.msgType.val, bytes := p.bytes.val, nextSeq := (p.seq.val + 1) % 4 }] })) ∧
    (p.som = false → (s.mgc.reassembly.find? fun x => x.source = p.src.val && x.tag = p.tag.val) = none →
      exec (.mctpPacket p) s = .next (finished s s)) ∧
    ∀ x, p.som = false → (s.mgc.reassembly.find? fun x => x.source = p.src.val && x.tag = p.tag.val) = some x →
      (x.nextSeq ≠ p.seq.val ∨ 65536 < x.bytes + p.bytes.val →
        exec (.mctpPacket p) s = .next (finished s { s with mgc.reassembly := others })) ∧
      (x.nextSeq = p.seq.val → x.bytes + p.bytes.val ≤ 65536 → p.eom = true →
        exec (.mctpPacket p) s = .next (finished s (mctpWhole { s with mgc.reassembly := others } x.msgType))) ∧
      (x.nextSeq = p.seq.val → x.bytes + p.bytes.val ≤ 65536 → p.eom = false → exec (.mctpPacket p) s = .next (finished s
        { s with mgc.reassembly := others ++ [{ x with bytes := x.bytes + p.bytes.val, nextSeq := (x.nextSeq + 1) % 4 }] })) := by
  rw [exec_mctpPacket hBoot]
  refine ⟨fun hFirst hEnd => ?_, fun hFirst hMore hFull => ?_, fun hFirst hMore hRoom => ?_, fun hRest hNone => ?_,
    fun x hRest hFind => ⟨fun hBad => ?_, fun hSeq hFits hEnd => ?_, fun hSeq hFits hMore => ?_⟩⟩
  · rw [doMctpPacket_first hMine hMost hLeast hOthers hFirst, if_pos hEnd]
  · rw [doMctpPacket_first hMine hMost hLeast hOthers hFirst, hMore, if_neg Bool.false_ne_true, if_pos hFull]
  · rw [doMctpPacket_first hMine hMost hLeast hOthers hFirst, hMore, if_neg Bool.false_ne_true, if_neg (Nat.not_le.2 hRoom)]
  · rw [doMctpPacket_stray hMine hMost hLeast hRest hNone]
  · rw [doMctpPacket_later hMine hMost hLeast hOthers hRest hFind, if_pos hBad]
  · rw [doMctpPacket_later hMine hMost hLeast hOthers hRest hFind, if_neg (by omega), if_pos hEnd]
  · rw [doMctpPacket_later hMine hMost hLeast hOthers hRest hFind, if_neg (by omega), hMore, if_neg Bool.false_ne_true]

end Served

theorem exec_waits {s : State} {i : Instr} (hBoot : s.mgc.booted = false) (h : SidebandRequest i) :
    exec i s = .next (finished s { s with mgc.waiting := s.mgc.waiting ++ [i] }) := by
  rw [exec_sideband s h, whenBooted_waits _ _ hBoot]

theorem exec_pldmUpdate_waits {s : State} (u : UpdateStep) (hBoot : s.mgc.booted = false) (hRuns : getF s Reg.MGC_CORE_STS.running ≠ 0) :
    exec (.pldmFirmwareUpdate u) s = .next (finished s { s with mgc.waiting := s.mgc.waiting ++ [.pldmFirmwareUpdate u] }) := by
  rw [exec_pldmFirmwareUpdate, whenSideband, decide_eq_false hRuns, Bool.false_and, if_neg Bool.false_ne_true, whenBooted_waits _ _ hBoot]

theorem exec_pldmUpdate_rom {s : State} (u : UpdateStep) (hNone : getF s Reg.MGC_CORE_STS.running = 0) (hOn : s.phs.dieReset = false) :
    exec (.pldmFirmwareUpdate u) s = .next (finished s (doPldmFirmwareUpdate u s)) := by
  rw [exec_pldmFirmwareUpdate, whenSideband, decide_eq_true hNone, hOn, Bool.not_false, Bool.and_self, if_pos rfl]

/-- Settles O50: once firmware runs each request by the rule of its outcome; before that, by the kind of request alone. -/
theorem sidebandProtocols : Obligations.SidebandProtocols := by
  refine ⟨fun s hBoot => ⟨fun eid hLow hHigh => ?eid, fun eid hEid => ?eidReserved, exec_mctpPacket_taken hBoot, fun p hDrop => ?dropped,
      fun cmd => exec_served hBoot (.pldmBase cmd), fun cmd sensor hSensor => ?channel, fun cmd sensor hSensor => ?noSensor,
      fun path component i o => ?begins, fun u hUpdate hPhase => ?verified, fun u b hUpdate hPhase => ?activated, exec_pldmUpdate hBoot .cancel,
      fun hNone => ⟨?noTransfer, fun ok => ?noVerify, ?noApply, fun b => ?noActivate⟩, fun cmd => exec_served hBoot (.pldmFru cmd),
      fun u hUpdate hPhase => ?transferred, fun u hUpdate hPhase => ?failed, fun u hUpdate hPhase => ?applied, fun u hUpdate hPhase => ?early⟩,
    fun s hBoot => ⟨exec_served hBoot .getVersion, exec_served hBoot .getCapabilities, exec_served hBoot (.negotiateAlgorithms true),
      exec_served hBoot (.negotiateAlgorithms false),
      fun hNeg => ⟨?digests, fun o l => ?certificate, fun n => ?challenge, fun i hLow hHigh n => ?measure, fun i hLow hHigh g n => ?noMeasure,
        fun n => ?measureAll, fun m path doe hPath => ⟨fun hRoom => ?session, fun hFull => ?noRoom⟩, fun l => ⟨?link, ?linkFails⟩⟩,
      fun hNot => ⟨?noDigests, fun o l => ?noCertificate, fun n => ?noChallenge, fun i g n => ?notMeasured, fun path m => ?noExchange⟩,
      fun x h ok => ?noFinish, fun x h => ⟨?noHeartbeat, ?noEnd, fun a b => ?noUpdate⟩, fun x y hFind hOpen => ?finishFails,
      fun x l a b h => ?rekeyRefused, fun x y hFind hOpen => ?finishes, fun x y hFind hDone => ⟨?heartbeat, ?ends, fun a b => ?updates⟩,
      fun x l a b hKeyed hNone => ?rekeys⟩,
    fun s i hBoot hRequest => ?waits, fun s u hNone hOn => exec_pldmUpdate_rom u hNone hOn⟩
  case eid => rw [exec_setEndpointId hBoot, doSetEndpointId_kept hLow hHigh]
  case eidReserved => rw [exec_setEndpointId hBoot, doSetEndpointId_reserved hEid]
  case dropped => rw [exec_mctpPacket hBoot, doMctpPacket_dropped hDrop]
  case channel => rw [exec_pldmPlatform hBoot, doPldmPlatform_channel cmd hSensor]
  case noSensor => rw [exec_pldmPlatform hBoot, doPldmPlatform_none cmd hSensor]
  case begins => rw [exec_pldmUpdate hBoot, doPldmFirmwareUpdate, beginUpdate_eq]
  case verified => rw [exec_pldmUpdate hBoot, doPldmFirmwareUpdate, updatePhase_turn hUpdate hPhase, if_pos rfl]
  case activated => rw [exec_pldmUpdate hBoot, doPldmFirmwareUpdate, updatePhase_turn hUpdate hPhase]
  case noTransfer => rw [exec_pldmUpdate hBoot, doPldmFirmwareUpdate, updatePhase_none hNone]
  case noVerify => rw [exec_pldmUpdate hBoot, doPldmFirmwareUpdate, updatePhase_none hNone]
  case noApply => rw [exec_pldmUpdate hBoot, doPldmFirmwareUpdate, updatePhase_none hNone]
  case noActivate => rw [exec_pldmUpdate hBoot, doPldmFirmwareUpdate, updatePhase_none hNone]
  case transferred => rw [exec_pldmUpdate hBoot, doPldmFirmwareUpdate, updatePhase_turn hUpdate hPhase]
  case failed => rw [exec_pldmUpdate hBoot, doPldmFirmwareUpdate, updatePhase_turn hUpdate hPhase, if_neg Bool.false_ne_true]
  case applied => rw [exec_pldmUpdate hBoot, doPldmFirmwareUpdate, updatePhase_turn hUpdate hPhase]
  case early => rw [exec_pldmUpdate hBoot, doPldmFirmwareUpdate, updatePhase_outOfTurn hUpdate hPhase]
  case digests => rw [exec_spdmGetDigests hBoot, doSpdmGetDigests, whenNegotiated_acts _ hNeg]
  case certificate => rw [exec_spdmGetCertificate hBoot, doSpdmGetCertificate, whenNegotiated_acts _ hNeg]
  case challenge => rw [exec_spdmChallenge hBoot, doSpdmChallenge, whenNegotiated_acts _ hNeg]
  case measure => rw [exec_spdmGetMeasurements hBoot, doSpdmGetMeasurements_one hNeg n hLow hHigh]
  case noMeasure => rw [exec_spdmGetMeasurements hBoot, doSpdmGetMeasurements_none hNeg g n hLow hHigh]
  case measureAll => rw [exec_spdmGetMeasurements hBoot, doSpdmGetMeasurements_all hNeg]
  case session => rw [exec_spdmKeyExchange hBoot, doSpdmKeyExchange_session hNeg hPath, if_neg (Nat.not_le.2 hRoom)]
  case noRoom => rw [exec_spdmKeyExchange hBoot, doSpdmKeyExchange_session hNeg hPath, if_pos hFull]
  case link => rw [exec_spdmKeyExchange hBoot, doSpdmKeyExchange_link hNeg, if_pos rfl]
  case linkFails => rw [exec_spdmKeyExchange hBoot, doSpdmKeyExchange_link hNeg, if_neg Bool.false_ne_true]
  case noDigests => rw [exec_spdmGetDigests hBoot, doSpdmGetDigests, whenNegotiated_refuses _ hNot]
  case noCertificate => rw [exec_spdmGetCertificate hBoot, doSpdmGetCertificate, whenNegotiated_refuses _ hNot]
  case noChallenge => rw [exec_spdmChallenge hBoot, doSpdmChallenge, whenNegotiated_refuses _ hNot]
  case notMeasured => rw [exec_spdmGetMeasurements hBoot, doSpdmGetMeasurements, whenNegotiated_refuses _ hNot]
  case noExchange => rw [exec_spdmKeyExchange hBoot, doSpdmKeyExchange_refused hNot]
  case noFinish => rw [exec_spdmFinish hBoot, doSpdmFinish_none ok h]
  case noHeartbeat => rw [exec_spdmHeartbeat hBoot, doSpdmHeartbeat, inSession_none _ h]
  case noEnd => rw [exec_spdmEndSession hBoot, doSpdmEndSession, inSession_none _ h]
  case noUpdate => rw [exec_spdmKeyUpdate hBoot, doSpdmKeyUpdate, inSession_none _ h]
  case finishFails => rw [exec_spdmFinish hBoot, doSpdmFinish_open false hFind hOpen, if_neg Bool.false_ne_true]
  case rekeyRefused => rw [exec_spdmKeyUpdate hBoot, doSpdmKeyUpdate_refused a b h]
  case finishes => rw [exec_spdmFinish hBoot, doSpdmFinish_open true hFind hOpen, if_pos rfl]
  case heartbeat => rw [exec_spdmHeartbeat hBoot, doSpdmHeartbeat, inSession_established _ hFind hDone]
  case ends => rw [exec_spdmEndSession hBoot, doSpdmEndSession, inSession_established _ hFind hDone]
  case updates => rw [exec_spdmKeyUpdate hBoot, doSpdmKeyUpdate, inSession_established _ hFind hDone]
  case rekeys => rw [exec_spdmKeyUpdate hBoot, doSpdmKeyUpdate_starts a b hKeyed hNone]
  case waits =>
    rcases hRequest with ⟨p, rfl⟩ | ⟨e, rfl⟩ | ⟨c, rfl⟩ | ⟨c, n, rfl⟩ | ⟨c, rfl⟩ | rfl | rfl | ⟨o, rfl⟩ | rfl | ⟨o, l, rfl⟩ | ⟨n, rfl⟩ |
      ⟨x, g, n, rfl⟩ | ⟨l, m, rfl⟩ | ⟨x, ok, rfl⟩ | ⟨x, l, a, b, rfl⟩ | ⟨x, rfl⟩ | ⟨x, rfl⟩ | ⟨u, rfl, hRuns⟩
    case inr.inr.inr.inr.inr.inr.inr.inr.inr.inr.inr.inr.inr.inr.inr.inr.inr => exact exec_pldmUpdate_waits u hBoot hRuns
    all_goals exact exec_waits hBoot (by constructor)

end Sys2Proof.Machine
end

section
/-! PROOFS. The event recorder, the crash area, imports, MSI-X and source settings: each command as its effect, one rule per outcome, and the
statement about them. -/

namespace Sys2Proof.Machine

/-! ### The commands as their effects -/

section Commands
variable (s : State) (who : Accessor)

theorem exec_eventRaise (source : Fin 2048) (k : EventKind) (sev : Fin 4) (mid : Mid) (d : List Nat) :
    exec (.eventRaise source k sev mid d) s = .next (finished s (doEventRaise source k sev mid d s)) := rfl

theorem exec_drainTimer (late : Bool) : exec (.drainTimer late) s = .next (finished s (doDrainTimer late s)) := rfl

theorem exec_segmentHandoff : exec .segmentHandoff s = .next (finished s (doSegmentHandoff s)) := rfl

theorem exec_historyFetch (seq : Word) : exec (.historyFetch who seq) s = .next (finished s (doHistoryFetch who seq s)) := rfl

theorem exec_historyFetchDone (poisoned : Bool) : exec (.historyFetchDone poisoned) s = .next (finished s (doHistoryFetchDone poisoned s)) := rfl

theorem exec_crashReady (value : Word) : exec (.crashReady who value) s = .next (finished s (doCrashReady who value s)) := rfl

theorem exec_crashFlushEnd (cut : Bool) : exec (.crashFlushEnd cut) s = .next (finished s (doCrashFlushEnd cut s)) := rfl

theorem exec_importCommit : exec (.importCommit who) s = .next (finished s (doImportCommit who s)) := rfl

theorem exec_msixTrigger (value : Word) : exec (.msixTrigger who value) s = .next (finished s (doMsixTrigger who value s)) := rfl

theorem exec_msixUnmask (ld : Ld) (v : Option (Fin 64)) : exec (.msixUnmask ld v) s = .next (finished s (doMsixUnmask ld v s)) := rfl

theorem exec_srcCfgWrite (value : Word) : exec (.srcCfgWrite who value) s = .next (finished s (doSrcCfgWrite who value s)) := rfl

end Commands

section Recorder
variable {s : State}

/-! ### The drain (R541) -/

theorem doDrainTimer_drains {late : Bool} (hOn : flag s Reg.EVR_CTL.drain_en = true) (hStill : flushing s = false) : doDrainTimer late s =
    (let u := if late = true ∧ undrained s ≠ [] then setFlag s Reg.EVR_ERR.drain_abort else s
     let v := addBlocks u (cutBlocks (undrained u) [])
     { v with evr.ring := v.evr.ring.map fun r => { r with drained := true } }) := by
  simp only [doDrainTimer, hOn, hStill, Bool.not_true, Bool.or_self, Bool.false_eq_true, if_false, Bool.and_eq_true, Bool.not_eq_true',
    List.isEmpty_eq_false_iff]

theorem doDrainTimer_off {late : Bool} (hOff : flag s Reg.EVR_CTL.drain_en = false ∨ flushing s = true) : doDrainTimer late s = s :=
  if_pos (by rwa [Bool.or_eq_true, Bool.not_eq_true'])

/-! ### Segments (R542) -/

theorem doSegmentHandoff_waits (h : s.evr.blocks = [] ∨ flushing s = true) : doSegmentHandoff s = s :=
  if_pos (by
    rw [Bool.or_eq_true, Bool.or_eq_true, List.isEmpty_iff]
    exact h.imp_left .inl)

theorem doSegmentHandoff_hands {u v : State} {unit : Nat} (hBlocks : s.evr.blocks ≠ [])
    (hKept : ((List.range 24).any fun c => (bchan s (s.evr.nextSegment % 4 * 24 + c)).lost) = false) (hStill : flushing s = false)
    (hUnit : unitFor s (s.evr.nextSegment % 4) false 2 false = some (unit, u))
    (hTaken : updUnit u unit (fun x => { x with segments := x.segments ++ [u.evr.nextSegment] }) = v) : doSegmentHandoff s = startUnit { v with
      evr.handed := v.evr.handed ++ [(u.evr.nextSegment, v.evr.blocks.take 16)]
      evr.blocks := v.evr.blocks.drop 16
      evr.nextSegment := u.evr.nextSegment + 1
      evr.segmentSince := if (v.evr.blocks.drop 16).isEmpty then none else some v.devTime } unit := by
  simp only [doSegmentHandoff, List.isEmpty_eq_false_iff.2 hBlocks, hKept, hStill, hUnit, hTaken, Bool.or_self, Bool.false_eq_true, if_false]

/-! ### Fetches from the history (R543) -/

theorem doHistoryFetch_starts {who : Accessor} (seq : Word) (hMgr : isManager s who = true) : doHistoryFetch who seq s =
    putFlag (putFlag (setFlag { s with evr.fetchSeq := some seq.toNat, evr.fetchBlock := none } Reg.EVR_FETCH_STS.busy)
      Reg.EVR_FETCH_STS.ready false) Reg.EVR_FETCH_STS.not_found false :=
  setupWrite_of_isManager hMgr _ _

theorem doHistoryFetchDone_idle (poisoned : Bool) (h : s.evr.fetchSeq = none) : doHistoryFetchDone poisoned s = s := by
  simp only [doHistoryFetchDone, h]

section Done
variable {u : State} {seq : Nat} (hSeq : s.evr.fetchSeq = some seq)
  (hIdle : putFlag { s with evr.fetchSeq := none } Reg.EVR_FETCH_STS.busy false = u)
include hSeq hIdle

/-- A fetch ends with the block of its record, which stands in the window unless it ended poisoned. -/
theorem doHistoryFetchDone_found {b : HistoryBlock} (poisoned : Bool) (hBlock : blockOf u seq = some b) : doHistoryFetchDone poisoned s =
    if poisoned = true then setFlag (setFlag u Reg.EVR_FETCH_STS.not_found) Reg.EVR_FETCH_STS.ready
    else setFlag { u with evr.fetchBlock := some b } Reg.EVR_FETCH_STS.ready := by
  simp only [doHistoryFetchDone, hSeq, hIdle, hBlock]

theorem doHistoryFetchDone_missed (poisoned : Bool) (hBlock : blockOf u seq = none) : doHistoryFetchDone poisoned s =
    raise (setFlag (setFlag u Reg.EVR_FETCH_STS.not_found) Reg.EVR_ERR.fetch_miss) 1496 .fetchMiss 0xFFF [seq] := by
  simp only [doHistoryFetchDone, hSeq, hIdle, hBlock]

end Done

/-! ### The crash area (R544, R545) -/

theorem doCrashReady_core {value : Word} : doCrashReady (.mid 0x340) value s =
    if value.getLsbD 0 = true then setFlag (setFlag s Reg.EVR_CRASH_CTL.ready) Reg.EVR_CRASH_STS.ready else s := rfl

theorem doCrashReady_denied {m : Mid} (value : Word) (h : m.val ≠ 0x340) :
    doCrashReady (.mid m) value s = denySetup s (.mid m) Reg.EVR_CRASH_CTL.ready.addr := by
  unfold doCrashReady
  split
  case h_1 hCore => exact absurd (congrArg Fin.val (Accessor.mid.inj hCore)) h
  case h_2 => rfl

theorem doCrashFlushEnd_of {a : CrashArea} (cut : Bool) (h : s.evr.crash = some a) :
    doCrashFlushEnd cut s = if cut = true then cutCrash s else endCrash s a := by
  simp only [doCrashFlushEnd, h]

theorem doCrashFlushEnd_none (cut : Bool) (h : s.evr.crash = none) : doCrashFlushEnd cut s = s := by
  simp only [doCrashFlushEnd, h]

/-! ### Imports, MSI-X and sources (R533, R534, R549, R553) -/

section Writes
variable {who : Accessor} {value : Word} (hMgr : isManager s who = true)
include hMgr

theorem doImportCommit_refused (hRecord : importRecord s = none) :
    doImportCommit who s = raise (setFlag s Reg.EVR_ERR.import_bad) 1496 .importBad 0xFFF [] := by
  simp only [doImportCommit, setupWrite_of_isManager hMgr, hRecord]

theorem doImportCommit_taken {r : Record} (hRecord : importRecord s = some r) : doImportCommit who s =
    deliverNewest (incFi (notifyCores (writeRecord s r) r.source) Reg.EVR_SRC_CNT.raised r.source) (concernOf r.source r.code none) := by
  simp only [doImportCommit, setupWrite_of_isManager hMgr, hRecord]

theorem doMsixTrigger_sends : doMsixTrigger who value s =
    sendMsix s (Fin.ofNat 256 (wr value Reg.EVR_MSIX_TRIG.ld)) (wr value Reg.EVR_MSIX_TRIG.vector) :=
  setupWrite_of_isManager hMgr _ _

theorem doSrcCfgWrite_selected {u : State} {src : Nat} (hSel : selOf s who Reg.EVR_SRC_SEL.source = src) (hSrc : src < 1536)
    (hWrite : writeBits s Reg.EVR_SRC_CFG.enable.addr src value 0 = u) : doSrcCfgWrite who value s =
      if getFi u Reg.EVR_SRC_CFG.max_per_ms src = getFi s Reg.EVR_SRC_CFG.max_per_ms src then u
      else { u with evr.rates := supd (0, 0, 0) u.evr.rates src fun r => (r.1, 0, r.2.2) } := by
  simp only [doSrcCfgWrite, setupWrite_of_isManager hMgr, hSel, hSrc, hWrite, if_true]

theorem doSrcCfgWrite_none (hSel : 1536 ≤ selOf s who Reg.EVR_SRC_SEL.source) : doSrcCfgWrite who value s = s := by
  simp only [doSrcCfgWrite, setupWrite_of_isManager hMgr, Nat.not_lt.2 hSel, if_false]

end Writes

theorem doMsixUnmask_absent {ld : Ld} (v : Option (Fin 64)) (h : ldPresent s ld = false) : doMsixUnmask ld v s = s := by
  simp only [doMsixUnmask, h, Bool.not_false, if_true]

section Present
variable {ld : Ld} (hPresent : ldPresent s ld = true)
include hPresent

theorem doMsixUnmask_vector (v : Fin 64) : doMsixUnmask ld (some v) s =
    flushMsix { s with evr.msixMask := sput true s.evr.msixMask (ld.val * 64 + v.val) false } ld [v.val] := by
  simp only [doMsixUnmask, hPresent, Bool.not_true, Bool.false_eq_true, if_false]

theorem doMsixUnmask_function : doMsixUnmask ld none s =
    flushMsix { s with evr.msixFnMask := sput false s.evr.msixFnMask ld.val false } ld (List.range 64) := by
  simp only [doMsixUnmask, hPresent, Bool.not_true, Bool.false_eq_true, if_false]

end Present

end Recorder

/-- Settles O51: each command by the rule of its outcome. -/
theorem eventsAndCrash : Obligations.EventsAndCrash := by
  refine ⟨⟨fun s source k sev mid d hSource => ?raised, fun s source k sev mid d hBeyond => ?noSource, ?drains, fun s late hOff => ?noDrain,
    fun s hWaits => ?noHandoff, fun s u v unit hBlocks hKept hStill hUnit hTaken => ?hands, fun s who seq hMgr => ?fetches,
    fun s u seq hSeq hIdle => ⟨fun b hBlock => ?found, fun b hBlock => ?poisoned, fun hBlock poisoned => ?missed⟩,
    fun s poisoned hNone => ?noFetch⟩, fun s value hSet => ?armed, fun s m value hOther => ?denied, fun s a hCrash => ⟨?ends, ?cut⟩,
    fun s hNone cut => ?noCrash, fun s who hMgr hRecord => ?refused, ?imported, fun s who value hMgr => ?msix, fun s value hClear => ?notArmed,
    fun s value => exec_crashReady s .jtag value, fun s ld v hAbsent => ?absent, fun s ld v hPresent => ⟨?vector, ?function⟩,
    fun s u who value src hMgr hSel hSrc hWrite => ⟨fun hSame => ?sameLimit, fun hNew => ?newLimit⟩, fun s who value hMgr hSel => ?noSelection⟩
  case raised => rw [exec_eventRaise, doEventRaise, if_pos hSource]
  case noSource => rw [exec_eventRaise, doEventRaise, if_neg (Nat.not_lt.2 hBeyond)]
  case drains => rintro s u v late hOn hStill rfl rfl; rw [exec_drainTimer, doDrainTimer_drains hOn hStill]
  case noDrain => rw [exec_drainTimer, doDrainTimer_off hOff]
  case noHandoff => rw [exec_segmentHandoff, doSegmentHandoff_waits hWaits]
  case hands => rw [exec_segmentHandoff, doSegmentHandoff_hands hBlocks hKept hStill hUnit hTaken]
  case fetches => rw [exec_historyFetch, doHistoryFetch_starts seq hMgr]
  case found => rw [exec_historyFetchDone, doHistoryFetchDone_found hSeq hIdle _ hBlock, if_neg Bool.false_ne_true]
  case poisoned => rw [exec_historyFetchDone, doHistoryFetchDone_found hSeq hIdle _ hBlock, if_pos rfl]
  case missed => rw [exec_historyFetchDone, doHistoryFetchDone_missed hSeq hIdle _ hBlock]
  case noFetch => rw [exec_historyFetchDone, doHistoryFetchDone_idle _ hNone]
  case armed => rw [exec_crashReady, doCrashReady_core, if_pos hSet]
  case denied => rw [exec_crashReady, doCrashReady_denied value hOther]
  case ends => rw [exec_crashFlushEnd, doCrashFlushEnd_of _ hCrash, if_neg Bool.false_ne_true]
  case cut => rw [exec_crashFlushEnd, doCrashFlushEnd_of _ hCrash, if_pos rfl]
  case noCrash => rw [exec_crashFlushEnd, doCrashFlushEnd_none cut hNone]
  case refused => rw [exec_importCommit, doImportCommit_refused hMgr hRecord]
  case imported => rintro s u who r hMgr hRecord rfl; rw [exec_importCommit, doImportCommit_taken hMgr hRecord]
  case msix => rw [exec_msixTrigger, doMsixTrigger_sends hMgr]
  case notArmed => rw [exec_crashReady, doCrashReady_core, hClear, if_neg Bool.false_ne_true]
  case absent => rw [exec_msixUnmask, doMsixUnmask_absent v hAbsent]
  case vector => rw [exec_msixUnmask, doMsixUnmask_vector hPresent]
  case function => rw [exec_msixUnmask, doMsixUnmask_function hPresent]
  case sameLimit => rw [exec_srcCfgWrite, doSrcCfgWrite_selected hMgr hSel hSrc hWrite, if_pos hSame]
  case newLimit => rw [exec_srcCfgWrite, doSrcCfgWrite_selected hMgr hSel hSrc hWrite, if_neg hNew]
  case noSelection => rw [exec_srcCfgWrite, doSrcCfgWrite_none hMgr hSel]

end Sys2Proof.Machine
end

section
/-! PROOFS. Journal, checkpoint, recovery, restore and erase: each report as its effect, one rule per outcome, and the statement about them. -/

namespace Sys2Proof.Machine

/-! ### The reports as their effects -/

section Commands
variable (s : State)

theorem exec_journalUnitTimeout : exec .journalUnitTimeout s = .next (finished s (doJournalUnitTimeout s)) := rfl

theorem exec_checkpointWrite : exec .checkpointWrite s = .next (finished s (doCheckpointWrite s)) := rfl

theorem exec_translationRecoveryDone (readable stateBad : Bool) (unplaced : List ClodNo) : exec (.translationRecoveryDone readable stateBad unplaced) s =
    .next (finished s (doTranslationRecoveryDone readable stateBad unplaced s)) := rfl

theorem exec_restoreDone (lost : List (ClodNo × Fin 16)) : exec (.restoreDone lost) s = .next (settled s (doRestoreDone lost s)) := rfl

theorem exec_restoreSettleDone : exec .restoreSettleDone s = .next (settled s (doRestoreSettleDone s)) := rfl

theorem exec_kilnEraseDone : exec .kilnEraseDone s = .next (finished s (doKilnEraseDone s)) := rfl

end Commands

section Start
variable {s : State}

/-! ### Journal and checkpoint (R559, R560) -/

theorem doJournalUnitTimeout_waits (h : s.glb.packing = [] ∨ flushing s = true) : doJournalUnitTimeout s = s :=
  if_pos (by rwa [Bool.or_eq_true, List.isEmpty_iff])

theorem doJournalUnitTimeout_leaves {u : State} {unit : Nat} (hPacked : s.glb.packing ≠ []) (hStill : flushing s = false)
    (hUnit : ((List.range 4).map fun i => (s.glb.journalSeq + i) % 4).findSome? (fun b => unitFor s b false 2 false) = some (unit, u)) :
    doJournalUnitTimeout s =
      startUnit { u with glb.journalUnits := u.glb.journalUnits ++ [(unit, u.glb.packing)], glb.packing := [] } unit := by
  simp only [doJournalUnitTimeout, List.isEmpty_eq_false_iff.2 hPacked, hStill, hUnit, Bool.or_self, Bool.false_eq_true, if_false]

theorem doCheckpointWrite_flushing (h : flushing s = true) : doCheckpointWrite s = s :=
  if_pos (by rw [h, Bool.or_true])

/-- A pass writes its next grain, and the last one ends it. -/
theorem doCheckpointWrite_writes {k : Nat} {left : List Nat} (hBoot : stage s ≠ stBoot) (hTraining : stage s ≠ stTraining)
    (hRecovery : stage s ≠ stRecovery) (hStill : flushing s = false)
    (hLeft : (ckptKeys s).filter (fun k => decide (s.glb.ckptNext ≤ k)) = k :: left) : doCheckpointWrite s =
      (let u := { s with glb.ckptNow := sput none s.glb.ckptNow k (some (ckptGrain s k)), glb.ckptNext := k + 1 }
       if left = [] then endPass u else u) := by
  have hLast : (k :: left).length ≤ 1 ↔ left = [] := by simp
  simp only [doCheckpointWrite, hBoot, hTraining, hRecovery, hStill, hLeft, hLast, List.headD_cons, decide_false, Bool.or_self,
    Bool.false_eq_true, if_false]

/-! ### Recovery and restore (R561 to R565) -/

theorem doTranslationRecoveryDone_recovers {u v : State} {readable stateBad known : Bool} {unplaced : List ClodNo} (hStage : stage s = stRecovery)
    (hKnown : (readable && (s.glb.ckptValid || !plotsNamed s)) = known)
    (hImage : classifyImage (if known then unplace (rebuildTable (resumeMedia s)) (unplaced.map (·.val)) else newDevice (resumeMedia s)) stateBad = u)
    (hPoison : markPoisoned (adoptRecord { u with glb.record := if known then stopRecord u else none }) = v) :
    doTranslationRecoveryDone readable stateBad unplaced s = startIfFenced (sendHello (setStage v stRestore)) := by
  simp only [doTranslationRecoveryDone, hStage, hKnown, hImage, hPoison, ne_eq, not_true_eq_false, if_false]

theorem doTranslationRecoveryDone_otherwise {readable stateBad : Bool} {unplaced : List ClodNo} (h : stage s ≠ stRecovery) :
    doTranslationRecoveryDone readable stateBad unplaced s = s := if_pos h

section Restore
variable {lost : List (ClodNo × Fin 16)}

theorem doRestoreDone_noImage (hStage : stage s = stRestore) (hImage : goodImage s = none) : doRestoreDone lost s =
    (let u := sendHello (setStage (settleEvery (checkLost (deriveKeys (closeOpen { s with glb.restored := true })))) stErase)
     if kilnReady u = true then afterErase u else u) := by
  simp only [doRestoreDone, hStage, hImage, ne_eq, not_true_eq_false, Option.isSome_none, Option.isNone_none, Bool.and_true, Bool.false_eq_true,
    if_false]

theorem doRestoreDone_image {k : KilnImage} (hStage : stage s = stRestore) (hImage : goodImage s = some k) : doRestoreDone lost s =
    sendHello (setStage (settleEvery (checkLost (deriveKeys (closeOpen { applyImage s k lost with glb.restored := true })))) stSettle) := by
  simp only [doRestoreDone, hStage, hImage, ne_eq, not_true_eq_false, Option.isSome_some, Option.isNone_some, Bool.and_false, Bool.false_eq_true,
    if_false, if_true]

theorem doRestoreDone_otherwise (h : stage s ≠ stRestore) : doRestoreDone lost s = s := if_pos h

end Restore

/-! ### Settling and the erase (R566, R567) -/

theorem doRestoreSettleDone_consumed {n : Nat} (hStage : stage s = stSettle) (hClean : dirtyGrains s = 0)
    (hNumber : (match s.glb.kiln.bind fun k => k.closing.head? with | some c => c.image | none => (latestConsumed s).getD 0) = n) :
    doRestoreSettleDone s = setStage (sealRecord s (.imageConsumed n)) stErase := by
  subst hNumber
  exact if_neg (by rw [hStage, hClean]; decide)

theorem doRestoreSettleDone_dirty (h : dirtyGrains s ≠ 0) : doRestoreSettleDone s = s :=
  if_pos (by rw [decide_eq_true h, Bool.or_true])

theorem doKilnEraseDone_otherwise (h : stage s ≠ stErase) : doKilnEraseDone s = s := if_pos h

end Start

/-- Settles O59: each report by the rule of its outcome. -/
theorem startAndRestore : Obligations.StartAndRestore := by
  refine ⟨⟨fun s hNone => ?nothingPacked, fun s hFlush => ⟨?journalFlush, ?passFlush⟩, fun s u unit hPacked hStill hUnit => ?unitLeaves,
    fun s k left hBoot hTraining hRecovery hStill hLeft => ?grain, fun s => ⟨rfl, rfl, rfl, rfl⟩⟩,
    fun s u v readable stateBad known unplaced hStage hKnown hImage hPoison => ?recovered, fun s lost hStage hImage => ?noImage,
    fun s lost k hStage hImage => ?image, fun s n hStage hClean hNumber => ?consumed, fun s _ hDirty => ?dirty, fun s hStage => ?erased,
    fun s readable stateBad unplaced hOther => ?notRecovery, fun s lost hOther => ?notRestore, fun s hOther => ?notErase⟩
  case nothingPacked => rw [exec_journalUnitTimeout, doJournalUnitTimeout_waits (.inl hNone)]
  case journalFlush => rw [exec_journalUnitTimeout, doJournalUnitTimeout_waits (.inr hFlush)]
  case passFlush => rw [exec_checkpointWrite, doCheckpointWrite_flushing hFlush]
  case unitLeaves => rw [exec_journalUnitTimeout, doJournalUnitTimeout_leaves hPacked hStill hUnit]
  case grain => rw [exec_checkpointWrite, doCheckpointWrite_writes hBoot hTraining hRecovery hStill hLeft]
  case recovered => rw [exec_translationRecoveryDone, doTranslationRecoveryDone_recovers hStage hKnown hImage hPoison]
  case noImage => dsimp only; rw [exec_restoreDone, doRestoreDone_noImage hStage hImage]
  case image => rw [exec_restoreDone, doRestoreDone_image hStage hImage]
  case consumed => rw [exec_restoreSettleDone, doRestoreSettleDone_consumed hStage hClean hNumber]
  case dirty => rw [exec_restoreSettleDone, doRestoreSettleDone_dirty hDirty]
  case erased => rw [exec_kilnEraseDone, doKilnEraseDone, if_neg (not_not_intro hStage)]
  case notRecovery => rw [exec_translationRecoveryDone, doTranslationRecoveryDone_otherwise hOther]
  case notRestore => rw [exec_restoreDone, doRestoreDone_otherwise hOther]
  case notErase => rw [exec_kilnEraseDone, doKilnEraseDone_otherwise hOther]

end Sys2Proof.Machine
end

section
/-! PROOFS. A start alone, orderly shutdown and warm reset: each command as its effect, one rule per outcome, what the warm reset leaves, and
the statement about them. -/

namespace Sys2Proof.Machine

/-! ### The commands as their effects -/

section Commands
variable (s : State)

theorem exec_helloWaitTimeout : exec .helloWaitTimeout s = .next (settled s (doHelloWaitTimeout s)) := rfl

theorem exec_pairWaitTimeout : exec .pairWaitTimeout s = .next (settled s (doPairWaitTimeout s)) := rfl

theorem exec_forceSolo (who : Accessor) : exec (.forceSolo who) s = .next (settled s (doForceSolo who s)) := rfl

theorem exec_orderlyShutdown : exec .orderlyShutdown s = .next (settled s (doOrderlyShutdown s)) := rfl

theorem exec_shutdownDirtyZero : exec .shutdownDirtyZero s = .next (settled s (doShutdownDirtyZero s)) := rfl

theorem exec_warmResetRequest (who : Accessor) : exec (.warmResetRequest who) s = .next (settled s (doWarmResetRequest who s)) := rfl

theorem exec_warmResetDirtyZero : exec .warmResetDirtyZero s = .next (ended s (doWarmResetDirtyZero s)) := rfl

theorem exec_warmResetRelease (b : BootReport) : exec (.warmResetRelease b) s = .next (finished s (doWarmResetRelease b s)) := rfl

end Commands

section Solo
variable {s : State}

/-! ### The twin at start (R573) -/

theorem doHelloWaitTimeout_starts (hStage : [stBoot, stTraining, stRecovery, stHalted].contains (stage s) = false) (hAlive : aliveIn s = 0)
    (hMode : twinMode s = 0) (hHello : s.twin.helloSeen = false) (hRole : s.glb.roleDecided = false)
    (hCurrent : recordClass s.glb.record = 1 ∨ recordClass s.glb.record = 2) : doHelloWaitTimeout s = startSolo s := by
  have hKnown : stage s ≠ stBoot ∧ stage s ≠ stTraining ∧ stage s ≠ stRecovery ∧ stage s ≠ stHalted := by simpa using hStage
  obtain ⟨hBoot, hTraining, hRecovery, hHalted⟩ := hKnown
  have hData : (decide (recordClass s.glb.record = 1) || decide (recordClass s.glb.record = 2)) = true := by simpa using hCurrent
  simp only [doHelloWaitTimeout, hBoot, hTraining, hRecovery, hHalted, hAlive, hMode, hHello, hRole, hData, decide_false, decide_true, Bool.or_self,
    Bool.not_false, Bool.and_self, if_true]

theorem doHelloWaitTimeout_stays (h : aliveIn s ≠ 0 ∨ twinMode s ≠ 0 ∨ s.twin.helloSeen = true) : doHelloWaitTimeout s = s :=
  if_neg (by
    simp only [Bool.and_eq_true, decide_eq_true_eq, Bool.not_eq_true']
    rintro ⟨⟨⟨⟨⟨-, hAlive⟩, hMode⟩, hHello⟩, -⟩, -⟩
    exact h.elim (· hAlive) (·.elim (· hMode) (Bool.false_ne_true <| hHello.symm.trans ·)))

section PairWait
variable (hPair : getF s Reg.GLB_START_STS.pair = 1) (hMode : twinMode s = 0) (hArmed : armed s = true)
include hPair hMode hArmed

theorem doPairWaitTimeout_unheard (hTwin : s.glb.twinStart = none) : doPairWaitTimeout s = startSolo s := by
  simp only [doPairWaitTimeout, hPair, hMode, hArmed, hTwin, decide_true, Bool.not_false, Bool.and_self, if_true]

theorem doPairWaitTimeout_heard {h : TwinStart} (hTwin : s.glb.twinStart = some h) :
    doPairWaitTimeout s = if h.restored = true then s else startSolo s := by
  cases hDone : h.restored <;>
    simp only [doPairWaitTimeout, hPair, hMode, hArmed, hTwin, hDone, decide_true, Bool.not_false, Bool.not_true, Bool.and_self, Bool.and_false,
      Bool.false_eq_true, if_true, if_false]

end PairWait

theorem doPairWaitTimeout_unpaired (h : getF s Reg.GLB_START_STS.pair ≠ 1) : doPairWaitTimeout s = s := by
  simp only [doPairWaitTimeout, h, decide_false, Bool.false_and, Bool.false_eq_true, if_false]

theorem doForceSolo_core {m : Mid} (h : m.val = 0x340) : doForceSolo (.mid m) s =
    if getF s Reg.GLB_START_STS.halt = 7 ∨ getF s Reg.GLB_START_STS.halt = 8 then
      startSolo (setStage (setF (setFlag s Reg.GLB_START_CTL.force_solo) Reg.GLB_START_STS.halt 0) (resumeStage s))
    else s := by
  obtain rfl : m = 0x340 := Fin.ext h
  rfl

theorem doForceSolo_denied {w : Accessor} (h : ∀ m : Mid, w = .mid m → m.val ≠ 0x340) :
    doForceSolo w s = denySetup s w Reg.GLB_START_CTL.force_solo.addr := by
  unfold doForceSolo
  split
  case h_1 => exact absurd rfl (h _ rfl)
  case h_2 => rfl

/-! ### Shutdown and the request for a warm reset (R574, R576) -/

theorem doOrderlyShutdown_begins (hNone : s.glb.shutdown = .none) (hStill : flushing s = false) :
    doOrderlyShutdown s = raise (beginShutdown s .orderly) 1280 .shutdown 0xFFF [] :=
  if_neg (by rw [hNone, hStill]; decide)

theorem doOrderlyShutdown_again (h : s.glb.shutdown ≠ .none) : doOrderlyShutdown s = s :=
  if_pos (by rw [decide_eq_true h, Bool.true_or])

theorem doShutdownDirtyZero_seals (hOrderly : s.glb.shutdown = .orderly) (hClean : dirtyGrains s = 0) : doShutdownDirtyZero s =
    sealRecord { disarm s with glb.shutdown := .none } (.shutdown (sideB s) (twinMode s) (epoch s)) :=
  if_neg (by rw [hOrderly, hClean]; decide)

theorem doShutdownDirtyZero_otherwise (h : s.glb.shutdown ≠ .orderly) : doShutdownDirtyZero s = s :=
  if_pos (by rw [decide_eq_true h, Bool.true_or])

theorem doWarmResetRequest_core {m : Mid} (h : m.val = 0x340) : doWarmResetRequest (.mid m) s =
    if (solo s && s.twin.helloSeen) = true then setFlag s Reg.GLB_START_STS.warm_refused
    else if (decide (s.glb.shutdown ≠ .none) || flushing s) = true then s
    else raise (beginShutdown s .warm) 1280 .warmReset 0xFFF [] := by
  obtain rfl : m = 0x340 := Fin.ext h
  rfl

theorem doWarmResetRequest_begins {m : Mid} (h : m.val = 0x340) (hPair : solo s = false ∨ s.twin.helloSeen = false)
    (hNone : s.glb.shutdown = .none) (hStill : flushing s = false) :
    doWarmResetRequest (.mid m) s = raise (beginShutdown s .warm) 1280 .warmReset 0xFFF [] := by
  have hAllowed : (solo s && s.twin.helloSeen) = false := by rwa [Bool.and_eq_false_iff]
  have hFirst : (decide (s.glb.shutdown ≠ .none) || flushing s) = false := by rw [hNone, hStill]; rfl
  rw [doWarmResetRequest_core h, hAllowed, hFirst, if_neg Bool.false_ne_true, if_neg Bool.false_ne_true]

theorem doWarmResetRequest_denied {w : Accessor} (h : ∀ m : Mid, w = .mid m → m.val ≠ 0x340) :
    doWarmResetRequest w s = denySetup s w Reg.GLB_RESET_CTL.warm_req.addr := by
  unfold doWarmResetRequest
  split
  case h_1 => exact absurd rfl (h _ rfl)
  case h_2 => rfl

/-! ### The warm reset (R576) -/

theorem doWarmResetDirtyZero_resets (hWarm : s.glb.shutdown = .warm) (hClean : dirtyGrains s = 0) (hRuns : s.phs.dieReset = false)
    (hTrained : ∀ ch, ch < 16 → loamState s ch ≠ 2) :
    doWarmResetDirtyZero s = warmState (sealRecord (disarm s) (.shutdown (sideB s) (8 + twinMode s) (epoch s))) := by
  have hNoStep : ((List.range 16).any fun c => decide (loamState s c = 2)) = false := by
    simpa only [List.any_eq_false, List.mem_range, decide_eq_true_eq] using hTrained
  exact if_neg (by rw [hWarm, hClean, hRuns, hNoStep]; decide)

theorem doWarmResetRelease_boots {u v : State} {b : BootReport} (hWarm : s.glb.shutdown = .warm) (hReset : s.phs.dieReset = true)
    (hMedia : resumeMedia (setF { s with phs.dieReset := false, glb.shutdown := .none, glb.runningAt := s.devTime } Reg.GLB_START_STS.kind 1) = u)
    (hEpoch : (match u.glb.record with | some r => setEpoch u r.epoch | none => u) = v) :
    doWarmResetRelease b s = dieBoot (if v.cku.xtsSlots.isEmpty = true then v else setFlag v Reg.CKU_STS.keys_ready) b false := by
  subst hMedia hEpoch
  exact if_neg (by rw [hWarm, hReset]; decide)

theorem doWarmResetRelease_otherwise {b : BootReport} (h : s.phs.dieReset = false) : doWarmResetRelease b s = s :=
  if_pos (by rw [h, Bool.not_false, Bool.or_true])

/-! ### What a warm reset keeps (R576) -/

section Kept
variable {α : Type} {f : State → α}

/-- What each step of a fold keeps, the fold keeps. -/
theorem foldl_keeps {β : Type} {step : State → β → State} (h : ∀ s b, f (step s b) = f s) (l : List β) (s : State) : f (l.foldl step s) = f s := by
  induction l generalizing s with
  | nil => rfl
  | cons b t ih => rw [List.foldl_cons, ih, h]

/-- Ending migrations changes the translation entries and the engines of tiering only. -/
theorem dropMigrations_keeps (hPlots : ∀ s x, f { s with plots := x } = f s) (hTmg : ∀ s x, f { s with tmg := x } = f s) (s : State)
    (gone : Nat → Bool) : f (dropMigrations s gone) = f s := by
  have hUnlock (s : State) (clod : Nat) : f (unlockClod s clod) = f s := hPlots _ _
  exact (hTmg _ _).trans ((foldl_keeps (fun _ _ => hUnlock _ _) _ _).trans (foldl_keeps (fun _ _ => (hUnlock _ _).trans (hTmg _ _)) _ _))

/-- Aborting an operation of the code store changes the management complex only. -/
theorem abortOp_keeps (hMgc : ∀ s x, f { s with mgc := x } = f s) (s : State) (o : Option CsOp) : f (abortOp s o) = f s := by
  cases o with
  | none => rfl
  | some o => exact hMgc _ _

/-- The state whose parts a warm reset carries over: every migration and operation of the code store has ended. -/
def warmFrom (s : State) : State :=
  let s := dropMigrations s fun _ => true
  abortOp (abortOp s s.mgc.op) s.mgc.suspendedOp

theorem warmFrom_keeps (hPlots : ∀ s x, f { s with plots := x } = f s) (hTmg : ∀ s x, f { s with tmg := x } = f s)
    (hMgc : ∀ s x, f { s with mgc := x } = f s) (s : State) : f (warmFrom s) = f s := by
  rw [warmFrom, abortOp_keeps hMgc, abortOp_keeps hMgc, dropMigrations_keeps hPlots hTmg]

end Kept

theorem warmState_phs (s : State) : (warmState s).phs = { s.phs with dieReset := true } :=
  congrArg (fun p : Phs => { p with dieReset := true }) (warmFrom_keeps (f := State.phs) (fun _ _ => rfl) (fun _ _ => rfl) (fun _ _ => rfl) s)

theorem warmState_evr (s : State) : (warmState s).evr = warmEvr s :=
  warmFrom_keeps (f := warmEvr) (fun _ _ => rfl) (fun _ _ => rfl) (fun _ _ => rfl) s

theorem warmState_ring (s : State) : (warmState s).evr.ring = s.evr.ring := by rw [warmState_evr, warmEvr]

theorem warmState_journal (s : State) : (warmState s).glb.journal = s.glb.journal :=
  warmFrom_keeps (f := fun s => s.glb.journal) (fun _ _ => rfl) (fun _ _ => rfl) (fun _ _ => rfl) s

theorem warmState_poison (s : State) : (warmState s).diu.poison = s.diu.poison :=
  warmFrom_keeps (f := fun s => s.diu.poison) (fun _ _ => rfl) (fun _ _ => rfl) (fun _ _ => rfl) s

end Solo

/-- Settles O60: each command by the rule of its outcome. -/
theorem soloStartAndShutdown : Obligations.SoloStartAndShutdown := by
  refine ⟨⟨fun s hStage hAlive hMode hHello hRole hCurrent => ?alone, fun s hPresent => ?present,
    fun s hPair hMode hArmed => ⟨fun hTwin => ?unheard, fun h hTwin => ?heard⟩, fun s hPair => ?unpaired, fun s m hCore hHalt => ?forced,
    fun s m hCore hNot7 hNot8 => ?notHalted, fun s w hOther => ?forceDenied⟩,
    fun s hNone hStill => ?shutsDown, fun s hAgain => ?shutAgain, fun s hOrderly hClean => ?sealed, fun s hNot => ?notOrderly,
    fun s m hCore hSolo hHello => ?warmRefused, fun s m hCore hPair hNone hStill => ?warmBegins, fun s w hOther => ?warmDenied,
    fun s hWarm hClean hRuns hTrained => ?warmReset,
    fun s => ⟨warmState_phs s, warmState_evr s, warmState_ring s, warmState_journal s, warmState_poison s, rfl, rfl, rfl⟩,
    fun s u b hWarm hReset hMedia v hEpoch => ?released, fun s b hRuns => ?notReset⟩
  case alone => rw [exec_helloWaitTimeout, doHelloWaitTimeout_starts hStage hAlive hMode hHello hRole hCurrent]
  case present => rw [exec_helloWaitTimeout, doHelloWaitTimeout_stays hPresent]
  case unheard => rw [exec_pairWaitTimeout, doPairWaitTimeout_unheard hPair hMode hArmed hTwin]
  case heard => rw [exec_pairWaitTimeout, doPairWaitTimeout_heard hPair hMode hArmed hTwin]
  case unpaired => rw [exec_pairWaitTimeout, doPairWaitTimeout_unpaired hPair]
  case forced => rw [exec_forceSolo, doForceSolo_core hCore, if_pos hHalt]
  case notHalted => rw [exec_forceSolo, doForceSolo_core hCore, if_neg (not_or_intro hNot7 hNot8)]
  case forceDenied => rw [exec_forceSolo, doForceSolo_denied hOther]
  case shutsDown => rw [exec_orderlyShutdown, doOrderlyShutdown_begins hNone hStill]
  case shutAgain => rw [exec_orderlyShutdown, doOrderlyShutdown_again hAgain]
  case sealed => rw [exec_shutdownDirtyZero, doShutdownDirtyZero_seals hOrderly hClean]
  case notOrderly => rw [exec_shutdownDirtyZero, doShutdownDirtyZero_otherwise hNot]
  case warmRefused => rw [exec_warmResetRequest, doWarmResetRequest_core hCore, hSolo, hHello, if_pos (Bool.and_self true)]
  case warmBegins => rw [exec_warmResetRequest, doWarmResetRequest_begins hCore hPair hNone hStill]
  case warmDenied => rw [exec_warmResetRequest, doWarmResetRequest_denied hOther]
  case warmReset => rw [exec_warmResetDirtyZero, doWarmResetDirtyZero_resets hWarm hClean hRuns hTrained]
  case released => rw [exec_warmResetRelease, doWarmResetRelease_boots hWarm hReset hMedia hEpoch]
  case notReset => rw [exec_warmResetRelease, doWarmResetRelease_otherwise hRuns]

end Sys2Proof.Machine
end

section
/-! PROOFS. Every field of a register after a write and after a read, whatever stands in the register's other fields. -/

namespace Sys2Proof.Machine

/-! ### A word with one field replaced -/

section Word
variable {w : Word} {lo width v : Nat}

/-- What lies below the field, the field's new value and what lies above it. -/
theorem withField_parts (h : lo + width ≤ 32) : (withField w lo width v).toNat =
    w.toNat % 2 ^ lo + 2 ^ lo * (v % 2 ^ width + 2 ^ width * (w.toNat / 2 ^ lo / 2 ^ width)) := by
  have hLow := Nat.mod_add_div w.toNat (2 ^ lo)
  have hHigh : 2 ^ lo * (w.toNat / 2 ^ lo) = 2 ^ lo * fieldOf w lo width + 2 ^ lo * (2 ^ width * (w.toNat / 2 ^ lo / 2 ^ width)) := by
    rw [← Nat.mul_add, fieldOf, Nat.mod_add_div]
  rw [withField_toNat h, Nat.mul_comm _ (2 ^ lo), Nat.mul_comm _ (2 ^ lo), Nat.mul_add]
  omega

theorem withField_mod (h : lo + width ≤ 32) : (withField w lo width v).toNat % 2 ^ lo = w.toNat % 2 ^ lo := by
  rw [withField_parts h, Nat.add_mul_mod_self_left, Nat.mod_mod]

theorem withField_div (h : lo + width ≤ 32) : (withField w lo width v).toNat / 2 ^ (lo + width) = w.toNat / 2 ^ (lo + width) := by
  rw [Nat.pow_add, ← Nat.div_div_eq_div_mul, ← Nat.div_div_eq_div_mul, withField_parts h, Nat.add_mul_div_left _ _ (Nat.two_pow_pos lo),
    Nat.div_eq_of_lt (Nat.mod_lt _ (Nat.two_pow_pos lo)), Nat.zero_add, Nat.add_mul_div_left _ _ (Nat.two_pow_pos width),
    Nat.div_eq_of_lt (Nat.mod_lt _ (Nat.two_pow_pos width)), Nat.zero_add]

/-- A field that ends below a bit depends on what lies below that bit only. -/
theorem fieldOf_eq_of_mod {a b : Word} {n m top : Nat} (hTop : n + m ≤ top) (h : a.toNat % 2 ^ top = b.toNat % 2 ^ top) :
    fieldOf a n m = fieldOf b n m := by
  have hBelow (x : Nat) : x / 2 ^ n % 2 ^ m = x % 2 ^ top % 2 ^ (n + m) / 2 ^ n := by
    rw [Nat.mod_mod_of_dvd _ (Nat.pow_dvd_pow 2 hTop), Nat.pow_add, Nat.mod_mul_right_div_self]
  rw [fieldOf, fieldOf, hBelow, hBelow, h]

/-- A field that starts at or above a bit depends on what lies above that bit only. -/
theorem fieldOf_eq_of_div {a b : Word} {n m bottom : Nat} (hBottom : bottom ≤ n) (h : a.toNat / 2 ^ bottom = b.toNat / 2 ^ bottom) :
    fieldOf a n m = fieldOf b n m := by
  rw [fieldOf, fieldOf, ← Nat.add_sub_cancel' hBottom, Nat.pow_add, ← Nat.div_div_eq_div_mul, ← Nat.div_div_eq_div_mul, h]

/-- A field apart from the one replaced stays. -/
theorem fieldOf_withField_apart {n m : Nat} (h : lo + width ≤ 32) (hApart : n + m ≤ lo ∨ lo + width ≤ n) :
    fieldOf (withField w lo width v) n m = fieldOf w n m :=
  hApart.elim (fieldOf_eq_of_mod · (withField_mod h)) (fieldOf_eq_of_div · (withField_div h))

end Word

theorem fieldOf_lt (w : Word) (lo width : Nat) : fieldOf w lo width < 2 ^ width := Nat.mod_lt _ (Nat.two_pow_pos width)

/-! ### The fields of a register -/

/-- The fields of a register lie in its 32 bits, each above those before it. -/
def laidOut (fs : List FieldDesc) : Prop := (∀ f ∈ fs, f.lo + f.width ≤ 32) ∧ fs.Pairwise fun f g => f.lo + f.width ≤ g.lo

/-- One of two fields ends where the other starts, or below. -/
def apart (f g : FieldDesc) : Prop := f.lo + f.width ≤ g.lo ∨ g.lo + g.width ≤ f.lo

/-- Replace the fields of a list, each by its own value. -/
def withFields (v : FieldDesc → Nat) (fs : List FieldDesc) (w : Word) : Word := fs.foldl (fun w f => withField w f.lo f.width (v f)) w

/-- The register map lays every register out (R595). -/
theorem regTable_laidOut {d : RegDesc} (h : d ∈ regTable) : laidOut d.fields := by
  have hAll : (regTable.all fun d => (d.fields.all fun f => f.lo + f.width ≤ 32) &&
      decide (d.fields.Pairwise fun f g => f.lo + f.width ≤ g.lo)) = true := by decide +kernel
  have hRow := List.all_eq_true.1 hAll d h
  simpa only [Bool.and_eq_true, List.all_eq_true, decide_eq_true_eq, laidOut] using hRow

section Fields
variable {v : FieldDesc → Nat} {fs : List FieldDesc} {f : FieldDesc}

/-- A field apart from all those replaced stays. -/
theorem fieldOf_withFields_apart (w : Word) (hIn : ∀ g ∈ fs, g.lo + g.width ≤ 32) (hApart : ∀ g ∈ fs, apart f g) :
    fieldOf (withFields v fs w) f.lo f.width = fieldOf w f.lo f.width := by
  induction fs generalizing w with
  | nil => rfl
  | cons g fs ih =>
    obtain ⟨hg, hIn⟩ := List.forall_mem_cons.1 hIn
    obtain ⟨hfg, hApart⟩ := List.forall_mem_cons.1 hApart
    exact (ih _ hIn hApart).trans (fieldOf_withField_apart hg hfg)

/-- A field that is replaced has its new value, whatever the others have. -/
theorem fieldOf_withFields_mem (w : Word) (hLaid : laidOut fs) (hf : f ∈ fs) :
    fieldOf (withFields v fs w) f.lo f.width = v f % 2 ^ f.width := by
  obtain ⟨hIn, hOrder⟩ := hLaid
  induction fs generalizing w with
  | nil => exact absurd hf List.not_mem_nil
  | cons g fs ih =>
    obtain ⟨hg, hRest⟩ := List.forall_mem_cons.1 hIn
    obtain ⟨hAbove, hOrder⟩ := List.pairwise_cons.1 hOrder
    rcases List.mem_cons.1 hf with rfl | hf
    · exact (fieldOf_withFields_apart _ hRest fun g hNext => .inl (hAbove g hNext)).trans (fieldOf_withField_same hg)
    · exact ih _ hf hRest hOrder

/-- Two fields of a register that differ are apart. -/
theorem laidOut_apart {g : FieldDesc} (hLaid : laidOut fs) (hf : f ∈ fs) (hg : g ∈ fs) (hne : f ≠ g) : apart f g :=
  have : Std.Symm apart := ⟨fun _ _ => Or.symm⟩
  (hLaid.2.imp (S := apart) Or.inl).forall hf hg hne

theorem laidOut_filter (p : FieldDesc → Bool) (hLaid : laidOut fs) : laidOut (fs.filter p) :=
  ⟨fun f hf => hLaid.1 f (List.mem_of_mem_filter hf), hLaid.2.filter p⟩

end Fields

/-! ### A write (R585) -/

/-- A written field fits its width. -/
theorem writtenField_lt {f : FieldDesc} (old value hwSet : Word) : writtenField f old value hwSet < 2 ^ f.width := by
  have hFits (w : Word) : (BitVec.ofNat 32 (fieldOf w f.lo f.width)).toNat < 2 ^ f.width :=
    Nat.lt_of_le_of_lt (Nat.mod_le _ _) (fieldOf_lt w f.lo f.width)
  unfold writtenField
  cases f.access with
  | rw => exact hFits value
  | ro => exact hFits old
  | rc => exact hFits old
  | wo => exact Nat.two_pow_pos _
  | w1c =>
    dsimp only
    rw [BitVec.toNat_or, BitVec.toNat_and]
    exact Nat.or_lt_two_pow (Nat.lt_of_le_of_lt Nat.and_le_left (hFits old)) (hFits hwSet)
  | w1s =>
    dsimp only
    rw [BitVec.toNat_or]
    exact Nat.or_lt_two_pow (hFits old) (hFits value)

theorem ofNat_fieldOf_toNat {w : Word} {lo width : Nat} (h : lo + width ≤ 32) : (BitVec.ofNat 32 (fieldOf w lo width)).toNat = fieldOf w lo width := by
  rw [BitVec.toNat_ofNat]
  exact Nat.mod_eq_of_lt (Nat.lt_of_lt_of_le (fieldOf_lt w lo width) (Nat.pow_le_pow_right (by decide) (by omega)))

/-- A field of the written word is that field as its access type has it. -/
theorem fieldOf_writtenWord {fs : List FieldDesc} {f : FieldDesc} (hLaid : laidOut fs) (hf : f ∈ fs) (old value hwSet : Word) :
    fieldOf (writtenWord fs old value hwSet) f.lo f.width = writtenField f old value hwSet :=
  (fieldOf_withFields_mem (v := fun f => writtenField f old value hwSet) 0 hLaid hf).trans
    (Nat.mod_eq_of_lt (writtenField_lt old value hwSet))

/-- Settles O9: a written field by its access type; no other field of its register reaches it. -/
theorem fieldAfterWrite : Obligations.FieldAfterWrite := by
  intro d hd f hf old value hwSet
  have hLaid := regTable_laidOut hd
  have hWord (w : Word) := ofNat_fieldOf_toNat (w := w) (hLaid.1 f hf)
  rw [fieldOf_writtenWord hLaid hf, writtenField]
  cases f.access with
  | rw => exact hWord value
  | ro => exact hWord old
  | rc => exact hWord old
  | w1c => rfl
  | w1s => rfl
  | wo => rfl

/-! ### A read that clears (R583) -/

theorem clearedWord_eq_withFields (fs : List FieldDesc) (old counted : Word) : clearedWord fs old counted =
    withFields (fun f => fieldOf counted f.lo f.width) (fs.filter fun f => f.access = .rc) old := by
  simp only [clearedWord, withFields, List.foldl_filter, decide_eq_true_eq]

/-- A cleared field keeps what was counted in the same cycle. -/
theorem fieldOf_clearedWord_rc {fs : List FieldDesc} {f : FieldDesc} (hLaid : laidOut fs) (hf : f ∈ fs) (hRc : f.access = .rc)
    (old counted : Word) : fieldOf (clearedWord fs old counted) f.lo f.width = fieldOf counted f.lo f.width := by
  rw [clearedWord_eq_withFields,
    fieldOf_withFields_mem old (laidOut_filter _ hLaid) (List.mem_filter.2 ⟨hf, decide_eq_true hRc⟩)]
  exact Nat.mod_eq_of_lt (fieldOf_lt counted f.lo f.width)

/-- A field that a read does not clear stays. -/
theorem fieldOf_clearedWord_ne {fs : List FieldDesc} {f : FieldDesc} (hLaid : laidOut fs) (hf : f ∈ fs) (hRc : f.access ≠ .rc)
    (old counted : Word) : fieldOf (clearedWord fs old counted) f.lo f.width = fieldOf old f.lo f.width := by
  rw [clearedWord_eq_withFields]
  refine fieldOf_withFields_apart old (laidOut_filter _ hLaid).1 fun g hg => ?_
  obtain ⟨hg, hCleared⟩ := List.mem_filter.1 hg
  exact laidOut_apart hLaid hf hg fun hSame => hRc (hSame ▸ of_decide_eq_true hCleared)

/-- A read of a register of the map answers its value and clears its rc fields. -/
theorem registerRead_row {s : State} {who : Accessor} {addr counted : Word} {idx : Nat} {d : RegDesc}
    (hTarget : regTarget s ⟨who, .mgmt, addr, 4⟩ = .mgmt addr.toNat (some idx)) (hPlain : addr.toNat ≠ 0xE000034)
    (hRow : regRow addr.toNat = some d) : registerRead s ⟨who, .mgmt, addr, 4⟩ counted =
      clearRc (emit s (.regData who .mgmt addr.toNat (viewMgmt s who addr.toNat idx))) addr.toNat idx counted := by
  rw [registerRead_mgmt hTarget hPlain, sendValue, readValue, hRow, Option.isSome_some, if_pos rfl]

/-- Settles O13: the read by its rule, and each field of the cleared word by whether it is an rc field. -/
theorem rcReadLosesNoCount : Obligations.RcReadLosesNoCount := by
  refine ⟨fun s who addr counted idx d hTarget hPlain hRow => ?read, fun d hd f hf old counted => ?field⟩
  case read => rw [exec_rcFieldRead, registerRead_row hTarget hPlain hRow]
  case field =>
    have hLaid := regTable_laidOut hd
    by_cases hRc : f.access = .rc
    · rw [if_pos hRc, fieldOf_clearedWord_rc hLaid hf hRc]
    · rw [if_neg hRc, fieldOf_clearedWord_ne hLaid hf hRc]

end Sys2Proof.Machine
end
